-- ==== Sys2Proof/Word.lean ====
section
/-!
DEFINITION. The word types of the model. Registers and memory words are little-endian, bit 0 least significant (R4).
-/

namespace Sys2Proof

/-- One byte. -/
abbrev Byte := BitVec 8
/-- A 32-bit register or memory word (R7). -/
abbrev W32 := BitVec 32
/-- A 64-bit register pair, address or orrery scalar register. -/
abbrev W64 := BitVec 64

end Sys2Proof
end

