-- ==== Sys2Proof/Frame.lean ====
section
/-!
DEFINITION. The frames of the fabric and the other plain types that commands carry: the ZFL frame of R109 to R112,
requesters of R420 and transports of R364.
-/

namespace Sys2Proof

/-- A fabric port p, 0 to 511 (R26). -/
abbrev Port := BitVec 9
/-- A node number (R17); a switch address in a frame lies in its low 11 bits (R18). -/
abbrev Node := BitVec 17
/-- A time stamp: 64-bit FT with a 16-bit fraction (R37). -/
abbrev Stamp := BitVec 80

/-- One ZFL frame (Tables 5-2, 5-3 and 5-4). The header CRC and the trailer are not held: a frame in which one of
them fails is a command of its own (HOP_ERROR, STOMPED_FRAME, TRAILER_FAIL_AFTER_DISPATCH). Reserved bits are not held. -/
structure Frame where
  ftype : BitVec 4 := 0
  vc : BitVec 3 := 0
  dclass : Bool := false
  dnode : Node := 0
  hops : BitVec 4 := 0
  sideband : Bool := false
  snode : Node := 0
  partition : BitVec 12 := 0
  seq : BitVec 24 := 0
  opcode : BitVec 8 := 0
  flags : BitVec 8 := 0
  epoch : BitVec 8 := 0
  w4 : W32 := 0
  w5 : W32 := 0
  w6 : W32 := 0
  w7 : W32 := 0
  w8 : W32 := 0
  crVc : BitVec 3 := 0
  crValid : Bool := false
  crLimit : BitVec 24 := 0
  lseq : BitVec 15 := 0
  sequenced : Bool := false
  ackLseq : BitVec 15 := 0
  /-- The scale sidebands, 8 bytes per line, present when `sideband` is set (R198). -/
  scales : List Byte := []
  payload : List Byte := []
  deriving DecidableEq, Repr

/-- The five requesters of BAR0 (R420). -/
inductive Requester where
  | host | oob | fabric | mailbox | i3c
  deriving DecidableEq, Repr

/-- The three transports of Archivist commands (R364). -/
inductive Transport where
  /-- The CXL primary mailbox. -/
  | mailbox
  /-- The out-of-band port (R375): the requester's MAC address and the frame's tag. -/
  | oob (mac : BitVec 48) (tag : BitVec 16)
  /-- A fabric MGMT frame with opcode 0x80 ARCH_CMD (R364, R351): its port, source, sw_src flag and tag. -/
  | fabric (port : Port) (snode : Node) (swSrc : Bool) (tag : BitVec 16)
  deriving DecidableEq, Repr

/-- The memories that lattice parity protects, by what an uncorrectable word in them means (Table 7-2). -/
inductive SramMem where
  | ingressBuffer | reseqWindow | replayStore | configTable | catalogue (node : Node)
  deriving DecidableEq, Repr

/-- The checks of a cell that reaches its destination (R155, R161): its ccrc, after an SRAM word read on its way
with its stored parities, if one needs looking at. -/
inductive CellCheck where
  | good
  | ccrcFail
  | sram (mem : SramMem) (w : BitVec 256) (rowPar colPar : BitVec 16)
  deriving DecidableEq, Repr

/-- One finding of the buffer auditor (R172), by pool and index. -/
inductive AuditFinding where
  | freeUnlisted (pool : BitVec 3) (index : BitVec 21)
  | allocatedListed (pool : BitVec 3) (index : BitVec 21)
  | unreferenced (pool : BitVec 3) (index : BitVec 21)
  deriving DecidableEq, Repr

/-- What one heater update measures: the lock loop's output, the feed-forward term, the pilot dither, and the size of
the ring's detuning in units of 100 MHz (R65, R67, R71). -/
structure HeaterInput where
  loop : Int
  feedForward : Int
  dither : Int
  detuning : Nat
  deriving DecidableEq, Repr

/-- One power sample of a line (R63, R73 to R76): transmit and receive power and the averages, in 0.01 dBm, the 10 s
averages of 60 s earlier, the receive margin in 0.01 dB, and whether the comb line is more than 6.0 dB low at this
engine's tap. -/
structure PowerReading where
  tx : Int
  rx : Int
  avg10Tx : Int
  avg10Rx : Int
  agoTx : Int
  agoRx : Int
  fastTx : Int
  fastRx : Int
  margin : Int
  combLow : Bool
  deriving DecidableEq, Repr

/-- What the calibration of an engine found (R72, R75, R84, R85): the comb present, the rings locked, the heaters
inside the window of R72, the receive lines below 3.5 dB of margin, the comb lines 6 dB low, and the matrix identified when
the folio holds none (entries by 36 i + j). -/
structure CalResult where
  laserOk : Bool
  locked : BitVec 36
  inWindow : BitVec 36
  lowMargin : BitVec 18
  combLow : BitVec 18
  matrix : List (Nat × Int)
  deriving DecidableEq, Repr

/-- Faults of a tile's data path at one lane while a contribution line is added (R211 to R213): an error of the
converter's output, a change of the stored lane, and errors of the two adders' outputs (for the operations under duplicate
check, a non-zero value is a disagreement of the two units). `audit` names the audit tile's side of an audited segment. -/
structure AddFault where
  audit : Bool := false
  line : Nat
  elem : Nat
  conv : Int := 0
  stored : W64 := 0
  first : W64 := 0
  second : W64 := 0
  deriving DecidableEq, Repr

/-- What the stack channel meets on an access (R263, R267): words corrected by the word code, the first word of the
access (from its first word) that the word code cannot correct, and how often in a row the engine's two units
disagree on the step. -/
structure ChannelIo where
  corrected : Nat := 0
  failed : Option (BitVec 6) := none
  disagree : Nat := 0
  deriving DecidableEq, Repr

/-- What a PMU counter counts (R414, R415): an event of Table 19-1 with its index and VC, or a slot ledger class of
a pipeline (0 to 31) or an orrery core (32 + c). -/
inductive PmuSource where
  | event (block event : BitVec 8) (index : BitVec 10) (vc : Option (BitVec 3))
  | ledger (element : BitVec 9) (cls : BitVec 3)
  deriving DecidableEq, Repr

end Sys2Proof
end

