-- ==== Sys2Proof/Syntax.lean ====
section
/-!
DEFINITION. The commands of the block: one constructor per row of spec/opcode_table.json, in the table's order. A
command's operands are what comes with the event from outside: a received frame, a written value, a measured
stamp, power or temperature, the port or element concerned.
-/

namespace Sys2Proof

/-- The commands the block takes. Each docstring names the row of the table and its rule. -/
inductive Instr where
  /-- REGISTER_WRITE (R7): a write of `size` bytes at a BAR0 offset by a requester. -/
  | registerWrite (r : Requester) (off : BitVec 29) (size : BitVec 4) (value : W32)
  /-- LOW_WORD_READ (R8): a read of the low word of a 64-bit register. -/
  | lowWordRead (r : Requester) (off : BitVec 29)
  /-- HIGH_WORD_WRITE (R8): a write to the high word of a 64-bit register. -/
  | highWordWrite (r : Requester) (off : BitVec 29) (value : W32)
  /-- CLEAR_ON_READ (R10): a read of a register with rc fields. -/
  | clearOnRead (r : Requester) (off : BitVec 29)
  /-- TIME_SYNC (R48): received on a port, with its receive stamp. -/
  | timeSync (p : Port) (f : Frame) (tRx : Stamp)
  /-- PDELAY_REQ (R42): received on a port, with its receive stamp. -/
  | pdelayReq (p : Port) (f : Frame) (tRx : Stamp)
  /-- PDELAY_RESP (R42): received on a port, with its receive stamp t4. -/
  | pdelayResp (p : Port) (f : Frame) (tRx : Stamp)
  /-- TIME_FRAME_BAD_OPCODE (R39). -/
  | timeFrameBadOpcode (p : Port) (f : Frame)
  /-- PDELAY_EXCHANGE_START (R42): an EPH_PDELAY_INTERVAL has passed. -/
  | pdelayExchangeStart
  /-- PDELAY_RESP_LOST (R42). -/
  | pdelayRespLost (p : Port)
  /-- SYNC_INTERVAL_EXPIRY (R44). -/
  | syncIntervalExpiry
  /-- PARENT_SYNC_LOST (R45). -/
  | parentSyncLost (p : Port)
  /-- HOLDOVER_ENTRY (R49). -/
  | holdoverEntry
  /-- EXPIRED_ENTRY (R49). -/
  | expiredEntry
  /-- PPS_IN_EDGE (R46): with the capture's stamp. -/
  | ppsInEdge (capture : Stamp)
  /-- PPS_IN_MISSING (R46). -/
  | ppsInMissing
  /-- PULSE_ARM (R56): the word written to EPH_PULSE_CTLn. -/
  | pulseArm (n : BitVec 2) (value : W32)
  /-- PULSE_LEADING_EDGE (R55). -/
  | pulseLeadingEdge (n : BitVec 2)
  /-- PULSE_TRAILING_EDGE (R55). -/
  | pulseTrailingEdge (n : BitVec 2)
  /-- PULSE_MISSED (R56). -/
  | pulseMissed (n : BitVec 2)
  /-- ACTIVATION_FIRE (R58): every pending activation whose time has come. -/
  | activationFire
  /-- HEATER_UPDATE (R65): per heater, the loop output, feed-forward term, pilot dither and detuning (100 MHz); and
  the four substrate sensors (0.01 C). -/
  | heaterUpdate (f : BitVec 5) (inputs : List HeaterInput) (temps : List Int)
  /-- XT_REFRESH_PERIOD_END (R66): the measured residuals r[i][j] in Q1.15, row by row. -/
  | xtRefreshPeriodEnd (f : BitVec 5) (residuals : List Int)
  /-- XT_SWAP (R66): the word written to OPT_XT_CTL. -/
  | xtSwap (f : BitVec 5) (value : W32)
  /-- LINE_LOCK_LOST (R68): line n of engine f. -/
  | lineLockLost (f : BitVec 5) (n : BitVec 5)
  /-- LINE_LOCK_REGAINED (R68). -/
  | lineLockRegained (f : BitVec 5) (n : BitVec 5)
  /-- LANE_HOLD_LIMIT (R69). -/
  | laneHoldLimit (p : Port)
  /-- LINE_POWER_SAMPLE (R73): the readings of line n of engine f. -/
  | linePowerSample (f : BitVec 5) (n : BitVec 5) (r : PowerReading)
  /-- LANE_MOVE_REQ (R76): received on a port. -/
  | laneMoveReq (p : Port) (f : Frame)
  /-- CUTOVER_START (R77): the first waiting trigger of an engine is served. -/
  | cutoverStart (f : BitVec 5)
  /-- LANE_ACK (R77): received on a port. -/
  | laneAck (p : Port) (f : Frame)
  /-- LANE_READY (R77): received on a port. -/
  | laneReady (p : Port) (f : Frame)
  /-- SPARE_RECEIVER_ALIGNED (R77): the device's receiver on the new line is locked and aligned. -/
  | spareReceiverAligned (f : BitVec 5)
  /-- LANE_READY_DEADLINE (R81). -/
  | laneReadyDeadline (f : BitVec 5)
  /-- T_SWITCH (R79). -/
  | tSwitch (f : BitVec 5) (cwCount : BitVec 10)
  /-- LANE_MARK (R123): received on a port. -/
  | laneMark (p : Port) (f : Frame)
  /-- OLD_LINE_RELEASE (R80). -/
  | oldLineRelease (f : BitVec 5)
  /-- LANE_ABORT (R81): received on a port. -/
  | laneAbort (p : Port) (f : Frame)
  /-- CUTOVER_RETRY (R81): a second after an abort, with whether the fade rule still holds. -/
  | cutoverRetry (f : BitVec 5) (n : BitVec 5) (fadeHolds : Bool)
  /-- OPT_LANE_MOVE_GO (R83): the word written to OPT_LANE_MOVE. -/
  | optLaneMoveGo (f : BitVec 5) (value : W32)
  /-- OPT_LANE_RESTORE (R83): the word written to OPT_LANE_MOVE. -/
  | optLaneRestore (f : BitVec 5) (value : W32)
  /-- CALIBRATION_DONE (R84): what the calibration of an engine found. -/
  | calibrationDone (f : BitVec 5) (r : CalResult)
  /-- OPT_RECAL (R84): the word written to OPT_CTL, and the rings the repeated search locks. -/
  | optRecal (f : BitVec 5) (value : W32) (locks : BitVec 36)
  /-- PERM_WORD_WRITE (R89): word w of permutation i. -/
  | permWordWrite (ix : BitVec 12) (w : BitVec 3) (value : W32)
  /-- PERM_COMMIT (R89): the word written to TRN_PERM_COMMIT. -/
  | permCommit (value : W32)
  /-- CAL_SHADOW_ENTRY_STORE (R91): word 7 written for shadow entry e. -/
  | calShadowEntryStore (e : BitVec 12) (value : W32)
  /-- TRN_CAL_ARM (R57): the word written to TRN_CAL_ACT_STATUS. -/
  | trnCalArm (value : W32)
  /-- TRN_CAL_CANCEL (R57): the word written to TRN_CAL_ACT_STATUS. -/
  | trnCalCancel (value : W32)
  /-- CAL_ENTRY_BOUNDARY (R93). -/
  | calEntryBoundary
  /-- TRANSIT_ELECTRICAL_RESUME (R93). -/
  | transitElectricalResume
  /-- ELEMENT_BIAS_UPDATE (R97): element e of plane c, the leakage read (0.01 dB) and the new bias. -/
  | elementBiasUpdate (c : BitVec 5) (e : BitVec 8) (leakage : Int) (bias : Int)
  /-- ELEMENT_LOCK_LOST (R97). -/
  | elementLockLost (c : BitVec 5) (e : BitVec 8)
  /-- ELEMENT_LOCKED (R97). -/
  | elementLocked (c : BitVec 5) (e : BitVec 8)
  /-- PLANE_FAILED (R98). -/
  | planeFailed (c : BitVec 5) (e : BitVec 8)
  /-- ELEMENT_LOCK_RETRY (R98): the search of an element of a FAILED plane, and whether it finds the lock. -/
  | elementLockRetry (c : BitVec 5) (e : BitVec 8) (found : Bool)
  /-- TRN_RECAL (R98): the word written to TRN_CTL, and the elements of the plane the search locks. -/
  | trnRecal (value : W32) (found : BitVec 144)
  /-- TRANSIT_SUSPEND_T_FROM (R99). -/
  | transitSuspendTFrom
  /-- TRANSIT_RESUME_T_FROM (R100). -/
  | transitResumeTFrom
  /-- UMBRA_SNAP (R104): the word written to TRN_UMBRA_CTL. -/
  | umbraSnap (value : W32)
  /-- UMBRA_RELEASE (R105): the word written to TRN_UMBRA_CTL. -/
  | umbraRelease (value : W32)
  /-- UMBRA_MAP_WRITE_DONE (R103). -/
  | umbraMapWriteDone
  /-- HELLO (R113): received on a port. -/
  | hello (p : Port) (f : Frame)
  /-- HELLO_INTERVAL (R113): 10 us have passed on a port. -/
  | helloInterval (p : Port)
  /-- CREDIT (R120): received on a port. -/
  | credit (p : Port) (f : Frame)
  /-- CREDIT_PUBLISH (R120). -/
  | creditPublish (p : Port)
  /-- ACK (R114): received on a port. -/
  | ack (p : Port) (f : Frame)
  /-- ACK_DELAY_EXPIRY (R114). -/
  | ackDelayExpiry (p : Port)
  /-- RETRY_REQ (R116): received on a port. -/
  | retryReq (p : Port) (f : Frame)
  /-- HOP_ERROR (R115): with the cause of Table 5-7 (1 hcrc, 2 uncorrectable, 3 trailer, 4 lseq gap). -/
  | hopError (p : Port) (cause : BitVec 8)
  /-- RETRY_REQ_TIMEOUT (R115). -/
  | retryReqTimeout (p : Port)
  /-- ACK_TIMEOUT (R116). -/
  | ackTimeout (p : Port)
  /-- RETRY_EXHAUSTED (R116). -/
  | retryExhausted (p : Port)
  /-- LINK_CTL_BAD_OPCODE (R123). -/
  | linkCtlBadOpcode (p : Port) (f : Frame)
  /-- TRAINING_START (R113): FEC alignment is found on a port. -/
  | trainingStart (p : Port)
  /-- TRAIN_TIMEOUT (R113). -/
  | trainTimeout (p : Port)
  /-- TRAIN_RETRY (R113). -/
  | trainRetry (p : Port)
  /-- PORT_EN_CLEAR (R113): the word written to LNK_CTL, with port_en 0. -/
  | portEnClear (p : Port) (value : W32)
  /-- ALIGN_LOST (R118): FEC alignment has been lost for more than 1 us. -/
  | alignLost (p : Port)
  /-- LNK_FENCE_WRITE (R128): the word written. -/
  | lnkFenceWrite (p : Port) (value : W32)
  /-- LNK_CREDIT_GRANT_WRITE (R167): the word written to the grant of a VC. -/
  | lnkCreditGrantWrite (p : Port) (vc : BitVec 3) (value : W32)
  /-- PORT_RESET (R129): the word written to LNK_CTL, with port_reset 1. -/
  | portReset (p : Port) (value : W32)
  /-- TRAILER_FAIL_AFTER_DISPATCH (R164): the frame received on a port into a buffer ends with a bad trailer. -/
  | trailerFailAfterDispatch (p : Port) (buf : Nat)
  /-- ANNOUNCE (R136): received on a port. -/
  | announce (p : Port) (f : Frame)
  /-- CATALOGUE_SWEEP (R138). -/
  | catalogueSweep
  /-- CAT_REHASH_GO (R140): the word written to FWD_CAT_REHASH. -/
  | catRehashGo (value : W32)
  /-- CAT_REHASH_DONE (R140). -/
  | catRehashDone
  /-- CAT_QUERY (R141): the word written to FWD_CAT_CMD. -/
  | catQuery (value : W32)
  /-- CAT_INSTALL (R141): the word written to FWD_CAT_CMD. -/
  | catInstall (value : W32)
  /-- CAT_REMOVE (R141): the word written to FWD_CAT_CMD. -/
  | catRemove (value : W32)
  /-- CAT_UNFREEZE (R141): the word written to FWD_CAT_CMD. -/
  | catUnfreeze (value : W32)
  /-- IDX_QUERY_GO (R144): the word written to FWD_IDX_QUERY_CTL. -/
  | idxQueryGo (value : W32)
  /-- MC_COMMIT (R147): the word written to FWD_MC_COMMIT. -/
  | mcCommit (value : W32)
  /-- MC_LOAD (R147): the word written to FWD_MC_COMMIT. -/
  | mcLoad (value : W32)
  /-- BULK (R131, R189): received on a port with its ingress stamp. -/
  | bulk (p : Port) (f : Frame) (tIn : Stamp)
  /-- BEST_EFFORT (R190): received on a port with its ingress stamp. -/
  | bestEffort (p : Port) (f : Frame) (tIn : Stamp)
  /-- MGMT_FORWARD (R131): a MGMT frame with dclass 0 received on a port with its ingress stamp. -/
  | mgmtForward (p : Port) (f : Frame) (tIn : Stamp)
  /-- RESULT_FROM_LEAF (R130): a RESULT or MCAST frame received on a port. -/
  | resultFromLeaf (p : Port) (f : Frame)
  /-- CELL_ARRIVAL (R163): a cell of a buffer reaches an egress port, with the outcome of its checks. -/
  | cellArrival (buf : Nat) (port : Port) (cell : BitVec 8) (check : CellCheck)
  /-- RESEQ_TIMEOUT (R159): a missing cell of a buffer at an egress port. -/
  | reseqTimeout (buf : Nat) (port : Port) (cell : BitVec 8)
  /-- CELL_RETRY_EXHAUSTED (R159). -/
  | cellRetryExhausted (buf : Nat) (port : Port) (cell : BitVec 8)
  /-- EGRESS_UNDERRUN (R160). -/
  | egressUnderrun (buf : Nat) (port : Port)
  /-- WITHHOLD_EVALUATE (R169). -/
  | withholdEvaluate (die : BitVec 2)
  /-- BUFFER_AUDIT (R172): what the walk of a die's buffers finds beside the free lists and references. -/
  | bufferAudit (die : BitVec 2) (findings : List AuditFinding)
  /-- SPILL_DELAY_EXPIRY (R173). -/
  | spillDelayExpiry (buf : Nat)
  /-- SPILL_RATE_CHECK (R174). -/
  | spillRateCheck (die : BitVec 2)
  /-- MIRROR_ENABLE (R175): the word written to CORE_MIR_CTLn. -/
  | mirrorEnable (n : BitVec 2) (value : W32)
  /-- ORIGIN_BUFFER_AVAILABLE (R168). -/
  | originBufferAvailable
  /-- EGRESS_ARBITRATE (R178): a port's transmitter is free; a frame begun now has this transmit stamp. -/
  | egressArbitrate (p : Port) (tOut : Stamp)
  /-- VC_WEIGHT_WRITE (R180): the word written to SCH_VC_WEIGHT_A (0) or B (1). -/
  | vcWeightWrite (b : Bool) (value : W32)
  /-- GATE_SHADOW_ENTRY_STORE (R182): word 1 written for a shadow entry of a port. -/
  | gateShadowEntryStore (p : Port) (e : BitVec 8) (value : W32)
  /-- SCH_GATE_ARM (R57): the word written to SCH_GATE_ACT_STATUS. -/
  | schGateArm (p : Port) (value : W32)
  /-- SCH_GATE_CANCEL (R57): the word written to SCH_GATE_ACT_STATUS. -/
  | schGateCancel (p : Port) (value : W32)
  /-- GATE_ENTRY_BOUNDARY (R182). -/
  | gateEntryBoundary (p : Port)
  /-- GATE_STARVE (R184): the head frame of a VC has been held by its gate for this time, in FT. -/
  | gateStarve (p : Port) (vc : BitVec 3) (waited : BitVec 64)
  /-- METER_REFILL_TICK (R186). -/
  | meterRefillTick
  /-- METER_CONFIG_WRITE (R185): a word written to a meter profile, node profile, partition meter or the VC7 policer. -/
  | meterConfigWrite (off : BitVec 29) (value : W32)
  /-- GROUP_REC (R351): a MGMT frame with a group record received on a port; `ok`: its cells reached the hub die. -/
  | groupRec (p : Port) (f : Frame) (ok : Bool)
  /-- CFGQ_ADMISSION (R220). -/
  | cfgqAdmission
  /-- CFGQ_TEARDOWN (R223). -/
  | cfgqTeardown
  /-- GROUP_DRAINED (R223). -/
  | groupDrained (g : BitVec 14)
  /-- BEGIN (R226): received on a port; `ok`: its cells reached the tile, else it is a data error (R163). -/
  | collBegin (p : Port) (f : Frame) (ok : Bool)
  /-- CONTRIB_DATA (R232): received on a port; `ok` as for BEGIN, the faults its adds meet, what the channel of a
  path-1 region meets, and whether the audit tile is later than the primary (R329). -/
  | contribData (p : Port) (f : Frame) (ok : Bool) (faults : List AddFault) (io : ChannelIo) (auditLate : Bool)
  /-- EXP (R233): received on a port. -/
  | exp (p : Port) (f : Frame) (ok : Bool)
  /-- ABORT_REQ (R246): received on a port. -/
  | abortReq (p : Port) (f : Frame) (ok : Bool)
  /-- SEGMENT_SLOTS_AVAILABLE (R232): a segment of a collective. -/
  | segmentSlotsAvailable (g : BitVec 14) (cseq : BitVec 16) (seg : BitVec 24)
  /-- SIGNATURE_COLLECT_END (R230). -/
  | signatureCollectEnd (g : BitVec 14) (cseq : BitVec 16)
  /-- RESEND_TIMEOUT (R234). -/
  | resendTimeout (g : BitVec 14) (cseq : BitVec 16)
  /-- DEFERRAL_RESEND (R236). -/
  | deferralResend (g : BitVec 14)
  /-- COLLECTIVE_TIMEOUT (R237). -/
  | collectiveTimeout (g : BitVec 14) (cseq : BitVec 16)
  /-- SEGMENT_DONE (R232). -/
  | segmentDone (g : BitVec 14) (cseq : BitVec 16) (seg : BitVec 24)
  /-- TILE_MOVE_COMPLETE (R214): the spare of a global tile's die takes its place. -/
  | tileMoveComplete (t : BitVec 6)
  /-- CLEAR (R261): region, first line and count. -/
  | clear (r : BitVec 12) (line count : BitVec 30) (io : ChannelIo)
  /-- SET_A (R261): region, line and the eight values. -/
  | setA (r : BitVec 12) (line : BitVec 30) (a : List Int) (io : ChannelIo)
  /-- ACCESSION_ADD (R262): the requester's partition, the line's format, its bytes and sideband. -/
  | accessionAdd (r : BitVec 12) (line : BitVec 30) (part : BitVec 12) (fmt : BitVec 3) (data scales : List Byte)
      (io : ChannelIo)
  /-- MERGE (R261): as ADD. -/
  | merge (r : BitVec 12) (line : BitVec 30) (part : BitVec 12) (fmt : BitVec 3) (data scales : List Byte)
      (io : ChannelIo)
  /-- READ_LANES (R261). -/
  | readLanes (r : BitVec 12) (line : BitVec 30) (io : ChannelIo)
  /-- WRITE_LANES (R261). -/
  | writeLanes (r : BitVec 12) (line : BitVec 30) (lanes : List W64) (io : ChannelIo)
  /-- READ_FMT (R261). -/
  | readFmt (r : BitVec 12) (line : BitVec 30) (io : ChannelIo)
  /-- ACCESSION_ATOMIC (R278): the DPA of an 8-byte word, the sub-op of Table 12-3 and its operands. -/
  | accessionAtomic (dpa : BitVec 40) (sub : BitVec 8) (b c : W64) (io : ChannelIo)
  /-- PAGE_MEND_DONE (R267): the page of a DPA, and whether the page code mends it. -/
  | pageMendDone (dpa : BitVec 40) (ok : Bool)
  /-- LB_LEAK (R270). -/
  | lbLeak
  /-- ENGINE_RESTORE (R263): the word written to STK_ENGs_c. -/
  | engineRestore (st : BitVec 4) (c : BitVec 5) (value : W32)
  /-- REGION_INSTALL (R259): the word written to STK_REGION_CMD. -/
  | regionInstall (value : W32)
  /-- REGION_REMOVE (R259): the word written to STK_REGION_CMD. -/
  | regionRemove (value : W32)
  /-- REGION_CLEAR_ALL (R259): the word written to STK_REGION_CMD. -/
  | regionClearAll (value : W32)
  /-- REGION_CLEAR_DONE (R259). -/
  | regionClearDone (r : BitVec 12)
  /-- ZERO_FILL_DONE (R273). -/
  | zeroFillDone
  /-- APERTURE_READ (R256): a read of so many bytes at an offset of STK_APERTURE. -/
  | apertureRead (r : Requester) (off : BitVec 24) (size : BitVec 4) (io : ChannelIo)
  /-- LOAD (R274): received on a port with its ingress stamp; `ok`: its cells reached the memory-and-orrery unit, else
  it is a data error (R163); and what the stack channel meets. -/
  | load (p : Port) (f : Frame) (tIn : Stamp) (ok : Bool) (io : ChannelIo)
  /-- STORE (R276): as LOAD. -/
  | store (p : Port) (f : Frame) (tIn : Stamp) (ok : Bool) (io : ChannelIo)
  /-- STORE_MCAST (R281): as LOAD. -/
  | storeMcast (p : Port) (f : Frame) (tIn : Stamp) (ok : Bool)
  /-- ATOMIC (R278): as LOAD. -/
  | atomic (p : Port) (f : Frame) (tIn : Stamp) (ok : Bool) (io : ChannelIo)
  /-- REDUCE_INTO (R279): as LOAD. -/
  | reduceInto (p : Port) (f : Frame) (tIn : Stamp) (ok : Bool) (io : ChannelIo)
  /-- MEM_FENCE (R283): as LOAD. -/
  | memFence (p : Port) (f : Frame) (tIn : Stamp) (ok : Bool)
  /-- MEM_REQ_PASS_THROUGH (R131): a MEM_REQ with dclass 0 received on a port with its ingress stamp. -/
  | memReqPassThrough (p : Port) (f : Frame) (tIn : Stamp)
  /-- MEM_RSP_FORWARD (R131): a MEM_RSP with dclass 0 received on a port with its ingress stamp. -/
  | memRspForward (p : Port) (f : Frame) (tIn : Stamp)
  /-- MEM_RSP_TO_SPINE (R292): a MEM_RSP with dclass 1 received on a port. -/
  | memRspToSpine (p : Port) (f : Frame) (ok : Bool)
  /-- STACK_WRITE_ACCEPTED (R276): channel 32 s + c accepts the oldest write it holds. -/
  | stackWriteAccepted (ch : BitVec 9)
  /-- FENCE_ANSWERED (R283): the waiting FENCE with a serial number. -/
  | fenceAnswered (serial : Nat)
  /-- MCAST_UNREACHED_FINAL (R281): a STORE_MCAST operation by its serial number. -/
  | mcastUnreachedFinal (serial : Nat)
  /-- COMBINE_TRIGGER_CLEAR (R287). -/
  | combineTriggerClear
  /-- COMBINE_FLUSH (R289): an open entry, and what the stack channel meets. -/
  | combineFlush (id : Nat) (io : ChannelIo)
  /-- COMBINE_IDLE_CLOSE (R289): an open entry. -/
  | combineIdleClose (id : Nat)
  /-- COMBINE_RSP_TIMEOUT (R292): the merged request with this seq. -/
  | combineRspTimeout (seq : BitVec 24)
  /-- FILTER_RECORD_EXPIRY (R286): the records of a die. -/
  | filterRecordExpiry (die : BitVec 2)
  /-- ACCESS_ENTRY_WRITE (R277): the word written to word w of entry n. -/
  | accessEntryWrite (n : BitVec 8) (w : BitVec 2) (value : W32)
  /-- ADD (R303): issued for a thread. -/
  | oAdd (t : BitVec 14)
  /-- SUB (R303): issued for a thread. -/
  | oSub (t : BitVec 14)
  /-- AND (R303): issued for a thread. -/
  | oAnd (t : BitVec 14)
  /-- OR (R303): issued for a thread. -/
  | oOr (t : BitVec 14)
  /-- XOR (R303): issued for a thread. -/
  | oXor (t : BitVec 14)
  /-- SHL (R303): issued for a thread. -/
  | oShl (t : BitVec 14)
  /-- SHR (R303): issued for a thread. -/
  | oShr (t : BitVec 14)
  /-- SRA (R303): issued for a thread. -/
  | oSra (t : BitVec 14)
  /-- SLT (R303): issued for a thread. -/
  | oSlt (t : BitVec 14)
  /-- SLTU (R303): issued for a thread. -/
  | oSltu (t : BitVec 14)
  /-- MIN (R303): issued for a thread. -/
  | oMin (t : BitVec 14)
  /-- MAX (R303): issued for a thread. -/
  | oMax (t : BitVec 14)
  /-- MUL (R303): issued for a thread. -/
  | oMul (t : BitVec 14)
  /-- MULH (R303): issued for a thread. -/
  | oMulh (t : BitVec 14)
  /-- SRR (R303): issued for a thread. -/
  | oSrr (t : BitVec 14)
  /-- POPC (R303): issued for a thread. -/
  | oPopc (t : BitVec 14)
  /-- ADDI (R303): issued for a thread. -/
  | oAddi (t : BitVec 14)
  /-- ANDI (R303): issued for a thread. -/
  | oAndi (t : BitVec 14)
  /-- ORI (R303): issued for a thread. -/
  | oOri (t : BitVec 14)
  /-- XORI (R303): issued for a thread. -/
  | oXori (t : BitVec 14)
  /-- SHLI (R303): issued for a thread. -/
  | oShli (t : BitVec 14)
  /-- SHRI (R303): issued for a thread. -/
  | oShri (t : BitVec 14)
  /-- SRAI (R303): issued for a thread. -/
  | oSrai (t : BitVec 14)
  /-- SLTI (R303): issued for a thread. -/
  | oSlti (t : BitVec 14)
  /-- CONST (R303): issued for a thread. -/
  | oConst (t : BitVec 14)
  /-- CONSTH (R303): issued for a thread. -/
  | oConsth (t : BitVec 14)
  /-- AMO (R304): issued for a thread, with what the stack channel meets. -/
  | oAmo (t : BitVec 14) (io : ChannelIo)
  /-- TIME (R303): issued for a thread. -/
  | oTime (t : BitVec 14)
  /-- SELF (R303): issued for a thread. -/
  | oSelf (t : BitVec 14)
  /-- SETFAR (R303): issued for a thread. -/
  | oSetfar (t : BitVec 14)
  /-- BEQ (R303): issued for a thread. -/
  | oBeq (t : BitVec 14)
  /-- BNE (R303): issued for a thread. -/
  | oBne (t : BitVec 14)
  /-- BLT (R303): issued for a thread. -/
  | oBlt (t : BitVec 14)
  /-- BGE (R303): issued for a thread. -/
  | oBge (t : BitVec 14)
  /-- BLTU (R303): issued for a thread. -/
  | oBltu (t : BitVec 14)
  /-- BGEU (R303): issued for a thread. -/
  | oBgeu (t : BitVec 14)
  /-- JMP (R303): issued for a thread. -/
  | oJmp (t : BitVec 14)
  /-- JAL (R303): issued for a thread. -/
  | oJal (t : BitVec 14)
  /-- JR (R303): issued for a thread. -/
  | oJr (t : BitVec 14)
  /-- LD (R301): issued for a thread, with what the stack channel meets. -/
  | oLd (t : BitVec 14) (io : ChannelIo)
  /-- LW (R301): issued for a thread, with what the stack channel meets. -/
  | oLw (t : BitVec 14) (io : ChannelIo)
  /-- LH (R301): issued for a thread, with what the stack channel meets. -/
  | oLh (t : BitVec 14) (io : ChannelIo)
  /-- LBU (R301): issued for a thread, with what the stack channel meets. -/
  | oLbu (t : BitVec 14) (io : ChannelIo)
  /-- ST (R301): issued for a thread, with what the stack channel meets. -/
  | oSt (t : BitVec 14) (io : ChannelIo)
  /-- STW (R301): issued for a thread, with what the stack channel meets. -/
  | oStw (t : BitVec 14) (io : ChannelIo)
  /-- STH (R301): issued for a thread, with what the stack channel meets. -/
  | oSth (t : BitVec 14) (io : ChannelIo)
  /-- VLD (R304): issued for a thread, with what the stack channel meets. -/
  | oVld (t : BitVec 14) (io : ChannelIo)
  /-- VST (R304): issued for a thread, with what the stack channel meets. -/
  | oVst (t : BitVec 14) (io : ChannelIo)
  /-- VGATHER (R305): issued for a thread, with what the stack channel meets. -/
  | oVgather (t : BitVec 14) (io : ChannelIo)
  /-- VSCATTER (R305): issued for a thread, with what the stack channel meets. -/
  | oVscatter (t : BitVec 14) (io : ChannelIo)
  /-- VADD (R303): issued for a thread. -/
  | oVadd (t : BitVec 14)
  /-- VSUB (R303): issued for a thread. -/
  | oVsub (t : BitVec 14)
  /-- VAND (R303): issued for a thread. -/
  | oVand (t : BitVec 14)
  /-- VOR (R303): issued for a thread. -/
  | oVor (t : BitVec 14)
  /-- VXOR (R303): issued for a thread. -/
  | oVxor (t : BitVec 14)
  /-- VMIN (R303): issued for a thread. -/
  | oVmin (t : BitVec 14)
  /-- VMAX (R303): issued for a thread. -/
  | oVmax (t : BitVec 14)
  /-- VSHL (R303): issued for a thread. -/
  | oVshl (t : BitVec 14)
  /-- VSRA (R303): issued for a thread. -/
  | oVsra (t : BitVec 14)
  /-- VMUL (R303): issued for a thread. -/
  | oVmul (t : BitVec 14)
  /-- VMULQ (R303): issued for a thread. -/
  | oVmulq (t : BitVec 14)
  /-- VSRR (R303): issued for a thread. -/
  | oVsrr (t : BitVec 14)
  /-- VCLAMP (R303): issued for a thread. -/
  | oVclamp (t : BitVec 14)
  /-- VCLT (R303): issued for a thread. -/
  | oVclt (t : BitVec 14)
  /-- VCEQ (R303): issued for a thread. -/
  | oVceq (t : BitVec 14)
  /-- VCLE (R303): issued for a thread. -/
  | oVcle (t : BitVec 14)
  /-- VSEL (R303): issued for a thread. -/
  | oVsel (t : BitVec 14)
  /-- VRED (R303): issued for a thread. -/
  | oVred (t : BitVec 14)
  /-- VBCAST (R303): issued for a thread. -/
  | oVbcast (t : BitVec 14)
  /-- VGET (R303): issued for a thread. -/
  | oVget (t : BitVec 14)
  /-- VPUT (R303): issued for a thread. -/
  | oVput (t : BitVec 14)
  /-- MSET (R303): issued for a thread. -/
  | oMset (t : BitVec 14)
  /-- MGET (R303): issued for a thread. -/
  | oMget (t : BitVec 14)
  /-- POPM (R303): issued for a thread. -/
  | oPopm (t : BitVec 14)
  /-- MNOT (R303): issued for a thread. -/
  | oMnot (t : BitVec 14)
  /-- VSORT (R303): issued for a thread. -/
  | oVsort (t : BitVec 14)
  /-- WAIT (R306): issued for a thread. -/
  | oWait (t : BitVec 14)
  /-- WAIT_WAKE (R306): a waiting thread takes a token. -/
  | oWaitWake (t : BitVec 14)
  /-- RELEASE (R310): issued for a thread. -/
  | oRelease (t : BitVec 14)
  /-- POST (R307): issued for a thread. -/
  | oPost (t : BitVec 14)
  /-- FENCE (R301): issued for a thread. -/
  | oFence (t : BitVec 14)
  /-- HALT (R303): issued for a thread. -/
  | oHalt (t : BitVec 14)
  /-- FAULT (R315): issued for a thread. -/
  | oFault (t : BitVec 14)
  /-- TIMER (R307): issued for a thread. -/
  | oTimer (t : BitVec 14)
  /-- TIMER_TOKEN_FIRE (R307): a thread's oldest due timer. -/
  | timerTokenFire (t : BitVec 14)
  /-- TOKEN_QUEUE_ROOM (R308): the queue of a core. -/
  | tokenQueueRoom (c : BitVec 8)
  /-- BUDGET_EXCEEDED (R315): at a thread's next issue. -/
  | budgetExceeded (t : BitVec 14)
  /-- PROGRAM_SUSPEND (R316): program slot n. -/
  | programSuspend (n : BitVec 6)
  /-- ISSUE_WATCHDOG (R321): a ready thread has not issued for 16,384 cycles. -/
  | issueWatchdog (t : BitVec 14)
  /-- ORY_PROG_LOAD (R313): the word written to ORY_PROG_CMD. -/
  | oryProgLoad (value : W32)
  /-- PROGRAM_LOAD_DONE (R313). -/
  | programLoadDone
  /-- ORY_PROG_UNLOAD (R314): the word written to ORY_PROG_CMD. -/
  | oryProgUnload (value : W32)
  /-- UNLOAD_FORCE_STOP (R314): 1 ms after an unload began. -/
  | unloadForceStop
  /-- ORY_PROG_RESUME (R316): the word written to ORY_PROG_CMD. -/
  | oryProgResume (value : W32)
  /-- ALBEDO_INPUT (R321): input i of Table 14-2 for an element of a class. -/
  | albedoInput (cls : BitVec 3) (idx : BitVec 10) (inp : BitVec 5)
  /-- SCORE_RECOVERY (R321). -/
  | scoreRecovery
  /-- BUDGET_REFILL (R324): spare group g. -/
  | budgetRefill (g : BitVec 7)
  /-- EXPULSION_COMPLETE (R322): the action of an EXPELLING element ends. -/
  | expulsionComplete (cls : BitVec 3) (idx : BitVec 10)
  /-- BREAKER_CLEAR (R328): the word written to HLT_BREAKER. -/
  | breakerClear (value : W32)
  /-- ELEM_SCORE_RESET (R327): the word written to HLT_ELEM_CMD. -/
  | elemScoreReset (value : W32)
  /-- ELEM_RESTORE (R327): the word written to HLT_ELEM_CMD. -/
  | elemRestore (value : W32)
  /-- ELEM_EXPEL (R327): the word written to HLT_ELEM_CMD. -/
  | elemExpel (value : W32)
  /-- AUDIT_WAIT_EXPIRY (R329): a segment whose audit is awaited. -/
  | auditWaitExpiry (g : BitVec 14) (cseq : BitVec 16) (seg : BitVec 24)
  /-- GOVERNOR_RUN (R334): the 1 us sample of the six domains and of the package, in W, and the activity used in the
  last 16,000 FT in 640ths of full rate (R335), by die's tiles 0 to 3 and by stack's classes C2 and C3, 4 + s. -/
  | governorRun (dom : List Nat) (pkg : Nat) (used : List Nat)
  /-- POWER_CRIT (R334). -/
  | powerCrit
  /-- TEMPERATURE_READ (R336): the hottest junction of dies 0 to 3 and the hub, and the stacks, in 0.01 C. -/
  | temperatureRead (tj st : List Int)
  /-- THERMAL_CRIT (R336). -/
  | thermalCrit
  /-- THERMAL_CRIT_RELEASE (R336). -/
  | thermalCritRelease
  /-- THERMTRIP (R337). -/
  | thermtrip
  /-- FOLIO_APPLY (R343). -/
  | folioApply
  /-- CONFIG_FIELD_WRITE (R347): a 4-byte write to a configuration field. -/
  | configFieldWrite (r : Requester) (off : BitVec 29) (value : W32)
  /-- COLOPHON_RECOMPUTE_DONE (R346). -/
  | colophonRecomputeDone
  /-- CFG_AMEND_STAGE (R348): the word written to CFG_AMEND_CMD. -/
  | cfgAmendStage (value : W32)
  /-- CFG_AMEND_CANCEL (R350): the word written to CFG_AMEND_CMD. -/
  | cfgAmendCancel (value : W32)
  /-- AMEND_FRAG (R351): a MGMT frame received on a port; `ok`: its cells reached the hub die. -/
  | amendFrag (p : Port) (f : Frame) (ok : Bool)
  /-- MGMT_AMEND_CANCEL (R352): a MGMT frame received on a port. -/
  | mgmtAmendCancel (p : Port) (f : Frame) (ok : Bool)
  /-- MGMT_COLOPHON_QUERY (R353): a MGMT frame received on a port. -/
  | mgmtColophonQuery (p : Port) (f : Frame) (ok : Bool)
  /-- TRANSFER_IDLE_TIMEOUT (R351): transfers idle for 100 ms. -/
  | transferIdleTimeout
  /-- CHECK_UNIT_JOB (R355): the word written to CFG_CU_CTLu. -/
  | checkUnitJob (u : BitVec 5) (value : W32)
  /-- CHECK_UNIT_DONE (R355): whether the job met an uncorrectable word. -/
  | checkUnitDone (u : BitVec 5) (media : Bool)
  /-- IDENTIFY (R365): an Archivist command by a transport. -/
  | identify (tp : Transport)
  /-- BACKGROUND_OPERATION_STATUS (R365): an Archivist command by a transport. -/
  | backgroundOperationStatus (tp : Transport)
  /-- GET_EVENT_RECORDS (R365): an Archivist command by a transport, with its input bytes. -/
  | getEventRecords (tp : Transport) (input : List Byte)
  /-- CLEAR_EVENT_RECORDS (R365): an Archivist command by a transport, with its input bytes. -/
  | clearEventRecords (tp : Transport) (input : List Byte)
  /-- GET_EVENT_INTERRUPT_POLICY (R365): an Archivist command by a transport. -/
  | getEventInterruptPolicy (tp : Transport)
  /-- SET_EVENT_INTERRUPT_POLICY (R365): an Archivist command by a transport, with its input bytes. -/
  | setEventInterruptPolicy (tp : Transport) (input : List Byte)
  /-- GET_FW_INFO (R365): an Archivist command by a transport. -/
  | getFwInfo (tp : Transport)
  /-- TRANSFER_FW (R388): an Archivist command by a transport, with its input bytes. -/
  | transferFw (tp : Transport) (input : List Byte)
  /-- ACTIVATE_FW (R388): an Archivist command by a transport, with its input bytes. -/
  | activateFw (tp : Transport) (input : List Byte)
  /-- GET_TIMESTAMP (R365): an Archivist command by a transport. -/
  | getTimestamp (tp : Transport)
  /-- SET_TIMESTAMP (R365): an Archivist command by a transport, with its input bytes. -/
  | setTimestamp (tp : Transport) (input : List Byte)
  /-- GET_SUPPORTED_LOGS (R365): an Archivist command by a transport. -/
  | getSupportedLogs (tp : Transport)
  /-- GET_LOG (R365): an Archivist command by a transport, with its input bytes. -/
  | getLog (tp : Transport) (input : List Byte)
  /-- IDENTIFY_MEMORY_DEVICE (R360): an Archivist command by a transport. -/
  | identifyMemoryDevice (tp : Transport)
  /-- GET_HEALTH_INFO (R365): an Archivist command by a transport. -/
  | getHealthInfo (tp : Transport)
  /-- AMEND_TRANSFER (R366): an Archivist command by a transport, with its input bytes. -/
  | amendTransfer (tp : Transport) (input : List Byte)
  /-- AMEND_CANCEL (R350): an Archivist command by a transport. -/
  | amendCancel (tp : Transport)
  /-- GROUP_RECORD (R219): an Archivist command by a transport, with its input bytes. -/
  | groupRecord (tp : Transport) (input : List Byte)
  /-- COLOPHON_QUERY (R353): an Archivist command by a transport. -/
  | colophonQuery (tp : Transport)
  /-- PROGRAM_TRANSFER (R366): an Archivist command by a transport, with its input bytes. -/
  | programTransfer (tp : Transport) (input : List Byte)
  /-- PROGRAM_UNLOAD (R314): an Archivist command by a transport, with its input bytes. -/
  | programUnload (tp : Transport) (input : List Byte)
  /-- FOLIO_TRANSFER (R366): an Archivist command by a transport, with its input bytes. -/
  | folioTransfer (tp : Transport) (input : List Byte)
  /-- ALMANAC_READ (R373): an Archivist command by a transport, with its input bytes. -/
  | almanacRead (tp : Transport) (input : List Byte)
  /-- SUMMARY_READ (R374): an Archivist command by a transport, with its input bytes. -/
  | summaryRead (tp : Transport) (input : List Byte)
  /-- SENSOR_READ (R371): an Archivist command by a transport, with its input bytes. -/
  | sensorRead (tp : Transport) (input : List Byte)
  /-- REG_READ (R364): an Archivist command by a transport, with its input bytes. -/
  | regRead (tp : Transport) (input : List Byte)
  /-- REG_WRITE (R347): an Archivist command by a transport, with its input bytes. -/
  | regWrite (tp : Transport) (input : List Byte)
  /-- DEVICE_RESET (R400): an Archivist command by a transport, with its input bytes. -/
  | deviceReset (tp : Transport) (input : List Byte)
  /-- GLB_RESET_CMD (R399): the word written to GLB_RESET_CMD. -/
  | glbResetCmd (value : W32)
  /-- UNSUPPORTED_COMMAND (R365): a command by a transport that its class, the manager list or the recovery loader
  refuses, or whose opcode the tables do not hold. -/
  | unsupportedCommand (tp : Transport) (opcode : BitVec 16)
  /-- HDM_DECODER_COMMIT (R361): decoder n: base, size, ways, granularity, this device's position, first CXL DPA. -/
  | hdmDecoderCommit (n : BitVec 2) (base size : W64) (ways granularity position : Nat) (dpaBase : W64)
  /-- CXL_MEM_READ (R362): 64 bytes at a host address, and what the stack channel meets. -/
  | cxlMemRead (hpa : W64) (io : ChannelIo)
  /-- CXL_MEM_WRITE (R293): 64 bytes at a host address. -/
  | cxlMemWrite (hpa : W64) (data : List Byte) (io : ChannelIo)
  /-- CDAT_READ (R367): a DOE Table Access request. -/
  | cdatRead
  /-- INT_STATUS_WRITE (R368): a 4-byte write to a block's INT_STATUS. -/
  | intStatusWrite (r : Requester) (off : BitVec 29) (value : W32)
  /-- HOST_LINK_RESET (R369). -/
  | hostLinkReset
  /-- ARCHIVIST_WATCHDOG_LAPSE (R370). -/
  | archivistWatchdogLapse
  /-- SENSOR_SAMPLE (R371): the 640 junction readings in 0.01 C and the seven rail words. -/
  | sensorSample (tj : List Int) (rails : List W32)
  /-- ALMANAC_COPY (R373). -/
  | almanacCopy
  /-- SUMMARY_WRITE (R374). -/
  | summaryWrite
  /-- OOB_FRAME (R375): destination and source MAC, EtherType and the bytes after the Ethernet header. -/
  | oobFrame (dst src : BitVec 48) (etherType : BitVec 16) (body : List Byte)
  /-- ALERT_ACK (R376): the word written to GLB_CTL. -/
  | alertAck (value : W32)
  /-- OWNER_INSTALL (R384): the word written to SEC_OWNER_CMD. -/
  | ownerInstall (value : W32)
  /-- DEBUG_AUTHORIZATION (R392): the word written to SEC_OWNER_CMD. -/
  | debugAuthorization (value : W32)
  /-- GET_VERSION (R390): an SPDM request over DOE, as bytes. -/
  | getVersion (req : List Byte)
  /-- GET_CAPABILITIES (R390): an SPDM request over DOE, as bytes. -/
  | getCapabilities (req : List Byte)
  /-- NEGOTIATE_ALGORITHMS (R390): an SPDM request over DOE, as bytes. -/
  | negotiateAlgorithms (req : List Byte)
  /-- GET_DIGESTS (R390): an SPDM request over DOE, as bytes. -/
  | getDigests (req : List Byte)
  /-- GET_CERTIFICATE (R390): an SPDM request over DOE, as bytes. -/
  | getCertificate (req : List Byte)
  /-- CHALLENGE (R390): an SPDM request over DOE, as bytes. -/
  | challenge (req : List Byte)
  /-- GET_MEASUREMENTS (R391): an SPDM request over DOE, as bytes. -/
  | getMeasurements (req : List Byte)
  /-- SPDM_UNSUPPORTED_REQUEST (R390): an SPDM request over DOE, as bytes. -/
  | spdmUnsupportedRequest (req : List Byte)
  /-- FIRMWARE_VERIFY_DONE (R386). -/
  | firmwareVerifyDone
  /-- PORST_N_ASSERT (R399). -/
  | porstNAssert
  /-- PORST_N_DEASSERT (R398): with the energy the hold-up reserve stores, in mJ (R397). -/
  | porstNDeassert (reserve : Nat)
  /-- STACK_TRAINED (R398): the stacks whose interface trained. -/
  | stackTrained (ok : BitVec 12)
  /-- RESERVE_RECHECK (R397): the energy the hold-up reserve stores, in mJ. -/
  | reserveRecheck (reserve : Nat)
  /-- SUPPLY_LOSS (R405). -/
  | supplyLoss
  /-- VIN_LOW (R406). -/
  | vinLow
  /-- SUPPLY_RESTORED (R407): with the energy the hold-up reserve stores, in mJ (R397). -/
  | supplyRestored (reserve : Nat)
  /-- REFCLK_FAULT (R431). -/
  | refclkFault
  /-- PMU_FREEZE (R413): the word written to PMU_CTL. -/
  | pmuFreeze (value : W32)
  /-- PMU_COUNTER_WRITE (R412): a word written to the low or high word of a PMU counter at an offset. -/
  | pmuCounterWrite (off : BitVec 29) (value : W32)
  /-- PMU_COUNTER_OVERFLOW (R411): an event or slots that counters count, the amount, and for an orrery event the
  thread, program and pc of its sample (Table 19-3). -/
  | pmuCounterOverflow (src : PmuSource) (amount : Nat) (thread : Option (BitVec 14 × BitVec 16 × BitVec 15))
  /-- MALFORMED_FRAME (R112): received on a port. -/
  | malformedFrame (p : Port) (f : Frame)
  /-- STOMPED_FRAME (R117): received on a port. -/
  | stompedFrame (p : Port) (f : Frame)
  /-- UNCORRECTABLE_CODEWORD (R108): on a port. -/
  | uncorrectableCodeword (p : Port)
  /-- MEM_REQ_BAD_OPCODE (R274): a MEM_REQ to this spine's memory with a reserved opcode. -/
  | memReqBadOpcode (p : Port) (f : Frame) (tIn : Stamp) (ok : Bool)
  /-- ILLEGAL_INSTRUCTION (R302): issued for a thread. -/
  | illegalInstruction (t : BitVec 14)
  /-- FOLIO_VERIFY_DONE (R366). -/
  | folioVerifyDone
  /-- PERST_N_DEASSERT (R369): the width (Table 16-10), rate and MSI-X enable the host sets up. -/
  | perstNDeassert (width : BitVec 3) (rate : BitVec 2) (msix : Bool)
  deriving DecidableEq, Repr

end Sys2Proof
end

