-- ==== Sys2Proof/Decode.lean ====
section
/-!
DEFINITION. The commands that words spell. opcode_table.json gives no row bits, so no word spells one.
-/

namespace Sys2Proof

/-- The command that a word spells by the table's bits: none. -/
def decodeTableWord (_nbits _w : Nat) : Option Instr := none

end Sys2Proof
end

