-- ==== Sys2Proof/Machine/Map.lean ====
section
/-!
DEFINITION. Sparse maps in one canonical form: a list of (key, value) pairs with strictly rising keys. `read` and
`write` work over a default: a key that is not listed reads as the default, and no listed value equals it, so equal
maps are equal lists. `get`, `put` and `del` work over presence.
-/

namespace Sys2Proof.Machine

/-- A sparse map with Nat keys. -/
abbrev SMap (α : Type) := List (Nat × α)

/-- The value at a key; the default where the key is not listed. -/
def SMap.read {α : Type} (d : α) : SMap α → Nat → α
  | [], _ => d
  | (k', v) :: m, k => if k = k' then v else SMap.read d m k

/-- Lists a value at a key. -/
def SMap.put {α : Type} : SMap α → Nat → α → SMap α
  | [], k, v => [(k, v)]
  | (k', v') :: m, k, v =>
    if k < k' then (k, v) :: (k', v') :: m
    else if k = k' then (k, v) :: m
    else (k', v') :: SMap.put m k v

/-- Removes a key. -/
def SMap.del {α : Type} (m : SMap α) (k : Nat) : SMap α := m.filter fun e => e.1 ≠ k

/-- Stores a value at a key; storing the default removes the entry. -/
def SMap.write {α : Type} [DecidableEq α] (d : α) : SMap α → Nat → α → SMap α
  | [], k, v => if v = d then [] else [(k, v)]
  | e :: m, k, v => if v = d then SMap.del (e :: m) k else SMap.put (e :: m) k v

/-- The value listed at a key, if any. -/
def SMap.get {α : Type} : SMap α → Nat → Option α
  | [], _ => none
  | (k', v) :: m, k => if k = k' then some v else SMap.get m k

/-- The keys strictly rise from `lo` on. -/
def SMap.risesFrom {α : Type} (lo : Nat) : SMap α → Bool
  | [] => true
  | (k, _) :: m => decide (lo ≤ k) && SMap.risesFrom (k + 1) m

/-- The keys strictly rise. -/
def SMap.rises {α : Type} (m : SMap α) : Bool := SMap.risesFrom 0 m

/-- The canonical form over a default: rising keys, and no listed value equal to the default of its key. -/
def SMap.wf {α : Type} [DecidableEq α] (d : Nat → α) (m : SMap α) : Bool :=
  SMap.rises m && m.all fun e => decide (e.2 ≠ d e.1)

end Sys2Proof.Machine
end

