-- ==== Sys2Proof/Machine/State.lean ====
section
/-!
DEFINITION. The state of the block: every register, FIFO, buffer, counter, mode and pin the spec gives it, as plain
data, the queue of waiting commands, and the state right after reset. Registers live in one map from BAR0 offsets
(R418); what a mechanism keeps beside its registers lives in the structures below.
-/

namespace Sys2Proof.Machine

/-- The events the almanac records (R372). The manual numbers two codes, 0x0001 and 0x0002 (R373); the codes of the
others are the opaque `Config.almCode` (log 8). -/
inductive AlmEvent where
  | recordsLost | restartMarker
  | registerAccess | configWrite | configWriteDiscarded
  | latchFault | collectiveAbort | dataCorruption | auditMismatch | uncorrectableWord | latticeWord
  | corrected | leakyBucket | bufferFree | bufferRepaired | bufferReclaimed
  | elementSuspect | elementDegraded | elementExpelled | expulsionAborted | breakerFrozen
  | threadFault | catalogueConflict | thermalCrit | thermtrip | coolantSuspect
  | watchdogLapse | identityFailure | hdmUnclaimed | holdUpReserve | vinLow
  | folioBad | amendmentFired | amendmentRefused | amendmentDiscarded | amendmentCancelled | backgroundEnded
  deriving DecidableEq, Repr

/-- One almanac record (Table 16-6). `event` stands for the code and `detail` holds the figures its chapter names. -/
structure AlmRec where
  seq : Nat
  ft : W64
  block : BitVec 8
  severity : Nat
  event : AlmEvent
  epoch : W32
  memEpoch : W32
  index : Nat
  detail : List Nat
  deriving DecidableEq, Repr

/-- The almanac (R372, R373): newest sequence, the SRAM ring and the stack ring (newest first), the newest copied
sequence, and the worst severity not yet acknowledged (R376). -/
structure Almanac where
  seq : Nat := 0
  ring : List AlmRec := []
  copied : Nat := 0
  stack : List AlmRec := []
  unacked : Option Nat := none
  deriving DecidableEq, Repr

/-- The output pins the model drives (R426, R427). -/
inductive Pin where
  | alertN | thermtripN | ppsOut (n : BitVec 2)
  deriving DecidableEq, Repr

/-- What the block sends out (log 4). -/
inductive Output where
  /-- A frame begun on a port. -/
  | frame (port : Port) (f : Frame)
  /-- The frame begun on a port under an lseq ends stomped (R117). -/
  | stomp (port : Port) (lseq : BitVec 15)
  /-- An MSI-X message with a vector (R368). -/
  | msix (vector : Nat)
  /-- A change of an output pin: asserted or not. -/
  | pin (p : Pin) (asserted : Bool)
  /-- The value a register read returns to its requester. -/
  | regValue (r : Requester) (off : Nat) (value : W32)
  /-- The answer to an Archivist command: return code and output bytes (R364). -/
  | reply (tp : Transport) (opcode : BitVec 16) (code : Nat) (data : List Byte)
  /-- The data of a CXL.mem read, or the end of a CXL.mem write (R293). -/
  | memData (hpa : W64) (data : List Byte)
  | memDone (hpa : W64)
  /-- A DOE response: SPDM or Table Access (R367, R390). -/
  | doe (data : List Byte)
  /-- The answer of an accession command to its issuing unit (R261). -/
  | accession (status : Nat) (data : List Byte)
  /-- The bytes a STK_APERTURE read returns (R256). -/
  | aperture (data : List Byte)
  deriving DecidableEq, Repr

/-- The host link (R359, R361, R368, R369): trained or not, MSI-X enabled, and the HDM decoders. -/
structure HdmDecoder where
  base : W64 := 0
  size : W64 := 0
  ways : Nat := 1
  granularity : Nat := 256
  /-- The position of this device among the interleaved ways. -/
  position : Nat := 0
  dpaBase : W64 := 0
  committed : Bool := false
  error : Bool := false
  deriving DecidableEq, Repr

/-- The time states (Table 2-3). -/
inductive TimeState where
  | free | acquire | locked | holdover | expired
  deriving DecidableEq, Repr

/-- The ephemeris unit (chapter 2). Times are FT; `lastRx` and `offset` are in units of 2^-16 FT. -/
structure Ephemeris where
  /-- The counter of R36, in units of 2^-48 FT. -/
  acc : BitVec 112 := 0
  adj : Int := 0
  integ : Int := 0
  state : TimeState := .free
  /-- ACQUIRE has been left since the last reset (R50). -/
  leftAcquire : Bool := false
  outliers : Nat := 0
  lastRx : Option Int := none
  lockCount : Nat := 0
  offset : Int := 0
  sourceHoldover : Bool := false
  /-- The active parent and its rank (R45). -/
  parent : Option (Port × BitVec 2) := none
  /-- FT of the last accepted sample (Table 2-4). -/
  lastSample : Nat := 0
  /-- FT of the entry to HOLDOVER. -/
  holdoverAt : Nat := 0
  /-- The FT the next PPS_IN edge is expected at (R46). -/
  ppsExpected : Option Nat := none
  /-- EPH_TOD_SET has been written and waits for the next PPS_IN edge (R46). -/
  todSet : Bool := false
  /-- LOCKED has been entered since the last reset (R344). -/
  everLocked : Bool := false
  /-- The sequence of the next TIME_SYNC (SOURCE role). -/
  syncSeq : BitVec 16 := 0
  /-- FT of the last entry to LOCKED from FREE or ACQUIRE (R58). -/
  lockedAt : Nat := 0
  deriving DecidableEq, Repr

/-- Time status of one port (R42, Table 2-16); `mean` in units of 2^-16 FT. -/
structure PortTime where
  mean : Int := 0
  valid : Bool := false
  loss : Nat := 0
  /-- FT of the last TIME_SYNC with source_state 0 or 1 (R45). -/
  lastSync : Option Nat := none
  /-- The outstanding PDELAY_REQ: its time_seq, and its transmit stamp once sent. -/
  req : Option (BitVec 16 × Option Int) := none
  reqSeq : BitVec 16 := 0
  deriving DecidableEq, Repr

/-- One output pulse (R55, R56) beside its registers: armed, the parameters in use (start, period, width), the
leading edge it drives or drove last, and whether the pin is at its active level. -/
structure Pulse where
  armed : Bool := false
  start : Nat := 0
  period : Nat := 0
  width : Nat := 0
  /-- FT of the next leading edge. -/
  nextEdge : Nat := 0
  active : Bool := false
  deriving DecidableEq, Repr

/-- One pending-activation object (R57, Table 2-8). -/
structure Act where
  pending : Bool := false
  tAct : Nat := 0
  state : Nat := 0
  reason : Nat := 0
  deriving DecidableEq, Repr

/-- One bank of a cyclic object (calendar or gate list): whether a list is in it, its base FT, its length in
entries, and the stored entries (R91, R182); an entry not listed is not stored. -/
structure Bank where
  on : Bool := false
  base : Nat := 0
  len : Nat := 0
  ent : SMap (BitVec 256) := []
  deriving DecidableEq, Repr


/-- Fade states (Table 3-14). -/
inductive FadeState where
  | normal | advisory | cutover | moved | noSpare | idle | failed
  deriving DecidableEq, Repr

/-- One heater and its ring's lock loop (R64 to R67). -/
structure Heater where
  loopOut : Int := 0
  demand : Int := 0
  drive : Nat := 0
  locked : Bool := false
  headroomOut : Bool := false
  /-- Consecutive updates with the detuning inside lock_window, and beyond lost_window. -/
  inRun : Nat := 0
  outRun : Nat := 0
  deriving DecidableEq, Repr

/-- One wavelength line of an engine (R61, R62, R73 to R76). -/
structure Line where
  duty : Option (BitVec 4) := none
  fade : FadeState := .normal
  provisional : Bool := false
  marginLow : Bool := false
  usable : Bool := false
  locked : Bool := false
  combLow : Bool := false
  laserLow : Bool := false
  tx : Int := 0
  rx : Int := 0
  avgTx : Int := 0
  avgRx : Int := 0
  /-- The levels taken as P0 by the device (R74). -/
  p0 : Option (Int × Int) := none
  /-- Aborts in a row (R81), and the FT of the last abort when a retry is due. -/
  aborts : Nat := 0
  retryFrom : Option Nat := none
  deriving DecidableEq, Repr

/-- Why a cut-over runs. -/
inductive MoveCause where
  | fade | leaf | manual | standin | albedo
  deriving DecidableEq, Repr

/-- A trigger of a cut-over: the duty, the line wanted (none: R78 picks), and its cause. -/
structure MoveTrigger where
  duty : BitVec 4
  target : Option Nat
  cause : MoveCause
  deriving DecidableEq, Repr

/-- A cut-over in progress (R77 to R81). -/
structure CutOver where
  duty : BitVec 4
  source : Nat
  target : Nat
  cause : MoveCause
  start : Nat
  tSwitch : Nat
  acked : Bool := false
  leafReady : Bool := false
  ownReady : Bool := false
  /-- LANE_MARK has been sent (t_switch has passed), and received. -/
  marked : Bool := false
  markRx : Bool := false
  deriving DecidableEq, Repr

/-- One optical engine (chapter 3). -/
structure Engine where
  calState : Nat := 0
  laserOk : Bool := false
  identified : Bool := false
  swapPending : Bool := false
  /-- A refreshed matrix that becomes active at the next heater update: the changed entries by index 36 i + j (R66). -/
  xtNext : Option (SMap Int) := none
  cutover : Option CutOver := none
  waiting : List MoveTrigger := []
  deriving DecidableEq, Repr


/-- One Benes element (R97). -/
structure Element where
  locked : Bool := false
  lowRun : Nat := 0
  highRun : Nat := 0
  bias : Int := 0
  unlockedAt : Nat := 0
  deriving DecidableEq, Repr

/-- States of a physical plane (Table 4-15). -/
inductive PlaneState where
  | idle | active | unusable | failed | standby
  deriving DecidableEq, Repr

/-- One physical wavelength plane (R86, R97, R98, R101). -/
structure Plane where
  state : PlaneState := .idle
  failed : Bool := false
  standinFor : Option (BitVec 4) := none
  latency : Nat := 0
  /-- The plane has been unusable since it last ran. -/
  suspended : Bool := false
  deriving DecidableEq, Repr

/-- A notice of R99 or R100 that takes effect at t_from: the duty plane and the fibres suspended from then on. -/
structure Notice where
  duty : BitVec 4
  mask : BitVec 32
  tFrom : Nat
  deriving DecidableEq, Repr


/-- The operation a held frame belongs to, for what its loss means. -/
inductive Owner where
  /-- A received frame, or a frame that stands for itself. -/
  | plain
  /-- A response of the device's own memory (Table 5-9). -/
  | ownRsp
  /-- A copy of STORE_MCAST operation `op` (R281). -/
  | mcast (op : Nat)
  deriving DecidableEq, Repr

/-- Link states (R113). -/
inductive LinkState where
  | down | training | up
  deriving DecidableEq, Repr

/-- What the transmitter fills into a VC0 frame as it leaves (R39, R42, R47). -/
inductive TxFill where
  | plain
  /-- TIME_SYNC of the SOURCE role: time_value is the transmit stamp. -/
  | sync
  /-- A relayed TIME_SYNC: the ingress stamp and corr_in + delay_in (R47). -/
  | relay (tIn : Int) (corr : Int)
  /-- PDELAY_REQ: the transmit stamp is kept as t1. -/
  | pdelayReq
  /-- PDELAY_RESP: the correction is the turnaround from the request's stamp. -/
  | pdelayResp (tIn : Int)
  deriving DecidableEq, Repr

/-- A VC0 frame waiting for a port's transmitter. -/
structure Tx where
  frame : Frame
  fill : TxFill
  deriving DecidableEq, Repr

/-- A frame in a replay buffer, with how often it was replayed (R114, R116). -/
structure Replay where
  frame : Frame
  count : Nat
  /-- Where the frame came in (none: originated), the operation it belongs to and the die that held it. -/
  inPort : Option Port := none
  owner : Owner := .plain
  die : Nat := 0
  /-- It was ended stomped, and is so at every replay (R117, R160). -/
  stomped : Bool := false
  deriving DecidableEq, Repr

/-- One port's link (chapter 5), beside its registers. -/
structure Link where
  state : LinkState := .down
  cause : Nat := 0
  helloRx : Bool := false
  helloTx : Bool := false
  creditRx : Bool := false
  creditTx : Bool := false
  /-- FT at which TRAINING was entered. -/
  trainAt : Nat := 0
  /-- FT of a training failure that will be tried again (R113). -/
  failAt : Option Nat := none
  /-- Held for lock loss (R68), since this FT. -/
  held : Option Nat := none
  txLseq : BitVec 15 := 0
  replay : List Replay := []
  /-- FT at which an acknowledgement last advanced, or the oldest outstanding frame was sent. -/
  ackAt : Nat := 0
  rxLseq : BitVec 15 := 0
  ackVal : BitVec 15 := 0x7FFF
  /-- An acknowledgement has not been sent yet, since this FT (R114). -/
  ackDue : Option Nat := none
  /-- A RETRY_REQ waits for its frame, since this FT (R115). -/
  retryAt : Option Nat := none
  /-- FTs of the RETRY_REQs of the last millisecond (Table 5-15). -/
  retries : List Nat := []
  /-- Per VC: own cumulative limit L_v, the limit as published, and the cells arrived (R120, R121). -/
  lim : SMap (BitVec 24) := []
  pub : SMap (BitVec 24) := []
  arrived : SMap (BitVec 24) := []
  /-- Per VC: cells freed while the VC was withheld (R169). -/
  withheldCells : SMap (BitVec 24) := []
  /-- FT of the last CREDIT frame sent. -/
  creditAt : Nat := 0
  /-- Per VC: the partner's limit and the cells sent (R120). -/
  plim : SMap (BitVec 24) := []
  sent : SMap (BitVec 24) := []
  /-- VC0 frames waiting to be sent. -/
  vc0 : List Tx := []
  /-- Arbiter deficits and pointer (R179). -/
  deficit : SMap Int := []
  next : BitVec 3 := 1
  /-- FEC alignment is found (R113, R118). -/
  aligned : Bool := false
  /-- A replay from this lseq on waits for the transmitter (R116). -/
  replayDue : Option (BitVec 15) := none
  /-- FT at which the first codeword after the last burst preamble began (R183). -/
  cwFrom : Option Nat := none
  deriving DecidableEq, Repr


/-- A catalogue entry (Table 6-2), keyed by its node. -/
structure CatEntry where
  port : Port
  incarnation : BitVec 16
  hit : Bool := false
  miss : Bool := false
  frozen : Bool := false
  overflow : Bool := false
  deriving DecidableEq, Repr

/-- An address index entry (Table 6-4), and whether it was placed in the trie (R143). -/
structure IdxEntry where
  addr : W64
  len : BitVec 7
  kind : BitVec 2
  partition : BitVec 12
  node : Node
  tree : BitVec 16
  base : BitVec 46
  inTrie : Bool := false
  deriving DecidableEq, Repr

/-- A multicast tree (Table 6-6). -/
structure Tree where
  valid : Bool := false
  bound : Bool := false
  partition : BitVec 12 := 0
  group : BitVec 14 := 0
  mask : BitVec 512 := 0
  flags : BitVec 2048 := 0
  deriving DecidableEq, Repr


/-- One destination of a buffer: an egress port with the frame as it will leave, the cells that passed ccrc there, the
pulls again per cell, whether its descriptor is ready, and whether it was begun on the wire cut-through. -/
structure Dest where
  port : Port
  frame : Frame
  /-- rseq of the frame's first cell in its flow (R155). -/
  rseq : BitVec 24
  got : List Nat := []
  retries : SMap Nat := []
  ready : Bool := false
  begun : Bool := false
  deriving DecidableEq, Repr

/-- An allocated shelf buffer (R154, R165), keyed by die, pool and index: the port and VC whose credits it holds
(none for an originated frame), its stamp, cells and destinations, and where its cells lie (R173). -/
structure Buf where
  inPort : Option Port
  vc : BitVec 3
  stamp : Stamp := 0
  cells : Nat
  dests : List Dest
  owner : Owner := .plain
  /-- The destination that frees it (R171): the highest-numbered port of the set. -/
  lastOwner : Port
  /-- The originated frame uses the origin reserve (R168). -/
  reserve : Bool := false
  landedAt : Nat := 0
  landed : Nat := 0
  spilled : Nat := 0
  /-- FT of the audit that found it unreferenced (R172). -/
  unref : Option Nat := none
  deriving DecidableEq, Repr

/-- A resequencing flow (R158): the next rseq to give, the next to release, and cells that arrived ahead. -/
structure Flow where
  next : BitVec 24 := 0
  expect : BitVec 24 := 0
  ahead : List (BitVec 24) := []
  deriving DecidableEq, Repr

/-- An originated frame waiting for a buffer (R168): the producing die, the ports and frames of its copies. -/
structure OriginWait where
  die : BitVec 2
  owner : Owner
  copies : List (Port × Frame)
  deriving DecidableEq, Repr

/-- Per-die state of the switch core: VCs withheld (R169), the warning is crossed, spilled cells in the running
millisecond and not yet counted, and buffers the auditor reclaimed (R172). -/
structure DieCore where
  withheld : List (BitVec 3) := []
  warned : Bool := false
  spillMs : Nat := 0
  spillRest : Nat := 0
  reclaimed : List Nat := []
  deriving DecidableEq, Repr


/-- A frame held by a meter (R188): its port, its stamp and its buffer; for a request to this spine's memory, whether its
cells reach the unit and what the stack channel meets. -/
structure Hold where
  port : Port
  frame : Frame
  stamp : Stamp
  buf : Nat
  ok : Bool := true
  io : ChannelIo := { }
  deriving DecidableEq, Repr



/-- States of a group slot (R218). -/
inductive GroupState where
  | free | admitted | draining
  deriving DecidableEq, Repr

/-- An entry of a group's deferral list (R236). -/
structure Deferral where
  port : Port
  cseq : BitVec 16
  segment : BitVec 24
  firstLine : Nat
  count : Nat
  deriving DecidableEq, Repr

/-- A frame of a group that waits in the shelves (R228, R232): its buffer, port and frame. -/
structure HeldFrame where
  buf : Nat
  port : Port
  frame : Frame
  deriving DecidableEq, Repr

/-- Where the reply to a group record goes: an Archivist command, or a GROUP_REC frame (R351). -/
inductive ReplyTo where
  | command (tp : Transport)
  | mgmt (port : Port) (snode : Node) (swSrc : Bool) (tag : BitVec 16)
  deriving DecidableEq, Repr

/-- A group slot (R218 to R223). Times are FT. -/
structure Group where
  state : GroupState := .free
  /-- The current generation, or the last one of a FREE slot. -/
  gen : BitVec 8 := 255
  fenceTolerant : Bool := false
  transformEn : Bool := false
  partition : BitVec 12 := 0
  tree : BitVec 16 := 0
  timeout : Nat := 0
  tileSlots : Nat := 0
  cDepth : Nat := 0
  program : BitVec 16 := 0
  quota : Nat := 0
  resendTimeout : Nat := 0
  mask : BitVec 512 := 0
  /-- Members behind each port of the mask. -/
  counts : SMap Nat := []
  nextCseq : BitVec 16 := 0
  /-- The open collectives, oldest first. -/
  opened : List (BitVec 16) := []
  held : List HeldFrame := []
  deferrals : List Deferral := []
  /-- Where the DRAINED replies go (R223). -/
  replyTo : List ReplyTo := []
  deriving DecidableEq, Repr

/-- A record in the configuration queue (R222): a teardown or an admission, its bytes, and where its reply goes
(none: a record of the folio). -/
structure CfgRecord where
  teardown : Bool
  bytes : List Byte
  replyTo : Option ReplyTo
  deriving DecidableEq, Repr

/-- Lines asked for by RESEND (R234): port, segment, first line, count, the FT its frame left (none: not yet), its cause,
the lines that have not arrived, and whether it asks for an exponent contribution. -/
structure Resend where
  port : Port
  segment : BitVec 24
  firstLine : Nat
  count : Nat
  left : Option Nat := none
  cause : Nat
  missing : BitVec 64
  exp : Bool := false
  deriving DecidableEq, Repr

/-- An open collective (R226 to R239), keyed by group and cseq. -/
structure Coll where
  gen : BitVec 8 := 0
  /-- The 32 descriptor bytes (Table 10-4) and the signature it opened with (R230). -/
  desc : List Byte := []
  sig : W32 := 0
  /-- The ports whose BEGIN arrived, in order, with signature and members. -/
  begins : List (Port × W32 × Nat) := []
  /-- Ports whose CONTRIB differed in signature, with the signature it carried. -/
  badSigs : List (Port × W32) := []
  /-- FT of the first signature mismatch (R230). -/
  mismatchAt : Option Nat := none
  excluded : BitVec 512 := 0
  unreached : BitVec 512 := 0
  timerFrom : Nat := 0
  /-- Segments that are DONE. -/
  done : SMap Bool := []
  clamps : Nat := 0
  sats : Nat := 0
  overflow : Nat := 0
  /-- Sources whose ALL_TO_ALL lines were dropped (R241). -/
  ovfSources : BitVec 512 := 0
  /-- ALL_TO_ALL: by 512 source + destination, the intervals of positions delivered. -/
  pairs : SMap (List (Nat × Nat)) := []
  /-- ALL_TO_ALL: pairs whose last-flagged frame arrived or that were padded. -/
  pairDone : SMap Bool := []
  resends : List Resend := []
  deriving DecidableEq, Repr

/-- States of a segment (Table 10-6). A segment with no entry is IDLE, or DONE where its collective says so. -/
inductive SegState where
  | exponent | collect | final | emit
  deriving DecidableEq, Repr

/-- The audit of a segment (R329, R330): the audit tile, whether it is the forced audit of a restart, its own lanes
and valid bits, the FT from which it is awaited, and the digests of the first pair. -/
structure Audit where
  tile : Nat
  forced : Bool := false
  lanes : SMap (List W64) := []
  valid : SMap (BitVec 8) := []
  waitFrom : Option Nat := none
  /-- After a mismatch: the primary's and the first audit tile's lanes, and that tile. -/
  first : Option (SMap (List W64) × SMap (List W64) × Nat) := none
  deriving DecidableEq, Repr

/-- A segment in progress (R231 to R238), keyed by group, cseq and segment number. -/
structure Segment where
  state : SegState := .collect
  /-- The tile that holds it (0 to 63, or 64 + d for a spare); for ALL_GATHER and path 1 it holds no slots. -/
  tile : Nat := 0
  slots : Nat := 0
  lines : Nat := 0
  /-- ALL_GATHER: the port that owns it (R240). -/
  owner : Option Port := none
  /-- Exponent pass: the ports that sent EXP, and E_max by line (8 bytes; 255 where absent). -/
  expFrom : BitVec 512 := 0
  emax : SMap (List Nat) := []
  /-- Accumulator exponents by line: 8 entries. -/
  a : SMap (List Int) := []
  /-- Lanes and residues by line; a line not listed holds start values. -/
  lanes : SMap (List W64) := []
  res : SMap (List Nat) := []
  /-- Valid bits of MIN and MAX by line (R205). -/
  valid : SMap (BitVec 8) := []
  /-- Arrival bitmaps and members by port. -/
  arrived : SMap (BitVec 64) := []
  members : SMap Nat := []
  /-- First lines of the chunks not released yet (R310), in FINAL with a program. -/
  chunks : List (Nat × Nat) := []
  audit : Option Audit := none
  deriving DecidableEq, Repr


/-- A request to this spine's memory in progress: its serial number, port, frame, and the DPA of the first byte it
touches, found when it arrived (R144, R146). -/
structure MemReq where
  serial : Nat
  port : Port
  frame : Frame
  dpa : Nat := 0
  deriving DecidableEq, Repr

/-- An accession command (Table 11-7). -/
inductive AccCmd where
  | clear (r line count : Nat)
  | setA (r line : Nat) (a : List Int)
  | add (r line : Nat) (part : BitVec 12) (fmt : Nat) (data scales : List Byte)
  | merge (r line : Nat) (part : BitVec 12) (fmt : Nat) (data scales : List Byte)
  | readLanes (r line : Nat)
  | writeLanes (r line : Nat) (lanes : List W64)
  | readFmt (r line : Nat)
  | atomic (dpa : Nat) (sub : BitVec 8) (b c : W64)
  deriving DecidableEq, Repr

/-- An access that the stack channel holds while a page is decoded (R268). -/
inductive Access where
  /-- A LOAD, STORE, ATOMIC or REDUCE_INTO of the fabric. -/
  | request (q : MemReq)
  /-- The flush of a combining entry of a die: its constituents. -/
  | flush (die : BitVec 2) (qs : List MemReq)
  /-- An accession command of a unit. -/
  | command (c : AccCmd)
  /-- A line of a path-1 contribution: port, frame and line within the segment. -/
  | contrib (port : Port) (frame : Frame)
  | cxlRead (hpa : W64)
  | cxlWrite (hpa : W64) (data : List Byte)
  | aperture (r : Requester) (off size : Nat)
  /-- The memory instruction a thread has issued. -/
  | thread (t : Nat)
  deriving DecidableEq, Repr

/-- What a write that a stack channel has not yet accepted is answered with (R276, R290). -/
inductive WriteAck where
  /-- The ACK of one request, with its status bits. -/
  | one (q : MemReq) (status : Nat)
  /-- The ACKs and ACK_SETs of a flush. -/
  | set (die : BitVec 2) (qs : List MemReq) (status : Nat)
  /-- A posted store of a thread. -/
  | thread (t : Nat) (id : Nat)
  deriving DecidableEq, Repr

/-- A combining entry (R287 to R291). `lo` and `len` are the range: DPAs of own memory, or for pass-through
requests the address and the endpoint's node. -/
structure Comb where
  id : Nat
  die : BitVec 2
  thru : Bool
  dnode : Node
  lo : Nat
  len : Nat
  /-- FT of the first constituent held, and of the last request to the range. -/
  first : Nat
  lastAt : Nat
  qs : List MemReq := []
  deriving DecidableEq, Repr

/-- A merged pass-through request that awaits its answer (R291, R292). -/
structure ThruReq where
  seq : BitVec 24
  opcode : BitVec 8
  at_ : Nat
  die : BitVec 2
  qs : List MemReq
  deriving DecidableEq, Repr

/-- A record of the replay filter (R286). -/
structure FilterRec where
  die : BitVec 2
  swSrc : Bool
  snode : Node
  seq : BitVec 24
  opcode : BitVec 8
  addr : W64
  /-- The answer: its opcode, status and payload. -/
  ansOp : BitVec 8
  status : Nat
  payload : List Byte
  at_ : Nat
  deriving DecidableEq, Repr

/-- A STORE_MCAST being replicated (R281): the request (or the thread that posted it, with its seq), the report and
mirror flags of its tree, and the unreached set. -/
structure McastOp where
  req : MemReq
  thread : Option (Nat × Nat) := none
  report : BitVec 512
  mirror : BitVec 512 := 0
  unreached : BitVec 512 := 0
  deriving DecidableEq, Repr


/-- A token (R306): the thread it names, or none where it names the program of a slot, and its four words. -/
structure Token where
  thread : Option Nat
  slot : Nat
  w0 : W64
  w1 : W64
  w2 : W64
  w3 : W64
  deriving DecidableEq, Repr

/-- A loaded program (R312, R313), by slot. Its threads take the same indices and scratch offset on every core. -/
structure Prog where
  id : BitVec 16
  privileged : Bool
  transform : Bool
  code : List W32
  data : List Byte
  chunkLines : Nat
  scratchKib : Nat
  budget : Nat
  far : List W64
  /-- Its thread indices and scratch offset, the same on each core. -/
  idx : List Nat
  scratch : Nat
  meas : List Byte
  suspended : Bool := false
  /-- FTs of its faults (R316). -/
  faults : List Nat := []
  unloading : Option Nat := none
  /-- The unload ends an operation of ORY_PROG_CMD, or a PROGRAM_UNLOAD of a transport is answered with its status. -/
  unloadCmd : Bool := false
  unloadTo : Option Transport := none
  deriving DecidableEq, Repr

/-- An access of a thread that awaits an answer: the seq it was sent under and the lane it fills. -/
structure Await where
  seq : BitVec 24
  lane : Nat
  addr : W64
  deriving DecidableEq, Repr

/-- What a blocked thread waits for (R301): the destination register, its kind (0 scalar, 1 vector), bytes, sign
extension, and the answers outstanding. -/
structure Blocked where
  dest : BitVec 5
  vector : Bool
  bytes : Nat
  sign : Bool
  awaits : List Await
  deriving DecidableEq, Repr

/-- An orrery thread (R297). -/
structure Thread where
  regs : SMap W64 := []
  /-- Vector registers, by 16 v + lane. -/
  vregs : SMap W64 := []
  mask : BitVec 16 := 0
  far : List W64 := []
  pc : Nat := 0
  partition : BitVec 12 := 0
  /-- In WAIT: the destination register. -/
  waiting : Option (BitVec 5) := none
  blocked : Option Blocked := none
  /-- In FENCE until its posted stores are answered. -/
  fencing : Bool := false
  halted : Bool := false
  /-- Stopped by an unload. -/
  stopped : Bool := false
  /-- Held by a page decode (R268). -/
  pageHeld : Bool := false
  /-- The SEG_FINAL token whose chunk it holds. -/
  chunk : Option Token := none
  /-- Instructions since the last WAIT (R315). -/
  count : Nat := 0
  /-- Posted stores unanswered: seq or id, and address. -/
  posted : List (Nat × W64) := []
  /-- A posted store answered with NACK (4) or PATH_FAIL (5): code and address. -/
  badStore : Option (Nat × W64) := none
  epoch : BitVec 8 := 0
  deriving DecidableEq, Repr

/-- A TIMER that has not fired (R307), in the order set. -/
structure Timer where
  thread : Nat
  due : Nat
  payload : W64
  deriving DecidableEq, Repr


/-- States of a scored element (Table 14-3). -/
inductive ElemState where
  | ok | suspect | degraded | expelling | expelled | excluded
  deriving DecidableEq, Repr

/-- A scored element (R321, R322), keyed by 1,024 class + index. -/
structure Elem where
  score : Nat := 1023
  state : ElemState := .ok
  lastInput : Nat := 0
  holdReason : Nat := 0
  capped : Bool := false
  /-- Its expulsion action has started; EXPELLING without it waits for its group (R326). -/
  started : Bool := false
  /-- Its expulsion was commanded: it took no token. -/
  manual : Bool := false
  deriving DecidableEq, Repr

/-- A grant in the breaker's window (R328): class, index, die, hottest junction, temperature bin, epoch and FT. -/
structure Grant where
  cls : Nat
  idx : Nat
  die : Nat
  temp : Int
  bin : Nat
  epoch : W32
  at_ : Nat
  deriving DecidableEq, Repr


/-- An image being transferred (R351, R366): its sender, the offset expected next, the last accepted offset, the total
and the FT of its last fragment. -/
structure Transfer where
  src : Transport
  next : Nat
  last : Nat
  total : Nat
  at_ : Nat
  /-- Complete: how the last fragment was answered (code and bytes), for a repeat of it. -/
  answer : Option (Nat × List Byte) := none
  deriving DecidableEq, Repr

/-- The pending amendment (R348). -/
structure Amendment where
  image : List Byte
  tAct : Nat
  epoch : W32
  deriving DecidableEq, Repr

/-- A check-unit job (R355). -/
structure CuJob where
  flash : Bool
  src : Nat
  len : Nat
  w : Nat
  poly : Nat
  init : Nat
  refl : Bool
  inv : Bool
  compare : Bool
  expect : Nat
  deriving DecidableEq, Repr

/-- The flash areas of Table 15-1 and Table 17-2 (erased: empty). -/
structure Flash where
  helper : List Byte := []
  certs : List Byte := []
  owner0 : List Byte := []
  owner1 : List Byte := []
  firmware : SMap Byte := []
  folio : SMap Byte := []
  deriving DecidableEq, Repr


/-- A CXL event record (R362): a General Media Event (the CXL DPA, the stack DPA and the new epoch) or a Memory Module
Event (the stack channel whose health changed). -/
inductive EventRec where
  | media (cxlDpa stackDpa : W64) (epoch : W32)
  | health (channel : Nat)
  deriving DecidableEq, Repr

/-- A record of an event log: its handle, its timestamp (FT / 16) and the event. -/
structure LogEntry where
  handle : BitVec 16
  stamp : Nat
  event : EventRec
  deriving DecidableEq, Repr

/-- A background command under way (R365): its opcode and transport, and whether a host-link reset has left it without a
requester (R369). -/
structure Background where
  opcode : BitVec 16
  tp : Transport
  orphan : Bool := false
  deriving DecidableEq, Repr

/-- A flash summary block (R374). -/
structure Summary where
  seq : Nat
  /-- Per event: its block, the event, the count and the last sequence. -/
  counts : List (BitVec 8 × AlmEvent × Nat × Nat)
  records : List AlmRec
  colophon : List Byte
  epoch : W32
  deriving DecidableEq, Repr

/-- An out-of-band command being assembled (R375). -/
structure OobRx where
  mac : BitVec 48
  tag : BitVec 16
  command : BitVec 16
  bytes : List Byte
  deriving DecidableEq, Repr



/-- The optical engines (chapter 3). -/
structure Optics where
  /-- Optical engines. -/
  engines : SMap Engine := []
  /-- Heaters, by 36 f + h. -/
  heaters : SMap Heater := []
  /-- Lines, by 18 f + n. -/
  lines : SMap Line := []
  deriving DecidableEq, Repr

/-- The transit plane and the latches (chapter 4). -/
structure Transit where
  /-- Benes elements, by 144 c + e. -/
  elements : SMap Element := []
  /-- Physical planes. -/
  planes : SMap Plane := []
  /-- Committed permutations (R89). -/
  committed : SMap Bool := []
  /-- The calendar runs (Table 4-8), and the entry it executes. -/
  calRunning : Bool := false
  calEntry : Nat := 0
  /-- Fibres suspended, by duty plane, and the notices that have not taken effect (R99, R100). -/
  suspMask : SMap (BitVec 32) := []
  notices : List Notice := []
  /-- The carrier each port's transit duty runs on, where it is not its own line (R80, R87). -/
  transitCarrier : SMap Nat := []
  /-- The umbra map in the latches' cells, and the one being written (R103). -/
  umbraMap : BitVec 256 := 0
  umbraWrite : Option (BitVec 256) := none
  /-- A release asked for during calibration (R105). -/
  releasePending : Bool := false
  /-- The device transmits nothing since a snap (R104). -/
  dark : Bool := true
  /-- FT of the last entry boundary (T_e), the ports whose transmitters stay gated until the electrical resume, and
  those whose receive paths returned to electrical at it (R93, R118). -/
  boundaryAt : Nat := 0
  quiet : BitVec 512 := 0
  rxBack : BitVec 512 := 0
  deriving DecidableEq, Repr

/-- The forwarding tables (chapter 6). -/
structure Forwarding where
  /-- The location catalogue, by node. -/
  catalogue : SMap CatEntry := []
  /-- The seed of a rehash in progress (R140). -/
  rehash : Option (BitVec 17) := none
  /-- An entry was placed in the overflow since the last rehash (R139). -/
  ovfRaised : Bool := false
  /-- The address index, sorted by (prefix, length), and its seed. -/
  index : List IdxEntry := []
  /-- Multicast trees by index. -/
  trees : SMap Tree := []
  deriving DecidableEq, Repr

/-- Scheduling and meters (chapter 8). -/
structure Scheduling where
  /-- Registers of R180 and R185 whose written value has not taken effect: the value still in use, by offset. -/
  schOld : SMap W32 := []
  /-- Node buckets in bytes, for nodes that have drawn from theirs (R187). -/
  nodeTok : SMap Nat := []
  /-- The bucket of every other node of a profile. -/
  profTok : SMap Nat := []
  /-- Partition buckets (Tc, Tp); a partition not listed has full ones (R189). -/
  partTok : SMap (Nat × Nat) := []
  /-- VC7 buckets of the ports that drew from theirs, and that of every other port (R190). -/
  vc7Tok : SMap Nat := []
  vc7Rest : Option Nat := none
  /-- Hold areas by die, in arrival order (R188). -/
  hold : SMap (List Hold) := []
  /-- Head frames already reported by gate_starve, by port and VC: the buffer (R184). -/
  starved : SMap Nat := []
  deriving DecidableEq, Repr

/-- Groups, collectives and tiles (chapters 9 and 10). -/
structure Conjunction where
  /-- Group slots, by number. -/
  groups : SMap Group := []
  /-- The configuration queue, in arrival order, and the FT the last record was processed (R222). -/
  cfgq : List CfgRecord := []
  cfgqAt : Option Nat := none
  /-- FT of the last stale answer by 16,384 port + group (R224). -/
  staleAt : SMap Nat := []
  /-- Open collectives, by 65,536 group + cseq. -/
  colls : SMap Coll := []
  /-- Segments in progress, by 2^24 (65,536 group + cseq) + segment. -/
  segs : SMap Segment := []
  /-- Segment handles last used, by the same key (R308). -/
  handles : SMap (BitVec 16) := []
  /-- Global tiles served by their die's spare: die to tile (R214); and the moves under way. -/
  spareOf : SMap Nat := []
  moving : List Nat := []
  /-- Tiles whose reset waits for the end of their move (R404). -/
  resetWait : List Nat := []
  /-- Path-0 segments that left IDLE on a tile since its last audited one (R329). -/
  auditCount : SMap Nat := []
  deriving DecidableEq, Repr

/-- Stack memory (chapter 11). -/
structure StackMem where
  /-- Stack memory by DPA; a byte not listed reads 0 (R273; log 15). -/
  mem : SMap Byte := []
  /-- 64-byte words, by DPA / 64, that are unreadable (R269). -/
  badWords : SMap Bool := []
  /-- Pages, by DPA / 4,096, being decoded: the failed word and the accesses held, in order (R268). -/
  pages : SMap (Nat × List Access) := []
  /-- Regions whose install clears them, and engines in BYPASS are in STK_ENGs_c. -/
  clearing : List Nat := []
  /-- The zero fill of R273 has not been completed since the last cold reset (R400). -/
  fillPending : Bool := true
  /-- Accession lines performed and not yet counted in STK_CNT_ACC_LINESs, by stack. -/
  accRest : SMap Nat := []
  deriving DecidableEq, Repr

/-- The memory endpoint (chapter 12). -/
structure MsfUnit where
  /-- Serial number of the next request to this spine's memory, and of combining entries. -/
  serial : Nat := 0
  /-- The memory-and-orrery unit's own request number (R291, R300). -/
  ownSeq : BitVec 24 := 0
  /-- Writes that stack channels hold, by channel 32 s + c, oldest first. -/
  writes : SMap (List WriteAck) := []
  /-- FENCEs not yet answered (R283). -/
  fences : List MemReq := []
  /-- STORE_MCAST operations by serial number. -/
  mcasts : SMap McastOp := []
  /-- Combining entries and counters (by 16,384 die + index), and merged requests sent on. -/
  combs : List Comb := []
  combCount : SMap Nat := []
  thrus : List ThruReq := []
  /-- Repeats of requests that are still in hand, with the die of their filter (R286). -/
  repeats : List (BitVec 2 × MemReq) := []
  /-- The replay filters, oldest first. -/
  filters : List FilterRec := []
  deriving DecidableEq, Repr

/-- The orrery cores (chapter 13). -/
structure Orrery where
  /-- Loaded programs by slot, and the one whose load is under way (slot, program), with the transport of a
  PROGRAM_TRANSFER that waits for it. -/
  progs : SMap Prog := []
  loading : Option (Nat × Prog) := none
  loadTo : Option Transport := none
  /-- Threads that have left their start state (R297), by thread ID. -/
  threads : SMap Thread := []
  /-- Scratch of the cores, by 2^18 core + offset. -/
  scratch : SMap Byte := []
  /-- Token queues by core, and tokens a tile holds for a full queue (core, token). -/
  tokens : SMap (List Token) := []
  tileTokens : List (Nat × Token) := []
  timers : List Timer := []
  /-- FTs of the issue watchdogs of each tile (R401). -/
  watchdogs : SMap (List Nat) := []
  deriving DecidableEq, Repr

/-- Albedo and the governors (chapter 14). -/
structure Health where
  /-- Scored elements. -/
  elems : SMap Elem := []
  /-- The breaker's window (R328), oldest first. -/
  grants : List Grant := []
  /-- FT of the last configuration activation (R328). -/
  activatedAt : Option Nat := none
  /-- FT at which each spare group gained its last token (R324). -/
  refillAt : SMap Nat := []
  /-- Tiles in quarantine (R332). -/
  quarantined : List Nat := []
  /-- Power samples of the last 8 us, newest first: the six domains and the package (R333). -/
  power : List (List Nat × Nat) := []
  critRun : Nat := 0
  /-- Activity ceilings (R335): tiles of die d at d, classes C2 and C3 of stack s at 4 + s. -/
  ceilings : SMap Nat := []
  /-- The last temperature readings, newest first, with their FT (1 ms of them). -/
  temps : List (Nat × List Int) := []
  /-- Consecutive readings at or above 105 C, and at or above 110 C, by die. -/
  hot105 : SMap Nat := []
  hot110 : SMap Nat := []
  /-- Dies whose tj_throttle_hit holds, stacks that are limited, and dies above tj_warn (R336). -/
  tjHit : List Nat := []
  stackHot : List Nat := []
  tjWarned : List Nat := []
  coolantWarned : List Nat := []
  /-- Throttles held at maximum by R336, and the FT since which every die has read below 100 C. -/
  critHold : Bool := false
  coolSince : Option Nat := none
  /-- THERMTRIP_N is asserted (R337). -/
  thermtripOn : Bool := false
  deriving DecidableEq, Repr

/-- Flash, configuration and check units (chapter 15). -/
structure ConfigUnit where
  /-- The flash. -/
  flash : Flash := { }
  /-- The active sections (R342, R345) other than REGS, by 2 code + scope, in canonical form. -/
  sections : SMap (List Byte) := []
  /-- The REGS entries, SHARED and LOCAL, by offset. -/
  sharedRegs : SMap W32 := []
  localRegs : SMap W32 := []
  /-- Staging of amendments, programs and SEC_STAGE. -/
  amendStage : SMap Byte := []
  progStage : SMap Byte := []
  secStage : SMap Byte := []
  /-- Transfers under way: 0 amendment, 1 program, 2 folio, 3 firmware. -/
  transfers : SMap Transfer := []
  pendingAmend : Option Amendment := none
  cuJobs : SMap CuJob := []
  deriving DecidableEq, Repr

/-- Event logs, background commands and summaries (chapter 16). -/
structure Archive where
  /-- Event logs: 0 informational, 1 warning, 2 failure, 3 fatal: records oldest first, each with its handle; the last
  handle given; and per log the records lost while it was full: their number and the first and last timestamps (R365). -/
  eventLogs : SMap (List LogEntry) := []
  eventHandle : BitVec 16 := 0
  logOverflow : SMap (Nat × Nat × Nat) := []
  /-- The event interrupt policy: four bytes (R365, R368). -/
  eventPolicy : List Byte := [0, 0, 0, 0]
  /-- Background commands under way, and the last to end with its return code and output, by transport: 0 mailbox, 1
  out-of-band, 2 fabric (R364, R365). -/
  background : SMap Background := []
  lastBackground : SMap (BitVec 16 × Nat × List Byte) := []
  /-- Flash summary blocks, newest first, at most 768; the number written so far, the newest almanac sequence that the
  newest of them covers, and the FT of the last one (R374). -/
  summaries : List Summary := []
  summarySeq : Nat := 0
  summaryTo : Nat := 0
  summaryAt : Nat := 0
  oobRx : Option OobRx := none
  deriving DecidableEq, Repr

/-- Identity and SPDM (chapter 17). -/
structure Security where
  /-- The code measurement images: verified folio (measurement 5) and the active owner record (measurement 4). -/
  folioMeas : List Byte := []
  ownerRecord : List Byte := []
  /-- SPDM: the requests of the negotiation answered so far, 0 none, 1 version, 2 capabilities, 3 algorithms. -/
  spdm : Nat := 0
  /-- The transcripts of the negotiation, of digests and certificates, and of measurements (R390). -/
  spdmA : List Byte := []
  spdmB : List Byte := []
  spdmL : List Byte := []
  /-- The firmware in flash was activated: it verified (R388). -/
  fwStaged : Bool := false
  deriving DecidableEq, Repr

/-- Pins and resets (chapter 18). -/
structure Power where
  /-- PORST_N and PERST_N are asserted; REFCLK_SYS failed (R431). -/
  porst : Bool := true
  perst : Bool := true
  refclkBad : Bool := false
  /-- Supply loss holds the device in cold reset (R405). -/
  supplyLost : Bool := false
  /-- A cold or device reset is in progress: its boot chain has not reached running or halted. -/
  resetting : Bool := true
  /-- The reset in progress is a device reset. -/
  deviceReset : Bool := false
  /-- The hold-up reserve stored at least 3 J at its last check (R397). -/
  reserveOk : Bool := false
  /-- What the host sets up once the CXL link trains (Table 16-10): width, rate, MSI-X enable (R369). -/
  hostSetup : Option (BitVec 3 × BitVec 2 × Bool) := none
  deriving DecidableEq, Repr

/-- The state of the block. -/
structure State where
  /-- The commands waiting, first in first out. -/
  pending : List Instr := []
  /-- What the block has sent, oldest first; the model's own field (log 4). -/
  out : List Output := []
  /-- The counter that free values are drawn by; the model's own field (log 6). -/
  fresh : Nat := 0
  /-- Every register of BAR0 that stores a value, by offset; an unlisted one holds its reset value (R11). -/
  regs : SMap W32 := []
  /-- R8 read latches, by requester and register offset (`latchKey`). -/
  latches : SMap W32 := []
  /-- R8 held low words, by requester and register offset. -/
  heldLow : SMap W32 := []
  /-- The almanac. -/
  alm : Almanac := { }
  /-- MSI-X is enabled by the host (R368; log 9). -/
  msixEnable : Bool := false
  /-- The four HDM decoders (R361). -/
  hdm : SMap HdmDecoder := []
  /-- The switch address: plane << 8 | spine, given by the folio (R18; log 13). -/
  swAddr : BitVec 11 := 0
  /-- The ephemeris unit. -/
  eph : Ephemeris := { }
  /-- Time status by port. -/
  ptime : SMap PortTime := []
  /-- Output pulses 0 to 3. -/
  pulses : SMap Pulse := []
  /-- Activations by object: 0 the transit calendar, 1 the amendment, 2 + p the gate list of port p. -/
  acts : SMap Act := []
  /-- Gate-list banks by port: active and shadow. -/
  gateActive : SMap Bank := []
  gateShadow : SMap Bank := []
  /-- The transit calendar's banks. -/
  calActive : Bank := { }
  calShadow : Bank := { }
  /-- The optical engines (chapter 3). -/
  opt : Optics := { }
  /-- The transit plane and the latches (chapter 4). -/
  trn : Transit := { }
  /-- Links by port. -/
  links : SMap Link := []
  /-- The forwarding tables (chapter 6). -/
  fwd : Forwarding := { }
  /-- Shelf buffers in use, by die, pool and index (`bufKey`). -/
  bufs : SMap Buf := []
  /-- Resequencing flows by ingress port, egress port and VC (`flowKey`). -/
  flows : SMap Flow := []
  /-- Egress queues by port and VC: the buffers whose descriptors are ready, in order (R181). -/
  queues : SMap (List Nat) := []
  /-- Originated frames that wait for a buffer. -/
  originWait : List OriginWait := []
  /-- Switch core by die. -/
  cores : SMap DieCore := []
  /-- Frames seen by each mirror ring's filter, for sampling (R175). -/
  mirSeen : SMap Nat := []
  /-- Scheduling and meters (chapter 8). -/
  sch : Scheduling := { }
  /-- Groups, collectives and tiles (chapters 9 and 10). -/
  cnj : Conjunction := { }
  /-- Stack memory (chapter 11). -/
  stk : StackMem := { }
  /-- The memory endpoint (chapter 12). -/
  msf : MsfUnit := { }
  /-- The orrery cores (chapter 13). -/
  ory : Orrery := { }
  /-- Albedo and the governors (chapter 14). -/
  hlt : Health := { }
  /-- Flash, configuration and check units (chapter 15). -/
  cfg : ConfigUnit := { }
  /-- Event logs, background commands and summaries (chapter 16). -/
  arc : Archive := { }
  /-- Identity and SPDM (chapter 17). -/
  sec : Security := { }
  /-- Pins and resets (chapter 18). -/
  pwr : Power := { }
  deriving DecidableEq, Repr

/-- Why a command stops the block. -/
inductive Fault where
  /-- Raised by APERTURE_READ and ACCESSION_ATOMIC for a DPA beyond the last stack, an address that does not exist
  (R252). Safe: the block stops. -/
  | absentDpa
  deriving DecidableEq, Repr

/-- Why a command is refused. -/
inductive Refusal where
  /-- Raised by an arm of exec whose command has no meaning yet. Safe: the block stops where the hardware goes on. -/
  | notModelled (mnemonic : String)
  deriving DecidableEq, Repr

/-- The block right after reset: a cold reset with PORST_N asserted (R11, R399, R402), no command waiting. -/
def State.reset : State where
  pending := []
  out := []
  fresh := 0
  regs := []
  latches := []
  heldLow := []
  alm := { }
  msixEnable := false
  hdm := []
  swAddr := 0
  eph := { }
  ptime := []
  pulses := []
  acts := []
  gateActive := []
  gateShadow := []
  calActive := { }
  calShadow := { }
  opt := { }
  trn := { }
  links := []
  fwd := { }
  bufs := []
  flows := []
  queues := []
  originWait := []
  cores := []
  mirSeen := []
  sch := { }
  cnj := { }
  stk := { }
  msf := { }
  ory := { }
  hlt := { }
  cfg := { }
  arc := { }
  sec := { }
  pwr := { }

end Sys2Proof.Machine
end

