-- ==== Sys2Proof/Config.lean ====
section
/-!
DEFINITION. What the spec leaves to the device or to external standards, as opaque constants: nothing can be proved of
their values, so a statement holds whatever they are. Free values are applied to the operands they depend on, or to the
counter `State.fresh`.
-/

namespace Sys2Proof

/-- The almanac's event codes, of which the manual numbers only 0x0001 and 0x0002 (R373; log 8). -/
opaque Config.almCode : Machine.AlmEvent → BitVec 16

/-- The layout of a record's detail bytes (Table 16-6; log 8). -/
opaque Config.almDetail : Machine.AlmEvent → List Nat → List Byte

/-- SHAKE256 (R346, R379): an external standard (log 10). -/
opaque Config.shake256 : List Byte → Nat → List Byte

/-- SHA3-512 or SHA3-256 digests of the identity chapter (R382): an external standard (log 10). -/
opaque Config.sha3 : Nat → List Byte → List Byte

/-- The verdict of an Ed448 verification: public key, context string, message, signature (R379; log 10). -/
opaque Config.ed448Verify : List Byte → List Byte → List Byte → List Byte → Bool

/-- The Ed448 signature of the alias key of a firmware measurement over a message (R381, R390; log 10). -/
opaque Config.aliasSign : List Byte → List Byte → List Byte

/-- The Product Root public key in the mask ROM, and the digest of the ROM (R378). -/
opaque Config.productRoot : List Byte
opaque Config.romDigest : List Byte

/-- The DeviceID public key that the ROM derives from its PUF response and the helper data (R381); the digest of that key
that the helper data carries, and the public key that the certificates in flash name (R381, R382; log 60). -/
opaque Config.devidKey : List Byte → List Byte
opaque Config.helperDigest : List Byte → List Byte
opaque Config.certKey : List Byte → List Byte

/-- The certificate chain of SPDM slot 0, by the certificates in flash, the helper data, the firmware measurement and the
SVN (R383; log 60). -/
opaque Config.certChain : List Byte → List Byte → List Byte → Nat → List Byte

/-- A nonce from the on-die entropy source, by draw (R390, R392). -/
opaque Config.freeNonce : Nat → BitVec 256

/-- The type that a measurement block declares beside raw bit stream (R391; log 61). -/
opaque Config.measurementKind : Nat → BitVec 7

/-- What stack memory holds after a loss of supply (R405; log 62). -/
opaque Config.lostMemory : Nat → List (Nat × BitVec 8)

/-- e · 2^32 divided by an interval of no whole FT (R48 with T = 0; log 11). -/
opaque Config.freeServoRate : Int → Int

/-- The FT that pass until the last notice of R99 has crossed its boundary (log 12). -/
opaque Config.freeNoticeDelay : Nat → BitVec 32

/-- The measured latency of a wavelength plane, before the limit of 400 FT (Table 4-1, Table 4-15; log 84). -/
opaque Config.freeLatency : Nat → BitVec 9

/-- The plane and spine index a folio gives the device; no section of Table 15-3 says where (R15; log 13). -/
opaque Config.folioSwitch : List Byte → BitVec 11

/-- The load code of an evidence counter: the model measures no cell or add-cycle rates (R331; log 18). -/
opaque Config.freeLoadCode : Nat → BitVec 4

/-- Where the codewords of a port's transmit stream lie, in hundredths of an FT, for a port and the FT its training began:
the spec fixes them only after a burst preamble (R107, R183; log 30). -/
opaque Config.freeCodewordPhase : Nat → Nat → BitVec 16

/-- The status by which a step that an engine's two units could not agree on is refused outside a collective: the spec
gives a code for collectives only (Table 11-10; log 35). -/
opaque Config.freeRefusal : Nat → BitVec 8

/-- The line that carries a merged pass-through reduction, from its constituents' lines: the spec says what memory it
must leave, and no form for it (R291; log 36). -/
opaque Config.freeMergedLine : List (List Byte) → List Byte

/-- A byte of a tile's SRAM as a privileged program reads it, by draw, tile and offset: the manual gives its lanes no
addresses (Table 13-1; log 40). -/
opaque Config.freeTileSram : Nat → Nat → Nat → BitVec 8

/-- The rings or elements that a repeated lock search finds, where the command that asks for it does not say (R84, R98;
log 45). -/
opaque Config.freeSearch : Nat → BitVec 144

/-- A byte that an answer holds and the manual does not state, by draw and place (log 47). -/
opaque Config.freeByte : Nat → Nat → BitVec 8

/-- Vendor, device, subsystem and serial numbers, which the manual does not give (R365; log 47). -/
opaque Config.deviceIds : BitVec 128

/-- The firmware revision string of an image, by its measurement (R365; log 47). -/
opaque Config.fwRevision : List Byte → List Byte

/-- A CXL event record of 128 bytes (R362): its layout is CXL 3.1's and its place for vendor-specific data the device's
(log 50). -/
opaque Config.eventBytes : Machine.LogEntry → List Byte

/-- What the Command Effects Log says of an opcode (R365; log 47). -/
opaque Config.celEffect : BitVec 16 → BitVec 16

/-- The layout of a flash summary block (R374; log 51). -/
opaque Config.summaryBytes : Machine.Summary → List Byte

/-- The bandwidth that the CDAT reports at a link other than x16 and 64 GT/s, in MB/s, by width and rate (R367; log 52). -/
opaque Config.cdatBandwidth : Nat → Nat → BitVec 16

/-- What a status register whose layout, or whose meaning for a selection, the manual does not state reads as, by its
offset and draw (log 64). -/
opaque Config.openRead : Nat → Nat → W32

/-- The thread, program and pc, or the cell, that a sample names (R416; log 66). -/
opaque Config.freeSample : Nat → BitVec 48

/-- The partition, seq and fence_epoch of a frame that the device originates and for which the manual states none, by draw
and FT (log 68). -/
opaque Config.freeHeader : Nat → Nat → BitVec 44

end Sys2Proof
end

