-- ==== Sys2Proof/Machine/Regs.lean ====
section
/-!
DEFINITION. The register map of chapter 20 and the field tables of the chapters it names: the place of every
register field (`Reg.<REGISTER>.<field>`) and one row per register with the masks of its field types (R10), its
reset value (R11) and whether the folio loads it as configuration (`cfg`; log 7).
-/

namespace Sys2Proof.Machine

/-- A field of a register: the register's BAR0 offset, the field's lowest bit and its width. -/
structure Fld where
  off : Nat
  lo : Nat
  width : Nat
  deriving DecidableEq, Repr

/-- One register, or an array of registers in one or two indices (R419): base offset, the two counts and strides,
the masks of its rw, rw1c, wo, rc and ro fields, whether its rw fields are configuration fields, and the reset
value by index. A bit in no mask is reserved (R9). -/
structure RegRow where
  base : Nat
  n1 : Nat
  s1 : Nat
  n2 : Nat
  s2 : Nat
  rw : Nat
  rw1c : Nat
  wo : Nat
  rc : Nat
  ro : Nat
  cfg : Bool
  reset : Nat → Nat → Nat

/-- Offset of GLB_DEVICE_ID (16 Table 16-7). -/
def Reg.GLB_DEVICE_ID.addr : Nat := 0x00000000
def Reg.GLB_DEVICE_ID.part : Fld := ⟨Reg.GLB_DEVICE_ID.addr, 0, 16⟩
def Reg.GLB_DEVICE_ID.stepping : Fld := ⟨Reg.GLB_DEVICE_ID.addr, 16, 8⟩

/-- Offset of GLB_CTL (16 Table 16-7). -/
def Reg.GLB_CTL.addr : Nat := 0x00000004
def Reg.GLB_CTL.oob_en : Fld := ⟨Reg.GLB_CTL.addr, 0, 1⟩
def Reg.GLB_CTL.i3c_en : Fld := ⟨Reg.GLB_CTL.addr, 1, 1⟩
def Reg.GLB_CTL.alert_ack : Fld := ⟨Reg.GLB_CTL.addr, 2, 1⟩

/-- Offset of GLB_STATUS (16 Table 16-7). -/
def Reg.GLB_STATUS.addr : Nat := 0x00000008
def Reg.GLB_STATUS.boot : Fld := ⟨Reg.GLB_STATUS.addr, 0, 3⟩
def Reg.GLB_STATUS.arch_hung : Fld := ⟨Reg.GLB_STATUS.addr, 3, 1⟩
def Reg.GLB_STATUS.host_up : Fld := ⟨Reg.GLB_STATUS.addr, 4, 1⟩
def Reg.GLB_STATUS.host_width : Fld := ⟨Reg.GLB_STATUS.addr, 5, 3⟩
def Reg.GLB_STATUS.host_rate : Fld := ⟨Reg.GLB_STATUS.addr, 8, 2⟩
def Reg.GLB_STATUS.alert : Fld := ⟨Reg.GLB_STATUS.addr, 10, 1⟩

/-- Offset of GLB_INT_STATUS (16 Table 16-7). -/
def Reg.GLB_INT_STATUS.addr : Nat := 0x0000000C
def Reg.GLB_INT_STATUS.mem_err : Fld := ⟨Reg.GLB_INT_STATUS.addr, 0, 1⟩
def Reg.GLB_INT_STATUS.bg_done : Fld := ⟨Reg.GLB_INT_STATUS.addr, 1, 1⟩
def Reg.GLB_INT_STATUS.arch_hung : Fld := ⟨Reg.GLB_INT_STATUS.addr, 2, 1⟩
def Reg.GLB_INT_STATUS.alm_lost : Fld := ⟨Reg.GLB_INT_STATUS.addr, 3, 1⟩
def Reg.GLB_INT_STATUS.alert : Fld := ⟨Reg.GLB_INT_STATUS.addr, 4, 1⟩
def Reg.GLB_INT_STATUS.reg_access : Fld := ⟨Reg.GLB_INT_STATUS.addr, 5, 1⟩
def Reg.GLB_INT_STATUS.hdm_unclaimed : Fld := ⟨Reg.GLB_INT_STATUS.addr, 6, 1⟩

/-- Offset of GLB_INT_ENABLE (16 Table 16-7). -/
def Reg.GLB_INT_ENABLE.addr : Nat := 0x00000010
def Reg.GLB_INT_ENABLE.mem_err : Fld := ⟨Reg.GLB_INT_ENABLE.addr, 0, 1⟩
def Reg.GLB_INT_ENABLE.bg_done : Fld := ⟨Reg.GLB_INT_ENABLE.addr, 1, 1⟩
def Reg.GLB_INT_ENABLE.arch_hung : Fld := ⟨Reg.GLB_INT_ENABLE.addr, 2, 1⟩
def Reg.GLB_INT_ENABLE.alm_lost : Fld := ⟨Reg.GLB_INT_ENABLE.addr, 3, 1⟩
def Reg.GLB_INT_ENABLE.alert : Fld := ⟨Reg.GLB_INT_ENABLE.addr, 4, 1⟩
def Reg.GLB_INT_ENABLE.reg_access : Fld := ⟨Reg.GLB_INT_ENABLE.addr, 5, 1⟩
def Reg.GLB_INT_ENABLE.hdm_unclaimed : Fld := ⟨Reg.GLB_INT_ENABLE.addr, 6, 1⟩

/-- Offset of GLB_MEM_ERR_EPOCH (16 Table 16-7). -/
def Reg.GLB_MEM_ERR_EPOCH.addr : Nat := 0x00000014
def Reg.GLB_MEM_ERR_EPOCH.value : Fld := ⟨Reg.GLB_MEM_ERR_EPOCH.addr, 0, 32⟩

/-- Offset of GLB_ALM_SEQ_LO (16 Table 16-7). -/
def Reg.GLB_ALM_SEQ_LO.addr : Nat := 0x00000018
def Reg.GLB_ALM_SEQ_LO.value : Fld := ⟨Reg.GLB_ALM_SEQ_LO.addr, 0, 32⟩

/-- Offset of GLB_ALM_SEQ_HI (16 Table 16-7). -/
def Reg.GLB_ALM_SEQ_HI.addr : Nat := 0x0000001C
def Reg.GLB_ALM_SEQ_HI.value : Fld := ⟨Reg.GLB_ALM_SEQ_HI.addr, 0, 32⟩

/-- Offset of GLB_ALM_OLDEST_LO (16 Table 16-7). -/
def Reg.GLB_ALM_OLDEST_LO.addr : Nat := 0x00000020
def Reg.GLB_ALM_OLDEST_LO.value : Fld := ⟨Reg.GLB_ALM_OLDEST_LO.addr, 0, 32⟩

/-- Offset of GLB_ALM_OLDEST_HI (16 Table 16-7). -/
def Reg.GLB_ALM_OLDEST_HI.addr : Nat := 0x00000024
def Reg.GLB_ALM_OLDEST_HI.value : Fld := ⟨Reg.GLB_ALM_OLDEST_HI.addr, 0, 32⟩

/-- Offset of GLB_ALM_CFG (16 Table 16-7). -/
def Reg.GLB_ALM_CFG.addr : Nat := 0x00000028
def Reg.GLB_ALM_CFG.alert_level : Fld := ⟨Reg.GLB_ALM_CFG.addr, 0, 3⟩
def Reg.GLB_ALM_CFG.summary_period : Fld := ⟨Reg.GLB_ALM_CFG.addr, 16, 12⟩

/-- Offset of GLB_ALM_LOST (16 Table 16-7). -/
def Reg.GLB_ALM_LOST.addr : Nat := 0x0000002C
def Reg.GLB_ALM_LOST.value : Fld := ⟨Reg.GLB_ALM_LOST.addr, 0, 32⟩

/-- Offset of GLB_CMD_MASK (16 Table 16-7). -/
def Reg.GLB_CMD_MASK.addr : Nat := 0x00000030
def Reg.GLB_CMD_MASK.host : Fld := ⟨Reg.GLB_CMD_MASK.addr, 0, 4⟩
def Reg.GLB_CMD_MASK.oob : Fld := ⟨Reg.GLB_CMD_MASK.addr, 4, 4⟩
def Reg.GLB_CMD_MASK.fabric : Fld := ⟨Reg.GLB_CMD_MASK.addr, 8, 4⟩

/-- Offset of GLB_OOB_MAC_LO (16 Table 16-7). -/
def Reg.GLB_OOB_MAC_LO.addr : Nat := 0x00000034
def Reg.GLB_OOB_MAC_LO.value : Fld := ⟨Reg.GLB_OOB_MAC_LO.addr, 0, 32⟩

/-- Offset of GLB_OOB_MAC_HI (16 Table 16-7). -/
def Reg.GLB_OOB_MAC_HI.addr : Nat := 0x00000038
def Reg.GLB_OOB_MAC_HI.value : Fld := ⟨Reg.GLB_OOB_MAC_HI.addr, 0, 16⟩

/-- Offset of GLB_HDM_CAP (16 Table 16-7). -/
def Reg.GLB_HDM_CAP.addr : Nat := 0x0000003C
def Reg.GLB_HDM_CAP.capacity : Fld := ⟨Reg.GLB_HDM_CAP.addr, 0, 12⟩

/-- Offset of GLB_RESET_CMD (16 Table 16-7). -/
def Reg.GLB_RESET_CMD.addr : Nat := 0x00000040
def Reg.GLB_RESET_CMD.key : Fld := ⟨Reg.GLB_RESET_CMD.addr, 0, 16⟩
def Reg.GLB_RESET_CMD.go : Fld := ⟨Reg.GLB_RESET_CMD.addr, 16, 1⟩

/-- Offset of GLB_INT_ROUTE (16 Table 16-7). -/
def Reg.GLB_INT_ROUTE.addr (i : Nat) : Nat := 0x00000100 + 0x4 * i
def Reg.GLB_INT_ROUTE.vector (i : Nat) : Fld := ⟨Reg.GLB_INT_ROUTE.addr i, 0, 11⟩

/-- Offset of GLB_SENSOR (16 Table 16-7). -/
def Reg.GLB_SENSOR.addr (i : Nat) : Nat := 0x00001000 + 0x4 * i
def Reg.GLB_SENSOR.temp (i : Nat) : Fld := ⟨Reg.GLB_SENSOR.addr i, 0, 16⟩

/-- Offset of GLB_RAIL (16 Table 16-7). -/
def Reg.GLB_RAIL.addr (i : Nat) : Nat := 0x00002000 + 0x4 * i
def Reg.GLB_RAIL.mv (i : Nat) : Fld := ⟨Reg.GLB_RAIL.addr i, 0, 16⟩
def Reg.GLB_RAIL.amps (i : Nat) : Fld := ⟨Reg.GLB_RAIL.addr i, 16, 16⟩

/-- Offset of EPH_CTL (02 Table 2-9). -/
def Reg.EPH_CTL.addr : Nat := 0x01000000
def Reg.EPH_CTL.role : Fld := ⟨Reg.EPH_CTL.addr, 0, 2⟩
def Reg.EPH_CTL.servo_en : Fld := ⟨Reg.EPH_CTL.addr, 2, 1⟩
def Reg.EPH_CTL.step_en : Fld := ⟨Reg.EPH_CTL.addr, 3, 1⟩
def Reg.EPH_CTL.relay_en : Fld := ⟨Reg.EPH_CTL.addr, 4, 1⟩
def Reg.EPH_CTL.pdelay_en : Fld := ⟨Reg.EPH_CTL.addr, 5, 1⟩

/-- Offset of EPH_STATUS (02 Table 2-9). -/
def Reg.EPH_STATUS.addr : Nat := 0x01000004
def Reg.EPH_STATUS.state : Fld := ⟨Reg.EPH_STATUS.addr, 0, 3⟩
def Reg.EPH_STATUS.parent_port : Fld := ⟨Reg.EPH_STATUS.addr, 3, 9⟩
def Reg.EPH_STATUS.parent_valid : Fld := ⟨Reg.EPH_STATUS.addr, 12, 1⟩
def Reg.EPH_STATUS.parent_rank : Fld := ⟨Reg.EPH_STATUS.addr, 13, 2⟩
def Reg.EPH_STATUS.source_holdover : Fld := ⟨Reg.EPH_STATUS.addr, 15, 1⟩
def Reg.EPH_STATUS.lock_count : Fld := ⟨Reg.EPH_STATUS.addr, 16, 8⟩

/-- Offset of EPH_FT_LO (02 Table 2-9). -/
def Reg.EPH_FT_LO.addr : Nat := 0x01000008
def Reg.EPH_FT_LO.value : Fld := ⟨Reg.EPH_FT_LO.addr, 0, 32⟩

/-- Offset of EPH_FT_HI (02 Table 2-9). -/
def Reg.EPH_FT_HI.addr : Nat := 0x0100000C
def Reg.EPH_FT_HI.value : Fld := ⟨Reg.EPH_FT_HI.addr, 0, 32⟩

/-- Offset of EPH_FREQ_ADJ_LO (02 Table 2-9). -/
def Reg.EPH_FREQ_ADJ_LO.addr : Nat := 0x01000010
def Reg.EPH_FREQ_ADJ_LO.value : Fld := ⟨Reg.EPH_FREQ_ADJ_LO.addr, 0, 32⟩

/-- Offset of EPH_FREQ_ADJ_HI (02 Table 2-9). -/
def Reg.EPH_FREQ_ADJ_HI.addr : Nat := 0x01000014
def Reg.EPH_FREQ_ADJ_HI.value : Fld := ⟨Reg.EPH_FREQ_ADJ_HI.addr, 0, 32⟩

/-- Offset of EPH_SERVO (02 Table 2-9). -/
def Reg.EPH_SERVO.addr : Nat := 0x01000018
def Reg.EPH_SERVO.kp_shift : Fld := ⟨Reg.EPH_SERVO.addr, 0, 4⟩
def Reg.EPH_SERVO.ki_shift : Fld := ⟨Reg.EPH_SERVO.addr, 4, 4⟩
def Reg.EPH_SERVO.outlier_limit : Fld := ⟨Reg.EPH_SERVO.addr, 8, 8⟩
def Reg.EPH_SERVO.outlier_run : Fld := ⟨Reg.EPH_SERVO.addr, 16, 4⟩
def Reg.EPH_SERVO.lock_threshold : Fld := ⟨Reg.EPH_SERVO.addr, 20, 8⟩

/-- Offset of EPH_STEP_THRESH (02 Table 2-9). -/
def Reg.EPH_STEP_THRESH.addr : Nat := 0x0100001C
def Reg.EPH_STEP_THRESH.value : Fld := ⟨Reg.EPH_STEP_THRESH.addr, 0, 32⟩

/-- Offset of EPH_OFFSET_LO (02 Table 2-9). -/
def Reg.EPH_OFFSET_LO.addr : Nat := 0x01000020
def Reg.EPH_OFFSET_LO.value : Fld := ⟨Reg.EPH_OFFSET_LO.addr, 0, 32⟩

/-- Offset of EPH_OFFSET_HI (02 Table 2-9). -/
def Reg.EPH_OFFSET_HI.addr : Nat := 0x01000024
def Reg.EPH_OFFSET_HI.value : Fld := ⟨Reg.EPH_OFFSET_HI.addr, 0, 32⟩

/-- Offset of EPH_SYNC_INTERVAL (02 Table 2-9). -/
def Reg.EPH_SYNC_INTERVAL.addr : Nat := 0x01000028
def Reg.EPH_SYNC_INTERVAL.value : Fld := ⟨Reg.EPH_SYNC_INTERVAL.addr, 0, 32⟩

/-- Offset of EPH_PDELAY_INTERVAL (02 Table 2-9). -/
def Reg.EPH_PDELAY_INTERVAL.addr : Nat := 0x0100002C
def Reg.EPH_PDELAY_INTERVAL.value : Fld := ⟨Reg.EPH_PDELAY_INTERVAL.addr, 0, 32⟩

/-- Offset of EPH_HOLDOVER_LIMIT_LO (02 Table 2-9). -/
def Reg.EPH_HOLDOVER_LIMIT_LO.addr : Nat := 0x01000030
def Reg.EPH_HOLDOVER_LIMIT_LO.value : Fld := ⟨Reg.EPH_HOLDOVER_LIMIT_LO.addr, 0, 32⟩

/-- Offset of EPH_HOLDOVER_LIMIT_HI (02 Table 2-9). -/
def Reg.EPH_HOLDOVER_LIMIT_HI.addr : Nat := 0x01000034
def Reg.EPH_HOLDOVER_LIMIT_HI.value : Fld := ⟨Reg.EPH_HOLDOVER_LIMIT_HI.addr, 0, 32⟩

/-- Offset of EPH_PARENT01 (02 Table 2-9). -/
def Reg.EPH_PARENT01.addr : Nat := 0x01000038
def Reg.EPH_PARENT01.port_a : Fld := ⟨Reg.EPH_PARENT01.addr, 0, 9⟩
def Reg.EPH_PARENT01.valid_a : Fld := ⟨Reg.EPH_PARENT01.addr, 15, 1⟩
def Reg.EPH_PARENT01.port_b : Fld := ⟨Reg.EPH_PARENT01.addr, 16, 9⟩
def Reg.EPH_PARENT01.valid_b : Fld := ⟨Reg.EPH_PARENT01.addr, 31, 1⟩

/-- Offset of EPH_PARENT23 (02 Table 2-9). -/
def Reg.EPH_PARENT23.addr : Nat := 0x0100003C
def Reg.EPH_PARENT23.port_a : Fld := ⟨Reg.EPH_PARENT23.addr, 0, 9⟩
def Reg.EPH_PARENT23.valid_a : Fld := ⟨Reg.EPH_PARENT23.addr, 15, 1⟩
def Reg.EPH_PARENT23.port_b : Fld := ⟨Reg.EPH_PARENT23.addr, 16, 9⟩
def Reg.EPH_PARENT23.valid_b : Fld := ⟨Reg.EPH_PARENT23.addr, 31, 1⟩

/-- Offset of EPH_TOD_SET_LO (02 Table 2-9). -/
def Reg.EPH_TOD_SET_LO.addr : Nat := 0x01000040
def Reg.EPH_TOD_SET_LO.value : Fld := ⟨Reg.EPH_TOD_SET_LO.addr, 0, 32⟩

/-- Offset of EPH_TOD_SET_HI (02 Table 2-9). -/
def Reg.EPH_TOD_SET_HI.addr : Nat := 0x01000044
def Reg.EPH_TOD_SET_HI.value : Fld := ⟨Reg.EPH_TOD_SET_HI.addr, 0, 32⟩

/-- Offset of EPH_PPSIN_STAMP_LO (02 Table 2-9). -/
def Reg.EPH_PPSIN_STAMP_LO.addr : Nat := 0x01000048
def Reg.EPH_PPSIN_STAMP_LO.value : Fld := ⟨Reg.EPH_PPSIN_STAMP_LO.addr, 0, 32⟩

/-- Offset of EPH_PPSIN_STAMP_HI (02 Table 2-9). -/
def Reg.EPH_PPSIN_STAMP_HI.addr : Nat := 0x0100004C
def Reg.EPH_PPSIN_STAMP_HI.value : Fld := ⟨Reg.EPH_PPSIN_STAMP_HI.addr, 0, 32⟩

/-- Offset of EPH_INT_STATUS (02 Table 2-9). -/
def Reg.EPH_INT_STATUS.addr : Nat := 0x01000050
def Reg.EPH_INT_STATUS.state_change : Fld := ⟨Reg.EPH_INT_STATUS.addr, 0, 1⟩
def Reg.EPH_INT_STATUS.outlier_run : Fld := ⟨Reg.EPH_INT_STATUS.addr, 1, 1⟩
def Reg.EPH_INT_STATUS.holdover_entry : Fld := ⟨Reg.EPH_INT_STATUS.addr, 2, 1⟩
def Reg.EPH_INT_STATUS.expired_entry : Fld := ⟨Reg.EPH_INT_STATUS.addr, 3, 1⟩
def Reg.EPH_INT_STATUS.parent_change : Fld := ⟨Reg.EPH_INT_STATUS.addr, 4, 1⟩
def Reg.EPH_INT_STATUS.pps_in_missing : Fld := ⟨Reg.EPH_INT_STATUS.addr, 5, 1⟩
def Reg.EPH_INT_STATUS.pulse_missed : Fld := ⟨Reg.EPH_INT_STATUS.addr, 6, 1⟩
def Reg.EPH_INT_STATUS.act_refused : Fld := ⟨Reg.EPH_INT_STATUS.addr, 7, 1⟩
def Reg.EPH_INT_STATUS.act_fired_late : Fld := ⟨Reg.EPH_INT_STATUS.addr, 8, 1⟩
def Reg.EPH_INT_STATUS.step_taken : Fld := ⟨Reg.EPH_INT_STATUS.addr, 9, 1⟩
def Reg.EPH_INT_STATUS.relay_drop : Fld := ⟨Reg.EPH_INT_STATUS.addr, 10, 1⟩

/-- Offset of EPH_INT_ENABLE (02 Table 2-9). -/
def Reg.EPH_INT_ENABLE.addr : Nat := 0x01000054
def Reg.EPH_INT_ENABLE.state_change : Fld := ⟨Reg.EPH_INT_ENABLE.addr, 0, 1⟩
def Reg.EPH_INT_ENABLE.outlier_run : Fld := ⟨Reg.EPH_INT_ENABLE.addr, 1, 1⟩
def Reg.EPH_INT_ENABLE.holdover_entry : Fld := ⟨Reg.EPH_INT_ENABLE.addr, 2, 1⟩
def Reg.EPH_INT_ENABLE.expired_entry : Fld := ⟨Reg.EPH_INT_ENABLE.addr, 3, 1⟩
def Reg.EPH_INT_ENABLE.parent_change : Fld := ⟨Reg.EPH_INT_ENABLE.addr, 4, 1⟩
def Reg.EPH_INT_ENABLE.pps_in_missing : Fld := ⟨Reg.EPH_INT_ENABLE.addr, 5, 1⟩
def Reg.EPH_INT_ENABLE.pulse_missed : Fld := ⟨Reg.EPH_INT_ENABLE.addr, 6, 1⟩
def Reg.EPH_INT_ENABLE.act_refused : Fld := ⟨Reg.EPH_INT_ENABLE.addr, 7, 1⟩
def Reg.EPH_INT_ENABLE.act_fired_late : Fld := ⟨Reg.EPH_INT_ENABLE.addr, 8, 1⟩
def Reg.EPH_INT_ENABLE.step_taken : Fld := ⟨Reg.EPH_INT_ENABLE.addr, 9, 1⟩
def Reg.EPH_INT_ENABLE.relay_drop : Fld := ⟨Reg.EPH_INT_ENABLE.addr, 10, 1⟩

/-- Offset of EPH_ACT_LEAD (02 Table 2-9). -/
def Reg.EPH_ACT_LEAD.addr : Nat := 0x01000058
def Reg.EPH_ACT_LEAD.value : Fld := ⟨Reg.EPH_ACT_LEAD.addr, 0, 32⟩

/-- Offset of EPH_PULSE_CTL (02 Table 2-9). -/
def Reg.EPH_PULSE_CTL.addr (i : Nat) : Nat := 0x01000100 + 0x20 * i
def Reg.EPH_PULSE_CTL.enable (i : Nat) : Fld := ⟨Reg.EPH_PULSE_CTL.addr i, 0, 1⟩
def Reg.EPH_PULSE_CTL.polarity (i : Nat) : Fld := ⟨Reg.EPH_PULSE_CTL.addr i, 1, 1⟩
def Reg.EPH_PULSE_CTL.armed (i : Nat) : Fld := ⟨Reg.EPH_PULSE_CTL.addr i, 2, 1⟩
def Reg.EPH_PULSE_CTL.missed (i : Nat) : Fld := ⟨Reg.EPH_PULSE_CTL.addr i, 3, 1⟩
def Reg.EPH_PULSE_CTL.refused (i : Nat) : Fld := ⟨Reg.EPH_PULSE_CTL.addr i, 4, 1⟩

/-- Offset of EPH_PULSE_START_LO (02 Table 2-9). -/
def Reg.EPH_PULSE_START_LO.addr (i : Nat) : Nat := 0x01000104 + 0x20 * i
def Reg.EPH_PULSE_START_LO.value (i : Nat) : Fld := ⟨Reg.EPH_PULSE_START_LO.addr i, 0, 32⟩

/-- Offset of EPH_PULSE_START_HI (02 Table 2-9). -/
def Reg.EPH_PULSE_START_HI.addr (i : Nat) : Nat := 0x01000108 + 0x20 * i
def Reg.EPH_PULSE_START_HI.value (i : Nat) : Fld := ⟨Reg.EPH_PULSE_START_HI.addr i, 0, 32⟩

/-- Offset of EPH_PULSE_PERIOD_LO (02 Table 2-9). -/
def Reg.EPH_PULSE_PERIOD_LO.addr (i : Nat) : Nat := 0x0100010C + 0x20 * i
def Reg.EPH_PULSE_PERIOD_LO.value (i : Nat) : Fld := ⟨Reg.EPH_PULSE_PERIOD_LO.addr i, 0, 32⟩

/-- Offset of EPH_PULSE_PERIOD_HI (02 Table 2-9). -/
def Reg.EPH_PULSE_PERIOD_HI.addr (i : Nat) : Nat := 0x01000110 + 0x20 * i
def Reg.EPH_PULSE_PERIOD_HI.value (i : Nat) : Fld := ⟨Reg.EPH_PULSE_PERIOD_HI.addr i, 0, 32⟩

/-- Offset of EPH_PULSE_WIDTH (02 Table 2-9). -/
def Reg.EPH_PULSE_WIDTH.addr (i : Nat) : Nat := 0x01000114 + 0x20 * i
def Reg.EPH_PULSE_WIDTH.value (i : Nat) : Fld := ⟨Reg.EPH_PULSE_WIDTH.addr i, 0, 32⟩

/-- Offset of EPH_PORT_DELAY_LO (02 Table 2-9). -/
def Reg.EPH_PORT_DELAY_LO.addr (i : Nat) : Nat := 0x01010000 + 0x10 * i
def Reg.EPH_PORT_DELAY_LO.value (i : Nat) : Fld := ⟨Reg.EPH_PORT_DELAY_LO.addr i, 0, 32⟩

/-- Offset of EPH_PORT_DELAY_HI (02 Table 2-9). -/
def Reg.EPH_PORT_DELAY_HI.addr (i : Nat) : Nat := 0x01010004 + 0x10 * i
def Reg.EPH_PORT_DELAY_HI.value (i : Nat) : Fld := ⟨Reg.EPH_PORT_DELAY_HI.addr i, 0, 32⟩

/-- Offset of EPH_PORT_ASYM (02 Table 2-9). -/
def Reg.EPH_PORT_ASYM.addr (i : Nat) : Nat := 0x01010008 + 0x10 * i
def Reg.EPH_PORT_ASYM.value (i : Nat) : Fld := ⟨Reg.EPH_PORT_ASYM.addr i, 0, 32⟩

/-- Offset of EPH_PORT_STAT (02 Table 2-9). -/
def Reg.EPH_PORT_STAT.addr (i : Nat) : Nat := 0x0101000C + 0x10 * i
def Reg.EPH_PORT_STAT.delay_valid (i : Nat) : Fld := ⟨Reg.EPH_PORT_STAT.addr i, 0, 1⟩
def Reg.EPH_PORT_STAT.parent_eligible (i : Nat) : Fld := ⟨Reg.EPH_PORT_STAT.addr i, 1, 1⟩
def Reg.EPH_PORT_STAT.relay (i : Nat) : Fld := ⟨Reg.EPH_PORT_STAT.addr i, 2, 1⟩
def Reg.EPH_PORT_STAT.pdelay_loss_run (i : Nat) : Fld := ⟨Reg.EPH_PORT_STAT.addr i, 4, 4⟩
def Reg.EPH_PORT_STAT.sync_other (i : Nat) : Fld := ⟨Reg.EPH_PORT_STAT.addr i, 8, 8⟩
def Reg.EPH_PORT_STAT.time_drops (i : Nat) : Fld := ⟨Reg.EPH_PORT_STAT.addr i, 16, 16⟩

/-- Offset of OPT_CTL (03 Table 3-5). -/
def Reg.OPT_CTL.addr (i : Nat) : Nat := 0x02000000 + 0x10000 * i
def Reg.OPT_CTL.engine_en (i : Nat) : Fld := ⟨Reg.OPT_CTL.addr i, 0, 1⟩
def Reg.OPT_CTL.lock_en (i : Nat) : Fld := ⟨Reg.OPT_CTL.addr i, 1, 1⟩
def Reg.OPT_CTL.ff_en (i : Nat) : Fld := ⟨Reg.OPT_CTL.addr i, 2, 1⟩
def Reg.OPT_CTL.fade_en (i : Nat) : Fld := ⟨Reg.OPT_CTL.addr i, 3, 1⟩
def Reg.OPT_CTL.xt_refresh_en (i : Nat) : Fld := ⟨Reg.OPT_CTL.addr i, 4, 1⟩
def Reg.OPT_CTL.recal (i : Nat) : Fld := ⟨Reg.OPT_CTL.addr i, 8, 1⟩

/-- Offset of OPT_STATUS (03 Table 3-5). -/
def Reg.OPT_STATUS.addr (i : Nat) : Nat := 0x02000004 + 0x10000 * i
def Reg.OPT_STATUS.cal_state (i : Nat) : Fld := ⟨Reg.OPT_STATUS.addr i, 0, 2⟩
def Reg.OPT_STATUS.laser_ok (i : Nat) : Fld := ⟨Reg.OPT_STATUS.addr i, 2, 1⟩
def Reg.OPT_STATUS.any_unlocked (i : Nat) : Fld := ⟨Reg.OPT_STATUS.addr i, 3, 1⟩
def Reg.OPT_STATUS.spare_ready (i : Nat) : Fld := ⟨Reg.OPT_STATUS.addr i, 4, 2⟩
def Reg.OPT_STATUS.cutover_busy (i : Nat) : Fld := ⟨Reg.OPT_STATUS.addr i, 6, 1⟩
def Reg.OPT_STATUS.unlocked_count (i : Nat) : Fld := ⟨Reg.OPT_STATUS.addr i, 8, 6⟩

/-- Offset of OPT_INT_STATUS (03 Table 3-5). -/
def Reg.OPT_INT_STATUS.addr (i : Nat) : Nat := 0x02000008 + 0x10000 * i
def Reg.OPT_INT_STATUS.lock_lost (i : Nat) : Fld := ⟨Reg.OPT_INT_STATUS.addr i, 0, 1⟩
def Reg.OPT_INT_STATUS.lock_regained (i : Nat) : Fld := ⟨Reg.OPT_INT_STATUS.addr i, 1, 1⟩
def Reg.OPT_INT_STATUS.lane_down (i : Nat) : Fld := ⟨Reg.OPT_INT_STATUS.addr i, 2, 1⟩
def Reg.OPT_INT_STATUS.fade_advisory (i : Nat) : Fld := ⟨Reg.OPT_INT_STATUS.addr i, 3, 1⟩
def Reg.OPT_INT_STATUS.cutover_start (i : Nat) : Fld := ⟨Reg.OPT_INT_STATUS.addr i, 4, 1⟩
def Reg.OPT_INT_STATUS.cutover_done (i : Nat) : Fld := ⟨Reg.OPT_INT_STATUS.addr i, 5, 1⟩
def Reg.OPT_INT_STATUS.cutover_abort (i : Nat) : Fld := ⟨Reg.OPT_INT_STATUS.addr i, 6, 1⟩
def Reg.OPT_INT_STATUS.no_spare (i : Nat) : Fld := ⟨Reg.OPT_INT_STATUS.addr i, 7, 1⟩
def Reg.OPT_INT_STATUS.headroom_out (i : Nat) : Fld := ⟨Reg.OPT_INT_STATUS.addr i, 8, 1⟩
def Reg.OPT_INT_STATUS.xt_clamp (i : Nat) : Fld := ⟨Reg.OPT_INT_STATUS.addr i, 9, 1⟩
def Reg.OPT_INT_STATUS.laser_low (i : Nat) : Fld := ⟨Reg.OPT_INT_STATUS.addr i, 10, 1⟩
def Reg.OPT_INT_STATUS.margin_low (i : Nat) : Fld := ⟨Reg.OPT_INT_STATUS.addr i, 11, 1⟩
def Reg.OPT_INT_STATUS.cal_fail (i : Nat) : Fld := ⟨Reg.OPT_INT_STATUS.addr i, 12, 1⟩

/-- Offset of OPT_INT_ENABLE (03 Table 3-5). -/
def Reg.OPT_INT_ENABLE.addr (i : Nat) : Nat := 0x0200000C + 0x10000 * i
def Reg.OPT_INT_ENABLE.lock_lost (i : Nat) : Fld := ⟨Reg.OPT_INT_ENABLE.addr i, 0, 1⟩
def Reg.OPT_INT_ENABLE.lock_regained (i : Nat) : Fld := ⟨Reg.OPT_INT_ENABLE.addr i, 1, 1⟩
def Reg.OPT_INT_ENABLE.lane_down (i : Nat) : Fld := ⟨Reg.OPT_INT_ENABLE.addr i, 2, 1⟩
def Reg.OPT_INT_ENABLE.fade_advisory (i : Nat) : Fld := ⟨Reg.OPT_INT_ENABLE.addr i, 3, 1⟩
def Reg.OPT_INT_ENABLE.cutover_start (i : Nat) : Fld := ⟨Reg.OPT_INT_ENABLE.addr i, 4, 1⟩
def Reg.OPT_INT_ENABLE.cutover_done (i : Nat) : Fld := ⟨Reg.OPT_INT_ENABLE.addr i, 5, 1⟩
def Reg.OPT_INT_ENABLE.cutover_abort (i : Nat) : Fld := ⟨Reg.OPT_INT_ENABLE.addr i, 6, 1⟩
def Reg.OPT_INT_ENABLE.no_spare (i : Nat) : Fld := ⟨Reg.OPT_INT_ENABLE.addr i, 7, 1⟩
def Reg.OPT_INT_ENABLE.headroom_out (i : Nat) : Fld := ⟨Reg.OPT_INT_ENABLE.addr i, 8, 1⟩
def Reg.OPT_INT_ENABLE.xt_clamp (i : Nat) : Fld := ⟨Reg.OPT_INT_ENABLE.addr i, 9, 1⟩
def Reg.OPT_INT_ENABLE.laser_low (i : Nat) : Fld := ⟨Reg.OPT_INT_ENABLE.addr i, 10, 1⟩
def Reg.OPT_INT_ENABLE.margin_low (i : Nat) : Fld := ⟨Reg.OPT_INT_ENABLE.addr i, 11, 1⟩
def Reg.OPT_INT_ENABLE.cal_fail (i : Nat) : Fld := ⟨Reg.OPT_INT_ENABLE.addr i, 12, 1⟩

/-- Offset of OPT_LOCK_CFG (03 Table 3-5). -/
def Reg.OPT_LOCK_CFG.addr (i : Nat) : Nat := 0x02000010 + 0x10000 * i
def Reg.OPT_LOCK_CFG.loop_shift (i : Nat) : Fld := ⟨Reg.OPT_LOCK_CFG.addr i, 0, 4⟩
def Reg.OPT_LOCK_CFG.lock_window (i : Nat) : Fld := ⟨Reg.OPT_LOCK_CFG.addr i, 4, 8⟩
def Reg.OPT_LOCK_CFG.lost_window (i : Nat) : Fld := ⟨Reg.OPT_LOCK_CFG.addr i, 12, 8⟩
def Reg.OPT_LOCK_CFG.lost_run (i : Nat) : Fld := ⟨Reg.OPT_LOCK_CFG.addr i, 20, 4⟩
def Reg.OPT_LOCK_CFG.hold_limit (i : Nat) : Fld := ⟨Reg.OPT_LOCK_CFG.addr i, 24, 8⟩

/-- Offset of OPT_FADE_CFG (03 Table 3-5). -/
def Reg.OPT_FADE_CFG.addr (i : Nat) : Nat := 0x02000014 + 0x10000 * i
def Reg.OPT_FADE_CFG.advisory_db (i : Nat) : Fld := ⟨Reg.OPT_FADE_CFG.addr i, 0, 8⟩
def Reg.OPT_FADE_CFG.cutover_db (i : Nat) : Fld := ⟨Reg.OPT_FADE_CFG.addr i, 8, 8⟩
def Reg.OPT_FADE_CFG.fast_db (i : Nat) : Fld := ⟨Reg.OPT_FADE_CFG.addr i, 16, 8⟩
def Reg.OPT_FADE_CFG.trend_db (i : Nat) : Fld := ⟨Reg.OPT_FADE_CFG.addr i, 24, 8⟩

/-- Offset of OPT_XT_CTL (03 Table 3-5). -/
def Reg.OPT_XT_CTL.addr (i : Nat) : Nat := 0x02000018 + 0x10000 * i
def Reg.OPT_XT_CTL.mu_shift (i : Nat) : Fld := ⟨Reg.OPT_XT_CTL.addr i, 0, 4⟩
def Reg.OPT_XT_CTL.xt_period (i : Nat) : Fld := ⟨Reg.OPT_XT_CTL.addr i, 8, 8⟩
def Reg.OPT_XT_CTL.swap (i : Nat) : Fld := ⟨Reg.OPT_XT_CTL.addr i, 16, 1⟩
def Reg.OPT_XT_CTL.identified (i : Nat) : Fld := ⟨Reg.OPT_XT_CTL.addr i, 17, 1⟩
def Reg.OPT_XT_CTL.clamp_count (i : Nat) : Fld := ⟨Reg.OPT_XT_CTL.addr i, 24, 8⟩

/-- Offset of OPT_LANE_MOVE (03 Table 3-5). -/
def Reg.OPT_LANE_MOVE.addr (i : Nat) : Nat := 0x0200001C + 0x10000 * i
def Reg.OPT_LANE_MOVE.duty (i : Nat) : Fld := ⟨Reg.OPT_LANE_MOVE.addr i, 0, 4⟩
def Reg.OPT_LANE_MOVE.target (i : Nat) : Fld := ⟨Reg.OPT_LANE_MOVE.addr i, 4, 1⟩
def Reg.OPT_LANE_MOVE.restore (i : Nat) : Fld := ⟨Reg.OPT_LANE_MOVE.addr i, 5, 1⟩
def Reg.OPT_LANE_MOVE.go (i : Nat) : Fld := ⟨Reg.OPT_LANE_MOVE.addr i, 6, 1⟩
def Reg.OPT_LANE_MOVE.result (i : Nat) : Fld := ⟨Reg.OPT_LANE_MOVE.addr i, 8, 2⟩

/-- Offset of OPT_TEMP (03 Table 3-5). -/
def Reg.OPT_TEMP.addr (i : Nat) (j : Nat) : Nat := 0x02000020 + 0x10000 * i + 0x4 * j
def Reg.OPT_TEMP.temp (i : Nat) (j : Nat) : Fld := ⟨Reg.OPT_TEMP.addr i j, 0, 32⟩

/-- Offset of OPT_HEATER (03 Table 3-5). -/
def Reg.OPT_HEATER.addr (i : Nat) (j : Nat) : Nat := 0x02000100 + 0x10000 * i + 0x4 * j
def Reg.OPT_HEATER.drive (i : Nat) (j : Nat) : Fld := ⟨Reg.OPT_HEATER.addr i j, 0, 16⟩
def Reg.OPT_HEATER.locked (i : Nat) (j : Nat) : Fld := ⟨Reg.OPT_HEATER.addr i j, 16, 1⟩
def Reg.OPT_HEATER.headroom_out (i : Nat) (j : Nat) : Fld := ⟨Reg.OPT_HEATER.addr i j, 17, 1⟩
def Reg.OPT_HEATER.hold (i : Nat) (j : Nat) : Fld := ⟨Reg.OPT_HEATER.addr i j, 18, 1⟩

/-- Offset of OPT_TONE (03 Table 3-5, R64). -/
def Reg.OPT_TONE.addr (i : Nat) (j : Nat) : Nat := 0x02000200 + 0x10000 * i + 0x4 * j
def Reg.OPT_TONE.tone (i : Nat) (j : Nat) : Fld := ⟨Reg.OPT_TONE.addr i j, 0, 9⟩

/-- Offset of OPT_LINE_STAT (03 Table 3-5). -/
def Reg.OPT_LINE_STAT.addr (i : Nat) (j : Nat) : Nat := 0x02000300 + 0x10000 * i + 0x10 * j
def Reg.OPT_LINE_STAT.duty (i : Nat) (j : Nat) : Fld := ⟨Reg.OPT_LINE_STAT.addr i j, 0, 5⟩
def Reg.OPT_LINE_STAT.fade_state (i : Nat) (j : Nat) : Fld := ⟨Reg.OPT_LINE_STAT.addr i j, 5, 3⟩
def Reg.OPT_LINE_STAT.provisional (i : Nat) (j : Nat) : Fld := ⟨Reg.OPT_LINE_STAT.addr i j, 8, 1⟩
def Reg.OPT_LINE_STAT.margin_low (i : Nat) (j : Nat) : Fld := ⟨Reg.OPT_LINE_STAT.addr i j, 9, 1⟩
def Reg.OPT_LINE_STAT.usable (i : Nat) (j : Nat) : Fld := ⟨Reg.OPT_LINE_STAT.addr i j, 10, 1⟩

/-- Offset of OPT_LINE_PWR (03 Table 3-5). -/
def Reg.OPT_LINE_PWR.addr (i : Nat) (j : Nat) : Nat := 0x02000304 + 0x10000 * i + 0x10 * j
def Reg.OPT_LINE_PWR.tx (i : Nat) (j : Nat) : Fld := ⟨Reg.OPT_LINE_PWR.addr i j, 0, 16⟩
def Reg.OPT_LINE_PWR.rx (i : Nat) (j : Nat) : Fld := ⟨Reg.OPT_LINE_PWR.addr i j, 16, 16⟩

/-- Offset of OPT_LINE_P0 (03 Table 3-5). -/
def Reg.OPT_LINE_P0.addr (i : Nat) (j : Nat) : Nat := 0x02000308 + 0x10000 * i + 0x10 * j
def Reg.OPT_LINE_P0.tx (i : Nat) (j : Nat) : Fld := ⟨Reg.OPT_LINE_P0.addr i j, 0, 16⟩
def Reg.OPT_LINE_P0.rx (i : Nat) (j : Nat) : Fld := ⟨Reg.OPT_LINE_P0.addr i j, 16, 16⟩

/-- Offset of OPT_LINE_AVG (03 Table 3-5). -/
def Reg.OPT_LINE_AVG.addr (i : Nat) (j : Nat) : Nat := 0x0200030C + 0x10000 * i + 0x10 * j
def Reg.OPT_LINE_AVG.tx (i : Nat) (j : Nat) : Fld := ⟨Reg.OPT_LINE_AVG.addr i j, 0, 16⟩
def Reg.OPT_LINE_AVG.rx (i : Nat) (j : Nat) : Fld := ⟨Reg.OPT_LINE_AVG.addr i j, 16, 16⟩

/-- Offset of OPT_XT_ACTIVE (03 Table 3-5). -/
def Reg.OPT_XT_ACTIVE.addr (i : Nat) (j : Nat) : Nat := 0x02001000 + 0x10000 * i + 0x4 * j
def Reg.OPT_XT_ACTIVE.value (i : Nat) (j : Nat) : Fld := ⟨Reg.OPT_XT_ACTIVE.addr i j, 0, 32⟩

/-- Offset of OPT_XT_SHADOW (03 Table 3-5). -/
def Reg.OPT_XT_SHADOW.addr (i : Nat) (j : Nat) : Nat := 0x02002000 + 0x10000 * i + 0x4 * j
def Reg.OPT_XT_SHADOW.value (i : Nat) (j : Nat) : Fld := ⟨Reg.OPT_XT_SHADOW.addr i j, 0, 32⟩

/-- Offset of TRN_CTL (04 Table 4-6). -/
def Reg.TRN_CTL.addr : Nat := 0x03000000
def Reg.TRN_CTL.transit_en : Fld := ⟨Reg.TRN_CTL.addr, 0, 1⟩
def Reg.TRN_CTL.elem_lock_en : Fld := ⟨Reg.TRN_CTL.addr, 1, 1⟩
def Reg.TRN_CTL.standin_en : Fld := ⟨Reg.TRN_CTL.addr, 2, 1⟩
def Reg.TRN_CTL.recal_plane : Fld := ⟨Reg.TRN_CTL.addr, 8, 5⟩
def Reg.TRN_CTL.recal : Fld := ⟨Reg.TRN_CTL.addr, 13, 1⟩

/-- Offset of TRN_STATUS (04 Table 4-6). -/
def Reg.TRN_STATUS.addr : Nat := 0x03000004
def Reg.TRN_STATUS.entry : Fld := ⟨Reg.TRN_STATUS.addr, 0, 12⟩
def Reg.TRN_STATUS.cal_running : Fld := ⟨Reg.TRN_STATUS.addr, 12, 1⟩
def Reg.TRN_STATUS.compiling : Fld := ⟨Reg.TRN_STATUS.addr, 13, 1⟩

/-- Offset of TRN_INT_STATUS (04 Table 4-6). -/
def Reg.TRN_INT_STATUS.addr : Nat := 0x03000008
def Reg.TRN_INT_STATUS.plane_unusable : Fld := ⟨Reg.TRN_INT_STATUS.addr, 0, 1⟩
def Reg.TRN_INT_STATUS.plane_failed : Fld := ⟨Reg.TRN_INT_STATUS.addr, 1, 1⟩
def Reg.TRN_INT_STATUS.plane_usable : Fld := ⟨Reg.TRN_INT_STATUS.addr, 2, 1⟩
def Reg.TRN_INT_STATUS.standin_start : Fld := ⟨Reg.TRN_INT_STATUS.addr, 3, 1⟩
def Reg.TRN_INT_STATUS.standin_none : Fld := ⟨Reg.TRN_INT_STATUS.addr, 4, 1⟩
def Reg.TRN_INT_STATUS.perm_busy : Fld := ⟨Reg.TRN_INT_STATUS.addr, 5, 1⟩
def Reg.TRN_INT_STATUS.shadow_err : Fld := ⟨Reg.TRN_INT_STATUS.addr, 6, 1⟩
def Reg.TRN_INT_STATUS.latch_fault : Fld := ⟨Reg.TRN_INT_STATUS.addr, 7, 1⟩

/-- Offset of TRN_INT_ENABLE (04 Table 4-6). -/
def Reg.TRN_INT_ENABLE.addr : Nat := 0x0300000C
def Reg.TRN_INT_ENABLE.plane_unusable : Fld := ⟨Reg.TRN_INT_ENABLE.addr, 0, 1⟩
def Reg.TRN_INT_ENABLE.plane_failed : Fld := ⟨Reg.TRN_INT_ENABLE.addr, 1, 1⟩
def Reg.TRN_INT_ENABLE.plane_usable : Fld := ⟨Reg.TRN_INT_ENABLE.addr, 2, 1⟩
def Reg.TRN_INT_ENABLE.standin_start : Fld := ⟨Reg.TRN_INT_ENABLE.addr, 3, 1⟩
def Reg.TRN_INT_ENABLE.standin_none : Fld := ⟨Reg.TRN_INT_ENABLE.addr, 4, 1⟩
def Reg.TRN_INT_ENABLE.perm_busy : Fld := ⟨Reg.TRN_INT_ENABLE.addr, 5, 1⟩
def Reg.TRN_INT_ENABLE.shadow_err : Fld := ⟨Reg.TRN_INT_ENABLE.addr, 6, 1⟩
def Reg.TRN_INT_ENABLE.latch_fault : Fld := ⟨Reg.TRN_INT_ENABLE.addr, 7, 1⟩

/-- Offset of TRN_CAL_ACT_LO (04 Table 4-6). -/
def Reg.TRN_CAL_ACT_LO.addr : Nat := 0x03000010
def Reg.TRN_CAL_ACT_LO.value : Fld := ⟨Reg.TRN_CAL_ACT_LO.addr, 0, 32⟩

/-- Offset of TRN_CAL_ACT_HI (04 Table 4-6). -/
def Reg.TRN_CAL_ACT_HI.addr : Nat := 0x03000014
def Reg.TRN_CAL_ACT_HI.value : Fld := ⟨Reg.TRN_CAL_ACT_HI.addr, 0, 32⟩

/-- Offset of TRN_CAL_ACT_STATUS (04 Table 4-6). -/
def Reg.TRN_CAL_ACT_STATUS.addr : Nat := 0x03000018
def Reg.TRN_CAL_ACT_STATUS.act_state : Fld := ⟨Reg.TRN_CAL_ACT_STATUS.addr, 0, 2⟩
def Reg.TRN_CAL_ACT_STATUS.act_reason : Fld := ⟨Reg.TRN_CAL_ACT_STATUS.addr, 2, 4⟩
def Reg.TRN_CAL_ACT_STATUS.arm : Fld := ⟨Reg.TRN_CAL_ACT_STATUS.addr, 6, 1⟩
def Reg.TRN_CAL_ACT_STATUS.cancel : Fld := ⟨Reg.TRN_CAL_ACT_STATUS.addr, 7, 1⟩
def Reg.TRN_CAL_ACT_STATUS.err_entry : Fld := ⟨Reg.TRN_CAL_ACT_STATUS.addr, 16, 12⟩
def Reg.TRN_CAL_ACT_STATUS.err_cause : Fld := ⟨Reg.TRN_CAL_ACT_STATUS.addr, 28, 2⟩

/-- Offset of TRN_CAL_LEN (04 Table 4-6). -/
def Reg.TRN_CAL_LEN.addr : Nat := 0x0300001C
def Reg.TRN_CAL_LEN.shadow : Fld := ⟨Reg.TRN_CAL_LEN.addr, 0, 12⟩
def Reg.TRN_CAL_LEN.active : Fld := ⟨Reg.TRN_CAL_LEN.addr, 16, 12⟩

/-- Offset of TRN_PERM_COMMIT (04 Table 4-6). -/
def Reg.TRN_PERM_COMMIT.addr : Nat := 0x03000020
def Reg.TRN_PERM_COMMIT.index : Fld := ⟨Reg.TRN_PERM_COMMIT.addr, 0, 12⟩
def Reg.TRN_PERM_COMMIT.commit : Fld := ⟨Reg.TRN_PERM_COMMIT.addr, 12, 1⟩
def Reg.TRN_PERM_COMMIT.committed : Fld := ⟨Reg.TRN_PERM_COMMIT.addr, 13, 1⟩
def Reg.TRN_PERM_COMMIT.result : Fld := ⟨Reg.TRN_PERM_COMMIT.addr, 14, 2⟩

/-- Offset of TRN_ELEM_CFG (04 Table 4-6). -/
def Reg.TRN_ELEM_CFG.addr : Nat := 0x03000024
def Reg.TRN_ELEM_CFG.elem_hold_limit : Fld := ⟨Reg.TRN_ELEM_CFG.addr, 0, 8⟩

/-- Offset of TRN_UMBRA_CTL (04 Table 4-6). -/
def Reg.TRN_UMBRA_CTL.addr : Nat := 0x03000028
def Reg.TRN_UMBRA_CTL.snap : Fld := ⟨Reg.TRN_UMBRA_CTL.addr, 0, 1⟩
def Reg.TRN_UMBRA_CTL.release : Fld := ⟨Reg.TRN_UMBRA_CTL.addr, 1, 1⟩
def Reg.TRN_UMBRA_CTL.hold_at_start : Fld := ⟨Reg.TRN_UMBRA_CTL.addr, 2, 1⟩
def Reg.TRN_UMBRA_CTL.map_busy : Fld := ⟨Reg.TRN_UMBRA_CTL.addr, 3, 1⟩

/-- Offset of TRN_UMBRA_STAT (04 Table 4-6). -/
def Reg.TRN_UMBRA_STAT.addr : Nat := 0x0300002C
def Reg.TRN_UMBRA_STAT.latched : Fld := ⟨Reg.TRN_UMBRA_STAT.addr, 0, 32⟩

/-- Offset of TRN_PLANE_STAT (04 Table 4-6). -/
def Reg.TRN_PLANE_STAT.addr (i : Nat) : Nat := 0x03000040 + 0x4 * i
def Reg.TRN_PLANE_STAT.state (i : Nat) : Fld := ⟨Reg.TRN_PLANE_STAT.addr i, 0, 3⟩
def Reg.TRN_PLANE_STAT.locked (i : Nat) : Fld := ⟨Reg.TRN_PLANE_STAT.addr i, 3, 1⟩
def Reg.TRN_PLANE_STAT.unlocked_elems (i : Nat) : Fld := ⟨Reg.TRN_PLANE_STAT.addr i, 4, 8⟩
def Reg.TRN_PLANE_STAT.standin_for (i : Nat) : Fld := ⟨Reg.TRN_PLANE_STAT.addr i, 12, 5⟩
def Reg.TRN_PLANE_STAT.latency (i : Nat) : Fld := ⟨Reg.TRN_PLANE_STAT.addr i, 20, 9⟩

/-- Offset of TRN_UMBRA_MAP (04 Table 4-6). -/
def Reg.TRN_UMBRA_MAP.addr (i : Nat) : Nat := 0x03000100 + 0x4 * i
def Reg.TRN_UMBRA_MAP.value (i : Nat) : Fld := ⟨Reg.TRN_UMBRA_MAP.addr i, 0, 32⟩

/-- Offset of TRN_LATCH_CYCLES (04 Table 4-6). -/
def Reg.TRN_LATCH_CYCLES.addr (i : Nat) : Nat := 0x03000200 + 0x4 * i
def Reg.TRN_LATCH_CYCLES.value (i : Nat) : Fld := ⟨Reg.TRN_LATCH_CYCLES.addr i, 0, 32⟩

/-- Offset of TRN_PERM (04 Table 4-6). -/
def Reg.TRN_PERM.addr (i : Nat) : Nat := 0x03010000 + 0x4 * i
def Reg.TRN_PERM.value (i : Nat) : Fld := ⟨Reg.TRN_PERM.addr i, 0, 32⟩

/-- Offset of TRN_CAL_ACTIVE (04 Table 4-6). -/
def Reg.TRN_CAL_ACTIVE.addr (i : Nat) : Nat := 0x03040000 + 0x4 * i
def Reg.TRN_CAL_ACTIVE.value (i : Nat) : Fld := ⟨Reg.TRN_CAL_ACTIVE.addr i, 0, 32⟩

/-- Offset of TRN_CAL_SHADOW (04 Table 4-6). -/
def Reg.TRN_CAL_SHADOW.addr (i : Nat) : Nat := 0x03060000 + 0x4 * i
def Reg.TRN_CAL_SHADOW.value (i : Nat) : Fld := ⟨Reg.TRN_CAL_SHADOW.addr i, 0, 32⟩

/-- Offset of LNK_CTL (05 Table 5-12). -/
def Reg.LNK_CTL.addr (i : Nat) : Nat := 0x04000000 + 0x1000 * i
def Reg.LNK_CTL.port_en (i : Nat) : Fld := ⟨Reg.LNK_CTL.addr i, 0, 1⟩
def Reg.LNK_CTL.port_reset (i : Nat) : Fld := ⟨Reg.LNK_CTL.addr i, 1, 1⟩
def Reg.LNK_CTL.train_timeout (i : Nat) : Fld := ⟨Reg.LNK_CTL.addr i, 8, 8⟩

/-- Offset of LNK_STATUS (05 Table 5-12). -/
def Reg.LNK_STATUS.addr (i : Nat) : Nat := 0x04000004 + 0x1000 * i
def Reg.LNK_STATUS.state (i : Nat) : Fld := ⟨Reg.LNK_STATUS.addr i, 0, 2⟩
def Reg.LNK_STATUS.fence (i : Nat) : Fld := ⟨Reg.LNK_STATUS.addr i, 2, 2⟩
def Reg.LNK_STATUS.held (i : Nat) : Fld := ⟨Reg.LNK_STATUS.addr i, 4, 1⟩
def Reg.LNK_STATUS.peer_valid (i : Nat) : Fld := ⟨Reg.LNK_STATUS.addr i, 5, 1⟩
def Reg.LNK_STATUS.carrier (i : Nat) : Fld := ⟨Reg.LNK_STATUS.addr i, 6, 5⟩
def Reg.LNK_STATUS.down_cause (i : Nat) : Fld := ⟨Reg.LNK_STATUS.addr i, 12, 4⟩

/-- Offset of LNK_INT_STATUS (05 Table 5-12). -/
def Reg.LNK_INT_STATUS.addr (i : Nat) : Nat := 0x04000008 + 0x1000 * i
def Reg.LNK_INT_STATUS.link_up (i : Nat) : Fld := ⟨Reg.LNK_INT_STATUS.addr i, 0, 1⟩
def Reg.LNK_INT_STATUS.link_down (i : Nat) : Fld := ⟨Reg.LNK_INT_STATUS.addr i, 1, 1⟩
def Reg.LNK_INT_STATUS.retry_burst (i : Nat) : Fld := ⟨Reg.LNK_INT_STATUS.addr i, 2, 1⟩
def Reg.LNK_INT_STATUS.malformed (i : Nat) : Fld := ⟨Reg.LNK_INT_STATUS.addr i, 3, 1⟩
def Reg.LNK_INT_STATUS.credit_viol (i : Nat) : Fld := ⟨Reg.LNK_INT_STATUS.addr i, 4, 1⟩
def Reg.LNK_INT_STATUS.fence_change (i : Nat) : Fld := ⟨Reg.LNK_INT_STATUS.addr i, 5, 1⟩

/-- Offset of LNK_INT_ENABLE (05 Table 5-12). -/
def Reg.LNK_INT_ENABLE.addr (i : Nat) : Nat := 0x0400000C + 0x1000 * i
def Reg.LNK_INT_ENABLE.link_up (i : Nat) : Fld := ⟨Reg.LNK_INT_ENABLE.addr i, 0, 1⟩
def Reg.LNK_INT_ENABLE.link_down (i : Nat) : Fld := ⟨Reg.LNK_INT_ENABLE.addr i, 1, 1⟩
def Reg.LNK_INT_ENABLE.retry_burst (i : Nat) : Fld := ⟨Reg.LNK_INT_ENABLE.addr i, 2, 1⟩
def Reg.LNK_INT_ENABLE.malformed (i : Nat) : Fld := ⟨Reg.LNK_INT_ENABLE.addr i, 3, 1⟩
def Reg.LNK_INT_ENABLE.credit_viol (i : Nat) : Fld := ⟨Reg.LNK_INT_ENABLE.addr i, 4, 1⟩
def Reg.LNK_INT_ENABLE.fence_change (i : Nat) : Fld := ⟨Reg.LNK_INT_ENABLE.addr i, 5, 1⟩

/-- Offset of LNK_FENCE (05 Table 5-12). -/
def Reg.LNK_FENCE.addr (i : Nat) : Nat := 0x04000010 + 0x1000 * i
def Reg.LNK_FENCE.state (i : Nat) : Fld := ⟨Reg.LNK_FENCE.addr i, 0, 2⟩

/-- Offset of LNK_RETRY_CFG (05 Table 5-12). -/
def Reg.LNK_RETRY_CFG.addr (i : Nat) : Nat := 0x04000014 + 0x1000 * i
def Reg.LNK_RETRY_CFG.ack_delay (i : Nat) : Fld := ⟨Reg.LNK_RETRY_CFG.addr i, 0, 8⟩
def Reg.LNK_RETRY_CFG.ack_timeout (i : Nat) : Fld := ⟨Reg.LNK_RETRY_CFG.addr i, 8, 8⟩
def Reg.LNK_RETRY_CFG.retry_limit (i : Nat) : Fld := ⟨Reg.LNK_RETRY_CFG.addr i, 16, 4⟩

/-- Offset of LNK_PEER_ID (05 Table 5-12). -/
def Reg.LNK_PEER_ID.addr (i : Nat) : Nat := 0x04000018 + 0x1000 * i
def Reg.LNK_PEER_ID.value (i : Nat) : Fld := ⟨Reg.LNK_PEER_ID.addr i, 0, 32⟩

/-- Offset of LNK_PEER_PORT (05 Table 5-12). -/
def Reg.LNK_PEER_PORT.addr (i : Nat) : Nat := 0x0400001C + 0x1000 * i
def Reg.LNK_PEER_PORT.value (i : Nat) : Fld := ⟨Reg.LNK_PEER_PORT.addr i, 0, 32⟩

/-- Offset of LNK_SEQ (05 Table 5-12). -/
def Reg.LNK_SEQ.addr (i : Nat) : Nat := 0x04000020 + 0x1000 * i
def Reg.LNK_SEQ.tx (i : Nat) : Fld := ⟨Reg.LNK_SEQ.addr i, 0, 15⟩
def Reg.LNK_SEQ.rx (i : Nat) : Fld := ⟨Reg.LNK_SEQ.addr i, 16, 15⟩

/-- Offset of LNK_CREDIT_GRANT (05 Table 5-12, Table 5-6). -/
def Reg.LNK_CREDIT_GRANT.addr (i : Nat) (j : Nat) : Nat := 0x04000040 + 0x1000 * i + 0x4 * j
def Reg.LNK_CREDIT_GRANT.grant (i : Nat) (j : Nat) : Fld := ⟨Reg.LNK_CREDIT_GRANT.addr i j, 0, 24⟩

/-- Offset of LNK_CREDIT_AVAIL (05 Table 5-12). -/
def Reg.LNK_CREDIT_AVAIL.addr (i : Nat) (j : Nat) : Nat := 0x04000060 + 0x1000 * i + 0x4 * j
def Reg.LNK_CREDIT_AVAIL.avail (i : Nat) (j : Nat) : Fld := ⟨Reg.LNK_CREDIT_AVAIL.addr i j, 0, 24⟩

/-- Offset of LNK_CNT_FEC_CORR (05 Table 5-12). -/
def Reg.LNK_CNT_FEC_CORR.addr (i : Nat) : Nat := 0x04000100 + 0x1000 * i
def Reg.LNK_CNT_FEC_CORR.value (i : Nat) : Fld := ⟨Reg.LNK_CNT_FEC_CORR.addr i, 0, 32⟩

/-- Offset of LNK_CNT_FEC_UNCORR (05 Table 5-12). -/
def Reg.LNK_CNT_FEC_UNCORR.addr (i : Nat) : Nat := 0x04000104 + 0x1000 * i
def Reg.LNK_CNT_FEC_UNCORR.value (i : Nat) : Fld := ⟨Reg.LNK_CNT_FEC_UNCORR.addr i, 0, 32⟩

/-- Offset of LNK_CNT_RETRY_REQ (05 Table 5-12). -/
def Reg.LNK_CNT_RETRY_REQ.addr (i : Nat) : Nat := 0x04000108 + 0x1000 * i
def Reg.LNK_CNT_RETRY_REQ.value (i : Nat) : Fld := ⟨Reg.LNK_CNT_RETRY_REQ.addr i, 0, 32⟩

/-- Offset of LNK_CNT_REPLAY (05 Table 5-12). -/
def Reg.LNK_CNT_REPLAY.addr (i : Nat) : Nat := 0x0400010C + 0x1000 * i
def Reg.LNK_CNT_REPLAY.value (i : Nat) : Fld := ⟨Reg.LNK_CNT_REPLAY.addr i, 0, 32⟩

/-- Offset of LNK_CNT_HDR_ERR (05 Table 5-12). -/
def Reg.LNK_CNT_HDR_ERR.addr (i : Nat) : Nat := 0x04000110 + 0x1000 * i
def Reg.LNK_CNT_HDR_ERR.value (i : Nat) : Fld := ⟨Reg.LNK_CNT_HDR_ERR.addr i, 0, 32⟩

/-- Offset of LNK_CNT_STOMP (05 Table 5-12). -/
def Reg.LNK_CNT_STOMP.addr (i : Nat) : Nat := 0x04000114 + 0x1000 * i
def Reg.LNK_CNT_STOMP.value (i : Nat) : Fld := ⟨Reg.LNK_CNT_STOMP.addr i, 0, 32⟩

/-- Offset of LNK_CNT_MALFORMED (05 Table 5-12). -/
def Reg.LNK_CNT_MALFORMED.addr (i : Nat) : Nat := 0x04000118 + 0x1000 * i
def Reg.LNK_CNT_MALFORMED.value (i : Nat) : Fld := ⟨Reg.LNK_CNT_MALFORMED.addr i, 0, 32⟩

/-- Offset of LNK_CNT_CREDIT_VIOL (05 Table 5-12). -/
def Reg.LNK_CNT_CREDIT_VIOL.addr (i : Nat) : Nat := 0x0400011C + 0x1000 * i
def Reg.LNK_CNT_CREDIT_VIOL.value (i : Nat) : Fld := ⟨Reg.LNK_CNT_CREDIT_VIOL.addr i, 0, 32⟩

/-- Offset of LNK_CNT_FENCE_DROP (05 Table 5-12). -/
def Reg.LNK_CNT_FENCE_DROP.addr (i : Nat) : Nat := 0x04000120 + 0x1000 * i
def Reg.LNK_CNT_FENCE_DROP.value (i : Nat) : Fld := ⟨Reg.LNK_CNT_FENCE_DROP.addr i, 0, 32⟩

/-- Offset of LNK_CNT_PATHFAIL (05 Table 5-12). -/
def Reg.LNK_CNT_PATHFAIL.addr (i : Nat) : Nat := 0x04000124 + 0x1000 * i
def Reg.LNK_CNT_PATHFAIL.value (i : Nat) : Fld := ⟨Reg.LNK_CNT_PATHFAIL.addr i, 0, 32⟩

/-- Offset of LNK_CNT_LINKDOWN_DROP (05 Table 5-12). -/
def Reg.LNK_CNT_LINKDOWN_DROP.addr (i : Nat) : Nat := 0x04000128 + 0x1000 * i
def Reg.LNK_CNT_LINKDOWN_DROP.value (i : Nat) : Fld := ⟨Reg.LNK_CNT_LINKDOWN_DROP.addr i, 0, 32⟩

/-- Offset of FWD_CTL (06 Table 6-9). -/
def Reg.FWD_CTL.addr : Nat := 0x06000000
def Reg.FWD_CTL.learn_en : Fld := ⟨Reg.FWD_CTL.addr, 0, 1⟩
def Reg.FWD_CTL.age_en : Fld := ⟨Reg.FWD_CTL.addr, 1, 1⟩
def Reg.FWD_CTL.idx_en : Fld := ⟨Reg.FWD_CTL.addr, 2, 1⟩
def Reg.FWD_CTL.sweep_period : Fld := ⟨Reg.FWD_CTL.addr, 8, 8⟩

/-- Offset of FWD_STATUS (06 Table 6-9). -/
def Reg.FWD_STATUS.addr : Nat := 0x06000004
def Reg.FWD_STATUS.rehash_busy : Fld := ⟨Reg.FWD_STATUS.addr, 0, 1⟩
def Reg.FWD_STATUS.overflow_used : Fld := ⟨Reg.FWD_STATUS.addr, 1, 1⟩
def Reg.FWD_STATUS.overflow_full : Fld := ⟨Reg.FWD_STATUS.addr, 2, 1⟩

/-- Offset of FWD_INT_STATUS (06 Table 6-9). -/
def Reg.FWD_INT_STATUS.addr : Nat := 0x06000008
def Reg.FWD_INT_STATUS.rehash_req : Fld := ⟨Reg.FWD_INT_STATUS.addr, 0, 1⟩
def Reg.FWD_INT_STATUS.rehash_done : Fld := ⟨Reg.FWD_INT_STATUS.addr, 1, 1⟩
def Reg.FWD_INT_STATUS.cat_full : Fld := ⟨Reg.FWD_INT_STATUS.addr, 2, 1⟩
def Reg.FWD_INT_STATUS.conflict : Fld := ⟨Reg.FWD_INT_STATUS.addr, 3, 1⟩
def Reg.FWD_INT_STATUS.ann_reject : Fld := ⟨Reg.FWD_INT_STATUS.addr, 4, 1⟩
def Reg.FWD_INT_STATUS.mc_refused : Fld := ⟨Reg.FWD_INT_STATUS.addr, 5, 1⟩

/-- Offset of FWD_INT_ENABLE (06 Table 6-9). -/
def Reg.FWD_INT_ENABLE.addr : Nat := 0x0600000C
def Reg.FWD_INT_ENABLE.rehash_req : Fld := ⟨Reg.FWD_INT_ENABLE.addr, 0, 1⟩
def Reg.FWD_INT_ENABLE.rehash_done : Fld := ⟨Reg.FWD_INT_ENABLE.addr, 1, 1⟩
def Reg.FWD_INT_ENABLE.cat_full : Fld := ⟨Reg.FWD_INT_ENABLE.addr, 2, 1⟩
def Reg.FWD_INT_ENABLE.conflict : Fld := ⟨Reg.FWD_INT_ENABLE.addr, 3, 1⟩
def Reg.FWD_INT_ENABLE.ann_reject : Fld := ⟨Reg.FWD_INT_ENABLE.addr, 4, 1⟩
def Reg.FWD_INT_ENABLE.mc_refused : Fld := ⟨Reg.FWD_INT_ENABLE.addr, 5, 1⟩

/-- Offset of FWD_CAT_SEED (06 Table 6-9). -/
def Reg.FWD_CAT_SEED.addr : Nat := 0x06000010
def Reg.FWD_CAT_SEED.seed : Fld := ⟨Reg.FWD_CAT_SEED.addr, 0, 17⟩

/-- Offset of FWD_CAT_ACTIVE_SEED (06 Table 6-9). -/
def Reg.FWD_CAT_ACTIVE_SEED.addr : Nat := 0x06000014
def Reg.FWD_CAT_ACTIVE_SEED.seed : Fld := ⟨Reg.FWD_CAT_ACTIVE_SEED.addr, 0, 17⟩

/-- Offset of FWD_CAT_REHASH (06 Table 6-9). -/
def Reg.FWD_CAT_REHASH.addr : Nat := 0x06000018
def Reg.FWD_CAT_REHASH.go : Fld := ⟨Reg.FWD_CAT_REHASH.addr, 0, 1⟩
def Reg.FWD_CAT_REHASH.busy : Fld := ⟨Reg.FWD_CAT_REHASH.addr, 1, 1⟩
def Reg.FWD_CAT_REHASH.result : Fld := ⟨Reg.FWD_CAT_REHASH.addr, 2, 2⟩
def Reg.FWD_CAT_REHASH.left_in_overflow : Fld := ⟨Reg.FWD_CAT_REHASH.addr, 4, 11⟩

/-- Offset of FWD_CAT_COUNT (06 Table 6-9). -/
def Reg.FWD_CAT_COUNT.addr : Nat := 0x0600001C
def Reg.FWD_CAT_COUNT.buckets : Fld := ⟨Reg.FWD_CAT_COUNT.addr, 0, 17⟩
def Reg.FWD_CAT_COUNT.overflow : Fld := ⟨Reg.FWD_CAT_COUNT.addr, 17, 11⟩

/-- Offset of FWD_CAT_CMD (06 Table 6-9). -/
def Reg.FWD_CAT_CMD.addr : Nat := 0x06000020
def Reg.FWD_CAT_CMD.node : Fld := ⟨Reg.FWD_CAT_CMD.addr, 0, 17⟩
def Reg.FWD_CAT_CMD.op : Fld := ⟨Reg.FWD_CAT_CMD.addr, 17, 2⟩
def Reg.FWD_CAT_CMD.go : Fld := ⟨Reg.FWD_CAT_CMD.addr, 19, 1⟩
def Reg.FWD_CAT_CMD.status : Fld := ⟨Reg.FWD_CAT_CMD.addr, 20, 2⟩

/-- Offset of FWD_CAT_ARG (06 Table 6-9). -/
def Reg.FWD_CAT_ARG.addr : Nat := 0x06000024
def Reg.FWD_CAT_ARG.port : Fld := ⟨Reg.FWD_CAT_ARG.addr, 0, 9⟩
def Reg.FWD_CAT_ARG.incarnation : Fld := ⟨Reg.FWD_CAT_ARG.addr, 16, 16⟩

/-- Offset of FWD_CAT_RESULT (06 Table 6-9). -/
def Reg.FWD_CAT_RESULT.addr : Nat := 0x06000028
def Reg.FWD_CAT_RESULT.port : Fld := ⟨Reg.FWD_CAT_RESULT.addr, 0, 9⟩
def Reg.FWD_CAT_RESULT.valid : Fld := ⟨Reg.FWD_CAT_RESULT.addr, 9, 1⟩
def Reg.FWD_CAT_RESULT.frozen : Fld := ⟨Reg.FWD_CAT_RESULT.addr, 10, 1⟩
def Reg.FWD_CAT_RESULT.hit : Fld := ⟨Reg.FWD_CAT_RESULT.addr, 11, 1⟩
def Reg.FWD_CAT_RESULT.miss : Fld := ⟨Reg.FWD_CAT_RESULT.addr, 12, 1⟩
def Reg.FWD_CAT_RESULT.overflow : Fld := ⟨Reg.FWD_CAT_RESULT.addr, 13, 1⟩
def Reg.FWD_CAT_RESULT.incarnation : Fld := ⟨Reg.FWD_CAT_RESULT.addr, 16, 16⟩

/-- Offset of FWD_CONFLICT (06 Table 6-9). -/
def Reg.FWD_CONFLICT.addr : Nat := 0x0600002C
def Reg.FWD_CONFLICT.node : Fld := ⟨Reg.FWD_CONFLICT.addr, 0, 17⟩
def Reg.FWD_CONFLICT.port : Fld := ⟨Reg.FWD_CONFLICT.addr, 17, 9⟩

/-- Offset of FWD_IDX_HASH_COUNT (06 Table 6-9). -/
def Reg.FWD_IDX_HASH_COUNT.addr : Nat := 0x06000040
def Reg.FWD_IDX_HASH_COUNT.count : Fld := ⟨Reg.FWD_IDX_HASH_COUNT.addr, 0, 19⟩

/-- Offset of FWD_IDX_TRIE_COUNT (06 Table 6-9). -/
def Reg.FWD_IDX_TRIE_COUNT.addr : Nat := 0x06000044
def Reg.FWD_IDX_TRIE_COUNT.trie : Fld := ⟨Reg.FWD_IDX_TRIE_COUNT.addr, 0, 16⟩
def Reg.FWD_IDX_TRIE_COUNT.cat : Fld := ⟨Reg.FWD_IDX_TRIE_COUNT.addr, 16, 11⟩

/-- Offset of FWD_IDX_SEED_LO (06 Table 6-9). -/
def Reg.FWD_IDX_SEED_LO.addr : Nat := 0x06000048
def Reg.FWD_IDX_SEED_LO.value : Fld := ⟨Reg.FWD_IDX_SEED_LO.addr, 0, 32⟩

/-- Offset of FWD_IDX_SEED_HI (06 Table 6-9). -/
def Reg.FWD_IDX_SEED_HI.addr : Nat := 0x0600004C
def Reg.FWD_IDX_SEED_HI.value : Fld := ⟨Reg.FWD_IDX_SEED_HI.addr, 0, 32⟩

/-- Offset of FWD_IDX_QUERY_LO (06 Table 6-9). -/
def Reg.FWD_IDX_QUERY_LO.addr : Nat := 0x06000050
def Reg.FWD_IDX_QUERY_LO.value : Fld := ⟨Reg.FWD_IDX_QUERY_LO.addr, 0, 32⟩

/-- Offset of FWD_IDX_QUERY_HI (06 Table 6-9). -/
def Reg.FWD_IDX_QUERY_HI.addr : Nat := 0x06000054
def Reg.FWD_IDX_QUERY_HI.value : Fld := ⟨Reg.FWD_IDX_QUERY_HI.addr, 0, 32⟩

/-- Offset of FWD_IDX_QUERY_CTL (06 Table 6-9). -/
def Reg.FWD_IDX_QUERY_CTL.addr : Nat := 0x06000058
def Reg.FWD_IDX_QUERY_CTL.partition : Fld := ⟨Reg.FWD_IDX_QUERY_CTL.addr, 0, 12⟩
def Reg.FWD_IDX_QUERY_CTL.go : Fld := ⟨Reg.FWD_IDX_QUERY_CTL.addr, 12, 1⟩
def Reg.FWD_IDX_QUERY_CTL.done : Fld := ⟨Reg.FWD_IDX_QUERY_CTL.addr, 13, 1⟩

/-- Offset of FWD_IDX_QUERY_RESULT (06 Table 6-9). -/
def Reg.FWD_IDX_QUERY_RESULT.addr : Nat := 0x0600005C
def Reg.FWD_IDX_QUERY_RESULT.len : Fld := ⟨Reg.FWD_IDX_QUERY_RESULT.addr, 0, 7⟩
def Reg.FWD_IDX_QUERY_RESULT.kind : Fld := ⟨Reg.FWD_IDX_QUERY_RESULT.addr, 7, 2⟩
def Reg.FWD_IDX_QUERY_RESULT.hit : Fld := ⟨Reg.FWD_IDX_QUERY_RESULT.addr, 9, 1⟩
def Reg.FWD_IDX_QUERY_RESULT.trie : Fld := ⟨Reg.FWD_IDX_QUERY_RESULT.addr, 10, 1⟩

/-- Offset of FWD_IDX_QUERY_OUT_LO (06 Table 6-9). -/
def Reg.FWD_IDX_QUERY_OUT_LO.addr : Nat := 0x06000060
def Reg.FWD_IDX_QUERY_OUT_LO.value : Fld := ⟨Reg.FWD_IDX_QUERY_OUT_LO.addr, 0, 32⟩

/-- Offset of FWD_IDX_QUERY_OUT_HI (06 Table 6-9). -/
def Reg.FWD_IDX_QUERY_OUT_HI.addr : Nat := 0x06000064
def Reg.FWD_IDX_QUERY_OUT_HI.value : Fld := ⟨Reg.FWD_IDX_QUERY_OUT_HI.addr, 0, 32⟩

/-- Offset of FWD_CNT_DIR_DROP (06 Table 6-9). -/
def Reg.FWD_CNT_DIR_DROP.addr : Nat := 0x06000100
def Reg.FWD_CNT_DIR_DROP.value : Fld := ⟨Reg.FWD_CNT_DIR_DROP.addr, 0, 32⟩

/-- Offset of FWD_CNT_NO_PATH (06 Table 6-9). -/
def Reg.FWD_CNT_NO_PATH.addr : Nat := 0x06000104
def Reg.FWD_CNT_NO_PATH.value : Fld := ⟨Reg.FWD_CNT_NO_PATH.addr, 0, 32⟩

/-- Offset of FWD_CNT_HAIRPIN (06 Table 6-9). -/
def Reg.FWD_CNT_HAIRPIN.addr : Nat := 0x06000108
def Reg.FWD_CNT_HAIRPIN.value : Fld := ⟨Reg.FWD_CNT_HAIRPIN.addr, 0, 32⟩

/-- Offset of FWD_CNT_ANN_ACCEPT (06 Table 6-9). -/
def Reg.FWD_CNT_ANN_ACCEPT.addr : Nat := 0x0600010C
def Reg.FWD_CNT_ANN_ACCEPT.value : Fld := ⟨Reg.FWD_CNT_ANN_ACCEPT.addr, 0, 32⟩

/-- Offset of FWD_CNT_ANN_STALE (06 Table 6-9). -/
def Reg.FWD_CNT_ANN_STALE.addr : Nat := 0x06000110
def Reg.FWD_CNT_ANN_STALE.value : Fld := ⟨Reg.FWD_CNT_ANN_STALE.addr, 0, 32⟩

/-- Offset of FWD_CNT_ANN_REJECT (06 Table 6-9). -/
def Reg.FWD_CNT_ANN_REJECT.addr : Nat := 0x06000114
def Reg.FWD_CNT_ANN_REJECT.value : Fld := ⟨Reg.FWD_CNT_ANN_REJECT.addr, 0, 32⟩

/-- Offset of FWD_CNT_CONFLICT (06 Table 6-9). -/
def Reg.FWD_CNT_CONFLICT.addr : Nat := 0x06000118
def Reg.FWD_CNT_CONFLICT.value : Fld := ⟨Reg.FWD_CNT_CONFLICT.addr, 0, 32⟩

/-- Offset of FWD_CNT_AGED (06 Table 6-9). -/
def Reg.FWD_CNT_AGED.addr : Nat := 0x0600011C
def Reg.FWD_CNT_AGED.value : Fld := ⟨Reg.FWD_CNT_AGED.addr, 0, 32⟩

/-- Offset of FWD_CNT_IDX_MISS (06 Table 6-9). -/
def Reg.FWD_CNT_IDX_MISS.addr : Nat := 0x06000120
def Reg.FWD_CNT_IDX_MISS.value : Fld := ⟨Reg.FWD_CNT_IDX_MISS.addr, 0, 32⟩

/-- Offset of FWD_CNT_MC_DISCARD (06 Table 6-9). -/
def Reg.FWD_CNT_MC_DISCARD.addr : Nat := 0x06000124
def Reg.FWD_CNT_MC_DISCARD.value : Fld := ⟨Reg.FWD_CNT_MC_DISCARD.addr, 0, 32⟩

/-- Offset of FWD_CABLE_MAP (06 Table 6-9). -/
def Reg.FWD_CABLE_MAP.addr (i : Nat) : Nat := 0x06001000 + 0x4 * i
def Reg.FWD_CABLE_MAP.port (i : Nat) : Fld := ⟨Reg.FWD_CABLE_MAP.addr i, 0, 9⟩

/-- Offset of FWD_MC_STAGE (06 Table 6-9). -/
def Reg.FWD_MC_STAGE.addr (i : Nat) : Nat := 0x06002000 + 0x4 * i
def Reg.FWD_MC_STAGE.value (i : Nat) : Fld := ⟨Reg.FWD_MC_STAGE.addr i, 0, 32⟩

/-- Offset of FWD_MC_COMMIT (06 Table 6-9). -/
def Reg.FWD_MC_COMMIT.addr : Nat := 0x06002200
def Reg.FWD_MC_COMMIT.index : Fld := ⟨Reg.FWD_MC_COMMIT.addr, 0, 16⟩
def Reg.FWD_MC_COMMIT.commit : Fld := ⟨Reg.FWD_MC_COMMIT.addr, 16, 1⟩
def Reg.FWD_MC_COMMIT.load : Fld := ⟨Reg.FWD_MC_COMMIT.addr, 17, 1⟩
def Reg.FWD_MC_COMMIT.result : Fld := ⟨Reg.FWD_MC_COMMIT.addr, 18, 2⟩

/-- Offset of CORE_CTL (07 Table 7-7). -/
def Reg.CORE_CTL.addr : Nat := 0x08000000
def Reg.CORE_CTL.audit_en : Fld := ⟨Reg.CORE_CTL.addr, 0, 1⟩
def Reg.CORE_CTL.withhold_en : Fld := ⟨Reg.CORE_CTL.addr, 1, 1⟩
def Reg.CORE_CTL.mirror_tree_ring : Fld := ⟨Reg.CORE_CTL.addr, 8, 2⟩
def Reg.CORE_CTL.mirror_tree_en : Fld := ⟨Reg.CORE_CTL.addr, 10, 1⟩

/-- Offset of CORE_STATUS (07 Table 7-7). -/
def Reg.CORE_STATUS.addr : Nat := 0x08000004
def Reg.CORE_STATUS.value : Fld := ⟨Reg.CORE_STATUS.addr, 0, 32⟩

/-- Offset of CORE_INT_STATUS (07 Table 7-7). -/
def Reg.CORE_INT_STATUS.addr : Nat := 0x08000008
def Reg.CORE_INT_STATUS.pool_warn : Fld := ⟨Reg.CORE_INT_STATUS.addr, 0, 1⟩
def Reg.CORE_INT_STATUS.withhold : Fld := ⟨Reg.CORE_INT_STATUS.addr, 1, 1⟩
def Reg.CORE_INT_STATUS.double_free : Fld := ⟨Reg.CORE_INT_STATUS.addr, 2, 1⟩
def Reg.CORE_INT_STATUS.leak : Fld := ⟨Reg.CORE_INT_STATUS.addr, 3, 1⟩
def Reg.CORE_INT_STATUS.lat_uncorr : Fld := ⟨Reg.CORE_INT_STATUS.addr, 4, 1⟩
def Reg.CORE_INT_STATUS.data_error : Fld := ⟨Reg.CORE_INT_STATUS.addr, 5, 1⟩
def Reg.CORE_INT_STATUS.spill_heavy : Fld := ⟨Reg.CORE_INT_STATUS.addr, 6, 1⟩
def Reg.CORE_INT_STATUS.mirror_drop : Fld := ⟨Reg.CORE_INT_STATUS.addr, 7, 1⟩
def Reg.CORE_INT_STATUS.mirror_refused : Fld := ⟨Reg.CORE_INT_STATUS.addr, 8, 1⟩

/-- Offset of CORE_INT_ENABLE (07 Table 7-7). -/
def Reg.CORE_INT_ENABLE.addr : Nat := 0x0800000C
def Reg.CORE_INT_ENABLE.pool_warn : Fld := ⟨Reg.CORE_INT_ENABLE.addr, 0, 1⟩
def Reg.CORE_INT_ENABLE.withhold : Fld := ⟨Reg.CORE_INT_ENABLE.addr, 1, 1⟩
def Reg.CORE_INT_ENABLE.double_free : Fld := ⟨Reg.CORE_INT_ENABLE.addr, 2, 1⟩
def Reg.CORE_INT_ENABLE.leak : Fld := ⟨Reg.CORE_INT_ENABLE.addr, 3, 1⟩
def Reg.CORE_INT_ENABLE.lat_uncorr : Fld := ⟨Reg.CORE_INT_ENABLE.addr, 4, 1⟩
def Reg.CORE_INT_ENABLE.data_error : Fld := ⟨Reg.CORE_INT_ENABLE.addr, 5, 1⟩
def Reg.CORE_INT_ENABLE.spill_heavy : Fld := ⟨Reg.CORE_INT_ENABLE.addr, 6, 1⟩
def Reg.CORE_INT_ENABLE.mirror_drop : Fld := ⟨Reg.CORE_INT_ENABLE.addr, 7, 1⟩
def Reg.CORE_INT_ENABLE.mirror_refused : Fld := ⟨Reg.CORE_INT_ENABLE.addr, 8, 1⟩

/-- Offset of CORE_WITHHOLD_CFG (07 Table 7-7). -/
def Reg.CORE_WITHHOLD_CFG.addr : Nat := 0x08000010
def Reg.CORE_WITHHOLD_CFG.wh_start : Fld := ⟨Reg.CORE_WITHHOLD_CFG.addr, 0, 10⟩
def Reg.CORE_WITHHOLD_CFG.wh_step : Fld := ⟨Reg.CORE_WITHHOLD_CFG.addr, 10, 5⟩
def Reg.CORE_WITHHOLD_CFG.wh_full : Fld := ⟨Reg.CORE_WITHHOLD_CFG.addr, 15, 10⟩
def Reg.CORE_WITHHOLD_CFG.wh_hyst : Fld := ⟨Reg.CORE_WITHHOLD_CFG.addr, 25, 4⟩

/-- Offset of CORE_SPILL_CFG (07 Table 7-7). -/
def Reg.CORE_SPILL_CFG.addr : Nat := 0x08000014
def Reg.CORE_SPILL_CFG.spill_delay : Fld := ⟨Reg.CORE_SPILL_CFG.addr, 0, 8⟩
def Reg.CORE_SPILL_CFG.landing_high : Fld := ⟨Reg.CORE_SPILL_CFG.addr, 8, 10⟩
def Reg.CORE_SPILL_CFG.spill_warn : Fld := ⟨Reg.CORE_SPILL_CFG.addr, 18, 8⟩

/-- Offset of CORE_AUDIT_CFG (07 Table 7-7). -/
def Reg.CORE_AUDIT_CFG.addr : Nat := 0x08000018
def Reg.CORE_AUDIT_CFG.audit_period : Fld := ⟨Reg.CORE_AUDIT_CFG.addr, 0, 8⟩

/-- Offset of CORE_RESEQ_CFG (07 Table 7-7). -/
def Reg.CORE_RESEQ_CFG.addr : Nat := 0x0800001C
def Reg.CORE_RESEQ_CFG.reseq_timeout : Fld := ⟨Reg.CORE_RESEQ_CFG.addr, 0, 8⟩
def Reg.CORE_RESEQ_CFG.cell_retry_limit : Fld := ⟨Reg.CORE_RESEQ_CFG.addr, 8, 4⟩
def Reg.CORE_RESEQ_CFG.ct_lead : Fld := ⟨Reg.CORE_RESEQ_CFG.addr, 12, 4⟩

/-- Offset of CORE_MIR_CTL (07 Table 7-7). -/
def Reg.CORE_MIR_CTL.addr (i : Nat) : Nat := 0x08000100 + 0x40 * i
def Reg.CORE_MIR_CTL.enable (i : Nat) : Fld := ⟨Reg.CORE_MIR_CTL.addr i, 0, 1⟩
def Reg.CORE_MIR_CTL.stop_mode (i : Nat) : Fld := ⟨Reg.CORE_MIR_CTL.addr i, 1, 1⟩
def Reg.CORE_MIR_CTL.refused (i : Nat) : Fld := ⟨Reg.CORE_MIR_CTL.addr i, 2, 1⟩
def Reg.CORE_MIR_CTL.sample (i : Nat) : Fld := ⟨Reg.CORE_MIR_CTL.addr i, 8, 4⟩

/-- Offset of CORE_MIR_FILT (07 Table 7-7). -/
def Reg.CORE_MIR_FILT.addr (i : Nat) : Nat := 0x08000104 + 0x40 * i
def Reg.CORE_MIR_FILT.port (i : Nat) : Fld := ⟨Reg.CORE_MIR_FILT.addr i, 0, 9⟩
def Reg.CORE_MIR_FILT.any_port (i : Nat) : Fld := ⟨Reg.CORE_MIR_FILT.addr i, 9, 1⟩
def Reg.CORE_MIR_FILT.direction (i : Nat) : Fld := ⟨Reg.CORE_MIR_FILT.addr i, 10, 2⟩
def Reg.CORE_MIR_FILT.vc_mask (i : Nat) : Fld := ⟨Reg.CORE_MIR_FILT.addr i, 12, 8⟩
def Reg.CORE_MIR_FILT.type_mask (i : Nat) : Fld := ⟨Reg.CORE_MIR_FILT.addr i, 20, 12⟩

/-- Offset of CORE_MIR_PART (07 Table 7-7). -/
def Reg.CORE_MIR_PART.addr (i : Nat) : Nat := 0x08000108 + 0x40 * i
def Reg.CORE_MIR_PART.partition (i : Nat) : Fld := ⟨Reg.CORE_MIR_PART.addr i, 0, 12⟩
def Reg.CORE_MIR_PART.match (i : Nat) : Fld := ⟨Reg.CORE_MIR_PART.addr i, 12, 1⟩

/-- Offset of CORE_MIR_BASE_LO (07 Table 7-7). -/
def Reg.CORE_MIR_BASE_LO.addr (i : Nat) : Nat := 0x08000110 + 0x40 * i
def Reg.CORE_MIR_BASE_LO.value (i : Nat) : Fld := ⟨Reg.CORE_MIR_BASE_LO.addr i, 0, 32⟩

/-- Offset of CORE_MIR_BASE_HI (07 Table 7-7). -/
def Reg.CORE_MIR_BASE_HI.addr (i : Nat) : Nat := 0x08000114 + 0x40 * i
def Reg.CORE_MIR_BASE_HI.value (i : Nat) : Fld := ⟨Reg.CORE_MIR_BASE_HI.addr i, 0, 32⟩

/-- Offset of CORE_MIR_PROD (07 Table 7-7). -/
def Reg.CORE_MIR_PROD.addr (i : Nat) : Nat := 0x08000118 + 0x40 * i
def Reg.CORE_MIR_PROD.value (i : Nat) : Fld := ⟨Reg.CORE_MIR_PROD.addr i, 0, 32⟩

/-- Offset of CORE_MIR_CONS (07 Table 7-7). -/
def Reg.CORE_MIR_CONS.addr (i : Nat) : Nat := 0x0800011C + 0x40 * i
def Reg.CORE_MIR_CONS.value (i : Nat) : Fld := ⟨Reg.CORE_MIR_CONS.addr i, 0, 32⟩

/-- Offset of CORE_MIR_DROP (07 Table 7-7). -/
def Reg.CORE_MIR_DROP.addr (i : Nat) : Nat := 0x08000120 + 0x40 * i
def Reg.CORE_MIR_DROP.value (i : Nat) : Fld := ⟨Reg.CORE_MIR_DROP.addr i, 0, 32⟩

/-- Offset of CORE_POOL_CFG (07 Table 7-7, Table 7-4). -/
def Reg.CORE_POOL_CFG.addr (i : Nat) (j : Nat) : Nat := 0x08100000 + 0x100000 * i + 0x10 * j
def Reg.CORE_POOL_CFG.count (i : Nat) (j : Nat) : Fld := ⟨Reg.CORE_POOL_CFG.addr i j, 0, 21⟩

/-- Offset of CORE_POOL_STAT (07 Table 7-7). -/
def Reg.CORE_POOL_STAT.addr (i : Nat) (j : Nat) : Nat := 0x08100004 + 0x100000 * i + 0x10 * j
def Reg.CORE_POOL_STAT.in_use (i : Nat) (j : Nat) : Fld := ⟨Reg.CORE_POOL_STAT.addr i j, 0, 21⟩
def Reg.CORE_POOL_STAT.high_water (i : Nat) (j : Nat) : Fld := ⟨Reg.CORE_POOL_STAT.addr i j, 21, 10⟩

/-- Offset of CORE_POOL_PROMOTE (07 Table 7-7). -/
def Reg.CORE_POOL_PROMOTE.addr (i : Nat) (j : Nat) : Nat := 0x08100008 + 0x100000 * i + 0x10 * j
def Reg.CORE_POOL_PROMOTE.value (i : Nat) (j : Nat) : Fld := ⟨Reg.CORE_POOL_PROMOTE.addr i j, 0, 32⟩

/-- Offset of CORE_LANDING_CFG (07 Table 7-7). -/
def Reg.CORE_LANDING_CFG.addr (i : Nat) : Nat := 0x08100060 + 0x100000 * i
def Reg.CORE_LANDING_CFG.cells (i : Nat) : Fld := ⟨Reg.CORE_LANDING_CFG.addr i, 0, 18⟩

/-- Offset of CORE_LANDING_STAT (07 Table 7-7). -/
def Reg.CORE_LANDING_STAT.addr (i : Nat) : Nat := 0x08100064 + 0x100000 * i
def Reg.CORE_LANDING_STAT.cells (i : Nat) : Fld := ⟨Reg.CORE_LANDING_STAT.addr i, 0, 18⟩

/-- Offset of CORE_WITHHELD (07 Table 7-7). -/
def Reg.CORE_WITHHELD.addr (i : Nat) : Nat := 0x08100068 + 0x100000 * i
def Reg.CORE_WITHHELD.vcs (i : Nat) : Fld := ⟨Reg.CORE_WITHHELD.addr i, 0, 8⟩

/-- Offset of CORE_FREE_ERR (07 Table 7-7). -/
def Reg.CORE_FREE_ERR.addr (i : Nat) : Nat := 0x08100070 + 0x100000 * i
def Reg.CORE_FREE_ERR.buffer (i : Nat) : Fld := ⟨Reg.CORE_FREE_ERR.addr i, 0, 21⟩
def Reg.CORE_FREE_ERR.pool (i : Nat) : Fld := ⟨Reg.CORE_FREE_ERR.addr i, 21, 3⟩
def Reg.CORE_FREE_ERR.cause (i : Nat) : Fld := ⟨Reg.CORE_FREE_ERR.addr i, 24, 2⟩
def Reg.CORE_FREE_ERR.unit (i : Nat) : Fld := ⟨Reg.CORE_FREE_ERR.addr i, 26, 3⟩

/-- Offset of CORE_CNT_DOUBLE_FREE (07 Table 7-7). -/
def Reg.CORE_CNT_DOUBLE_FREE.addr (i : Nat) : Nat := 0x08100100 + 0x100000 * i
def Reg.CORE_CNT_DOUBLE_FREE.value (i : Nat) : Fld := ⟨Reg.CORE_CNT_DOUBLE_FREE.addr i, 0, 32⟩

/-- Offset of CORE_CNT_OWNER_REJECT (07 Table 7-7). -/
def Reg.CORE_CNT_OWNER_REJECT.addr (i : Nat) : Nat := 0x08100104 + 0x100000 * i
def Reg.CORE_CNT_OWNER_REJECT.value (i : Nat) : Fld := ⟨Reg.CORE_CNT_OWNER_REJECT.addr i, 0, 32⟩

/-- Offset of CORE_CNT_LEAK (07 Table 7-7). -/
def Reg.CORE_CNT_LEAK.addr (i : Nat) : Nat := 0x08100108 + 0x100000 * i
def Reg.CORE_CNT_LEAK.value (i : Nat) : Fld := ⟨Reg.CORE_CNT_LEAK.addr i, 0, 32⟩

/-- Offset of CORE_CNT_LAT_CORR (07 Table 7-7). -/
def Reg.CORE_CNT_LAT_CORR.addr (i : Nat) : Nat := 0x0810010C + 0x100000 * i
def Reg.CORE_CNT_LAT_CORR.value (i : Nat) : Fld := ⟨Reg.CORE_CNT_LAT_CORR.addr i, 0, 32⟩

/-- Offset of CORE_CNT_LAT_UNCORR (07 Table 7-7). -/
def Reg.CORE_CNT_LAT_UNCORR.addr (i : Nat) : Nat := 0x08100110 + 0x100000 * i
def Reg.CORE_CNT_LAT_UNCORR.value (i : Nat) : Fld := ⟨Reg.CORE_CNT_LAT_UNCORR.addr i, 0, 32⟩

/-- Offset of CORE_CNT_CCRC_FAIL (07 Table 7-7). -/
def Reg.CORE_CNT_CCRC_FAIL.addr (i : Nat) : Nat := 0x08100114 + 0x100000 * i
def Reg.CORE_CNT_CCRC_FAIL.value (i : Nat) : Fld := ⟨Reg.CORE_CNT_CCRC_FAIL.addr i, 0, 32⟩

/-- Offset of CORE_CNT_REPULL (07 Table 7-7). -/
def Reg.CORE_CNT_REPULL.addr (i : Nat) : Nat := 0x08100118 + 0x100000 * i
def Reg.CORE_CNT_REPULL.value (i : Nat) : Fld := ⟨Reg.CORE_CNT_REPULL.addr i, 0, 32⟩

/-- Offset of CORE_CNT_DATA_ERROR (07 Table 7-7). -/
def Reg.CORE_CNT_DATA_ERROR.addr (i : Nat) : Nat := 0x0810011C + 0x100000 * i
def Reg.CORE_CNT_DATA_ERROR.value (i : Nat) : Fld := ⟨Reg.CORE_CNT_DATA_ERROR.addr i, 0, 32⟩

/-- Offset of CORE_CNT_UNDERRUN (07 Table 7-7). -/
def Reg.CORE_CNT_UNDERRUN.addr (i : Nat) : Nat := 0x08100120 + 0x100000 * i
def Reg.CORE_CNT_UNDERRUN.value (i : Nat) : Fld := ⟨Reg.CORE_CNT_UNDERRUN.addr i, 0, 32⟩

/-- Offset of CORE_CNT_SPILL_CELLS (07 Table 7-7). -/
def Reg.CORE_CNT_SPILL_CELLS.addr (i : Nat) : Nat := 0x08100124 + 0x100000 * i
def Reg.CORE_CNT_SPILL_CELLS.value (i : Nat) : Fld := ⟨Reg.CORE_CNT_SPILL_CELLS.addr i, 0, 32⟩

/-- Offset of SCH_CTL (08 Table 8-2). -/
def Reg.SCH_CTL.addr : Nat := 0x0A000000
def Reg.SCH_CTL.req_meter_en : Fld := ⟨Reg.SCH_CTL.addr, 0, 1⟩
def Reg.SCH_CTL.bulk_meter_en : Fld := ⟨Reg.SCH_CTL.addr, 1, 1⟩
def Reg.SCH_CTL.vc7_police_en : Fld := ⟨Reg.SCH_CTL.addr, 2, 1⟩

/-- Offset of SCH_INT_STATUS (08 Table 8-2). -/
def Reg.SCH_INT_STATUS.addr : Nat := 0x0A000004
def Reg.SCH_INT_STATUS.gate_starve : Fld := ⟨Reg.SCH_INT_STATUS.addr, 0, 1⟩
def Reg.SCH_INT_STATUS.hold_full : Fld := ⟨Reg.SCH_INT_STATUS.addr, 1, 1⟩
def Reg.SCH_INT_STATUS.gate_shadow_err : Fld := ⟨Reg.SCH_INT_STATUS.addr, 2, 1⟩
def Reg.SCH_INT_STATUS.gate_act_refused : Fld := ⟨Reg.SCH_INT_STATUS.addr, 3, 1⟩
def Reg.SCH_INT_STATUS.meter_refused : Fld := ⟨Reg.SCH_INT_STATUS.addr, 4, 1⟩

/-- Offset of SCH_INT_ENABLE (08 Table 8-2). -/
def Reg.SCH_INT_ENABLE.addr : Nat := 0x0A000008
def Reg.SCH_INT_ENABLE.gate_starve : Fld := ⟨Reg.SCH_INT_ENABLE.addr, 0, 1⟩
def Reg.SCH_INT_ENABLE.hold_full : Fld := ⟨Reg.SCH_INT_ENABLE.addr, 1, 1⟩
def Reg.SCH_INT_ENABLE.gate_shadow_err : Fld := ⟨Reg.SCH_INT_ENABLE.addr, 2, 1⟩
def Reg.SCH_INT_ENABLE.gate_act_refused : Fld := ⟨Reg.SCH_INT_ENABLE.addr, 3, 1⟩
def Reg.SCH_INT_ENABLE.meter_refused : Fld := ⟨Reg.SCH_INT_ENABLE.addr, 4, 1⟩

/-- Offset of SCH_VC_WEIGHT_A (08 Table 8-5). -/
def Reg.SCH_VC_WEIGHT_A.addr : Nat := 0x0A00000C
def Reg.SCH_VC_WEIGHT_A.w1 : Fld := ⟨Reg.SCH_VC_WEIGHT_A.addr, 0, 8⟩
def Reg.SCH_VC_WEIGHT_A.w2 : Fld := ⟨Reg.SCH_VC_WEIGHT_A.addr, 8, 8⟩
def Reg.SCH_VC_WEIGHT_A.w3 : Fld := ⟨Reg.SCH_VC_WEIGHT_A.addr, 16, 8⟩
def Reg.SCH_VC_WEIGHT_A.w4 : Fld := ⟨Reg.SCH_VC_WEIGHT_A.addr, 24, 8⟩

/-- Offset of SCH_VC_WEIGHT_B (08 Table 8-5). -/
def Reg.SCH_VC_WEIGHT_B.addr : Nat := 0x0A000010
def Reg.SCH_VC_WEIGHT_B.w5 : Fld := ⟨Reg.SCH_VC_WEIGHT_B.addr, 0, 8⟩
def Reg.SCH_VC_WEIGHT_B.w6 : Fld := ⟨Reg.SCH_VC_WEIGHT_B.addr, 8, 8⟩
def Reg.SCH_VC_WEIGHT_B.w7 : Fld := ⟨Reg.SCH_VC_WEIGHT_B.addr, 16, 8⟩

/-- Offset of SCH_ARB_CFG (08 Table 8-2). -/
def Reg.SCH_ARB_CFG.addr : Nat := 0x0A000014
def Reg.SCH_ARB_CFG.quantum : Fld := ⟨Reg.SCH_ARB_CFG.addr, 0, 8⟩
def Reg.SCH_ARB_CFG.starve_limit : Fld := ⟨Reg.SCH_ARB_CFG.addr, 8, 8⟩

/-- Offset of SCH_VC7_POLICE (08 Table 8-2). -/
def Reg.SCH_VC7_POLICE.addr : Nat := 0x0A000018
def Reg.SCH_VC7_POLICE.rate : Fld := ⟨Reg.SCH_VC7_POLICE.addr, 0, 16⟩
def Reg.SCH_VC7_POLICE.burst : Fld := ⟨Reg.SCH_VC7_POLICE.addr, 16, 16⟩

/-- Offset of SCH_STARVE (08 Table 8-2). -/
def Reg.SCH_STARVE.addr : Nat := 0x0A00001C
def Reg.SCH_STARVE.port : Fld := ⟨Reg.SCH_STARVE.addr, 0, 9⟩
def Reg.SCH_STARVE.vc : Fld := ⟨Reg.SCH_STARVE.addr, 9, 3⟩

/-- Offset of SCH_HOLD_STAT (08 Table 8-2). -/
def Reg.SCH_HOLD_STAT.addr (i : Nat) : Nat := 0x0A000020 + 0x4 * i
def Reg.SCH_HOLD_STAT.held (i : Nat) : Fld := ⟨Reg.SCH_HOLD_STAT.addr i, 0, 14⟩

/-- Offset of SCH_REQ_PROFILE (08 Table 8-2 (i = 1-255)). -/
def Reg.SCH_REQ_PROFILE.addr (i : Nat) : Nat := 0x0A000404 + 0x4 * i
def Reg.SCH_REQ_PROFILE.rate (i : Nat) : Fld := ⟨Reg.SCH_REQ_PROFILE.addr i, 0, 20⟩
def Reg.SCH_REQ_PROFILE.burst (i : Nat) : Fld := ⟨Reg.SCH_REQ_PROFILE.addr i, 20, 12⟩

/-- Offset of SCH_NODE_PROFILE (08 Table 8-2). -/
def Reg.SCH_NODE_PROFILE.addr (i : Nat) : Nat := 0x0A010000 + 0x4 * i
def Reg.SCH_NODE_PROFILE.value (i : Nat) : Fld := ⟨Reg.SCH_NODE_PROFILE.addr i, 0, 32⟩

/-- Offset of SCH_PART_CIR (08 Table 8-2). -/
def Reg.SCH_PART_CIR.addr (i : Nat) : Nat := 0x0A200000 + 0x10 * i
def Reg.SCH_PART_CIR.cir (i : Nat) : Fld := ⟨Reg.SCH_PART_CIR.addr i, 0, 20⟩

/-- Offset of SCH_PART_PIR (08 Table 8-2). -/
def Reg.SCH_PART_PIR.addr (i : Nat) : Nat := 0x0A200004 + 0x10 * i
def Reg.SCH_PART_PIR.pir (i : Nat) : Fld := ⟨Reg.SCH_PART_PIR.addr i, 0, 20⟩

/-- Offset of SCH_PART_BURST (08 Table 8-2). -/
def Reg.SCH_PART_BURST.addr (i : Nat) : Nat := 0x0A200008 + 0x10 * i
def Reg.SCH_PART_BURST.cbs (i : Nat) : Fld := ⟨Reg.SCH_PART_BURST.addr i, 0, 16⟩
def Reg.SCH_PART_BURST.pbs (i : Nat) : Fld := ⟨Reg.SCH_PART_BURST.addr i, 16, 16⟩

/-- Offset of SCH_PART_CTL (08 Table 8-2). -/
def Reg.SCH_PART_CTL.addr (i : Nat) : Nat := 0x0A20000C + 0x10 * i
def Reg.SCH_PART_CTL.meter_en (i : Nat) : Fld := ⟨Reg.SCH_PART_CTL.addr i, 0, 1⟩

/-- Offset of SCH_GATE_CTL (08 Table 8-2). -/
def Reg.SCH_GATE_CTL.addr (i : Nat) : Nat := 0x0A400000 + 0x2000 * i
def Reg.SCH_GATE_CTL.gate_en (i : Nat) : Fld := ⟨Reg.SCH_GATE_CTL.addr i, 0, 1⟩

/-- Offset of SCH_GATE_LEN (08 Table 8-2). -/
def Reg.SCH_GATE_LEN.addr (i : Nat) : Nat := 0x0A400004 + 0x2000 * i
def Reg.SCH_GATE_LEN.shadow (i : Nat) : Fld := ⟨Reg.SCH_GATE_LEN.addr i, 0, 8⟩
def Reg.SCH_GATE_LEN.active (i : Nat) : Fld := ⟨Reg.SCH_GATE_LEN.addr i, 16, 8⟩

/-- Offset of SCH_GATE_ACT_LO (08 Table 8-2). -/
def Reg.SCH_GATE_ACT_LO.addr (i : Nat) : Nat := 0x0A400008 + 0x2000 * i
def Reg.SCH_GATE_ACT_LO.value (i : Nat) : Fld := ⟨Reg.SCH_GATE_ACT_LO.addr i, 0, 32⟩

/-- Offset of SCH_GATE_ACT_HI (08 Table 8-2). -/
def Reg.SCH_GATE_ACT_HI.addr (i : Nat) : Nat := 0x0A40000C + 0x2000 * i
def Reg.SCH_GATE_ACT_HI.value (i : Nat) : Fld := ⟨Reg.SCH_GATE_ACT_HI.addr i, 0, 32⟩

/-- Offset of SCH_GATE_ACT_STATUS (08 Table 8-2). -/
def Reg.SCH_GATE_ACT_STATUS.addr (i : Nat) : Nat := 0x0A400010 + 0x2000 * i
def Reg.SCH_GATE_ACT_STATUS.act_state (i : Nat) : Fld := ⟨Reg.SCH_GATE_ACT_STATUS.addr i, 0, 2⟩
def Reg.SCH_GATE_ACT_STATUS.act_reason (i : Nat) : Fld := ⟨Reg.SCH_GATE_ACT_STATUS.addr i, 2, 4⟩
def Reg.SCH_GATE_ACT_STATUS.arm (i : Nat) : Fld := ⟨Reg.SCH_GATE_ACT_STATUS.addr i, 6, 1⟩
def Reg.SCH_GATE_ACT_STATUS.cancel (i : Nat) : Fld := ⟨Reg.SCH_GATE_ACT_STATUS.addr i, 7, 1⟩
def Reg.SCH_GATE_ACT_STATUS.err_entry (i : Nat) : Fld := ⟨Reg.SCH_GATE_ACT_STATUS.addr i, 16, 8⟩

/-- Offset of SCH_GATE_STATE (08 Table 8-2). -/
def Reg.SCH_GATE_STATE.addr (i : Nat) : Nat := 0x0A400014 + 0x2000 * i
def Reg.SCH_GATE_STATE.effective (i : Nat) : Fld := ⟨Reg.SCH_GATE_STATE.addr i, 0, 8⟩
def Reg.SCH_GATE_STATE.list (i : Nat) : Fld := ⟨Reg.SCH_GATE_STATE.addr i, 8, 8⟩
def Reg.SCH_GATE_STATE.entry (i : Nat) : Fld := ⟨Reg.SCH_GATE_STATE.addr i, 16, 8⟩

/-- Offset of SCH_CNT_VC7_DROP (08 Table 8-2). -/
def Reg.SCH_CNT_VC7_DROP.addr (i : Nat) : Nat := 0x0A400020 + 0x2000 * i
def Reg.SCH_CNT_VC7_DROP.value (i : Nat) : Fld := ⟨Reg.SCH_CNT_VC7_DROP.addr i, 0, 32⟩

/-- Offset of SCH_CNT_OOC_DROP (08 Table 8-2). -/
def Reg.SCH_CNT_OOC_DROP.addr (i : Nat) : Nat := 0x0A400024 + 0x2000 * i
def Reg.SCH_CNT_OOC_DROP.value (i : Nat) : Fld := ⟨Reg.SCH_CNT_OOC_DROP.addr i, 0, 32⟩

/-- Offset of SCH_CNT_HELD (08 Table 8-2). -/
def Reg.SCH_CNT_HELD.addr (i : Nat) : Nat := 0x0A400028 + 0x2000 * i
def Reg.SCH_CNT_HELD.value (i : Nat) : Fld := ⟨Reg.SCH_CNT_HELD.addr i, 0, 32⟩

/-- Offset of SCH_GATE_SHADOW (08 Table 8-2). -/
def Reg.SCH_GATE_SHADOW.addr (i : Nat) (j : Nat) : Nat := 0x0A400800 + 0x2000 * i + 0x4 * j
def Reg.SCH_GATE_SHADOW.value (i : Nat) (j : Nat) : Fld := ⟨Reg.SCH_GATE_SHADOW.addr i j, 0, 32⟩

/-- Offset of SCH_GATE_ACTIVE (08 Table 8-2). -/
def Reg.SCH_GATE_ACTIVE.addr (i : Nat) (j : Nat) : Nat := 0x0A401000 + 0x2000 * i + 0x4 * j
def Reg.SCH_GATE_ACTIVE.value (i : Nat) (j : Nat) : Fld := ⟨Reg.SCH_GATE_ACTIVE.addr i j, 0, 32⟩

/-- Offset of CNJ_CTL (10 Table 10-10). -/
def Reg.CNJ_CTL.addr : Nat := 0x0C000000
def Reg.CNJ_CTL.admit_en : Fld := ⟨Reg.CNJ_CTL.addr, 0, 1⟩
def Reg.CNJ_CTL.stale_reply_en : Fld := ⟨Reg.CNJ_CTL.addr, 1, 1⟩

/-- Offset of CNJ_STATUS (10 Table 10-10). -/
def Reg.CNJ_STATUS.addr : Nat := 0x0C000004
def Reg.CNJ_STATUS.admitted : Fld := ⟨Reg.CNJ_STATUS.addr, 0, 15⟩
def Reg.CNJ_STATUS.draining : Fld := ⟨Reg.CNJ_STATUS.addr, 15, 15⟩

/-- Offset of CNJ_INT_STATUS (10 Table 10-10). -/
def Reg.CNJ_INT_STATUS.addr : Nat := 0x0C000008
def Reg.CNJ_INT_STATUS.coll_abort : Fld := ⟨Reg.CNJ_INT_STATUS.addr, 0, 1⟩
def Reg.CNJ_INT_STATUS.admit_refused : Fld := ⟨Reg.CNJ_INT_STATUS.addr, 1, 1⟩
def Reg.CNJ_INT_STATUS.drained : Fld := ⟨Reg.CNJ_INT_STATUS.addr, 2, 1⟩
def Reg.CNJ_INT_STATUS.cfgq_full : Fld := ⟨Reg.CNJ_INT_STATUS.addr, 3, 1⟩
def Reg.CNJ_INT_STATUS.deferral : Fld := ⟨Reg.CNJ_INT_STATUS.addr, 4, 1⟩
def Reg.CNJ_INT_STATUS.tile_moved : Fld := ⟨Reg.CNJ_INT_STATUS.addr, 5, 1⟩

/-- Offset of CNJ_INT_ENABLE (10 Table 10-10). -/
def Reg.CNJ_INT_ENABLE.addr : Nat := 0x0C00000C
def Reg.CNJ_INT_ENABLE.coll_abort : Fld := ⟨Reg.CNJ_INT_ENABLE.addr, 0, 1⟩
def Reg.CNJ_INT_ENABLE.admit_refused : Fld := ⟨Reg.CNJ_INT_ENABLE.addr, 1, 1⟩
def Reg.CNJ_INT_ENABLE.drained : Fld := ⟨Reg.CNJ_INT_ENABLE.addr, 2, 1⟩
def Reg.CNJ_INT_ENABLE.cfgq_full : Fld := ⟨Reg.CNJ_INT_ENABLE.addr, 3, 1⟩
def Reg.CNJ_INT_ENABLE.deferral : Fld := ⟨Reg.CNJ_INT_ENABLE.addr, 4, 1⟩
def Reg.CNJ_INT_ENABLE.tile_moved : Fld := ⟨Reg.CNJ_INT_ENABLE.addr, 5, 1⟩

/-- Offset of CNJ_CFGQ_CFG (10 Table 10-10). -/
def Reg.CNJ_CFGQ_CFG.addr : Nat := 0x0C000010
def Reg.CNJ_CFGQ_CFG.cfgq_interval : Fld := ⟨Reg.CNJ_CFGQ_CFG.addr, 0, 16⟩

/-- Offset of CNJ_CFGQ_STAT (10 Table 10-10). -/
def Reg.CNJ_CFGQ_STAT.addr : Nat := 0x0C000014
def Reg.CNJ_CFGQ_STAT.queued : Fld := ⟨Reg.CNJ_CFGQ_STAT.addr, 0, 9⟩

/-- Offset of CNJ_SPILL_POOL (10 Table 10-10). -/
def Reg.CNJ_SPILL_POOL.addr : Nat := 0x0C000018
def Reg.CNJ_SPILL_POOL.cells : Fld := ⟨Reg.CNJ_SPILL_POOL.addr, 0, 28⟩

/-- Offset of CNJ_SPILL_RSVD (10 Table 10-10). -/
def Reg.CNJ_SPILL_RSVD.addr : Nat := 0x0C00001C
def Reg.CNJ_SPILL_RSVD.cells : Fld := ⟨Reg.CNJ_SPILL_RSVD.addr, 0, 28⟩

/-- Offset of CNJ_GRP_CTL (10 Table 10-10). -/
def Reg.CNJ_GRP_CTL.addr : Nat := 0x0C000020
def Reg.CNJ_GRP_CTL.group : Fld := ⟨Reg.CNJ_GRP_CTL.addr, 0, 14⟩

/-- Offset of CNJ_GRP_STATUS (10 Table 10-10). -/
def Reg.CNJ_GRP_STATUS.addr : Nat := 0x0C000024
def Reg.CNJ_GRP_STATUS.state : Fld := ⟨Reg.CNJ_GRP_STATUS.addr, 0, 2⟩
def Reg.CNJ_GRP_STATUS.gen : Fld := ⟨Reg.CNJ_GRP_STATUS.addr, 2, 8⟩
def Reg.CNJ_GRP_STATUS.partition : Fld := ⟨Reg.CNJ_GRP_STATUS.addr, 10, 12⟩
def Reg.CNJ_GRP_STATUS.tile_slots : Fld := ⟨Reg.CNJ_GRP_STATUS.addr, 22, 8⟩
def Reg.CNJ_GRP_STATUS.fence_tolerant : Fld := ⟨Reg.CNJ_GRP_STATUS.addr, 30, 1⟩
def Reg.CNJ_GRP_STATUS.transform_en : Fld := ⟨Reg.CNJ_GRP_STATUS.addr, 31, 1⟩

/-- Offset of CNJ_GRP_CSEQ (10 Table 10-10). -/
def Reg.CNJ_GRP_CSEQ.addr : Nat := 0x0C000028
def Reg.CNJ_GRP_CSEQ.next : Fld := ⟨Reg.CNJ_GRP_CSEQ.addr, 0, 16⟩
def Reg.CNJ_GRP_CSEQ.open : Fld := ⟨Reg.CNJ_GRP_CSEQ.addr, 16, 3⟩

/-- Offset of CNJ_GRP_SPILL (10 Table 10-10). -/
def Reg.CNJ_GRP_SPILL.addr : Nat := 0x0C00002C
def Reg.CNJ_GRP_SPILL.cells : Fld := ⟨Reg.CNJ_GRP_SPILL.addr, 0, 28⟩

/-- Offset of CNJ_CNT_COMPLETE (10 Table 10-10). -/
def Reg.CNJ_CNT_COMPLETE.addr : Nat := 0x0C000100
def Reg.CNJ_CNT_COMPLETE.value : Fld := ⟨Reg.CNJ_CNT_COMPLETE.addr, 0, 32⟩

/-- Offset of CNJ_CNT_ABORT (10 Table 10-10). -/
def Reg.CNJ_CNT_ABORT.addr : Nat := 0x0C000104
def Reg.CNJ_CNT_ABORT.value : Fld := ⟨Reg.CNJ_CNT_ABORT.addr, 0, 32⟩

/-- Offset of CNJ_CNT_DUP_DROP (10 Table 10-10). -/
def Reg.CNJ_CNT_DUP_DROP.addr : Nat := 0x0C000108
def Reg.CNJ_CNT_DUP_DROP.value : Fld := ⟨Reg.CNJ_CNT_DUP_DROP.addr, 0, 32⟩

/-- Offset of CNJ_CNT_STALE_DROP (10 Table 10-10). -/
def Reg.CNJ_CNT_STALE_DROP.addr : Nat := 0x0C00010C
def Reg.CNJ_CNT_STALE_DROP.value : Fld := ⟨Reg.CNJ_CNT_STALE_DROP.addr, 0, 32⟩

/-- Offset of CNJ_CNT_LATE_DROP (10 Table 10-10). -/
def Reg.CNJ_CNT_LATE_DROP.addr : Nat := 0x0C000110
def Reg.CNJ_CNT_LATE_DROP.value : Fld := ⟨Reg.CNJ_CNT_LATE_DROP.addr, 0, 32⟩

/-- Offset of CNJ_CNT_RESEND (10 Table 10-10). -/
def Reg.CNJ_CNT_RESEND.addr : Nat := 0x0C000114
def Reg.CNJ_CNT_RESEND.value : Fld := ⟨Reg.CNJ_CNT_RESEND.addr, 0, 32⟩

/-- Offset of CNJ_CNT_DEFERRED (10 Table 10-10). -/
def Reg.CNJ_CNT_DEFERRED.addr : Nat := 0x0C000118
def Reg.CNJ_CNT_DEFERRED.value : Fld := ⟨Reg.CNJ_CNT_DEFERRED.addr, 0, 32⟩

/-- Offset of CNJ_CNT_ADMIT (10 Table 10-10). -/
def Reg.CNJ_CNT_ADMIT.addr : Nat := 0x0C00011C
def Reg.CNJ_CNT_ADMIT.value : Fld := ⟨Reg.CNJ_CNT_ADMIT.addr, 0, 32⟩

/-- Offset of CNJ_CNT_ADMIT_REFUSED (10 Table 10-10). -/
def Reg.CNJ_CNT_ADMIT_REFUSED.addr : Nat := 0x0C000120
def Reg.CNJ_CNT_ADMIT_REFUSED.value : Fld := ⟨Reg.CNJ_CNT_ADMIT_REFUSED.addr, 0, 32⟩

/-- Offset of CNJ_CNT_TEARDOWN (10 Table 10-10). -/
def Reg.CNJ_CNT_TEARDOWN.addr : Nat := 0x0C000124
def Reg.CNJ_CNT_TEARDOWN.value : Fld := ⟨Reg.CNJ_CNT_TEARDOWN.addr, 0, 32⟩

/-- Offset of CNJ_LAST_ERR (10 Table 10-10). -/
def Reg.CNJ_LAST_ERR.addr (i : Nat) : Nat := 0x0C000200 + 0x4 * i
def Reg.CNJ_LAST_ERR.value (i : Nat) : Fld := ⟨Reg.CNJ_LAST_ERR.addr i, 0, 32⟩

/-- Offset of CNJ_TILE_STAT (10 Table 10-16). -/
def Reg.CNJ_TILE_STAT.addr (i : Nat) : Nat := 0x0C000400 + 0x4 * i
def Reg.CNJ_TILE_STAT.state (i : Nat) : Fld := ⟨Reg.CNJ_TILE_STAT.addr i, 0, 3⟩
def Reg.CNJ_TILE_STAT.serves (i : Nat) : Fld := ⟨Reg.CNJ_TILE_STAT.addr i, 3, 7⟩
def Reg.CNJ_TILE_STAT.slots_reserved (i : Nat) : Fld := ⟨Reg.CNJ_TILE_STAT.addr i, 10, 8⟩
def Reg.CNJ_TILE_STAT.slots_held (i : Nat) : Fld := ⟨Reg.CNJ_TILE_STAT.addr i, 18, 8⟩

/-- Offset of CNJ_TILE_STAT_SPARE (10 Table 10-16). -/
def Reg.CNJ_TILE_STAT_SPARE.addr (i : Nat) : Nat := 0x0C000500 + 0x4 * i
def Reg.CNJ_TILE_STAT_SPARE.state (i : Nat) : Fld := ⟨Reg.CNJ_TILE_STAT_SPARE.addr i, 0, 3⟩
def Reg.CNJ_TILE_STAT_SPARE.serves (i : Nat) : Fld := ⟨Reg.CNJ_TILE_STAT_SPARE.addr i, 3, 7⟩
def Reg.CNJ_TILE_STAT_SPARE.slots_reserved (i : Nat) : Fld := ⟨Reg.CNJ_TILE_STAT_SPARE.addr i, 10, 8⟩
def Reg.CNJ_TILE_STAT_SPARE.slots_held (i : Nat) : Fld := ⟨Reg.CNJ_TILE_STAT_SPARE.addr i, 18, 8⟩

/-- Offset of CNJ_A2A_OVF (10 Table 10-10). -/
def Reg.CNJ_A2A_OVF.addr (i : Nat) : Nat := 0x0C001000 + 0x4 * i
def Reg.CNJ_A2A_OVF.value (i : Nat) : Fld := ⟨Reg.CNJ_A2A_OVF.addr i, 0, 32⟩

/-- Offset of STK_CTL (11 Table 11-9). -/
def Reg.STK_CTL.addr : Nat := 0x10000000
def Reg.STK_CTL.lb_en : Fld := ⟨Reg.STK_CTL.addr, 0, 1⟩
def Reg.STK_CTL.bypass_en : Fld := ⟨Reg.STK_CTL.addr, 1, 1⟩
def Reg.STK_CTL.aperture_en : Fld := ⟨Reg.STK_CTL.addr, 2, 1⟩

/-- Offset of STK_STATUS (11 Table 11-9). -/
def Reg.STK_STATUS.addr : Nat := 0x10000004
def Reg.STK_STATUS.fill_busy : Fld := ⟨Reg.STK_STATUS.addr, 0, 1⟩
def Reg.STK_STATUS.fill_done : Fld := ⟨Reg.STK_STATUS.addr, 1, 1⟩
def Reg.STK_STATUS.stack_ok : Fld := ⟨Reg.STK_STATUS.addr, 2, 12⟩

/-- Offset of STK_INT_STATUS (11 Table 11-9). -/
def Reg.STK_INT_STATUS.addr : Nat := 0x10000008
def Reg.STK_INT_STATUS.ue_event : Fld := ⟨Reg.STK_INT_STATUS.addr, 0, 1⟩
def Reg.STK_INT_STATUS.lb_overflow : Fld := ⟨Reg.STK_INT_STATUS.addr, 1, 1⟩
def Reg.STK_INT_STATUS.page_mend : Fld := ⟨Reg.STK_INT_STATUS.addr, 2, 1⟩
def Reg.STK_INT_STATUS.engine_bypass : Fld := ⟨Reg.STK_INT_STATUS.addr, 3, 1⟩
def Reg.STK_INT_STATUS.lane_limit : Fld := ⟨Reg.STK_INT_STATUS.addr, 4, 1⟩
def Reg.STK_INT_STATUS.region_refused : Fld := ⟨Reg.STK_INT_STATUS.addr, 5, 1⟩
def Reg.STK_INT_STATUS.fill_done : Fld := ⟨Reg.STK_INT_STATUS.addr, 6, 1⟩
def Reg.STK_INT_STATUS.stack_fail : Fld := ⟨Reg.STK_INT_STATUS.addr, 7, 1⟩

/-- Offset of STK_INT_ENABLE (11 Table 11-9). -/
def Reg.STK_INT_ENABLE.addr : Nat := 0x1000000C
def Reg.STK_INT_ENABLE.ue_event : Fld := ⟨Reg.STK_INT_ENABLE.addr, 0, 1⟩
def Reg.STK_INT_ENABLE.lb_overflow : Fld := ⟨Reg.STK_INT_ENABLE.addr, 1, 1⟩
def Reg.STK_INT_ENABLE.page_mend : Fld := ⟨Reg.STK_INT_ENABLE.addr, 2, 1⟩
def Reg.STK_INT_ENABLE.engine_bypass : Fld := ⟨Reg.STK_INT_ENABLE.addr, 3, 1⟩
def Reg.STK_INT_ENABLE.lane_limit : Fld := ⟨Reg.STK_INT_ENABLE.addr, 4, 1⟩
def Reg.STK_INT_ENABLE.region_refused : Fld := ⟨Reg.STK_INT_ENABLE.addr, 5, 1⟩
def Reg.STK_INT_ENABLE.fill_done : Fld := ⟨Reg.STK_INT_ENABLE.addr, 6, 1⟩
def Reg.STK_INT_ENABLE.stack_fail : Fld := ⟨Reg.STK_INT_ENABLE.addr, 7, 1⟩

/-- Offset of STK_ARB_CFG (11 Table 11-9). -/
def Reg.STK_ARB_CFG.addr : Nat := 0x10000010
def Reg.STK_ARB_CFG.w_spill : Fld := ⟨Reg.STK_ARB_CFG.addr, 0, 8⟩
def Reg.STK_ARB_CFG.w_mem : Fld := ⟨Reg.STK_ARB_CFG.addr, 8, 8⟩
def Reg.STK_ARB_CFG.w_acc : Fld := ⟨Reg.STK_ARB_CFG.addr, 16, 8⟩
def Reg.STK_ARB_CFG.w_log : Fld := ⟨Reg.STK_ARB_CFG.addr, 24, 8⟩

/-- Offset of STK_LB_CFG (11 Table 11-9). -/
def Reg.STK_LB_CFG.addr : Nat := 0x10000014
def Reg.STK_LB_CFG.page_weight : Fld := ⟨Reg.STK_LB_CFG.addr, 0, 8⟩
def Reg.STK_LB_CFG.depth : Fld := ⟨Reg.STK_LB_CFG.addr, 8, 12⟩
def Reg.STK_LB_CFG.leak_period : Fld := ⟨Reg.STK_LB_CFG.addr, 20, 8⟩

/-- Offset of STK_REGION_CMD (11 Table 11-9). -/
def Reg.STK_REGION_CMD.addr : Nat := 0x10000018
def Reg.STK_REGION_CMD.region : Fld := ⟨Reg.STK_REGION_CMD.addr, 0, 12⟩
def Reg.STK_REGION_CMD.op : Fld := ⟨Reg.STK_REGION_CMD.addr, 12, 2⟩
def Reg.STK_REGION_CMD.go : Fld := ⟨Reg.STK_REGION_CMD.addr, 14, 1⟩
def Reg.STK_REGION_CMD.status : Fld := ⟨Reg.STK_REGION_CMD.addr, 16, 3⟩

/-- Offset of STK_MEDIA_DPA_LO (11 Table 11-9). -/
def Reg.STK_MEDIA_DPA_LO.addr : Nat := 0x10000020
def Reg.STK_MEDIA_DPA_LO.value : Fld := ⟨Reg.STK_MEDIA_DPA_LO.addr, 0, 32⟩

/-- Offset of STK_MEDIA_DPA_HI (11 Table 11-9). -/
def Reg.STK_MEDIA_DPA_HI.addr : Nat := 0x10000024
def Reg.STK_MEDIA_DPA_HI.value : Fld := ⟨Reg.STK_MEDIA_DPA_HI.addr, 0, 32⟩

/-- Offset of STK_MEDIA_EVT (11 Table 11-9). -/
def Reg.STK_MEDIA_EVT.addr : Nat := 0x10000028
def Reg.STK_MEDIA_EVT.class : Fld := ⟨Reg.STK_MEDIA_EVT.addr, 0, 3⟩
def Reg.STK_MEDIA_EVT.valid : Fld := ⟨Reg.STK_MEDIA_EVT.addr, 3, 1⟩
def Reg.STK_MEDIA_EVT.overrun : Fld := ⟨Reg.STK_MEDIA_EVT.addr, 4, 1⟩

/-- Offset of STK_APERTURE_BASE (11 Table 11-9). -/
def Reg.STK_APERTURE_BASE.addr : Nat := 0x1000002C
def Reg.STK_APERTURE_BASE.base : Fld := ⟨Reg.STK_APERTURE_BASE.addr, 0, 16⟩

/-- Offset of STK_PART (11 Table 11-17). -/
def Reg.STK_PART.addr (i : Nat) : Nat := 0x10000100 + 0x4 * i
def Reg.STK_PART.value (i : Nat) : Fld := ⟨Reg.STK_PART.addr i, 0, 32⟩

/-- Offset of STK_LB (11 Table 11-9). -/
def Reg.STK_LB.addr (i : Nat) : Nat := 0x10000200 + 0x4 * i
def Reg.STK_LB.level (i : Nat) : Fld := ⟨Reg.STK_LB.addr i, 0, 12⟩
def Reg.STK_LB.overflows (i : Nat) : Fld := ⟨Reg.STK_LB.addr i, 16, 16⟩

/-- Offset of STK_ENG (11 Table 11-9). -/
def Reg.STK_ENG.addr (i : Nat) : Nat := 0x10000800 + 0x4 * i
def Reg.STK_ENG.bypass (i : Nat) : Fld := ⟨Reg.STK_ENG.addr i, 0, 1⟩
def Reg.STK_ENG.restore (i : Nat) : Fld := ⟨Reg.STK_ENG.addr i, 1, 1⟩
def Reg.STK_ENG.faults (i : Nat) : Fld := ⟨Reg.STK_ENG.addr i, 8, 8⟩

/-- Offset of STK_CNT_WORD_CORR (11 Table 11-9). -/
def Reg.STK_CNT_WORD_CORR.addr (i : Nat) : Nat := 0x10000E00 + 0x20 * i
def Reg.STK_CNT_WORD_CORR.value (i : Nat) : Fld := ⟨Reg.STK_CNT_WORD_CORR.addr i, 0, 32⟩

/-- Offset of STK_CNT_PAGE_MEND (11 Table 11-9). -/
def Reg.STK_CNT_PAGE_MEND.addr (i : Nat) : Nat := 0x10000E04 + 0x20 * i
def Reg.STK_CNT_PAGE_MEND.value (i : Nat) : Fld := ⟨Reg.STK_CNT_PAGE_MEND.addr i, 0, 32⟩

/-- Offset of STK_CNT_UNCORR (11 Table 11-9). -/
def Reg.STK_CNT_UNCORR.addr (i : Nat) : Nat := 0x10000E08 + 0x20 * i
def Reg.STK_CNT_UNCORR.value (i : Nat) : Fld := ⟨Reg.STK_CNT_UNCORR.addr i, 0, 32⟩

/-- Offset of STK_CNT_ACC_LINES (11 Table 11-9). -/
def Reg.STK_CNT_ACC_LINES.addr (i : Nat) : Nat := 0x10000E0C + 0x20 * i
def Reg.STK_CNT_ACC_LINES.value (i : Nat) : Fld := ⟨Reg.STK_CNT_ACC_LINES.addr i, 0, 32⟩

/-- Offset of STK_CNT_ACC_REFUSED (11 Table 11-9). -/
def Reg.STK_CNT_ACC_REFUSED.addr (i : Nat) : Nat := 0x10000E10 + 0x20 * i
def Reg.STK_CNT_ACC_REFUSED.value (i : Nat) : Fld := ⟨Reg.STK_CNT_ACC_REFUSED.addr i, 0, 32⟩

/-- Offset of STK_CNT_ACC_MISMATCH (11 Table 11-9). -/
def Reg.STK_CNT_ACC_MISMATCH.addr (i : Nat) : Nat := 0x10000E14 + 0x20 * i
def Reg.STK_CNT_ACC_MISMATCH.value (i : Nat) : Fld := ⟨Reg.STK_CNT_ACC_MISMATCH.addr i, 0, 32⟩

/-- Offset of STK_REGION_W0 (11 Table 11-15). -/
def Reg.STK_REGION_W0.addr (i : Nat) : Nat := 0x10010000 + 0x20 * i
def Reg.STK_REGION_W0.valid (i : Nat) : Fld := ⟨Reg.STK_REGION_W0.addr i, 0, 1⟩
def Reg.STK_REGION_W0.mode (i : Nat) : Fld := ⟨Reg.STK_REGION_W0.addr i, 1, 1⟩
def Reg.STK_REGION_W0.busy (i : Nat) : Fld := ⟨Reg.STK_REGION_W0.addr i, 2, 1⟩
def Reg.STK_REGION_W0.clear_done (i : Nat) : Fld := ⟨Reg.STK_REGION_W0.addr i, 3, 1⟩
def Reg.STK_REGION_W0.group (i : Nat) : Fld := ⟨Reg.STK_REGION_W0.addr i, 4, 14⟩
def Reg.STK_REGION_W0.partition (i : Nat) : Fld := ⟨Reg.STK_REGION_W0.addr i, 18, 12⟩

/-- Offset of STK_REGION_W1 (11 Table 11-15). -/
def Reg.STK_REGION_W1.addr (i : Nat) : Nat := 0x10010004 + 0x20 * i
def Reg.STK_REGION_W1.word0 (i : Nat) : Fld := ⟨Reg.STK_REGION_W1.addr i, 0, 32⟩

/-- Offset of STK_REGION_W2 (11 Table 11-15). -/
def Reg.STK_REGION_W2.addr (i : Nat) : Nat := 0x10010008 + 0x20 * i
def Reg.STK_REGION_W2.word1 (i : Nat) : Fld := ⟨Reg.STK_REGION_W2.addr i, 0, 32⟩

/-- Offset of STK_REGION_W3 (11 Table 11-15). -/
def Reg.STK_REGION_W3.addr (i : Nat) : Nat := 0x1001000C + 0x20 * i
def Reg.STK_REGION_W3.base (i : Nat) : Fld := ⟨Reg.STK_REGION_W3.addr i, 0, 24⟩

/-- Offset of STK_REGION_W4 (11 Table 11-15). -/
def Reg.STK_REGION_W4.addr (i : Nat) : Nat := 0x10010010 + 0x20 * i
def Reg.STK_REGION_W4.lines (i : Nat) : Fld := ⟨Reg.STK_REGION_W4.addr i, 0, 30⟩

/-- Offset of STK_REGION_W5 (11 Table 11-15). -/
def Reg.STK_REGION_W5.addr (i : Nat) : Nat := 0x10010014 + 0x20 * i
def Reg.STK_REGION_W5.holder_cseq (i : Nat) : Fld := ⟨Reg.STK_REGION_W5.addr i, 0, 16⟩

/-- Offset of MSF_CTL (12 Table 12-9). -/
def Reg.MSF_CTL.addr : Nat := 0x12000000
def Reg.MSF_CTL.combine_en : Fld := ⟨Reg.MSF_CTL.addr, 0, 1⟩
def Reg.MSF_CTL.combine_thru_en : Fld := ⟨Reg.MSF_CTL.addr, 1, 1⟩
def Reg.MSF_CTL.filter_en : Fld := ⟨Reg.MSF_CTL.addr, 2, 1⟩
def Reg.MSF_CTL.access_en : Fld := ⟨Reg.MSF_CTL.addr, 3, 1⟩

/-- Offset of MSF_INT_STATUS (12 Table 12-9). -/
def Reg.MSF_INT_STATUS.addr : Nat := 0x12000004
def Reg.MSF_INT_STATUS.filter_evict : Fld := ⟨Reg.MSF_INT_STATUS.addr, 0, 1⟩
def Reg.MSF_INT_STATUS.comb_full : Fld := ⟨Reg.MSF_INT_STATUS.addr, 1, 1⟩
def Reg.MSF_INT_STATUS.rsp_timeout : Fld := ⟨Reg.MSF_INT_STATUS.addr, 2, 1⟩
def Reg.MSF_INT_STATUS.access_refused : Fld := ⟨Reg.MSF_INT_STATUS.addr, 3, 1⟩
def Reg.MSF_INT_STATUS.lane_sat : Fld := ⟨Reg.MSF_INT_STATUS.addr, 4, 1⟩

/-- Offset of MSF_INT_ENABLE (12 Table 12-9). -/
def Reg.MSF_INT_ENABLE.addr : Nat := 0x12000008
def Reg.MSF_INT_ENABLE.filter_evict : Fld := ⟨Reg.MSF_INT_ENABLE.addr, 0, 1⟩
def Reg.MSF_INT_ENABLE.comb_full : Fld := ⟨Reg.MSF_INT_ENABLE.addr, 1, 1⟩
def Reg.MSF_INT_ENABLE.rsp_timeout : Fld := ⟨Reg.MSF_INT_ENABLE.addr, 2, 1⟩
def Reg.MSF_INT_ENABLE.access_refused : Fld := ⟨Reg.MSF_INT_ENABLE.addr, 3, 1⟩
def Reg.MSF_INT_ENABLE.lane_sat : Fld := ⟨Reg.MSF_INT_ENABLE.addr, 4, 1⟩

/-- Offset of MSF_COMBINE_CFG (12 Table 12-9). -/
def Reg.MSF_COMBINE_CFG.addr : Nat := 0x1200000C
def Reg.MSF_COMBINE_CFG.trigger_count : Fld := ⟨Reg.MSF_COMBINE_CFG.addr, 0, 8⟩
def Reg.MSF_COMBINE_CFG.trigger_window : Fld := ⟨Reg.MSF_COMBINE_CFG.addr, 8, 8⟩
def Reg.MSF_COMBINE_CFG.merge_window : Fld := ⟨Reg.MSF_COMBINE_CFG.addr, 16, 8⟩

/-- Offset of MSF_COMBINE_CFG2 (12 Table 12-9). -/
def Reg.MSF_COMBINE_CFG2.addr : Nat := 0x12000010
def Reg.MSF_COMBINE_CFG2.max_merge : Fld := ⟨Reg.MSF_COMBINE_CFG2.addr, 0, 13⟩
def Reg.MSF_COMBINE_CFG2.idle_close : Fld := ⟨Reg.MSF_COMBINE_CFG2.addr, 16, 8⟩

/-- Offset of MSF_FILTER_CFG (12 Table 12-9). -/
def Reg.MSF_FILTER_CFG.addr : Nat := 0x12000014
def Reg.MSF_FILTER_CFG.filter_window : Fld := ⟨Reg.MSF_FILTER_CFG.addr, 0, 8⟩

/-- Offset of MSF_RSP_TIMEOUT (12 Table 12-9). -/
def Reg.MSF_RSP_TIMEOUT.addr : Nat := 0x12000018
def Reg.MSF_RSP_TIMEOUT.timeout : Fld := ⟨Reg.MSF_RSP_TIMEOUT.addr, 0, 8⟩

/-- Offset of MSF_WIN_SIZE_LO (12 Table 12-9). -/
def Reg.MSF_WIN_SIZE_LO.addr : Nat := 0x12000020
def Reg.MSF_WIN_SIZE_LO.value : Fld := ⟨Reg.MSF_WIN_SIZE_LO.addr, 0, 32⟩

/-- Offset of MSF_WIN_SIZE_HI (12 Table 12-9). -/
def Reg.MSF_WIN_SIZE_HI.addr : Nat := 0x12000024
def Reg.MSF_WIN_SIZE_HI.value : Fld := ⟨Reg.MSF_WIN_SIZE_HI.addr, 0, 32⟩

/-- Offset of MSF_LAST_NACK (12 Table 12-9). -/
def Reg.MSF_LAST_NACK.addr : Nat := 0x12000028
def Reg.MSF_LAST_NACK.snode : Fld := ⟨Reg.MSF_LAST_NACK.addr, 0, 17⟩
def Reg.MSF_LAST_NACK.reason : Fld := ⟨Reg.MSF_LAST_NACK.addr, 17, 8⟩
def Reg.MSF_LAST_NACK.opcode : Fld := ⟨Reg.MSF_LAST_NACK.addr, 25, 3⟩
def Reg.MSF_LAST_NACK.valid : Fld := ⟨Reg.MSF_LAST_NACK.addr, 28, 1⟩

/-- Offset of MSF_COMB_STAT (12 Table 12-9). -/
def Reg.MSF_COMB_STAT.addr (i : Nat) : Nat := 0x12000030 + 0x4 * i
def Reg.MSF_COMB_STAT.entries (i : Nat) : Fld := ⟨Reg.MSF_COMB_STAT.addr i, 0, 13⟩
def Reg.MSF_COMB_STAT.high_water (i : Nat) : Fld := ⟨Reg.MSF_COMB_STAT.addr i, 16, 13⟩

/-- Offset of MSF_CNT_LOAD (12 Table 12-9). -/
def Reg.MSF_CNT_LOAD.addr : Nat := 0x12000100
def Reg.MSF_CNT_LOAD.value : Fld := ⟨Reg.MSF_CNT_LOAD.addr, 0, 32⟩

/-- Offset of MSF_CNT_STORE (12 Table 12-9). -/
def Reg.MSF_CNT_STORE.addr : Nat := 0x12000104
def Reg.MSF_CNT_STORE.value : Fld := ⟨Reg.MSF_CNT_STORE.addr, 0, 32⟩

/-- Offset of MSF_CNT_ATOMIC (12 Table 12-9). -/
def Reg.MSF_CNT_ATOMIC.addr : Nat := 0x12000108
def Reg.MSF_CNT_ATOMIC.value : Fld := ⟨Reg.MSF_CNT_ATOMIC.addr, 0, 32⟩

/-- Offset of MSF_CNT_REDUCE (12 Table 12-9). -/
def Reg.MSF_CNT_REDUCE.addr : Nat := 0x1200010C
def Reg.MSF_CNT_REDUCE.value : Fld := ⟨Reg.MSF_CNT_REDUCE.addr, 0, 32⟩

/-- Offset of MSF_CNT_MCAST (12 Table 12-9). -/
def Reg.MSF_CNT_MCAST.addr : Nat := 0x12000110
def Reg.MSF_CNT_MCAST.value : Fld := ⟨Reg.MSF_CNT_MCAST.addr, 0, 32⟩

/-- Offset of MSF_CNT_FENCE (12 Table 12-9). -/
def Reg.MSF_CNT_FENCE.addr : Nat := 0x12000114
def Reg.MSF_CNT_FENCE.value : Fld := ⟨Reg.MSF_CNT_FENCE.addr, 0, 32⟩

/-- Offset of MSF_CNT_NACK (12 Table 12-9). -/
def Reg.MSF_CNT_NACK.addr : Nat := 0x12000118
def Reg.MSF_CNT_NACK.value : Fld := ⟨Reg.MSF_CNT_NACK.addr, 0, 32⟩

/-- Offset of MSF_CNT_MERGED (12 Table 12-9). -/
def Reg.MSF_CNT_MERGED.addr : Nat := 0x1200011C
def Reg.MSF_CNT_MERGED.value : Fld := ⟨Reg.MSF_CNT_MERGED.addr, 0, 32⟩

/-- Offset of MSF_CNT_FLUSH (12 Table 12-9). -/
def Reg.MSF_CNT_FLUSH.addr : Nat := 0x12000120
def Reg.MSF_CNT_FLUSH.value : Fld := ⟨Reg.MSF_CNT_FLUSH.addr, 0, 32⟩

/-- Offset of MSF_CNT_COMB_FULL (12 Table 12-9). -/
def Reg.MSF_CNT_COMB_FULL.addr : Nat := 0x12000124
def Reg.MSF_CNT_COMB_FULL.value : Fld := ⟨Reg.MSF_CNT_COMB_FULL.addr, 0, 32⟩

/-- Offset of MSF_CNT_FILTER_HIT (12 Table 12-9). -/
def Reg.MSF_CNT_FILTER_HIT.addr : Nat := 0x12000128
def Reg.MSF_CNT_FILTER_HIT.value : Fld := ⟨Reg.MSF_CNT_FILTER_HIT.addr, 0, 32⟩

/-- Offset of MSF_CNT_FILTER_EVICT (12 Table 12-9). -/
def Reg.MSF_CNT_FILTER_EVICT.addr : Nat := 0x1200012C
def Reg.MSF_CNT_FILTER_EVICT.value : Fld := ⟨Reg.MSF_CNT_FILTER_EVICT.addr, 0, 32⟩

/-- Offset of MSF_CNT_SEQ_REUSE (12 Table 12-9). -/
def Reg.MSF_CNT_SEQ_REUSE.addr : Nat := 0x12000130
def Reg.MSF_CNT_SEQ_REUSE.value : Fld := ⟨Reg.MSF_CNT_SEQ_REUSE.addr, 0, 32⟩

/-- Offset of MSF_CNT_SAT (12 Table 12-9). -/
def Reg.MSF_CNT_SAT.addr : Nat := 0x12000134
def Reg.MSF_CNT_SAT.value : Fld := ⟨Reg.MSF_CNT_SAT.addr, 0, 32⟩

/-- Offset of MSF_CNT_LATE_RSP (12 Table 12-9). -/
def Reg.MSF_CNT_LATE_RSP.addr : Nat := 0x12000138
def Reg.MSF_CNT_LATE_RSP.value : Fld := ⟨Reg.MSF_CNT_LATE_RSP.addr, 0, 32⟩

/-- Offset of MSF_ACCESS_BASE (12 Table 12-13). -/
def Reg.MSF_ACCESS_BASE.addr (i : Nat) : Nat := 0x12001000 + 0x10 * i
def Reg.MSF_ACCESS_BASE.base (i : Nat) : Fld := ⟨Reg.MSF_ACCESS_BASE.addr i, 0, 19⟩

/-- Offset of MSF_ACCESS_SIZE (12 Table 12-13). -/
def Reg.MSF_ACCESS_SIZE.addr (i : Nat) : Nat := 0x12001004 + 0x10 * i
def Reg.MSF_ACCESS_SIZE.size (i : Nat) : Fld := ⟨Reg.MSF_ACCESS_SIZE.addr i, 0, 19⟩

/-- Offset of MSF_ACCESS_CTL (12 Table 12-13). -/
def Reg.MSF_ACCESS_CTL.addr (i : Nat) : Nat := 0x12001008 + 0x10 * i
def Reg.MSF_ACCESS_CTL.partition (i : Nat) : Fld := ⟨Reg.MSF_ACCESS_CTL.addr i, 0, 12⟩
def Reg.MSF_ACCESS_CTL.write (i : Nat) : Fld := ⟨Reg.MSF_ACCESS_CTL.addr i, 12, 1⟩
def Reg.MSF_ACCESS_CTL.valid (i : Nat) : Fld := ⟨Reg.MSF_ACCESS_CTL.addr i, 13, 1⟩

/-- Offset of ORY_CTL (13 Table 13-10). -/
def Reg.ORY_CTL.addr : Nat := 0x14000000
def Reg.ORY_CTL.orrery_en : Fld := ⟨Reg.ORY_CTL.addr, 0, 1⟩
def Reg.ORY_CTL.fault_limit : Fld := ⟨Reg.ORY_CTL.addr, 8, 8⟩

/-- Offset of ORY_STATUS (13 Table 13-10). -/
def Reg.ORY_STATUS.addr : Nat := 0x14000004
def Reg.ORY_STATUS.programs : Fld := ⟨Reg.ORY_STATUS.addr, 0, 7⟩
def Reg.ORY_STATUS.free : Fld := ⟨Reg.ORY_STATUS.addr, 8, 16⟩

/-- Offset of ORY_INT_STATUS (13 Table 13-10). -/
def Reg.ORY_INT_STATUS.addr : Nat := 0x14000008
def Reg.ORY_INT_STATUS.thread_fault : Fld := ⟨Reg.ORY_INT_STATUS.addr, 0, 1⟩
def Reg.ORY_INT_STATUS.prog_suspended : Fld := ⟨Reg.ORY_INT_STATUS.addr, 1, 1⟩
def Reg.ORY_INT_STATUS.load_done : Fld := ⟨Reg.ORY_INT_STATUS.addr, 2, 1⟩
def Reg.ORY_INT_STATUS.token_held : Fld := ⟨Reg.ORY_INT_STATUS.addr, 3, 1⟩
def Reg.ORY_INT_STATUS.core_out : Fld := ⟨Reg.ORY_INT_STATUS.addr, 4, 1⟩

/-- Offset of ORY_INT_ENABLE (13 Table 13-10). -/
def Reg.ORY_INT_ENABLE.addr : Nat := 0x1400000C
def Reg.ORY_INT_ENABLE.thread_fault : Fld := ⟨Reg.ORY_INT_ENABLE.addr, 0, 1⟩
def Reg.ORY_INT_ENABLE.prog_suspended : Fld := ⟨Reg.ORY_INT_ENABLE.addr, 1, 1⟩
def Reg.ORY_INT_ENABLE.load_done : Fld := ⟨Reg.ORY_INT_ENABLE.addr, 2, 1⟩
def Reg.ORY_INT_ENABLE.token_held : Fld := ⟨Reg.ORY_INT_ENABLE.addr, 3, 1⟩
def Reg.ORY_INT_ENABLE.core_out : Fld := ⟨Reg.ORY_INT_ENABLE.addr, 4, 1⟩

/-- Offset of ORY_PROG_CMD (13 Table 13-10). -/
def Reg.ORY_PROG_CMD.addr : Nat := 0x14000010
def Reg.ORY_PROG_CMD.id : Fld := ⟨Reg.ORY_PROG_CMD.addr, 0, 16⟩
def Reg.ORY_PROG_CMD.op : Fld := ⟨Reg.ORY_PROG_CMD.addr, 16, 2⟩
def Reg.ORY_PROG_CMD.go : Fld := ⟨Reg.ORY_PROG_CMD.addr, 18, 1⟩
def Reg.ORY_PROG_CMD.busy : Fld := ⟨Reg.ORY_PROG_CMD.addr, 19, 1⟩
def Reg.ORY_PROG_CMD.status : Fld := ⟨Reg.ORY_PROG_CMD.addr, 20, 4⟩

/-- Offset of ORY_PROG_LEN (13 Table 13-10). -/
def Reg.ORY_PROG_LEN.addr : Nat := 0x14000014
def Reg.ORY_PROG_LEN.bytes : Fld := ⟨Reg.ORY_PROG_LEN.addr, 0, 19⟩

/-- Offset of ORY_FAULT (13 Table 13-10). -/
def Reg.ORY_FAULT.addr : Nat := 0x14000018
def Reg.ORY_FAULT.code : Fld := ⟨Reg.ORY_FAULT.addr, 0, 4⟩
def Reg.ORY_FAULT.thread : Fld := ⟨Reg.ORY_FAULT.addr, 4, 14⟩
def Reg.ORY_FAULT.user_code : Fld := ⟨Reg.ORY_FAULT.addr, 18, 5⟩
def Reg.ORY_FAULT.chunk_held : Fld := ⟨Reg.ORY_FAULT.addr, 23, 1⟩
def Reg.ORY_FAULT.valid : Fld := ⟨Reg.ORY_FAULT.addr, 24, 1⟩

/-- Offset of ORY_FAULT_PC (13 Table 13-10). -/
def Reg.ORY_FAULT_PC.addr : Nat := 0x1400001C
def Reg.ORY_FAULT_PC.pc : Fld := ⟨Reg.ORY_FAULT_PC.addr, 0, 15⟩
def Reg.ORY_FAULT_PC.prog : Fld := ⟨Reg.ORY_FAULT_PC.addr, 16, 16⟩

/-- Offset of ORY_FAULT_ADDR_LO (13 Table 13-10). -/
def Reg.ORY_FAULT_ADDR_LO.addr : Nat := 0x14000020
def Reg.ORY_FAULT_ADDR_LO.value : Fld := ⟨Reg.ORY_FAULT_ADDR_LO.addr, 0, 32⟩

/-- Offset of ORY_FAULT_ADDR_HI (13 Table 13-10). -/
def Reg.ORY_FAULT_ADDR_HI.addr : Nat := 0x14000024
def Reg.ORY_FAULT_ADDR_HI.value : Fld := ⟨Reg.ORY_FAULT_ADDR_HI.addr, 0, 32⟩

/-- Offset of ORY_PROG_ID (13 Table 13-10). -/
def Reg.ORY_PROG_ID.addr (i : Nat) : Nat := 0x14000100 + 0x8 * i
def Reg.ORY_PROG_ID.id (i : Nat) : Fld := ⟨Reg.ORY_PROG_ID.addr i, 0, 16⟩
def Reg.ORY_PROG_ID.valid (i : Nat) : Fld := ⟨Reg.ORY_PROG_ID.addr i, 16, 1⟩
def Reg.ORY_PROG_ID.privileged (i : Nat) : Fld := ⟨Reg.ORY_PROG_ID.addr i, 17, 1⟩
def Reg.ORY_PROG_ID.transform (i : Nat) : Fld := ⟨Reg.ORY_PROG_ID.addr i, 18, 1⟩

/-- Offset of ORY_PROG_STAT (13 Table 13-10). -/
def Reg.ORY_PROG_STAT.addr (i : Nat) : Nat := 0x14000104 + 0x8 * i
def Reg.ORY_PROG_STAT.threads (i : Nat) : Fld := ⟨Reg.ORY_PROG_STAT.addr i, 0, 7⟩
def Reg.ORY_PROG_STAT.suspended (i : Nat) : Fld := ⟨Reg.ORY_PROG_STAT.addr i, 7, 1⟩
def Reg.ORY_PROG_STAT.faults (i : Nat) : Fld := ⟨Reg.ORY_PROG_STAT.addr i, 8, 8⟩
def Reg.ORY_PROG_STAT.groups (i : Nat) : Fld := ⟨Reg.ORY_PROG_STAT.addr i, 16, 16⟩

/-- Offset of ORY_CORE (13 Table 13-10). -/
def Reg.ORY_CORE.addr (i : Nat) : Nat := 0x14001000 + 0x4 * i
def Reg.ORY_CORE.in_service (i : Nat) : Fld := ⟨Reg.ORY_CORE.addr i, 0, 1⟩
def Reg.ORY_CORE.threads_reserved (i : Nat) : Fld := ⟨Reg.ORY_CORE.addr i, 1, 7⟩
def Reg.ORY_CORE.tokens_queued (i : Nat) : Fld := ⟨Reg.ORY_CORE.addr i, 8, 9⟩
def Reg.ORY_CORE.scratch_kib (i : Nat) : Fld := ⟨Reg.ORY_CORE.addr i, 17, 9⟩

/-- Offset of ORY_CNT_TOKENS (13 Table 13-10). -/
def Reg.ORY_CNT_TOKENS.addr : Nat := 0x14002000
def Reg.ORY_CNT_TOKENS.value : Fld := ⟨Reg.ORY_CNT_TOKENS.addr, 0, 32⟩

/-- Offset of ORY_CNT_RELEASE (13 Table 13-10). -/
def Reg.ORY_CNT_RELEASE.addr : Nat := 0x14002004
def Reg.ORY_CNT_RELEASE.value : Fld := ⟨Reg.ORY_CNT_RELEASE.addr, 0, 32⟩

/-- Offset of ORY_CNT_IMPLICIT (13 Table 13-10). -/
def Reg.ORY_CNT_IMPLICIT.addr : Nat := 0x14002008
def Reg.ORY_CNT_IMPLICIT.value : Fld := ⟨Reg.ORY_CNT_IMPLICIT.addr, 0, 32⟩

/-- Offset of ORY_CNT_STALE (13 Table 13-10). -/
def Reg.ORY_CNT_STALE.addr : Nat := 0x1400200C
def Reg.ORY_CNT_STALE.value : Fld := ⟨Reg.ORY_CNT_STALE.addr, 0, 32⟩

/-- Offset of ORY_CNT_FAULT (13 Table 13-10). -/
def Reg.ORY_CNT_FAULT.addr : Nat := 0x14002010
def Reg.ORY_CNT_FAULT.value : Fld := ⟨Reg.ORY_CNT_FAULT.addr, 0, 32⟩

/-- Offset of ORY_CNT_POST_FULL (13 Table 13-10). -/
def Reg.ORY_CNT_POST_FULL.addr : Nat := 0x14002014
def Reg.ORY_CNT_POST_FULL.value : Fld := ⟨Reg.ORY_CNT_POST_FULL.addr, 0, 32⟩

/-- Offset of HLT_CTL (14 Table 14-5). -/
def Reg.HLT_CTL.addr : Nat := 0x16000000
def Reg.HLT_CTL.albedo_en : Fld := ⟨Reg.HLT_CTL.addr, 0, 1⟩
def Reg.HLT_CTL.expel_en : Fld := ⟨Reg.HLT_CTL.addr, 1, 1⟩
def Reg.HLT_CTL.audit_en : Fld := ⟨Reg.HLT_CTL.addr, 2, 1⟩
def Reg.HLT_CTL.link_isolate : Fld := ⟨Reg.HLT_CTL.addr, 3, 1⟩
def Reg.HLT_CTL.fence_cap : Fld := ⟨Reg.HLT_CTL.addr, 4, 9⟩

/-- Offset of HLT_STATUS (14 Table 14-5). -/
def Reg.HLT_STATUS.addr : Nat := 0x16000004
def Reg.HLT_STATUS.suspect : Fld := ⟨Reg.HLT_STATUS.addr, 0, 10⟩
def Reg.HLT_STATUS.degraded : Fld := ⟨Reg.HLT_STATUS.addr, 10, 10⟩
def Reg.HLT_STATUS.expelled : Fld := ⟨Reg.HLT_STATUS.addr, 20, 10⟩

/-- Offset of HLT_INT_STATUS (14 Table 14-5). -/
def Reg.HLT_INT_STATUS.addr : Nat := 0x16000008
def Reg.HLT_INT_STATUS.suspect : Fld := ⟨Reg.HLT_INT_STATUS.addr, 0, 1⟩
def Reg.HLT_INT_STATUS.degraded : Fld := ⟨Reg.HLT_INT_STATUS.addr, 1, 1⟩
def Reg.HLT_INT_STATUS.expelled : Fld := ⟨Reg.HLT_INT_STATUS.addr, 2, 1⟩
def Reg.HLT_INT_STATUS.expel_abort : Fld := ⟨Reg.HLT_INT_STATUS.addr, 3, 1⟩
def Reg.HLT_INT_STATUS.breaker_frozen : Fld := ⟨Reg.HLT_INT_STATUS.addr, 4, 1⟩
def Reg.HLT_INT_STATUS.audit_mismatch : Fld := ⟨Reg.HLT_INT_STATUS.addr, 5, 1⟩
def Reg.HLT_INT_STATUS.quarantine : Fld := ⟨Reg.HLT_INT_STATUS.addr, 6, 1⟩
def Reg.HLT_INT_STATUS.quarantine_blocked : Fld := ⟨Reg.HLT_INT_STATUS.addr, 7, 1⟩
def Reg.HLT_INT_STATUS.power_over : Fld := ⟨Reg.HLT_INT_STATUS.addr, 8, 1⟩
def Reg.HLT_INT_STATUS.power_crit : Fld := ⟨Reg.HLT_INT_STATUS.addr, 9, 1⟩
def Reg.HLT_INT_STATUS.tj_warn : Fld := ⟨Reg.HLT_INT_STATUS.addr, 10, 1⟩
def Reg.HLT_INT_STATUS.tj_throttle : Fld := ⟨Reg.HLT_INT_STATUS.addr, 11, 1⟩
def Reg.HLT_INT_STATUS.thermal_crit : Fld := ⟨Reg.HLT_INT_STATUS.addr, 12, 1⟩
def Reg.HLT_INT_STATUS.stack_hot : Fld := ⟨Reg.HLT_INT_STATUS.addr, 13, 1⟩
def Reg.HLT_INT_STATUS.coolant_suspect : Fld := ⟨Reg.HLT_INT_STATUS.addr, 14, 1⟩

/-- Offset of HLT_INT_ENABLE (14 Table 14-5). -/
def Reg.HLT_INT_ENABLE.addr : Nat := 0x1600000C
def Reg.HLT_INT_ENABLE.suspect : Fld := ⟨Reg.HLT_INT_ENABLE.addr, 0, 1⟩
def Reg.HLT_INT_ENABLE.degraded : Fld := ⟨Reg.HLT_INT_ENABLE.addr, 1, 1⟩
def Reg.HLT_INT_ENABLE.expelled : Fld := ⟨Reg.HLT_INT_ENABLE.addr, 2, 1⟩
def Reg.HLT_INT_ENABLE.expel_abort : Fld := ⟨Reg.HLT_INT_ENABLE.addr, 3, 1⟩
def Reg.HLT_INT_ENABLE.breaker_frozen : Fld := ⟨Reg.HLT_INT_ENABLE.addr, 4, 1⟩
def Reg.HLT_INT_ENABLE.audit_mismatch : Fld := ⟨Reg.HLT_INT_ENABLE.addr, 5, 1⟩
def Reg.HLT_INT_ENABLE.quarantine : Fld := ⟨Reg.HLT_INT_ENABLE.addr, 6, 1⟩
def Reg.HLT_INT_ENABLE.quarantine_blocked : Fld := ⟨Reg.HLT_INT_ENABLE.addr, 7, 1⟩
def Reg.HLT_INT_ENABLE.power_over : Fld := ⟨Reg.HLT_INT_ENABLE.addr, 8, 1⟩
def Reg.HLT_INT_ENABLE.power_crit : Fld := ⟨Reg.HLT_INT_ENABLE.addr, 9, 1⟩
def Reg.HLT_INT_ENABLE.tj_warn : Fld := ⟨Reg.HLT_INT_ENABLE.addr, 10, 1⟩
def Reg.HLT_INT_ENABLE.tj_throttle : Fld := ⟨Reg.HLT_INT_ENABLE.addr, 11, 1⟩
def Reg.HLT_INT_ENABLE.thermal_crit : Fld := ⟨Reg.HLT_INT_ENABLE.addr, 12, 1⟩
def Reg.HLT_INT_ENABLE.stack_hot : Fld := ⟨Reg.HLT_INT_ENABLE.addr, 13, 1⟩
def Reg.HLT_INT_ENABLE.coolant_suspect : Fld := ⟨Reg.HLT_INT_ENABLE.addr, 14, 1⟩

/-- Offset of HLT_THRESH (14 Table 14-5). -/
def Reg.HLT_THRESH.addr : Nat := 0x16000010
def Reg.HLT_THRESH.suspect : Fld := ⟨Reg.HLT_THRESH.addr, 0, 10⟩
def Reg.HLT_THRESH.suspect_leave : Fld := ⟨Reg.HLT_THRESH.addr, 10, 10⟩
def Reg.HLT_THRESH.expel : Fld := ⟨Reg.HLT_THRESH.addr, 20, 10⟩

/-- Offset of HLT_RECOVER (14 Table 14-5). -/
def Reg.HLT_RECOVER.addr : Nat := 0x16000014
def Reg.HLT_RECOVER.step : Fld := ⟨Reg.HLT_RECOVER.addr, 0, 10⟩
def Reg.HLT_RECOVER.period : Fld := ⟨Reg.HLT_RECOVER.addr, 16, 8⟩

/-- Offset of HLT_BREAKER_CFG (14 Table 14-5). -/
def Reg.HLT_BREAKER_CFG.addr : Nat := 0x16000018
def Reg.HLT_BREAKER_CFG.limit : Fld := ⟨Reg.HLT_BREAKER_CFG.addr, 0, 4⟩
def Reg.HLT_BREAKER_CFG.window : Fld := ⟨Reg.HLT_BREAKER_CFG.addr, 4, 12⟩

/-- Offset of HLT_BREAKER (14 Table 14-5). -/
def Reg.HLT_BREAKER.addr : Nat := 0x1600001C
def Reg.HLT_BREAKER.frozen : Fld := ⟨Reg.HLT_BREAKER.addr, 0, 1⟩
def Reg.HLT_BREAKER.clear : Fld := ⟨Reg.HLT_BREAKER.addr, 1, 1⟩
def Reg.HLT_BREAKER.count : Fld := ⟨Reg.HLT_BREAKER.addr, 2, 4⟩
def Reg.HLT_BREAKER.common_die : Fld := ⟨Reg.HLT_BREAKER.addr, 6, 1⟩
def Reg.HLT_BREAKER.common_bin : Fld := ⟨Reg.HLT_BREAKER.addr, 7, 1⟩
def Reg.HLT_BREAKER.epoch_recent : Fld := ⟨Reg.HLT_BREAKER.addr, 8, 1⟩
def Reg.HLT_BREAKER.die : Fld := ⟨Reg.HLT_BREAKER.addr, 9, 2⟩
def Reg.HLT_BREAKER.bin : Fld := ⟨Reg.HLT_BREAKER.addr, 11, 4⟩

/-- Offset of HLT_AUDIT_CFG (14 Table 14-5). -/
def Reg.HLT_AUDIT_CFG.addr : Nat := 0x16000020
def Reg.HLT_AUDIT_CFG.audit_interval : Fld := ⟨Reg.HLT_AUDIT_CFG.addr, 0, 16⟩
def Reg.HLT_AUDIT_CFG.audit_slots : Fld := ⟨Reg.HLT_AUDIT_CFG.addr, 16, 4⟩
def Reg.HLT_AUDIT_CFG.audit_wait : Fld := ⟨Reg.HLT_AUDIT_CFG.addr, 20, 8⟩

/-- Offset of HLT_QUAR_CFG (14 Table 14-5). -/
def Reg.HLT_QUAR_CFG.addr : Nat := 0x16000024
def Reg.HLT_QUAR_CFG.quar_temp : Fld := ⟨Reg.HLT_QUAR_CFG.addr, 0, 7⟩
def Reg.HLT_QUAR_CFG.quar_events : Fld := ⟨Reg.HLT_QUAR_CFG.addr, 8, 8⟩

/-- Offset of HLT_ELEM_SEL (14 Table 14-5). -/
def Reg.HLT_ELEM_SEL.addr : Nat := 0x16000028
def Reg.HLT_ELEM_SEL.class : Fld := ⟨Reg.HLT_ELEM_SEL.addr, 0, 3⟩
def Reg.HLT_ELEM_SEL.index : Fld := ⟨Reg.HLT_ELEM_SEL.addr, 3, 10⟩

/-- Offset of HLT_ELEM_STAT (14 Table 14-5). -/
def Reg.HLT_ELEM_STAT.addr : Nat := 0x1600002C
def Reg.HLT_ELEM_STAT.score : Fld := ⟨Reg.HLT_ELEM_STAT.addr, 0, 10⟩
def Reg.HLT_ELEM_STAT.state : Fld := ⟨Reg.HLT_ELEM_STAT.addr, 10, 3⟩
def Reg.HLT_ELEM_STAT.capped : Fld := ⟨Reg.HLT_ELEM_STAT.addr, 13, 1⟩
def Reg.HLT_ELEM_STAT.last_input : Fld := ⟨Reg.HLT_ELEM_STAT.addr, 14, 5⟩
def Reg.HLT_ELEM_STAT.hold_reason : Fld := ⟨Reg.HLT_ELEM_STAT.addr, 19, 3⟩

/-- Offset of HLT_ELEM_CMD (14 Table 14-5). -/
def Reg.HLT_ELEM_CMD.addr : Nat := 0x16000030
def Reg.HLT_ELEM_CMD.op : Fld := ⟨Reg.HLT_ELEM_CMD.addr, 0, 2⟩
def Reg.HLT_ELEM_CMD.go : Fld := ⟨Reg.HLT_ELEM_CMD.addr, 2, 1⟩
def Reg.HLT_ELEM_CMD.status : Fld := ⟨Reg.HLT_ELEM_CMD.addr, 3, 3⟩

/-- Offset of HLT_BUDGET_CFG (14 Table 14-13). -/
def Reg.HLT_BUDGET_CFG.addr (i : Nat) : Nat := 0x16000040 + 0x4 * i
def Reg.HLT_BUDGET_CFG.burst (i : Nat) : Fld := ⟨Reg.HLT_BUDGET_CFG.addr i, 0, 4⟩
def Reg.HLT_BUDGET_CFG.refill (i : Nat) : Fld := ⟨Reg.HLT_BUDGET_CFG.addr i, 4, 12⟩

/-- Offset of HLT_WEIGHT (14 Table 14-2). -/
def Reg.HLT_WEIGHT.addr (i : Nat) : Nat := 0x16000080 + 0x4 * i
def Reg.HLT_WEIGHT.weight (i : Nat) : Fld := ⟨Reg.HLT_WEIGHT.addr i, 0, 10⟩

/-- Offset of HLT_BUDGET_TOK (14 Table 14-5). -/
def Reg.HLT_BUDGET_TOK.addr (i : Nat) : Nat := 0x16000100 + 0x4 * i
def Reg.HLT_BUDGET_TOK.tokens (i : Nat) : Fld := ⟨Reg.HLT_BUDGET_TOK.addr i, 0, 4⟩

/-- Offset of HLT_PWR_CFG (14 Table 14-5). -/
def Reg.HLT_PWR_CFG.addr : Nat := 0x16000300
def Reg.HLT_PWR_CFG.pkg_limit : Fld := ⟨Reg.HLT_PWR_CFG.addr, 0, 11⟩
def Reg.HLT_PWR_CFG.pkg_hyst : Fld := ⟨Reg.HLT_PWR_CFG.addr, 11, 7⟩
def Reg.HLT_PWR_CFG.dom_hyst : Fld := ⟨Reg.HLT_PWR_CFG.addr, 18, 7⟩

/-- Offset of HLT_PKG_PWR (14 Table 14-5). -/
def Reg.HLT_PKG_PWR.addr : Nat := 0x16000304
def Reg.HLT_PKG_PWR.avg : Fld := ⟨Reg.HLT_PKG_PWR.addr, 0, 11⟩
def Reg.HLT_PKG_PWR.peak : Fld := ⟨Reg.HLT_PKG_PWR.addr, 16, 11⟩

/-- Offset of HLT_DOM_CAP (14 Table 14-4). -/
def Reg.HLT_DOM_CAP.addr (i : Nat) : Nat := 0x16000310 + 0x8 * i
def Reg.HLT_DOM_CAP.cap (i : Nat) : Fld := ⟨Reg.HLT_DOM_CAP.addr i, 0, 11⟩

/-- Offset of HLT_DOM_PWR (14 Table 14-5). -/
def Reg.HLT_DOM_PWR.addr (i : Nat) : Nat := 0x16000314 + 0x8 * i
def Reg.HLT_DOM_PWR.avg (i : Nat) : Fld := ⟨Reg.HLT_DOM_PWR.addr i, 0, 11⟩
def Reg.HLT_DOM_PWR.peak (i : Nat) : Fld := ⟨Reg.HLT_DOM_PWR.addr i, 16, 11⟩

/-- Offset of HLT_THROTTLE (14 Table 14-5). -/
def Reg.HLT_THROTTLE.addr : Nat := 0x16000340
def Reg.HLT_THROTTLE.orrery : Fld := ⟨Reg.HLT_THROTTLE.addr, 0, 6⟩
def Reg.HLT_THROTTLE.accession : Fld := ⟨Reg.HLT_THROTTLE.addr, 8, 6⟩
def Reg.HLT_THROTTLE.tiles : Fld := ⟨Reg.HLT_THROTTLE.addr, 16, 6⟩

/-- Offset of HLT_THERM_CFG (14 Table 14-5). -/
def Reg.HLT_THERM_CFG.addr : Nat := 0x16000344
def Reg.HLT_THERM_CFG.tj_warn : Fld := ⟨Reg.HLT_THERM_CFG.addr, 0, 7⟩
def Reg.HLT_THERM_CFG.tj_throttle : Fld := ⟨Reg.HLT_THERM_CFG.addr, 7, 7⟩
def Reg.HLT_THERM_CFG.stack_hot : Fld := ⟨Reg.HLT_THERM_CFG.addr, 14, 7⟩
def Reg.HLT_THERM_CFG.coolant_slew : Fld := ⟨Reg.HLT_THERM_CFG.addr, 21, 7⟩

/-- Offset of HLT_TJ_MAX (14 Table 14-5). -/
def Reg.HLT_TJ_MAX.addr (i : Nat) : Nat := 0x16000350 + 0x4 * i
def Reg.HLT_TJ_MAX.temp (i : Nat) : Fld := ⟨Reg.HLT_TJ_MAX.addr i, 0, 16⟩

/-- Offset of HLT_STACK_TEMP (14 Table 14-5). -/
def Reg.HLT_STACK_TEMP.addr (i : Nat) : Nat := 0x16000380 + 0x4 * i
def Reg.HLT_STACK_TEMP.temp (i : Nat) : Fld := ⟨Reg.HLT_STACK_TEMP.addr i, 0, 16⟩

/-- Offset of HLT_CNT_EXPEL (14 Table 14-5). -/
def Reg.HLT_CNT_EXPEL.addr : Nat := 0x16000400
def Reg.HLT_CNT_EXPEL.value : Fld := ⟨Reg.HLT_CNT_EXPEL.addr, 0, 32⟩

/-- Offset of HLT_CNT_DEGRADED (14 Table 14-5). -/
def Reg.HLT_CNT_DEGRADED.addr : Nat := 0x16000404
def Reg.HLT_CNT_DEGRADED.value : Fld := ⟨Reg.HLT_CNT_DEGRADED.addr, 0, 32⟩

/-- Offset of HLT_CNT_AUDIT (14 Table 14-5). -/
def Reg.HLT_CNT_AUDIT.addr : Nat := 0x16000408
def Reg.HLT_CNT_AUDIT.value : Fld := ⟨Reg.HLT_CNT_AUDIT.addr, 0, 32⟩

/-- Offset of HLT_CNT_AUDIT_SKIP (14 Table 14-5). -/
def Reg.HLT_CNT_AUDIT_SKIP.addr : Nat := 0x1600040C
def Reg.HLT_CNT_AUDIT_SKIP.value : Fld := ⟨Reg.HLT_CNT_AUDIT_SKIP.addr, 0, 32⟩

/-- Offset of HLT_CNT_AUDIT_LATE (14 Table 14-5). -/
def Reg.HLT_CNT_AUDIT_LATE.addr : Nat := 0x16000410
def Reg.HLT_CNT_AUDIT_LATE.value : Fld := ⟨Reg.HLT_CNT_AUDIT_LATE.addr, 0, 32⟩

/-- Offset of HLT_CNT_AUDIT_MISMATCH (14 Table 14-5). -/
def Reg.HLT_CNT_AUDIT_MISMATCH.addr : Nat := 0x16000414
def Reg.HLT_CNT_AUDIT_MISMATCH.value : Fld := ⟨Reg.HLT_CNT_AUDIT_MISMATCH.addr, 0, 32⟩

/-- Offset of HLT_CNT_THROTTLE_US (14 Table 14-5). -/
def Reg.HLT_CNT_THROTTLE_US.addr : Nat := 0x16000418
def Reg.HLT_CNT_THROTTLE_US.value : Fld := ⟨Reg.HLT_CNT_THROTTLE_US.addr, 0, 32⟩

/-- Offset of HLT_BIN (14 Table 14-5). -/
def Reg.HLT_BIN.addr (i : Nat) : Nat := 0x16010000 + 0x4 * i
def Reg.HLT_BIN.lo (i : Nat) : Fld := ⟨Reg.HLT_BIN.addr i, 0, 16⟩
def Reg.HLT_BIN.hi (i : Nat) : Fld := ⟨Reg.HLT_BIN.addr i, 16, 16⟩

/-- Offset of CFG_CTL (15 Table 15-9). -/
def Reg.CFG_CTL.addr : Nat := 0x17000000
def Reg.CFG_CTL.local_write_en : Fld := ⟨Reg.CFG_CTL.addr, 0, 1⟩
def Reg.CFG_CTL.mgmt_amend_en : Fld := ⟨Reg.CFG_CTL.addr, 1, 1⟩
def Reg.CFG_CTL.query_en : Fld := ⟨Reg.CFG_CTL.addr, 2, 1⟩

/-- Offset of CFG_STATUS (15 Table 15-9). -/
def Reg.CFG_STATUS.addr : Nat := 0x17000004
def Reg.CFG_STATUS.folio_state : Fld := ⟨Reg.CFG_STATUS.addr, 0, 2⟩
def Reg.CFG_STATUS.colophon_busy : Fld := ⟨Reg.CFG_STATUS.addr, 2, 1⟩
def Reg.CFG_STATUS.drift : Fld := ⟨Reg.CFG_STATUS.addr, 3, 1⟩
def Reg.CFG_STATUS.amend_pending : Fld := ⟨Reg.CFG_STATUS.addr, 4, 1⟩
def Reg.CFG_STATUS.staging_busy : Fld := ⟨Reg.CFG_STATUS.addr, 5, 1⟩

/-- Offset of CFG_INT_STATUS (15 Table 15-9). -/
def Reg.CFG_INT_STATUS.addr : Nat := 0x17000008
def Reg.CFG_INT_STATUS.folio_bad : Fld := ⟨Reg.CFG_INT_STATUS.addr, 0, 1⟩
def Reg.CFG_INT_STATUS.amend_staged : Fld := ⟨Reg.CFG_INT_STATUS.addr, 1, 1⟩
def Reg.CFG_INT_STATUS.amend_refused : Fld := ⟨Reg.CFG_INT_STATUS.addr, 2, 1⟩
def Reg.CFG_INT_STATUS.amend_fired : Fld := ⟨Reg.CFG_INT_STATUS.addr, 3, 1⟩
def Reg.CFG_INT_STATUS.amend_discarded : Fld := ⟨Reg.CFG_INT_STATUS.addr, 4, 1⟩
def Reg.CFG_INT_STATUS.colophon_ready : Fld := ⟨Reg.CFG_INT_STATUS.addr, 5, 1⟩
def Reg.CFG_INT_STATUS.local_write : Fld := ⟨Reg.CFG_INT_STATUS.addr, 6, 1⟩
def Reg.CFG_INT_STATUS.cu_done : Fld := ⟨Reg.CFG_INT_STATUS.addr, 7, 1⟩
def Reg.CFG_INT_STATUS.cu_mismatch : Fld := ⟨Reg.CFG_INT_STATUS.addr, 8, 1⟩

/-- Offset of CFG_INT_ENABLE (15 Table 15-9). -/
def Reg.CFG_INT_ENABLE.addr : Nat := 0x1700000C
def Reg.CFG_INT_ENABLE.folio_bad : Fld := ⟨Reg.CFG_INT_ENABLE.addr, 0, 1⟩
def Reg.CFG_INT_ENABLE.amend_staged : Fld := ⟨Reg.CFG_INT_ENABLE.addr, 1, 1⟩
def Reg.CFG_INT_ENABLE.amend_refused : Fld := ⟨Reg.CFG_INT_ENABLE.addr, 2, 1⟩
def Reg.CFG_INT_ENABLE.amend_fired : Fld := ⟨Reg.CFG_INT_ENABLE.addr, 3, 1⟩
def Reg.CFG_INT_ENABLE.amend_discarded : Fld := ⟨Reg.CFG_INT_ENABLE.addr, 4, 1⟩
def Reg.CFG_INT_ENABLE.colophon_ready : Fld := ⟨Reg.CFG_INT_ENABLE.addr, 5, 1⟩
def Reg.CFG_INT_ENABLE.local_write : Fld := ⟨Reg.CFG_INT_ENABLE.addr, 6, 1⟩
def Reg.CFG_INT_ENABLE.cu_done : Fld := ⟨Reg.CFG_INT_ENABLE.addr, 7, 1⟩
def Reg.CFG_INT_ENABLE.cu_mismatch : Fld := ⟨Reg.CFG_INT_ENABLE.addr, 8, 1⟩

/-- Offset of CFG_EPOCH (15 Table 15-9). -/
def Reg.CFG_EPOCH.addr : Nat := 0x17000010
def Reg.CFG_EPOCH.value : Fld := ⟨Reg.CFG_EPOCH.addr, 0, 32⟩

/-- Offset of CFG_LOCAL_WRITES (15 Table 15-9). -/
def Reg.CFG_LOCAL_WRITES.addr : Nat := 0x17000014
def Reg.CFG_LOCAL_WRITES.value : Fld := ⟨Reg.CFG_LOCAL_WRITES.addr, 0, 32⟩

/-- Offset of CFG_DOMAIN (15 Table 15-9). -/
def Reg.CFG_DOMAIN.addr : Nat := 0x17000018
def Reg.CFG_DOMAIN.value : Fld := ⟨Reg.CFG_DOMAIN.addr, 0, 32⟩

/-- Offset of CFG_COLOPHON (15 Table 15-9). -/
def Reg.CFG_COLOPHON.addr (i : Nat) : Nat := 0x17000020 + 0x4 * i
def Reg.CFG_COLOPHON.value (i : Nat) : Fld := ⟨Reg.CFG_COLOPHON.addr i, 0, 32⟩

/-- Offset of CFG_LOCAL_DIGEST (15 Table 15-9). -/
def Reg.CFG_LOCAL_DIGEST.addr (i : Nat) : Nat := 0x17000040 + 0x4 * i
def Reg.CFG_LOCAL_DIGEST.value (i : Nat) : Fld := ⟨Reg.CFG_LOCAL_DIGEST.addr i, 0, 32⟩

/-- Offset of CFG_AMEND_CMD (15 Table 15-13). -/
def Reg.CFG_AMEND_CMD.addr : Nat := 0x17000060
def Reg.CFG_AMEND_CMD.op : Fld := ⟨Reg.CFG_AMEND_CMD.addr, 0, 1⟩
def Reg.CFG_AMEND_CMD.go : Fld := ⟨Reg.CFG_AMEND_CMD.addr, 1, 1⟩

/-- Offset of CFG_AMEND_STATUS (15 Table 15-13). -/
def Reg.CFG_AMEND_STATUS.addr : Nat := 0x17000064
def Reg.CFG_AMEND_STATUS.act_state : Fld := ⟨Reg.CFG_AMEND_STATUS.addr, 0, 2⟩
def Reg.CFG_AMEND_STATUS.act_reason : Fld := ⟨Reg.CFG_AMEND_STATUS.addr, 2, 4⟩
def Reg.CFG_AMEND_STATUS.cause : Fld := ⟨Reg.CFG_AMEND_STATUS.addr, 6, 4⟩

/-- Offset of CFG_AMEND_LEN (15 Table 15-9). -/
def Reg.CFG_AMEND_LEN.addr : Nat := 0x17000068
def Reg.CFG_AMEND_LEN.bytes : Fld := ⟨Reg.CFG_AMEND_LEN.addr, 0, 24⟩

/-- Offset of CFG_AMEND_ERR (15 Table 15-9). -/
def Reg.CFG_AMEND_ERR.addr : Nat := 0x1700006C
def Reg.CFG_AMEND_ERR.section : Fld := ⟨Reg.CFG_AMEND_ERR.addr, 0, 8⟩
def Reg.CFG_AMEND_ERR.index : Fld := ⟨Reg.CFG_AMEND_ERR.addr, 8, 20⟩
def Reg.CFG_AMEND_ERR.detail : Fld := ⟨Reg.CFG_AMEND_ERR.addr, 28, 2⟩

/-- Offset of CFG_AMEND_ACT_LO (15 Table 15-9). -/
def Reg.CFG_AMEND_ACT_LO.addr : Nat := 0x17000070
def Reg.CFG_AMEND_ACT_LO.value : Fld := ⟨Reg.CFG_AMEND_ACT_LO.addr, 0, 32⟩

/-- Offset of CFG_AMEND_ACT_HI (15 Table 15-9). -/
def Reg.CFG_AMEND_ACT_HI.addr : Nat := 0x17000074
def Reg.CFG_AMEND_ACT_HI.value : Fld := ⟨Reg.CFG_AMEND_ACT_HI.addr, 0, 32⟩

/-- Offset of CFG_AMEND_EPOCH (15 Table 15-9). -/
def Reg.CFG_AMEND_EPOCH.addr : Nat := 0x17000078
def Reg.CFG_AMEND_EPOCH.value : Fld := ⟨Reg.CFG_AMEND_EPOCH.addr, 0, 32⟩

/-- Offset of CFG_MANAGER (15 Table 15-9). -/
def Reg.CFG_MANAGER.addr (i : Nat) : Nat := 0x17000080 + 0x4 * i
def Reg.CFG_MANAGER.node (i : Nat) : Fld := ⟨Reg.CFG_MANAGER.addr i, 0, 17⟩
def Reg.CFG_MANAGER.valid (i : Nat) : Fld := ⟨Reg.CFG_MANAGER.addr i, 31, 1⟩

/-- Offset of CFG_CU_CTL (15 Table 15-9). -/
def Reg.CFG_CU_CTL.addr (i : Nat) : Nat := 0x17010000 + 0x40 * i
def Reg.CFG_CU_CTL.preset (i : Nat) : Fld := ⟨Reg.CFG_CU_CTL.addr i, 0, 3⟩
def Reg.CFG_CU_CTL.width_m1 (i : Nat) : Fld := ⟨Reg.CFG_CU_CTL.addr i, 3, 6⟩
def Reg.CFG_CU_CTL.refl (i : Nat) : Fld := ⟨Reg.CFG_CU_CTL.addr i, 9, 1⟩
def Reg.CFG_CU_CTL.final_inv (i : Nat) : Fld := ⟨Reg.CFG_CU_CTL.addr i, 10, 1⟩
def Reg.CFG_CU_CTL.compare_en (i : Nat) : Fld := ⟨Reg.CFG_CU_CTL.addr i, 11, 1⟩
def Reg.CFG_CU_CTL.src (i : Nat) : Fld := ⟨Reg.CFG_CU_CTL.addr i, 12, 1⟩
def Reg.CFG_CU_CTL.go (i : Nat) : Fld := ⟨Reg.CFG_CU_CTL.addr i, 13, 1⟩

/-- Offset of CFG_CU_STATUS (15 Table 15-9). -/
def Reg.CFG_CU_STATUS.addr (i : Nat) : Nat := 0x17010004 + 0x40 * i
def Reg.CFG_CU_STATUS.state (i : Nat) : Fld := ⟨Reg.CFG_CU_STATUS.addr i, 0, 2⟩
def Reg.CFG_CU_STATUS.mismatch (i : Nat) : Fld := ⟨Reg.CFG_CU_STATUS.addr i, 2, 1⟩
def Reg.CFG_CU_STATUS.error (i : Nat) : Fld := ⟨Reg.CFG_CU_STATUS.addr i, 3, 2⟩

/-- Offset of CFG_CU_POLY_LO (15 Table 15-9). -/
def Reg.CFG_CU_POLY_LO.addr (i : Nat) : Nat := 0x17010008 + 0x40 * i
def Reg.CFG_CU_POLY_LO.value (i : Nat) : Fld := ⟨Reg.CFG_CU_POLY_LO.addr i, 0, 32⟩

/-- Offset of CFG_CU_POLY_HI (15 Table 15-9). -/
def Reg.CFG_CU_POLY_HI.addr (i : Nat) : Nat := 0x1701000C + 0x40 * i
def Reg.CFG_CU_POLY_HI.value (i : Nat) : Fld := ⟨Reg.CFG_CU_POLY_HI.addr i, 0, 32⟩

/-- Offset of CFG_CU_INIT_LO (15 Table 15-9). -/
def Reg.CFG_CU_INIT_LO.addr (i : Nat) : Nat := 0x17010010 + 0x40 * i
def Reg.CFG_CU_INIT_LO.value (i : Nat) : Fld := ⟨Reg.CFG_CU_INIT_LO.addr i, 0, 32⟩

/-- Offset of CFG_CU_INIT_HI (15 Table 15-9). -/
def Reg.CFG_CU_INIT_HI.addr (i : Nat) : Nat := 0x17010014 + 0x40 * i
def Reg.CFG_CU_INIT_HI.value (i : Nat) : Fld := ⟨Reg.CFG_CU_INIT_HI.addr i, 0, 32⟩

/-- Offset of CFG_CU_EXPECT_LO (15 Table 15-9). -/
def Reg.CFG_CU_EXPECT_LO.addr (i : Nat) : Nat := 0x17010018 + 0x40 * i
def Reg.CFG_CU_EXPECT_LO.value (i : Nat) : Fld := ⟨Reg.CFG_CU_EXPECT_LO.addr i, 0, 32⟩

/-- Offset of CFG_CU_EXPECT_HI (15 Table 15-9). -/
def Reg.CFG_CU_EXPECT_HI.addr (i : Nat) : Nat := 0x1701001C + 0x40 * i
def Reg.CFG_CU_EXPECT_HI.value (i : Nat) : Fld := ⟨Reg.CFG_CU_EXPECT_HI.addr i, 0, 32⟩

/-- Offset of CFG_CU_SRC_LO (15 Table 15-9). -/
def Reg.CFG_CU_SRC_LO.addr (i : Nat) : Nat := 0x17010020 + 0x40 * i
def Reg.CFG_CU_SRC_LO.value (i : Nat) : Fld := ⟨Reg.CFG_CU_SRC_LO.addr i, 0, 32⟩

/-- Offset of CFG_CU_SRC_HI (15 Table 15-9). -/
def Reg.CFG_CU_SRC_HI.addr (i : Nat) : Nat := 0x17010024 + 0x40 * i
def Reg.CFG_CU_SRC_HI.value (i : Nat) : Fld := ⟨Reg.CFG_CU_SRC_HI.addr i, 0, 32⟩

/-- Offset of CFG_CU_LEN_LO (15 Table 15-9). -/
def Reg.CFG_CU_LEN_LO.addr (i : Nat) : Nat := 0x17010028 + 0x40 * i
def Reg.CFG_CU_LEN_LO.value (i : Nat) : Fld := ⟨Reg.CFG_CU_LEN_LO.addr i, 0, 32⟩

/-- Offset of CFG_CU_LEN_HI (15 Table 15-9). -/
def Reg.CFG_CU_LEN_HI.addr (i : Nat) : Nat := 0x1701002C + 0x40 * i
def Reg.CFG_CU_LEN_HI.value (i : Nat) : Fld := ⟨Reg.CFG_CU_LEN_HI.addr i, 0, 32⟩

/-- Offset of CFG_CU_RESULT_LO (15 Table 15-9). -/
def Reg.CFG_CU_RESULT_LO.addr (i : Nat) : Nat := 0x17010030 + 0x40 * i
def Reg.CFG_CU_RESULT_LO.value (i : Nat) : Fld := ⟨Reg.CFG_CU_RESULT_LO.addr i, 0, 32⟩

/-- Offset of CFG_CU_RESULT_HI (15 Table 15-9). -/
def Reg.CFG_CU_RESULT_HI.addr (i : Nat) : Nat := 0x17010034 + 0x40 * i
def Reg.CFG_CU_RESULT_HI.value (i : Nat) : Fld := ⟨Reg.CFG_CU_RESULT_HI.addr i, 0, 32⟩

/-- Offset of SEC_CTL (17 Table 17-7). -/
def Reg.SEC_CTL.addr : Nat := 0x18000000
def Reg.SEC_CTL.spdm_en : Fld := ⟨Reg.SEC_CTL.addr, 0, 1⟩
def Reg.SEC_CTL.debug_auth_en : Fld := ⟨Reg.SEC_CTL.addr, 1, 1⟩

/-- Offset of SEC_STATUS (17 Table 17-7). -/
def Reg.SEC_STATUS.addr : Nat := 0x18000004
def Reg.SEC_STATUS.identity : Fld := ⟨Reg.SEC_STATUS.addr, 0, 2⟩
def Reg.SEC_STATUS.owner : Fld := ⟨Reg.SEC_STATUS.addr, 2, 2⟩
def Reg.SEC_STATUS.active_slot : Fld := ⟨Reg.SEC_STATUS.addr, 4, 1⟩
def Reg.SEC_STATUS.debug_unlocked : Fld := ⟨Reg.SEC_STATUS.addr, 5, 1⟩
def Reg.SEC_STATUS.alias_ready : Fld := ⟨Reg.SEC_STATUS.addr, 6, 1⟩
def Reg.SEC_STATUS.install_pending : Fld := ⟨Reg.SEC_STATUS.addr, 7, 1⟩

/-- Offset of SEC_INT_STATUS (17 Table 17-7). -/
def Reg.SEC_INT_STATUS.addr : Nat := 0x18000008
def Reg.SEC_INT_STATUS.verify_fail : Fld := ⟨Reg.SEC_INT_STATUS.addr, 0, 1⟩
def Reg.SEC_INT_STATUS.identity_fail : Fld := ⟨Reg.SEC_INT_STATUS.addr, 1, 1⟩
def Reg.SEC_INT_STATUS.owner_done : Fld := ⟨Reg.SEC_INT_STATUS.addr, 2, 1⟩
def Reg.SEC_INT_STATUS.debug_unlock : Fld := ⟨Reg.SEC_INT_STATUS.addr, 3, 1⟩

/-- Offset of SEC_INT_ENABLE (17 Table 17-7). -/
def Reg.SEC_INT_ENABLE.addr : Nat := 0x1800000C
def Reg.SEC_INT_ENABLE.verify_fail : Fld := ⟨Reg.SEC_INT_ENABLE.addr, 0, 1⟩
def Reg.SEC_INT_ENABLE.identity_fail : Fld := ⟨Reg.SEC_INT_ENABLE.addr, 1, 1⟩
def Reg.SEC_INT_ENABLE.owner_done : Fld := ⟨Reg.SEC_INT_ENABLE.addr, 2, 1⟩
def Reg.SEC_INT_ENABLE.debug_unlock : Fld := ⟨Reg.SEC_INT_ENABLE.addr, 3, 1⟩

/-- Offset of SEC_SVN (17 Table 17-7). -/
def Reg.SEC_SVN.addr : Nat := 0x18000010
def Reg.SEC_SVN.value : Fld := ⟨Reg.SEC_SVN.addr, 0, 32⟩

/-- Offset of SEC_OWNER_SEQ (17 Table 17-7). -/
def Reg.SEC_OWNER_SEQ.addr : Nat := 0x18000014
def Reg.SEC_OWNER_SEQ.value : Fld := ⟨Reg.SEC_OWNER_SEQ.addr, 0, 32⟩

/-- Offset of SEC_OWNER_CMD (17 Table 17-7). -/
def Reg.SEC_OWNER_CMD.addr : Nat := 0x18000018
def Reg.SEC_OWNER_CMD.op : Fld := ⟨Reg.SEC_OWNER_CMD.addr, 0, 1⟩
def Reg.SEC_OWNER_CMD.go : Fld := ⟨Reg.SEC_OWNER_CMD.addr, 1, 1⟩
def Reg.SEC_OWNER_CMD.busy : Fld := ⟨Reg.SEC_OWNER_CMD.addr, 2, 1⟩
def Reg.SEC_OWNER_CMD.status : Fld := ⟨Reg.SEC_OWNER_CMD.addr, 3, 3⟩

/-- Offset of SEC_OWNER_LEN (17 Table 17-7). -/
def Reg.SEC_OWNER_LEN.addr : Nat := 0x1800001C
def Reg.SEC_OWNER_LEN.bytes : Fld := ⟨Reg.SEC_OWNER_LEN.addr, 0, 16⟩

/-- Offset of SEC_CNT_VERIFY_FAIL (17 Table 17-7). -/
def Reg.SEC_CNT_VERIFY_FAIL.addr : Nat := 0x18000020
def Reg.SEC_CNT_VERIFY_FAIL.value : Fld := ⟨Reg.SEC_CNT_VERIFY_FAIL.addr, 0, 32⟩

/-- Offset of SEC_FW_MEAS (17 Table 17-7). -/
def Reg.SEC_FW_MEAS.addr (i : Nat) : Nat := 0x18000040 + 0x4 * i
def Reg.SEC_FW_MEAS.value (i : Nat) : Fld := ⟨Reg.SEC_FW_MEAS.addr i, 0, 32⟩

/-- Offset of SEC_DEVID_HASH (17 Table 17-7). -/
def Reg.SEC_DEVID_HASH.addr (i : Nat) : Nat := 0x18000080 + 0x4 * i
def Reg.SEC_DEVID_HASH.value (i : Nat) : Fld := ⟨Reg.SEC_DEVID_HASH.addr i, 0, 32⟩

/-- Offset of SEC_DEBUG_NONCE (17 Table 17-7). -/
def Reg.SEC_DEBUG_NONCE.addr (i : Nat) : Nat := 0x180000A0 + 0x4 * i
def Reg.SEC_DEBUG_NONCE.value (i : Nat) : Fld := ⟨Reg.SEC_DEBUG_NONCE.addr i, 0, 32⟩

/-- Offset of SEC_KEY (17 Table 17-7). -/
def Reg.SEC_KEY.addr (i : Nat) (j : Nat) : Nat := 0x18000100 + 0x40 * i + 0x4 * j
def Reg.SEC_KEY.value (i : Nat) (j : Nat) : Fld := ⟨Reg.SEC_KEY.addr i j, 0, 32⟩

/-- Offset of SEC_KEY_ROLE (17 Table 17-7). -/
def Reg.SEC_KEY_ROLE.addr (i : Nat) : Nat := 0x18000200 + 0x4 * i
def Reg.SEC_KEY_ROLE.roles (i : Nat) : Fld := ⟨Reg.SEC_KEY_ROLE.addr i, 0, 5⟩
def Reg.SEC_KEY_ROLE.valid (i : Nat) : Fld := ⟨Reg.SEC_KEY_ROLE.addr i, 31, 1⟩

/-- Offset of PMU_CTL (19 Table 19-4). -/
def Reg.PMU_CTL.addr : Nat := 0x19000000
def Reg.PMU_CTL.global_en : Fld := ⟨Reg.PMU_CTL.addr, 0, 1⟩
def Reg.PMU_CTL.freeze : Fld := ⟨Reg.PMU_CTL.addr, 1, 1⟩
def Reg.PMU_CTL.freeze_on_ovf : Fld := ⟨Reg.PMU_CTL.addr, 2, 1⟩
def Reg.PMU_CTL.ledger_en : Fld := ⟨Reg.PMU_CTL.addr, 3, 1⟩

/-- Offset of PMU_INT_STATUS (19 Table 19-4). -/
def Reg.PMU_INT_STATUS.addr : Nat := 0x19000004
def Reg.PMU_INT_STATUS.ovf : Fld := ⟨Reg.PMU_INT_STATUS.addr, 0, 1⟩
def Reg.PMU_INT_STATUS.ledger_ovf : Fld := ⟨Reg.PMU_INT_STATUS.addr, 1, 1⟩
def Reg.PMU_INT_STATUS.sample : Fld := ⟨Reg.PMU_INT_STATUS.addr, 2, 1⟩
def Reg.PMU_INT_STATUS.sample_lost : Fld := ⟨Reg.PMU_INT_STATUS.addr, 3, 1⟩

/-- Offset of PMU_INT_ENABLE (19 Table 19-4). -/
def Reg.PMU_INT_ENABLE.addr : Nat := 0x19000008
def Reg.PMU_INT_ENABLE.ovf : Fld := ⟨Reg.PMU_INT_ENABLE.addr, 0, 1⟩
def Reg.PMU_INT_ENABLE.ledger_ovf : Fld := ⟨Reg.PMU_INT_ENABLE.addr, 1, 1⟩
def Reg.PMU_INT_ENABLE.sample : Fld := ⟨Reg.PMU_INT_ENABLE.addr, 2, 1⟩
def Reg.PMU_INT_ENABLE.sample_lost : Fld := ⟨Reg.PMU_INT_ENABLE.addr, 3, 1⟩

/-- Offset of PMU_OVF_LO (19 Table 19-4). -/
def Reg.PMU_OVF_LO.addr : Nat := 0x19000010
def Reg.PMU_OVF_LO.value : Fld := ⟨Reg.PMU_OVF_LO.addr, 0, 32⟩

/-- Offset of PMU_OVF_HI (19 Table 19-4). -/
def Reg.PMU_OVF_HI.addr : Nat := 0x19000014
def Reg.PMU_OVF_HI.value : Fld := ⟨Reg.PMU_OVF_HI.addr, 0, 32⟩

/-- Offset of PMU_SMP_PROD (19 Table 19-4). -/
def Reg.PMU_SMP_PROD.addr : Nat := 0x19000018
def Reg.PMU_SMP_PROD.value : Fld := ⟨Reg.PMU_SMP_PROD.addr, 0, 32⟩

/-- Offset of PMU_SMP_CONS (19 Table 19-4). -/
def Reg.PMU_SMP_CONS.addr : Nat := 0x1900001C
def Reg.PMU_SMP_CONS.value : Fld := ⟨Reg.PMU_SMP_CONS.addr, 0, 32⟩

/-- Offset of PMU_SMP_LOST (19 Table 19-4). -/
def Reg.PMU_SMP_LOST.addr : Nat := 0x19000020
def Reg.PMU_SMP_LOST.value : Fld := ⟨Reg.PMU_SMP_LOST.addr, 0, 32⟩

/-- Offset of PMU_EVSEL (19 Table 19-4). -/
def Reg.PMU_EVSEL.addr (i : Nat) : Nat := 0x19000100 + 0x10 * i
def Reg.PMU_EVSEL.event (i : Nat) : Fld := ⟨Reg.PMU_EVSEL.addr i, 0, 8⟩
def Reg.PMU_EVSEL.block (i : Nat) : Fld := ⟨Reg.PMU_EVSEL.addr i, 8, 5⟩
def Reg.PMU_EVSEL.index (i : Nat) : Fld := ⟨Reg.PMU_EVSEL.addr i, 13, 10⟩
def Reg.PMU_EVSEL.vc (i : Nat) : Fld := ⟨Reg.PMU_EVSEL.addr i, 23, 3⟩
def Reg.PMU_EVSEL.vc_all (i : Nat) : Fld := ⟨Reg.PMU_EVSEL.addr i, 26, 1⟩
def Reg.PMU_EVSEL.enable (i : Nat) : Fld := ⟨Reg.PMU_EVSEL.addr i, 27, 1⟩
def Reg.PMU_EVSEL.sample_en (i : Nat) : Fld := ⟨Reg.PMU_EVSEL.addr i, 28, 1⟩

/-- Offset of PMU_CNT_LO (19 Table 19-4). -/
def Reg.PMU_CNT_LO.addr (i : Nat) : Nat := 0x19000104 + 0x10 * i
def Reg.PMU_CNT_LO.value (i : Nat) : Fld := ⟨Reg.PMU_CNT_LO.addr i, 0, 32⟩

/-- Offset of PMU_CNT_HI (19 Table 19-4). -/
def Reg.PMU_CNT_HI.addr (i : Nat) : Nat := 0x19000108 + 0x10 * i
def Reg.PMU_CNT_HI.value (i : Nat) : Fld := ⟨Reg.PMU_CNT_HI.addr i, 0, 16⟩

/-- Offset of PMU_PERIOD (19 Table 19-4). -/
def Reg.PMU_PERIOD.addr (i : Nat) : Nat := 0x1900010C + 0x10 * i
def Reg.PMU_PERIOD.value (i : Nat) : Fld := ⟨Reg.PMU_PERIOD.addr i, 0, 32⟩

/-- Offset of PMU_SMP (19 Table 19-4). -/
def Reg.PMU_SMP.addr (i : Nat) : Nat := 0x19001000 + 0x4 * i
def Reg.PMU_SMP.value (i : Nat) : Fld := ⟨Reg.PMU_SMP.addr i, 0, 32⟩

/-- Offset of PMU_SL_USED_LO (19 Table 19-4). -/
def Reg.PMU_SL_USED_LO.addr (i : Nat) : Nat := 0x19010000 + 0x30 * i
def Reg.PMU_SL_USED_LO.value (i : Nat) : Fld := ⟨Reg.PMU_SL_USED_LO.addr i, 0, 32⟩

/-- Offset of PMU_SL_USED_HI (19 Table 19-4). -/
def Reg.PMU_SL_USED_HI.addr (i : Nat) : Nat := 0x19010004 + 0x30 * i
def Reg.PMU_SL_USED_HI.value (i : Nat) : Fld := ⟨Reg.PMU_SL_USED_HI.addr i, 0, 16⟩

/-- Offset of PMU_SL_DISC_LO (19 Table 19-4). -/
def Reg.PMU_SL_DISC_LO.addr (i : Nat) : Nat := 0x19010008 + 0x30 * i
def Reg.PMU_SL_DISC_LO.value (i : Nat) : Fld := ⟨Reg.PMU_SL_DISC_LO.addr i, 0, 32⟩

/-- Offset of PMU_SL_DISC_HI (19 Table 19-4). -/
def Reg.PMU_SL_DISC_HI.addr (i : Nat) : Nat := 0x1901000C + 0x30 * i
def Reg.PMU_SL_DISC_HI.value (i : Nat) : Fld := ⟨Reg.PMU_SL_DISC_HI.addr i, 0, 16⟩

/-- Offset of PMU_SL_CONT_LO (19 Table 19-4). -/
def Reg.PMU_SL_CONT_LO.addr (i : Nat) : Nat := 0x19010010 + 0x30 * i
def Reg.PMU_SL_CONT_LO.value (i : Nat) : Fld := ⟨Reg.PMU_SL_CONT_LO.addr i, 0, 32⟩

/-- Offset of PMU_SL_CONT_HI (19 Table 19-4). -/
def Reg.PMU_SL_CONT_HI.addr (i : Nat) : Nat := 0x19010014 + 0x30 * i
def Reg.PMU_SL_CONT_HI.value (i : Nat) : Fld := ⟨Reg.PMU_SL_CONT_HI.addr i, 0, 16⟩

/-- Offset of PMU_SL_HELD_LO (19 Table 19-4). -/
def Reg.PMU_SL_HELD_LO.addr (i : Nat) : Nat := 0x19010018 + 0x30 * i
def Reg.PMU_SL_HELD_LO.value (i : Nat) : Fld := ⟨Reg.PMU_SL_HELD_LO.addr i, 0, 32⟩

/-- Offset of PMU_SL_HELD_HI (19 Table 19-4). -/
def Reg.PMU_SL_HELD_HI.addr (i : Nat) : Nat := 0x1901001C + 0x30 * i
def Reg.PMU_SL_HELD_HI.value (i : Nat) : Fld := ⟨Reg.PMU_SL_HELD_HI.addr i, 0, 16⟩

/-- Offset of PMU_SL_IDLE_LO (19 Table 19-4). -/
def Reg.PMU_SL_IDLE_LO.addr (i : Nat) : Nat := 0x19010020 + 0x30 * i
def Reg.PMU_SL_IDLE_LO.value (i : Nat) : Fld := ⟨Reg.PMU_SL_IDLE_LO.addr i, 0, 32⟩

/-- Offset of PMU_SL_IDLE_HI (19 Table 19-4). -/
def Reg.PMU_SL_IDLE_HI.addr (i : Nat) : Nat := 0x19010024 + 0x30 * i
def Reg.PMU_SL_IDLE_HI.value (i : Nat) : Fld := ⟨Reg.PMU_SL_IDLE_HI.addr i, 0, 16⟩

/-- Offset of PMU_SL_OVF (19 Table 19-4). -/
def Reg.PMU_SL_OVF.addr (i : Nat) : Nat := 0x19020000 + 0x4 * i
def Reg.PMU_SL_OVF.ovf (i : Nat) : Fld := ⟨Reg.PMU_SL_OVF.addr i, 0, 5⟩

def glbRows : List RegRow :=
  [ ⟨0x00000000, 1, 0x0, 1, 0x0, 0x0, 0x0, 0x0, 0x0, 0xFFFFFF, false, fun _ _ => 0xA10512⟩,
    ⟨0x00000004, 1, 0x0, 1, 0x0, 0x3, 0x0, 0x4, 0x0, 0x0, true, fun _ _ => 0x3⟩,
    ⟨0x00000008, 1, 0x0, 1, 0x0, 0x0, 0x0, 0x0, 0x0, 0x7FF, false, fun _ _ => 0x0⟩,
    ⟨0x0000000C, 1, 0x0, 1, 0x0, 0x0, 0x7F, 0x0, 0x0, 0x0, false, fun _ _ => 0x0⟩,
    ⟨0x00000010, 1, 0x0, 1, 0x0, 0x7F, 0x0, 0x0, 0x0, 0x0, false, fun _ _ => 0x0⟩,
    ⟨0x00000014, 1, 0x0, 1, 0x0, 0x0, 0x0, 0x0, 0x0, 0xFFFFFFFF, false, fun _ _ => 0x0⟩,
    ⟨0x00000018, 1, 0x0, 1, 0x0, 0x0, 0x0, 0x0, 0x0, 0xFFFFFFFF, false, fun _ _ => 0x0⟩,
    ⟨0x0000001C, 1, 0x0, 1, 0x0, 0x0, 0x0, 0x0, 0x0, 0xFFFFFFFF, false, fun _ _ => 0x0⟩,
    ⟨0x00000020, 1, 0x0, 1, 0x0, 0x0, 0x0, 0x0, 0x0, 0xFFFFFFFF, false, fun _ _ => 0x0⟩,
    ⟨0x00000024, 1, 0x0, 1, 0x0, 0x0, 0x0, 0x0, 0x0, 0xFFFFFFFF, false, fun _ _ => 0x0⟩,
    ⟨0x00000028, 1, 0x0, 1, 0x0, 0xFFF0007, 0x0, 0x0, 0x0, 0x0, true, fun _ _ => 0x2580003⟩,
    ⟨0x0000002C, 1, 0x0, 1, 0x0, 0x0, 0x0, 0x0, 0xFFFFFFFF, 0x0, false, fun _ _ => 0x0⟩,
    ⟨0x00000030, 1, 0x0, 1, 0x0, 0xFFF, 0x0, 0x0, 0x0, 0x0, true, fun _ _ => 0x5FF⟩,
    ⟨0x00000034, 1, 0x0, 1, 0x0, 0xFFFFFFFF, 0x0, 0x0, 0x0, 0x0, true, fun _ _ => 0x4E5A02⟩,
    ⟨0x00000038, 1, 0x0, 1, 0x0, 0xFFFF, 0x0, 0x0, 0x0, 0x0, true, fun _ _ => 0x0⟩,
    ⟨0x0000003C, 1, 0x0, 1, 0x0, 0x0, 0x0, 0x0, 0x0, 0xFFF, false, fun _ _ => 0x0⟩,
    ⟨0x00000040, 1, 0x0, 1, 0x0, 0x0, 0x0, 0x1FFFF, 0x0, 0x0, false, fun _ _ => 0x0⟩,
    ⟨0x00000100, 558, 0x4, 1, 0x0, 0x7FF, 0x0, 0x0, 0x0, 0x0, true, fun i _ => i⟩,
    ⟨0x00001000, 640, 0x4, 1, 0x0, 0x0, 0x0, 0x0, 0x0, 0xFFFF, false, fun _ _ => 0x0⟩,
    ⟨0x00002000, 7, 0x4, 1, 0x0, 0x0, 0x0, 0x0, 0x0, 0xFFFFFFFF, false, fun _ _ => 0x0⟩ ]

def ephRows : List RegRow :=
  [ ⟨0x01000000, 1, 0x0, 1, 0x0, 0x3F, 0x0, 0x0, 0x0, 0x0, true, fun _ _ => 0x2C⟩,
    ⟨0x01000004, 1, 0x0, 1, 0x0, 0x0, 0x0, 0x0, 0x0, 0xFFFFFF, false, fun _ _ => 0x0⟩,
    ⟨0x01000008, 1, 0x0, 1, 0x0, 0x0, 0x0, 0x0, 0x0, 0xFFFFFFFF, false, fun _ _ => 0x0⟩,
    ⟨0x0100000C, 1, 0x0, 1, 0x0, 0x0, 0x0, 0x0, 0x0, 0xFFFFFFFF, false, fun _ _ => 0x0⟩,
    ⟨0x01000010, 1, 0x0, 1, 0x0, 0xFFFFFFFF, 0x0, 0x0, 0x0, 0x0, false, fun _ _ => 0x0⟩,
    ⟨0x01000014, 1, 0x0, 1, 0x0, 0xFFFFFFFF, 0x0, 0x0, 0x0, 0x0, false, fun _ _ => 0x0⟩,
    ⟨0x01000018, 1, 0x0, 1, 0x0, 0xFFFFFFF, 0x0, 0x0, 0x0, 0x0, true, fun _ _ => 0x882041⟩,
    ⟨0x0100001C, 1, 0x0, 1, 0x0, 0xFFFFFFFF, 0x0, 0x0, 0x0, 0x0, true, fun _ _ => 0x3E80⟩,
    ⟨0x01000020, 1, 0x0, 1, 0x0, 0x0, 0x0, 0x0, 0x0, 0xFFFFFFFF, false, fun _ _ => 0x0⟩,
    ⟨0x01000024, 1, 0x0, 1, 0x0, 0x0, 0x0, 0x0, 0x0, 0xFFFFFFFF, false, fun _ _ => 0x0⟩,
    ⟨0x01000028, 1, 0x0, 1, 0x0, 0xFFFFFFFF, 0x0, 0x0, 0x0, 0x0, true, fun _ _ => 0x186A00⟩,
    ⟨0x0100002C, 1, 0x0, 1, 0x0, 0xFFFFFFFF, 0x0, 0x0, 0x0, 0x0, true, fun _ _ => 0x186A00⟩,
    ⟨0x01000030, 1, 0x0, 1, 0x0, 0xFFFFFFFF, 0x0, 0x0, 0x0, 0x0, true, fun _ _ => 0x9896800⟩,
    ⟨0x01000034, 1, 0x0, 1, 0x0, 0xFFFFFFFF, 0x0, 0x0, 0x0, 0x0, true, fun _ _ => 0x0⟩,
    ⟨0x01000038, 1, 0x0, 1, 0x0, 0x81FF81FF, 0x0, 0x0, 0x0, 0x0, true, fun _ _ => 0x0⟩,
    ⟨0x0100003C, 1, 0x0, 1, 0x0, 0x81FF81FF, 0x0, 0x0, 0x0, 0x0, true, fun _ _ => 0x0⟩,
    ⟨0x01000040, 1, 0x0, 1, 0x0, 0xFFFFFFFF, 0x0, 0x0, 0x0, 0x0, false, fun _ _ => 0x0⟩,
    ⟨0x01000044, 1, 0x0, 1, 0x0, 0xFFFFFFFF, 0x0, 0x0, 0x0, 0x0, false, fun _ _ => 0x0⟩,
    ⟨0x01000048, 1, 0x0, 1, 0x0, 0x0, 0x0, 0x0, 0x0, 0xFFFFFFFF, false, fun _ _ => 0x0⟩,
    ⟨0x0100004C, 1, 0x0, 1, 0x0, 0x0, 0x0, 0x0, 0x0, 0xFFFFFFFF, false, fun _ _ => 0x0⟩,
    ⟨0x01000050, 1, 0x0, 1, 0x0, 0x0, 0x7FF, 0x0, 0x0, 0x0, false, fun _ _ => 0x0⟩,
    ⟨0x01000054, 1, 0x0, 1, 0x0, 0x7FF, 0x0, 0x0, 0x0, 0x0, false, fun _ _ => 0x0⟩,
    ⟨0x01000058, 1, 0x0, 1, 0x0, 0xFFFFFFFF, 0x0, 0x0, 0x0, 0x0, true, fun _ _ => 0x186A00⟩,
    ⟨0x01000100, 4, 0x20, 1, 0x0, 0x3, 0x18, 0x0, 0x0, 0x4, false, fun _ _ => 0x0⟩,
    ⟨0x01000104, 4, 0x20, 1, 0x0, 0xFFFFFFFF, 0x0, 0x0, 0x0, 0x0, false, fun _ _ => 0x0⟩,
    ⟨0x01000108, 4, 0x20, 1, 0x0, 0xFFFFFFFF, 0x0, 0x0, 0x0, 0x0, false, fun _ _ => 0x0⟩,
    ⟨0x0100010C, 4, 0x20, 1, 0x0, 0xFFFFFFFF, 0x0, 0x0, 0x0, 0x0, false, fun _ _ => 0x0⟩,
    ⟨0x01000110, 4, 0x20, 1, 0x0, 0xFFFFFFFF, 0x0, 0x0, 0x0, 0x0, false, fun _ _ => 0x0⟩,
    ⟨0x01000114, 4, 0x20, 1, 0x0, 0xFFFFFFFF, 0x0, 0x0, 0x0, 0x0, false, fun _ _ => 0x0⟩,
    ⟨0x01010000, 512, 0x10, 1, 0x0, 0x0, 0x0, 0x0, 0x0, 0xFFFFFFFF, false, fun _ _ => 0x0⟩,
    ⟨0x01010004, 512, 0x10, 1, 0x0, 0x0, 0x0, 0x0, 0x0, 0xFFFFFFFF, false, fun _ _ => 0x0⟩,
    ⟨0x01010008, 512, 0x10, 1, 0x0, 0xFFFFFFFF, 0x0, 0x0, 0x0, 0x0, true, fun _ _ => 0x0⟩,
    ⟨0x0101000C, 512, 0x10, 1, 0x0, 0x4, 0x0, 0x0, 0xFFFFFF00, 0xF3, true, fun _ _ => 0x0⟩ ]

def optRows : List RegRow :=
  [ ⟨0x02000000, 32, 0x10000, 1, 0x0, 0x1F, 0x0, 0x100, 0x0, 0x0, true, fun _ _ => 0x1E⟩,
    ⟨0x02000004, 32, 0x10000, 1, 0x0, 0x0, 0x0, 0x0, 0x0, 0x3F7F, false, fun _ _ => 0x0⟩,
    ⟨0x02000008, 32, 0x10000, 1, 0x0, 0x0, 0x1FFF, 0x0, 0x0, 0x0, false, fun _ _ => 0x0⟩,
    ⟨0x0200000C, 32, 0x10000, 1, 0x0, 0x1FFF, 0x0, 0x0, 0x0, 0x0, false, fun _ _ => 0x0⟩,
    ⟨0x02000010, 32, 0x10000, 1, 0x0, 0xFFFFFFFF, 0x0, 0x0, 0x0, 0x0, true, fun _ _ => 0xA83C146⟩,
    ⟨0x02000014, 32, 0x10000, 1, 0x0, 0xFFFFFFFF, 0x0, 0x0, 0x0, 0x0, true, fun _ _ => 0x5FAC864⟩,
    ⟨0x02000018, 32, 0x10000, 1, 0x0, 0xFF0F, 0x0, 0x10000, 0xFF000000, 0x20000, true, fun _ _ => 0xA04⟩,
    ⟨0x0200001C, 32, 0x10000, 1, 0x0, 0x3F, 0x0, 0x40, 0x0, 0x300, false, fun _ _ => 0x0⟩,
    ⟨0x02000020, 32, 0x10000, 4, 0x4, 0x0, 0x0, 0x0, 0x0, 0xFFFFFFFF, false, fun _ _ => 0x0⟩,
    ⟨0x02000100, 32, 0x10000, 36, 0x4, 0x40000, 0x0, 0x0, 0x0, 0x3FFFF, true, fun _ _ => 0x0⟩,
    ⟨0x02000200, 32, 0x10000, 36, 0x4, 0x1FF, 0x0, 0x0, 0x0, 0x0, true, fun _ j => 220 + 5 * j⟩,
    ⟨0x02000300, 32, 0x10000, 18, 0x10, 0x0, 0x0, 0x0, 0x0, 0x7FF, false, fun _ _ => 0x1F⟩,
    ⟨0x02000304, 32, 0x10000, 18, 0x10, 0x0, 0x0, 0x0, 0x0, 0xFFFFFFFF, false, fun _ _ => 0x0⟩,
    ⟨0x02000308, 32, 0x10000, 18, 0x10, 0xFFFFFFFF, 0x0, 0x0, 0x0, 0x0, true, fun _ _ => 0x80008000⟩,
    ⟨0x0200030C, 32, 0x10000, 18, 0x10, 0x0, 0x0, 0x0, 0x0, 0xFFFFFFFF, false, fun _ _ => 0x0⟩,
    ⟨0x02001000, 32, 0x10000, 648, 0x4, 0x0, 0x0, 0x0, 0x0, 0xFFFFFFFF, false, fun _ _ => 0x0⟩,
    ⟨0x02002000, 32, 0x10000, 648, 0x4, 0xFFFFFFFF, 0x0, 0x0, 0x0, 0x0, false, fun _ _ => 0x0⟩ ]

def trnRows : List RegRow :=
  [ ⟨0x03000000, 1, 0x0, 1, 0x0, 0x1F07, 0x0, 0x2000, 0x0, 0x0, true, fun _ _ => 0x6⟩,
    ⟨0x03000004, 1, 0x0, 1, 0x0, 0x0, 0x0, 0x0, 0x0, 0x3FFF, false, fun _ _ => 0x0⟩,
    ⟨0x03000008, 1, 0x0, 1, 0x0, 0x0, 0xFF, 0x0, 0x0, 0x0, false, fun _ _ => 0x0⟩,
    ⟨0x0300000C, 1, 0x0, 1, 0x0, 0xFF, 0x0, 0x0, 0x0, 0x0, false, fun _ _ => 0x0⟩,
    ⟨0x03000010, 1, 0x0, 1, 0x0, 0xFFFFFFFF, 0x0, 0x0, 0x0, 0x0, false, fun _ _ => 0x0⟩,
    ⟨0x03000014, 1, 0x0, 1, 0x0, 0xFFFFFFFF, 0x0, 0x0, 0x0, 0x0, false, fun _ _ => 0x0⟩,
    ⟨0x03000018, 1, 0x0, 1, 0x0, 0x0, 0x0, 0xC0, 0x0, 0x3FFF003F, false, fun _ _ => 0x0⟩,
    ⟨0x0300001C, 1, 0x0, 1, 0x0, 0xFFF, 0x0, 0x0, 0x0, 0xFFF0000, false, fun _ _ => 0x0⟩,
    ⟨0x03000020, 1, 0x0, 1, 0x0, 0xFFF, 0x0, 0x1000, 0x0, 0xE000, false, fun _ _ => 0x0⟩,
    ⟨0x03000024, 1, 0x0, 1, 0x0, 0xFF, 0x0, 0x0, 0x0, 0x0, true, fun _ _ => 0xA⟩,
    ⟨0x03000028, 1, 0x0, 1, 0x0, 0x4, 0x0, 0x3, 0x0, 0x8, true, fun _ _ => 0x0⟩,
    ⟨0x0300002C, 1, 0x0, 1, 0x0, 0x0, 0x0, 0x0, 0x0, 0xFFFFFFFF, false, fun _ _ => 0xFFFFFFFF⟩,
    ⟨0x03000040, 18, 0x4, 1, 0x0, 0x0, 0x0, 0x0, 0x0, 0x1FF1FFFF, false, fun _ _ => 0x1F000⟩,
    ⟨0x03000100, 8, 0x4, 1, 0x0, 0xFFFFFFFF, 0x0, 0x0, 0x0, 0x0, false, fun _ _ => 0x0⟩,
    ⟨0x03000200, 32, 0x4, 1, 0x0, 0x0, 0x0, 0x0, 0x0, 0xFFFFFFFF, false, fun _ _ => 0x0⟩,
    ⟨0x03010000, 32768, 0x4, 1, 0x0, 0xFFFFFFFF, 0x0, 0x0, 0x0, 0x0, false, fun _ _ => 0x0⟩,
    ⟨0x03040000, 32768, 0x4, 1, 0x0, 0x0, 0x0, 0x0, 0x0, 0xFFFFFFFF, false, fun _ _ => 0x0⟩,
    ⟨0x03060000, 32768, 0x4, 1, 0x0, 0xFFFFFFFF, 0x0, 0x0, 0x0, 0x0, false, fun _ _ => 0x0⟩ ]

def lnkRows : List RegRow :=
  [ ⟨0x04000000, 512, 0x1000, 1, 0x0, 0xFF01, 0x0, 0x2, 0x0, 0x0, true, fun _ _ => 0x6400⟩,
    ⟨0x04000004, 512, 0x1000, 1, 0x0, 0x0, 0x0, 0x0, 0x0, 0xF7FF, false, fun _ _ => 0x7C0⟩,
    ⟨0x04000008, 512, 0x1000, 1, 0x0, 0x0, 0x3F, 0x0, 0x0, 0x0, false, fun _ _ => 0x0⟩,
    ⟨0x0400000C, 512, 0x1000, 1, 0x0, 0x3F, 0x0, 0x0, 0x0, 0x0, false, fun _ _ => 0x0⟩,
    ⟨0x04000010, 512, 0x1000, 1, 0x0, 0x3, 0x0, 0x0, 0x0, 0x0, true, fun _ _ => 0x0⟩,
    ⟨0x04000014, 512, 0x1000, 1, 0x0, 0xFFFFF, 0x0, 0x0, 0x0, 0x0, true, fun _ _ => 0x86419⟩,
    ⟨0x04000018, 512, 0x1000, 1, 0x0, 0x0, 0x0, 0x0, 0x0, 0xFFFFFFFF, false, fun _ _ => 0x0⟩,
    ⟨0x0400001C, 512, 0x1000, 1, 0x0, 0x0, 0x0, 0x0, 0x0, 0xFFFFFFFF, false, fun _ _ => 0x0⟩,
    ⟨0x04000020, 512, 0x1000, 1, 0x0, 0x0, 0x0, 0x0, 0x0, 0x7FFF7FFF, false, fun _ _ => 0x0⟩,
    ⟨0x04000040, 512, 0x1000, 8, 0x4, 0xFFFFFF, 0x0, 0x0, 0x0, 0x0, true, fun _ j => [0, 32, 128, 128, 256, 16, 256, 256].getD j 0⟩,
    ⟨0x04000060, 512, 0x1000, 8, 0x4, 0x0, 0x0, 0x0, 0x0, 0xFFFFFF, false, fun _ _ => 0x0⟩,
    ⟨0x04000100, 512, 0x1000, 1, 0x0, 0x0, 0x0, 0x0, 0xFFFFFFFF, 0x0, false, fun _ _ => 0x0⟩,
    ⟨0x04000104, 512, 0x1000, 1, 0x0, 0x0, 0x0, 0x0, 0xFFFFFFFF, 0x0, false, fun _ _ => 0x0⟩,
    ⟨0x04000108, 512, 0x1000, 1, 0x0, 0x0, 0x0, 0x0, 0xFFFFFFFF, 0x0, false, fun _ _ => 0x0⟩,
    ⟨0x0400010C, 512, 0x1000, 1, 0x0, 0x0, 0x0, 0x0, 0xFFFFFFFF, 0x0, false, fun _ _ => 0x0⟩,
    ⟨0x04000110, 512, 0x1000, 1, 0x0, 0x0, 0x0, 0x0, 0xFFFFFFFF, 0x0, false, fun _ _ => 0x0⟩,
    ⟨0x04000114, 512, 0x1000, 1, 0x0, 0x0, 0x0, 0x0, 0xFFFFFFFF, 0x0, false, fun _ _ => 0x0⟩,
    ⟨0x04000118, 512, 0x1000, 1, 0x0, 0x0, 0x0, 0x0, 0xFFFFFFFF, 0x0, false, fun _ _ => 0x0⟩,
    ⟨0x0400011C, 512, 0x1000, 1, 0x0, 0x0, 0x0, 0x0, 0xFFFFFFFF, 0x0, false, fun _ _ => 0x0⟩,
    ⟨0x04000120, 512, 0x1000, 1, 0x0, 0x0, 0x0, 0x0, 0xFFFFFFFF, 0x0, false, fun _ _ => 0x0⟩,
    ⟨0x04000124, 512, 0x1000, 1, 0x0, 0x0, 0x0, 0x0, 0xFFFFFFFF, 0x0, false, fun _ _ => 0x0⟩,
    ⟨0x04000128, 512, 0x1000, 1, 0x0, 0x0, 0x0, 0x0, 0xFFFFFFFF, 0x0, false, fun _ _ => 0x0⟩ ]

def fwdRows : List RegRow :=
  [ ⟨0x06000000, 1, 0x0, 1, 0x0, 0xFF07, 0x0, 0x0, 0x0, 0x0, true, fun _ _ => 0xA07⟩,
    ⟨0x06000004, 1, 0x0, 1, 0x0, 0x0, 0x0, 0x0, 0x0, 0x7, false, fun _ _ => 0x0⟩,
    ⟨0x06000008, 1, 0x0, 1, 0x0, 0x0, 0x3F, 0x0, 0x0, 0x0, false, fun _ _ => 0x0⟩,
    ⟨0x0600000C, 1, 0x0, 1, 0x0, 0x3F, 0x0, 0x0, 0x0, 0x0, false, fun _ _ => 0x0⟩,
    ⟨0x06000010, 1, 0x0, 1, 0x0, 0x1FFFF, 0x0, 0x0, 0x0, 0x0, false, fun _ _ => 0x9E37⟩,
    ⟨0x06000014, 1, 0x0, 1, 0x0, 0x0, 0x0, 0x0, 0x0, 0x1FFFF, false, fun _ _ => 0x9E37⟩,
    ⟨0x06000018, 1, 0x0, 1, 0x0, 0x0, 0x0, 0x1, 0x0, 0x7FFE, false, fun _ _ => 0x0⟩,
    ⟨0x0600001C, 1, 0x0, 1, 0x0, 0x0, 0x0, 0x0, 0x0, 0xFFFFFFF, false, fun _ _ => 0x0⟩,
    ⟨0x06000020, 1, 0x0, 1, 0x0, 0x7FFFF, 0x0, 0x80000, 0x0, 0x300000, false, fun _ _ => 0x0⟩,
    ⟨0x06000024, 1, 0x0, 1, 0x0, 0xFFFF01FF, 0x0, 0x0, 0x0, 0x0, false, fun _ _ => 0x0⟩,
    ⟨0x06000028, 1, 0x0, 1, 0x0, 0x0, 0x0, 0x0, 0x0, 0xFFFF3FFF, false, fun _ _ => 0x0⟩,
    ⟨0x0600002C, 1, 0x0, 1, 0x0, 0x0, 0x0, 0x0, 0x0, 0x3FFFFFF, false, fun _ _ => 0x0⟩,
    ⟨0x06000040, 1, 0x0, 1, 0x0, 0x0, 0x0, 0x0, 0x0, 0x7FFFF, false, fun _ _ => 0x0⟩,
    ⟨0x06000044, 1, 0x0, 1, 0x0, 0x0, 0x0, 0x0, 0x0, 0x7FFFFFF, false, fun _ _ => 0x0⟩,
    ⟨0x06000048, 1, 0x0, 1, 0x0, 0x0, 0x0, 0x0, 0x0, 0xFFFFFFFF, false, fun _ _ => 0x0⟩,
    ⟨0x0600004C, 1, 0x0, 1, 0x0, 0x0, 0x0, 0x0, 0x0, 0xFFFFFFFF, false, fun _ _ => 0x0⟩,
    ⟨0x06000050, 1, 0x0, 1, 0x0, 0xFFFFFFFF, 0x0, 0x0, 0x0, 0x0, false, fun _ _ => 0x0⟩,
    ⟨0x06000054, 1, 0x0, 1, 0x0, 0xFFFFFFFF, 0x0, 0x0, 0x0, 0x0, false, fun _ _ => 0x0⟩,
    ⟨0x06000058, 1, 0x0, 1, 0x0, 0xFFF, 0x0, 0x1000, 0x0, 0x2000, false, fun _ _ => 0x0⟩,
    ⟨0x0600005C, 1, 0x0, 1, 0x0, 0x0, 0x0, 0x0, 0x0, 0x7FF, false, fun _ _ => 0x0⟩,
    ⟨0x06000060, 1, 0x0, 1, 0x0, 0x0, 0x0, 0x0, 0x0, 0xFFFFFFFF, false, fun _ _ => 0x0⟩,
    ⟨0x06000064, 1, 0x0, 1, 0x0, 0x0, 0x0, 0x0, 0x0, 0xFFFFFFFF, false, fun _ _ => 0x0⟩,
    ⟨0x06000100, 1, 0x0, 1, 0x0, 0x0, 0x0, 0x0, 0xFFFFFFFF, 0x0, false, fun _ _ => 0x0⟩,
    ⟨0x06000104, 1, 0x0, 1, 0x0, 0x0, 0x0, 0x0, 0xFFFFFFFF, 0x0, false, fun _ _ => 0x0⟩,
    ⟨0x06000108, 1, 0x0, 1, 0x0, 0x0, 0x0, 0x0, 0xFFFFFFFF, 0x0, false, fun _ _ => 0x0⟩,
    ⟨0x0600010C, 1, 0x0, 1, 0x0, 0x0, 0x0, 0x0, 0xFFFFFFFF, 0x0, false, fun _ _ => 0x0⟩,
    ⟨0x06000110, 1, 0x0, 1, 0x0, 0x0, 0x0, 0x0, 0xFFFFFFFF, 0x0, false, fun _ _ => 0x0⟩,
    ⟨0x06000114, 1, 0x0, 1, 0x0, 0x0, 0x0, 0x0, 0xFFFFFFFF, 0x0, false, fun _ _ => 0x0⟩,
    ⟨0x06000118, 1, 0x0, 1, 0x0, 0x0, 0x0, 0x0, 0xFFFFFFFF, 0x0, false, fun _ _ => 0x0⟩,
    ⟨0x0600011C, 1, 0x0, 1, 0x0, 0x0, 0x0, 0x0, 0xFFFFFFFF, 0x0, false, fun _ _ => 0x0⟩,
    ⟨0x06000120, 1, 0x0, 1, 0x0, 0x0, 0x0, 0x0, 0xFFFFFFFF, 0x0, false, fun _ _ => 0x0⟩,
    ⟨0x06000124, 1, 0x0, 1, 0x0, 0x0, 0x0, 0x0, 0xFFFFFFFF, 0x0, false, fun _ _ => 0x0⟩,
    ⟨0x06001000, 512, 0x4, 1, 0x0, 0x0, 0x0, 0x0, 0x0, 0x1FF, false, fun _ _ => 0x0⟩,
    ⟨0x06002000, 84, 0x4, 1, 0x0, 0xFFFFFFFF, 0x0, 0x0, 0x0, 0x0, false, fun _ _ => 0x0⟩,
    ⟨0x06002200, 1, 0x0, 1, 0x0, 0xFFFF, 0x0, 0x30000, 0x0, 0xC0000, false, fun _ _ => 0x0⟩ ]

def coreRows : List RegRow :=
  [ ⟨0x08000000, 1, 0x0, 1, 0x0, 0x703, 0x0, 0x0, 0x0, 0x0, true, fun _ _ => 0x3⟩,
    ⟨0x08000004, 1, 0x0, 1, 0x0, 0x0, 0x0, 0x0, 0x0, 0xFFFFFFFF, false, fun _ _ => 0x0⟩,
    ⟨0x08000008, 1, 0x0, 1, 0x0, 0x0, 0x1FF, 0x0, 0x0, 0x0, false, fun _ _ => 0x0⟩,
    ⟨0x0800000C, 1, 0x0, 1, 0x0, 0x1FF, 0x0, 0x0, 0x0, 0x0, false, fun _ _ => 0x0⟩,
    ⟨0x08000010, 1, 0x0, 1, 0x0, 0x1FFFFFFF, 0x0, 0x0, 0x0, 0x0, true, fun _ _ => 0x15DB5352⟩,
    ⟨0x08000014, 1, 0x0, 1, 0x0, 0x3FFFFFF, 0x0, 0x0, 0x0, 0x0, true, fun _ _ => 0x2B8432⟩,
    ⟨0x08000018, 1, 0x0, 1, 0x0, 0xFF, 0x0, 0x0, 0x0, 0x0, true, fun _ _ => 0xA⟩,
    ⟨0x0800001C, 1, 0x0, 1, 0x0, 0xFFFF, 0x0, 0x0, 0x0, 0x0, true, fun _ _ => 0x4432⟩,
    ⟨0x08000100, 4, 0x40, 1, 0x0, 0xF03, 0x0, 0x0, 0x0, 0x4, true, fun _ _ => 0x0⟩,
    ⟨0x08000104, 4, 0x40, 1, 0x0, 0xFFFFFFFF, 0x0, 0x0, 0x0, 0x0, true, fun _ _ => 0x200⟩,
    ⟨0x08000108, 4, 0x40, 1, 0x0, 0x1FFF, 0x0, 0x0, 0x0, 0x0, true, fun _ _ => 0x0⟩,
    ⟨0x08000110, 4, 0x40, 1, 0x0, 0xFFFFFFFF, 0x0, 0x0, 0x0, 0x0, true, fun _ _ => 0x0⟩,
    ⟨0x08000114, 4, 0x40, 1, 0x0, 0xFFFFFFFF, 0x0, 0x0, 0x0, 0x0, true, fun _ _ => 0x0⟩,
    ⟨0x08000118, 4, 0x40, 1, 0x0, 0x0, 0x0, 0x0, 0x0, 0xFFFFFFFF, false, fun _ _ => 0x0⟩,
    ⟨0x0800011C, 4, 0x40, 1, 0x0, 0xFFFFFFFF, 0x0, 0x0, 0x0, 0x0, false, fun _ _ => 0x0⟩,
    ⟨0x08000120, 4, 0x40, 1, 0x0, 0x0, 0x0, 0x0, 0xFFFFFFFF, 0x0, false, fun _ _ => 0x0⟩,
    ⟨0x08100000, 4, 0x100000, 5, 0x10, 0x0, 0x0, 0x0, 0x0, 0x1FFFFF, false, fun _ j => [16384, 8192, 2048, 32768, 139264].getD j 0⟩,
    ⟨0x08100004, 4, 0x100000, 5, 0x10, 0x0, 0x0, 0x0, 0x7FE00000, 0x1FFFFF, false, fun _ _ => 0x0⟩,
    ⟨0x08100008, 4, 0x100000, 5, 0x10, 0x0, 0x0, 0x0, 0xFFFFFFFF, 0x0, false, fun _ _ => 0x0⟩,
    ⟨0x08100060, 4, 0x100000, 1, 0x0, 0x0, 0x0, 0x0, 0x0, 0x3FFFF, false, fun _ _ => 0x12000⟩,
    ⟨0x08100064, 4, 0x100000, 1, 0x0, 0x0, 0x0, 0x0, 0x0, 0x3FFFF, false, fun _ _ => 0x0⟩,
    ⟨0x08100068, 4, 0x100000, 1, 0x0, 0x0, 0x0, 0x0, 0x0, 0xFF, false, fun _ _ => 0x0⟩,
    ⟨0x08100070, 4, 0x100000, 1, 0x0, 0x0, 0x0, 0x0, 0x0, 0x1FFFFFFF, false, fun _ _ => 0x0⟩,
    ⟨0x08100100, 4, 0x100000, 1, 0x0, 0x0, 0x0, 0x0, 0xFFFFFFFF, 0x0, false, fun _ _ => 0x0⟩,
    ⟨0x08100104, 4, 0x100000, 1, 0x0, 0x0, 0x0, 0x0, 0xFFFFFFFF, 0x0, false, fun _ _ => 0x0⟩,
    ⟨0x08100108, 4, 0x100000, 1, 0x0, 0x0, 0x0, 0x0, 0xFFFFFFFF, 0x0, false, fun _ _ => 0x0⟩,
    ⟨0x0810010C, 4, 0x100000, 1, 0x0, 0x0, 0x0, 0x0, 0xFFFFFFFF, 0x0, false, fun _ _ => 0x0⟩,
    ⟨0x08100110, 4, 0x100000, 1, 0x0, 0x0, 0x0, 0x0, 0xFFFFFFFF, 0x0, false, fun _ _ => 0x0⟩,
    ⟨0x08100114, 4, 0x100000, 1, 0x0, 0x0, 0x0, 0x0, 0xFFFFFFFF, 0x0, false, fun _ _ => 0x0⟩,
    ⟨0x08100118, 4, 0x100000, 1, 0x0, 0x0, 0x0, 0x0, 0xFFFFFFFF, 0x0, false, fun _ _ => 0x0⟩,
    ⟨0x0810011C, 4, 0x100000, 1, 0x0, 0x0, 0x0, 0x0, 0xFFFFFFFF, 0x0, false, fun _ _ => 0x0⟩,
    ⟨0x08100120, 4, 0x100000, 1, 0x0, 0x0, 0x0, 0x0, 0xFFFFFFFF, 0x0, false, fun _ _ => 0x0⟩,
    ⟨0x08100124, 4, 0x100000, 1, 0x0, 0x0, 0x0, 0x0, 0xFFFFFFFF, 0x0, false, fun _ _ => 0x0⟩ ]

def schRows : List RegRow :=
  [ ⟨0x0A000000, 1, 0x0, 1, 0x0, 0x7, 0x0, 0x0, 0x0, 0x0, true, fun _ _ => 0x7⟩,
    ⟨0x0A000004, 1, 0x0, 1, 0x0, 0x0, 0x1F, 0x0, 0x0, 0x0, false, fun _ _ => 0x0⟩,
    ⟨0x0A000008, 1, 0x0, 1, 0x0, 0x1F, 0x0, 0x0, 0x0, 0x0, false, fun _ _ => 0x0⟩,
    ⟨0x0A00000C, 1, 0x0, 1, 0x0, 0xFFFFFFFF, 0x0, 0x0, 0x0, 0x0, true, fun _ _ => 0x18080801⟩,
    ⟨0x0A000010, 1, 0x0, 1, 0x0, 0xFFFFFF, 0x0, 0x0, 0x0, 0x0, true, fun _ _ => 0x22018⟩,
    ⟨0x0A000014, 1, 0x0, 1, 0x0, 0xFFFF, 0x0, 0x0, 0x0, 0x0, true, fun _ _ => 0xA04⟩,
    ⟨0x0A000018, 1, 0x0, 1, 0x0, 0xFFFFFFFF, 0x0, 0x0, 0x0, 0x0, true, fun _ _ => 0x1000032⟩,
    ⟨0x0A00001C, 1, 0x0, 1, 0x0, 0x0, 0x0, 0x0, 0x0, 0xFFF, false, fun _ _ => 0x0⟩,
    ⟨0x0A000020, 4, 0x4, 1, 0x0, 0x0, 0x0, 0x0, 0x0, 0x3FFF, false, fun _ _ => 0x0⟩,
    ⟨0x0A000404, 255, 0x4, 1, 0x0, 0xFFFFFFFF, 0x0, 0x0, 0x0, 0x0, true, fun _ _ => 0x200000⟩,
    ⟨0x0A010000, 32768, 0x4, 1, 0x0, 0xFFFFFFFF, 0x0, 0x0, 0x0, 0x0, true, fun _ _ => 0x0⟩,
    ⟨0x0A200000, 4096, 0x10, 1, 0x0, 0xFFFFF, 0x0, 0x0, 0x0, 0x0, true, fun _ _ => 0x0⟩,
    ⟨0x0A200004, 4096, 0x10, 1, 0x0, 0xFFFFF, 0x0, 0x0, 0x0, 0x0, true, fun _ _ => 0x0⟩,
    ⟨0x0A200008, 4096, 0x10, 1, 0x0, 0xFFFFFFFF, 0x0, 0x0, 0x0, 0x0, true, fun _ _ => 0xFF00FF⟩,
    ⟨0x0A20000C, 4096, 0x10, 1, 0x0, 0x1, 0x0, 0x0, 0x0, 0x0, true, fun _ _ => 0x0⟩,
    ⟨0x0A400000, 512, 0x2000, 1, 0x0, 0x1, 0x0, 0x0, 0x0, 0x0, true, fun _ _ => 0x1⟩,
    ⟨0x0A400004, 512, 0x2000, 1, 0x0, 0xFF, 0x0, 0x0, 0x0, 0xFF0000, false, fun _ _ => 0x0⟩,
    ⟨0x0A400008, 512, 0x2000, 1, 0x0, 0xFFFFFFFF, 0x0, 0x0, 0x0, 0x0, false, fun _ _ => 0x0⟩,
    ⟨0x0A40000C, 512, 0x2000, 1, 0x0, 0xFFFFFFFF, 0x0, 0x0, 0x0, 0x0, false, fun _ _ => 0x0⟩,
    ⟨0x0A400010, 512, 0x2000, 1, 0x0, 0x0, 0x0, 0xC0, 0x0, 0xFF003F, false, fun _ _ => 0x0⟩,
    ⟨0x0A400014, 512, 0x2000, 1, 0x0, 0x0, 0x0, 0x0, 0x0, 0xFFFFFF, false, fun _ _ => 0xFFFF⟩,
    ⟨0x0A400020, 512, 0x2000, 1, 0x0, 0x0, 0x0, 0x0, 0xFFFFFFFF, 0x0, false, fun _ _ => 0x0⟩,
    ⟨0x0A400024, 512, 0x2000, 1, 0x0, 0x0, 0x0, 0x0, 0xFFFFFFFF, 0x0, false, fun _ _ => 0x0⟩,
    ⟨0x0A400028, 512, 0x2000, 1, 0x0, 0x0, 0x0, 0x0, 0xFFFFFFFF, 0x0, false, fun _ _ => 0x0⟩,
    ⟨0x0A400800, 512, 0x2000, 512, 0x4, 0xFFFFFFFF, 0x0, 0x0, 0x0, 0x0, false, fun _ _ => 0x0⟩,
    ⟨0x0A401000, 512, 0x2000, 512, 0x4, 0x0, 0x0, 0x0, 0x0, 0xFFFFFFFF, false, fun _ _ => 0x0⟩ ]

def cnjRows : List RegRow :=
  [ ⟨0x0C000000, 1, 0x0, 1, 0x0, 0x3, 0x0, 0x0, 0x0, 0x0, true, fun _ _ => 0x3⟩,
    ⟨0x0C000004, 1, 0x0, 1, 0x0, 0x0, 0x0, 0x0, 0x0, 0x3FFFFFFF, false, fun _ _ => 0x0⟩,
    ⟨0x0C000008, 1, 0x0, 1, 0x0, 0x0, 0x3F, 0x0, 0x0, 0x0, false, fun _ _ => 0x0⟩,
    ⟨0x0C00000C, 1, 0x0, 1, 0x0, 0x3F, 0x0, 0x0, 0x0, 0x0, false, fun _ _ => 0x0⟩,
    ⟨0x0C000010, 1, 0x0, 1, 0x0, 0xFFFF, 0x0, 0x0, 0x0, 0x0, true, fun _ _ => 0x64⟩,
    ⟨0x0C000014, 1, 0x0, 1, 0x0, 0x0, 0x0, 0x0, 0x0, 0x1FF, false, fun _ _ => 0x0⟩,
    ⟨0x0C000018, 1, 0x0, 1, 0x0, 0xFFFFFFF, 0x0, 0x0, 0x0, 0x0, true, fun _ _ => 0x800000⟩,
    ⟨0x0C00001C, 1, 0x0, 1, 0x0, 0x0, 0x0, 0x0, 0x0, 0xFFFFFFF, false, fun _ _ => 0x0⟩,
    ⟨0x0C000020, 1, 0x0, 1, 0x0, 0x3FFF, 0x0, 0x0, 0x0, 0x0, false, fun _ _ => 0x0⟩,
    ⟨0x0C000024, 1, 0x0, 1, 0x0, 0x0, 0x0, 0x0, 0x0, 0xFFFFFFFF, false, fun _ _ => 0x3FC⟩,
    ⟨0x0C000028, 1, 0x0, 1, 0x0, 0x0, 0x0, 0x0, 0x0, 0x7FFFF, false, fun _ _ => 0x0⟩,
    ⟨0x0C00002C, 1, 0x0, 1, 0x0, 0x0, 0x0, 0x0, 0x0, 0xFFFFFFF, false, fun _ _ => 0x0⟩,
    ⟨0x0C000100, 1, 0x0, 1, 0x0, 0x0, 0x0, 0x0, 0xFFFFFFFF, 0x0, false, fun _ _ => 0x0⟩,
    ⟨0x0C000104, 1, 0x0, 1, 0x0, 0x0, 0x0, 0x0, 0xFFFFFFFF, 0x0, false, fun _ _ => 0x0⟩,
    ⟨0x0C000108, 1, 0x0, 1, 0x0, 0x0, 0x0, 0x0, 0xFFFFFFFF, 0x0, false, fun _ _ => 0x0⟩,
    ⟨0x0C00010C, 1, 0x0, 1, 0x0, 0x0, 0x0, 0x0, 0xFFFFFFFF, 0x0, false, fun _ _ => 0x0⟩,
    ⟨0x0C000110, 1, 0x0, 1, 0x0, 0x0, 0x0, 0x0, 0xFFFFFFFF, 0x0, false, fun _ _ => 0x0⟩,
    ⟨0x0C000114, 1, 0x0, 1, 0x0, 0x0, 0x0, 0x0, 0xFFFFFFFF, 0x0, false, fun _ _ => 0x0⟩,
    ⟨0x0C000118, 1, 0x0, 1, 0x0, 0x0, 0x0, 0x0, 0xFFFFFFFF, 0x0, false, fun _ _ => 0x0⟩,
    ⟨0x0C00011C, 1, 0x0, 1, 0x0, 0x0, 0x0, 0x0, 0xFFFFFFFF, 0x0, false, fun _ _ => 0x0⟩,
    ⟨0x0C000120, 1, 0x0, 1, 0x0, 0x0, 0x0, 0x0, 0xFFFFFFFF, 0x0, false, fun _ _ => 0x0⟩,
    ⟨0x0C000124, 1, 0x0, 1, 0x0, 0x0, 0x0, 0x0, 0xFFFFFFFF, 0x0, false, fun _ _ => 0x0⟩,
    ⟨0x0C000200, 28, 0x4, 1, 0x0, 0x0, 0x0, 0x0, 0x0, 0xFFFFFFFF, false, fun _ _ => 0x0⟩,
    ⟨0x0C000400, 64, 0x4, 1, 0x0, 0x0, 0x0, 0x0, 0x0, 0x3FFFFFF, false, fun _ _ => 0x3F8⟩,
    ⟨0x0C000500, 4, 0x4, 1, 0x0, 0x0, 0x0, 0x0, 0x0, 0x3FFFFFF, false, fun _ _ => 0x3FB⟩,
    ⟨0x0C001000, 512, 0x4, 1, 0x0, 0x0, 0x0, 0x0, 0xFFFFFFFF, 0x0, false, fun _ _ => 0x0⟩ ]

def stkRows : List RegRow :=
  [ ⟨0x10000000, 1, 0x0, 1, 0x0, 0x7, 0x0, 0x0, 0x0, 0x0, false, fun _ _ => 0x3⟩,
    ⟨0x10000004, 1, 0x0, 1, 0x0, 0x0, 0x0, 0x0, 0x0, 0x3FFF, false, fun _ _ => 0x0⟩,
    ⟨0x10000008, 1, 0x0, 1, 0x0, 0x0, 0xFF, 0x0, 0x0, 0x0, false, fun _ _ => 0x0⟩,
    ⟨0x1000000C, 1, 0x0, 1, 0x0, 0xFF, 0x0, 0x0, 0x0, 0x0, false, fun _ _ => 0x0⟩,
    ⟨0x10000010, 1, 0x0, 1, 0x0, 0xFFFFFFFF, 0x0, 0x0, 0x0, 0x0, false, fun _ _ => 0x10C0808⟩,
    ⟨0x10000014, 1, 0x0, 1, 0x0, 0xFFFFFFF, 0x0, 0x0, 0x0, 0x0, false, fun _ _ => 0x6410010⟩,
    ⟨0x10000018, 1, 0x0, 1, 0x0, 0x3FFF, 0x0, 0x4000, 0x0, 0x70000, false, fun _ _ => 0x0⟩,
    ⟨0x10000020, 1, 0x0, 1, 0x0, 0x0, 0x0, 0x0, 0x0, 0xFFFFFFFF, false, fun _ _ => 0x0⟩,
    ⟨0x10000024, 1, 0x0, 1, 0x0, 0x0, 0x0, 0x0, 0x0, 0xFFFFFFFF, false, fun _ _ => 0x0⟩,
    ⟨0x10000028, 1, 0x0, 1, 0x0, 0x0, 0x18, 0x0, 0x0, 0x7, false, fun _ _ => 0x0⟩,
    ⟨0x1000002C, 1, 0x0, 1, 0x0, 0xFFFF, 0x0, 0x0, 0x0, 0x0, false, fun _ _ => 0x0⟩,
    ⟨0x10000100, 64, 0x4, 1, 0x0, 0x0, 0x0, 0x0, 0x0, 0xFFFFFFFF, false, fun _ _ => 0x0⟩,
    ⟨0x10000200, 384, 0x4, 1, 0x0, 0x0, 0x0, 0x0, 0xFFFF0000, 0xFFF, false, fun _ _ => 0x0⟩,
    ⟨0x10000800, 384, 0x4, 1, 0x0, 0x0, 0x0, 0x2, 0x0, 0xFF01, false, fun _ _ => 0x0⟩,
    ⟨0x10000E00, 12, 0x20, 1, 0x0, 0x0, 0x0, 0x0, 0xFFFFFFFF, 0x0, false, fun _ _ => 0x0⟩,
    ⟨0x10000E04, 12, 0x20, 1, 0x0, 0x0, 0x0, 0x0, 0xFFFFFFFF, 0x0, false, fun _ _ => 0x0⟩,
    ⟨0x10000E08, 12, 0x20, 1, 0x0, 0x0, 0x0, 0x0, 0xFFFFFFFF, 0x0, false, fun _ _ => 0x0⟩,
    ⟨0x10000E0C, 12, 0x20, 1, 0x0, 0x0, 0x0, 0x0, 0xFFFFFFFF, 0x0, false, fun _ _ => 0x0⟩,
    ⟨0x10000E10, 12, 0x20, 1, 0x0, 0x0, 0x0, 0x0, 0xFFFFFFFF, 0x0, false, fun _ _ => 0x0⟩,
    ⟨0x10000E14, 12, 0x20, 1, 0x0, 0x0, 0x0, 0x0, 0xFFFFFFFF, 0x0, false, fun _ _ => 0x0⟩,
    ⟨0x10010000, 4096, 0x20, 1, 0x0, 0x3FFFFFF2, 0x0, 0x0, 0x0, 0xD, false, fun _ _ => 0x0⟩,
    ⟨0x10010004, 4096, 0x20, 1, 0x0, 0xFFFFFFFF, 0x0, 0x0, 0x0, 0x0, false, fun _ _ => 0x0⟩,
    ⟨0x10010008, 4096, 0x20, 1, 0x0, 0xFFFFFFFF, 0x0, 0x0, 0x0, 0x0, false, fun _ _ => 0x0⟩,
    ⟨0x1001000C, 4096, 0x20, 1, 0x0, 0xFFFFFF, 0x0, 0x0, 0x0, 0x0, false, fun _ _ => 0x0⟩,
    ⟨0x10010010, 4096, 0x20, 1, 0x0, 0x3FFFFFFF, 0x0, 0x0, 0x0, 0x0, false, fun _ _ => 0x0⟩,
    ⟨0x10010014, 4096, 0x20, 1, 0x0, 0x0, 0x0, 0x0, 0x0, 0xFFFF, false, fun _ _ => 0x0⟩ ]

def msfRows : List RegRow :=
  [ ⟨0x12000000, 1, 0x0, 1, 0x0, 0xF, 0x0, 0x0, 0x0, 0x0, true, fun _ _ => 0xF⟩,
    ⟨0x12000004, 1, 0x0, 1, 0x0, 0x0, 0x1F, 0x0, 0x0, 0x0, false, fun _ _ => 0x0⟩,
    ⟨0x12000008, 1, 0x0, 1, 0x0, 0x1F, 0x0, 0x0, 0x0, 0x0, false, fun _ _ => 0x0⟩,
    ⟨0x1200000C, 1, 0x0, 1, 0x0, 0xFFFFFF, 0x0, 0x0, 0x0, 0x0, true, fun _ _ => 0xA0A08⟩,
    ⟨0x12000010, 1, 0x0, 1, 0x0, 0xFF1FFF, 0x0, 0x0, 0x0, 0x0, true, fun _ _ => 0xA1000⟩,
    ⟨0x12000014, 1, 0x0, 1, 0x0, 0xFF, 0x0, 0x0, 0x0, 0x0, true, fun _ _ => 0x64⟩,
    ⟨0x12000018, 1, 0x0, 1, 0x0, 0xFF, 0x0, 0x0, 0x0, 0x0, true, fun _ _ => 0x64⟩,
    ⟨0x12000020, 1, 0x0, 1, 0x0, 0x0, 0x0, 0x0, 0x0, 0xFFFFFFFF, false, fun _ _ => 0x0⟩,
    ⟨0x12000024, 1, 0x0, 1, 0x0, 0x0, 0x0, 0x0, 0x0, 0xFFFFFFFF, false, fun _ _ => 0x0⟩,
    ⟨0x12000028, 1, 0x0, 1, 0x0, 0x0, 0x10000000, 0x0, 0x0, 0xFFFFFFF, false, fun _ _ => 0x0⟩,
    ⟨0x12000030, 4, 0x4, 1, 0x0, 0x0, 0x0, 0x0, 0x1FFF0000, 0x1FFF, false, fun _ _ => 0x0⟩,
    ⟨0x12000100, 1, 0x0, 1, 0x0, 0x0, 0x0, 0x0, 0xFFFFFFFF, 0x0, false, fun _ _ => 0x0⟩,
    ⟨0x12000104, 1, 0x0, 1, 0x0, 0x0, 0x0, 0x0, 0xFFFFFFFF, 0x0, false, fun _ _ => 0x0⟩,
    ⟨0x12000108, 1, 0x0, 1, 0x0, 0x0, 0x0, 0x0, 0xFFFFFFFF, 0x0, false, fun _ _ => 0x0⟩,
    ⟨0x1200010C, 1, 0x0, 1, 0x0, 0x0, 0x0, 0x0, 0xFFFFFFFF, 0x0, false, fun _ _ => 0x0⟩,
    ⟨0x12000110, 1, 0x0, 1, 0x0, 0x0, 0x0, 0x0, 0xFFFFFFFF, 0x0, false, fun _ _ => 0x0⟩,
    ⟨0x12000114, 1, 0x0, 1, 0x0, 0x0, 0x0, 0x0, 0xFFFFFFFF, 0x0, false, fun _ _ => 0x0⟩,
    ⟨0x12000118, 1, 0x0, 1, 0x0, 0x0, 0x0, 0x0, 0xFFFFFFFF, 0x0, false, fun _ _ => 0x0⟩,
    ⟨0x1200011C, 1, 0x0, 1, 0x0, 0x0, 0x0, 0x0, 0xFFFFFFFF, 0x0, false, fun _ _ => 0x0⟩,
    ⟨0x12000120, 1, 0x0, 1, 0x0, 0x0, 0x0, 0x0, 0xFFFFFFFF, 0x0, false, fun _ _ => 0x0⟩,
    ⟨0x12000124, 1, 0x0, 1, 0x0, 0x0, 0x0, 0x0, 0xFFFFFFFF, 0x0, false, fun _ _ => 0x0⟩,
    ⟨0x12000128, 1, 0x0, 1, 0x0, 0x0, 0x0, 0x0, 0xFFFFFFFF, 0x0, false, fun _ _ => 0x0⟩,
    ⟨0x1200012C, 1, 0x0, 1, 0x0, 0x0, 0x0, 0x0, 0xFFFFFFFF, 0x0, false, fun _ _ => 0x0⟩,
    ⟨0x12000130, 1, 0x0, 1, 0x0, 0x0, 0x0, 0x0, 0xFFFFFFFF, 0x0, false, fun _ _ => 0x0⟩,
    ⟨0x12000134, 1, 0x0, 1, 0x0, 0x0, 0x0, 0x0, 0xFFFFFFFF, 0x0, false, fun _ _ => 0x0⟩,
    ⟨0x12000138, 1, 0x0, 1, 0x0, 0x0, 0x0, 0x0, 0xFFFFFFFF, 0x0, false, fun _ _ => 0x0⟩,
    ⟨0x12001000, 256, 0x10, 1, 0x0, 0x7FFFF, 0x0, 0x0, 0x0, 0x0, false, fun _ _ => 0x0⟩,
    ⟨0x12001004, 256, 0x10, 1, 0x0, 0x7FFFF, 0x0, 0x0, 0x0, 0x0, false, fun _ _ => 0x0⟩,
    ⟨0x12001008, 256, 0x10, 1, 0x0, 0x3FFF, 0x0, 0x0, 0x0, 0x0, false, fun _ _ => 0x0⟩ ]

def oryRows : List RegRow :=
  [ ⟨0x14000000, 1, 0x0, 1, 0x0, 0xFF01, 0x0, 0x0, 0x0, 0x0, false, fun _ _ => 0x1001⟩,
    ⟨0x14000004, 1, 0x0, 1, 0x0, 0x0, 0x0, 0x0, 0x0, 0xFFFF7F, false, fun _ _ => 0x400000⟩,
    ⟨0x14000008, 1, 0x0, 1, 0x0, 0x0, 0x1F, 0x0, 0x0, 0x0, false, fun _ _ => 0x0⟩,
    ⟨0x1400000C, 1, 0x0, 1, 0x0, 0x1F, 0x0, 0x0, 0x0, 0x0, false, fun _ _ => 0x0⟩,
    ⟨0x14000010, 1, 0x0, 1, 0x0, 0x3FFFF, 0x0, 0x40000, 0x0, 0xF80000, false, fun _ _ => 0x0⟩,
    ⟨0x14000014, 1, 0x0, 1, 0x0, 0x7FFFF, 0x0, 0x0, 0x0, 0x0, false, fun _ _ => 0x0⟩,
    ⟨0x14000018, 1, 0x0, 1, 0x0, 0x0, 0x1000000, 0x0, 0x0, 0xFFFFFF, false, fun _ _ => 0x0⟩,
    ⟨0x1400001C, 1, 0x0, 1, 0x0, 0x0, 0x0, 0x0, 0x0, 0xFFFF7FFF, false, fun _ _ => 0x0⟩,
    ⟨0x14000020, 1, 0x0, 1, 0x0, 0x0, 0x0, 0x0, 0x0, 0xFFFFFFFF, false, fun _ _ => 0x0⟩,
    ⟨0x14000024, 1, 0x0, 1, 0x0, 0x0, 0x0, 0x0, 0x0, 0xFFFFFFFF, false, fun _ _ => 0x0⟩,
    ⟨0x14000100, 64, 0x8, 1, 0x0, 0x0, 0x0, 0x0, 0x0, 0x7FFFF, false, fun _ _ => 0x0⟩,
    ⟨0x14000104, 64, 0x8, 1, 0x0, 0x0, 0x0, 0x0, 0x0, 0xFFFFFFFF, false, fun _ _ => 0x0⟩,
    ⟨0x14001000, 256, 0x4, 1, 0x0, 0x0, 0x0, 0x0, 0x0, 0x3FFFFFF, false, fun _ _ => 0x1⟩,
    ⟨0x14002000, 1, 0x0, 1, 0x0, 0x0, 0x0, 0x0, 0xFFFFFFFF, 0x0, false, fun _ _ => 0x0⟩,
    ⟨0x14002004, 1, 0x0, 1, 0x0, 0x0, 0x0, 0x0, 0xFFFFFFFF, 0x0, false, fun _ _ => 0x0⟩,
    ⟨0x14002008, 1, 0x0, 1, 0x0, 0x0, 0x0, 0x0, 0xFFFFFFFF, 0x0, false, fun _ _ => 0x0⟩,
    ⟨0x1400200C, 1, 0x0, 1, 0x0, 0x0, 0x0, 0x0, 0xFFFFFFFF, 0x0, false, fun _ _ => 0x0⟩,
    ⟨0x14002010, 1, 0x0, 1, 0x0, 0x0, 0x0, 0x0, 0xFFFFFFFF, 0x0, false, fun _ _ => 0x0⟩,
    ⟨0x14002014, 1, 0x0, 1, 0x0, 0x0, 0x0, 0x0, 0xFFFFFFFF, 0x0, false, fun _ _ => 0x0⟩ ]

def hltRows : List RegRow :=
  [ ⟨0x16000000, 1, 0x0, 1, 0x0, 0x1FFF, 0x0, 0x0, 0x0, 0x0, true, fun _ _ => 0x87⟩,
    ⟨0x16000004, 1, 0x0, 1, 0x0, 0x0, 0x0, 0x0, 0x0, 0x3FFFFFFF, false, fun _ _ => 0x0⟩,
    ⟨0x16000008, 1, 0x0, 1, 0x0, 0x0, 0x7FFF, 0x0, 0x0, 0x0, false, fun _ _ => 0x0⟩,
    ⟨0x1600000C, 1, 0x0, 1, 0x0, 0x7FFF, 0x0, 0x0, 0x0, 0x0, false, fun _ _ => 0x0⟩,
    ⟨0x16000010, 1, 0x0, 1, 0x0, 0x3FFFFFFF, 0x0, 0x0, 0x0, 0x0, true, fun _ _ => 0x190BBABC⟩,
    ⟨0x16000014, 1, 0x0, 1, 0x0, 0xFF03FF, 0x0, 0x0, 0x0, 0x0, true, fun _ _ => 0x10001⟩,
    ⟨0x16000018, 1, 0x0, 1, 0x0, 0xFFFF, 0x0, 0x0, 0x0, 0x0, true, fun _ _ => 0x3C4⟩,
    ⟨0x1600001C, 1, 0x0, 1, 0x0, 0x0, 0x0, 0x2, 0x0, 0x7FFD, false, fun _ _ => 0x0⟩,
    ⟨0x16000020, 1, 0x0, 1, 0x0, 0xFFFFFFF, 0x0, 0x0, 0x0, 0x0, true, fun _ _ => 0x6441000⟩,
    ⟨0x16000024, 1, 0x0, 1, 0x0, 0xFF7F, 0x0, 0x0, 0x0, 0x0, true, fun _ _ => 0x400⟩,
    ⟨0x16000028, 1, 0x0, 1, 0x0, 0x1FFF, 0x0, 0x0, 0x0, 0x0, false, fun _ _ => 0x0⟩,
    ⟨0x1600002C, 1, 0x0, 1, 0x0, 0x0, 0x0, 0x0, 0x0, 0x3FFFFF, false, fun _ _ => 0x3FF⟩,
    ⟨0x16000030, 1, 0x0, 1, 0x0, 0x3, 0x0, 0x4, 0x0, 0x38, false, fun _ _ => 0x0⟩,
    ⟨0x16000040, 6, 0x4, 1, 0x0, 0xFFFF, 0x0, 0x0, 0x0, 0x0, true, fun i _ => [962, 23041, 23041, 0, 0, 964].getD i 0⟩,
    ⟨0x16000080, 24, 0x4, 1, 0x0, 0x3FF, 0x0, 0x0, 0x0, 0x0, true, fun i _ => [4, 32, 256, 0, 16, 512, 0, 1, 256, 512, 64, 128, 128, 64, 1, 16, 64, 128, 16, 0, 0, 0, 0, 0].getD i 0⟩,
    ⟨0x16000100, 101, 0x4, 1, 0x0, 0x0, 0x0, 0x0, 0x0, 0xF, false, fun i _ => if i < 32 then 2 else if i < 100 then 1 else 4⟩,
    ⟨0x16000300, 1, 0x0, 1, 0x0, 0x1FFFFFF, 0x0, 0x0, 0x0, 0x0, true, fun _ _ => 0x14A47E⟩,
    ⟨0x16000304, 1, 0x0, 1, 0x0, 0x0, 0x0, 0x0, 0x7FF0000, 0x7FF, false, fun _ _ => 0x0⟩,
    ⟨0x16000310, 6, 0x8, 1, 0x0, 0x7FF, 0x0, 0x0, 0x0, 0x0, true, fun i _ => [230, 250, 80, 35, 480, 20].getD i 0⟩,
    ⟨0x16000314, 6, 0x8, 1, 0x0, 0x0, 0x0, 0x0, 0x7FF0000, 0x7FF, false, fun _ _ => 0x0⟩,
    ⟨0x16000340, 1, 0x0, 1, 0x0, 0x0, 0x0, 0x0, 0x0, 0x3F3F3F, false, fun _ _ => 0x0⟩,
    ⟨0x16000344, 1, 0x0, 1, 0x0, 0xFFFFFFF, 0x0, 0x0, 0x0, 0x0, true, fun _ _ => 0xB7F25F⟩,
    ⟨0x16000350, 5, 0x4, 1, 0x0, 0x0, 0x0, 0x0, 0x0, 0xFFFF, false, fun _ _ => 0x0⟩,
    ⟨0x16000380, 12, 0x4, 1, 0x0, 0x0, 0x0, 0x0, 0x0, 0xFFFF, false, fun _ _ => 0x0⟩,
    ⟨0x16000400, 1, 0x0, 1, 0x0, 0x0, 0x0, 0x0, 0xFFFFFFFF, 0x0, false, fun _ _ => 0x0⟩,
    ⟨0x16000404, 1, 0x0, 1, 0x0, 0x0, 0x0, 0x0, 0xFFFFFFFF, 0x0, false, fun _ _ => 0x0⟩,
    ⟨0x16000408, 1, 0x0, 1, 0x0, 0x0, 0x0, 0x0, 0xFFFFFFFF, 0x0, false, fun _ _ => 0x0⟩,
    ⟨0x1600040C, 1, 0x0, 1, 0x0, 0x0, 0x0, 0x0, 0xFFFFFFFF, 0x0, false, fun _ _ => 0x0⟩,
    ⟨0x16000410, 1, 0x0, 1, 0x0, 0x0, 0x0, 0x0, 0xFFFFFFFF, 0x0, false, fun _ _ => 0x0⟩,
    ⟨0x16000414, 1, 0x0, 1, 0x0, 0x0, 0x0, 0x0, 0xFFFFFFFF, 0x0, false, fun _ _ => 0x0⟩,
    ⟨0x16000418, 1, 0x0, 1, 0x0, 0x0, 0x0, 0x0, 0xFFFFFFFF, 0x0, false, fun _ _ => 0x0⟩,
    ⟨0x16010000, 8704, 0x4, 1, 0x0, 0x0, 0x0, 0x0, 0x0, 0xFFFFFFFF, false, fun _ _ => 0x0⟩ ]

def cfgRows : List RegRow :=
  [ ⟨0x17000000, 1, 0x0, 1, 0x0, 0x7, 0x0, 0x0, 0x0, 0x0, false, fun _ _ => 0x7⟩,
    ⟨0x17000004, 1, 0x0, 1, 0x0, 0x0, 0x0, 0x0, 0x0, 0x3F, false, fun _ _ => 0x0⟩,
    ⟨0x17000008, 1, 0x0, 1, 0x0, 0x0, 0x1FF, 0x0, 0x0, 0x0, false, fun _ _ => 0x0⟩,
    ⟨0x1700000C, 1, 0x0, 1, 0x0, 0x1FF, 0x0, 0x0, 0x0, 0x0, false, fun _ _ => 0x0⟩,
    ⟨0x17000010, 1, 0x0, 1, 0x0, 0x0, 0x0, 0x0, 0x0, 0xFFFFFFFF, false, fun _ _ => 0x0⟩,
    ⟨0x17000014, 1, 0x0, 1, 0x0, 0x0, 0x0, 0x0, 0xFFFFFFFF, 0x0, false, fun _ _ => 0x0⟩,
    ⟨0x17000018, 1, 0x0, 1, 0x0, 0x0, 0x0, 0x0, 0x0, 0xFFFFFFFF, false, fun _ _ => 0x0⟩,
    ⟨0x17000020, 8, 0x4, 1, 0x0, 0x0, 0x0, 0x0, 0x0, 0xFFFFFFFF, false, fun _ _ => 0x0⟩,
    ⟨0x17000040, 8, 0x4, 1, 0x0, 0x0, 0x0, 0x0, 0x0, 0xFFFFFFFF, false, fun _ _ => 0x0⟩,
    ⟨0x17000060, 1, 0x0, 1, 0x0, 0x1, 0x0, 0x2, 0x0, 0x0, false, fun _ _ => 0x0⟩,
    ⟨0x17000064, 1, 0x0, 1, 0x0, 0x0, 0x0, 0x0, 0x0, 0x3FF, false, fun _ _ => 0x0⟩,
    ⟨0x17000068, 1, 0x0, 1, 0x0, 0xFFFFFF, 0x0, 0x0, 0x0, 0x0, false, fun _ _ => 0x0⟩,
    ⟨0x1700006C, 1, 0x0, 1, 0x0, 0x0, 0x0, 0x0, 0x0, 0x3FFFFFFF, false, fun _ _ => 0x0⟩,
    ⟨0x17000070, 1, 0x0, 1, 0x0, 0x0, 0x0, 0x0, 0x0, 0xFFFFFFFF, false, fun _ _ => 0x0⟩,
    ⟨0x17000074, 1, 0x0, 1, 0x0, 0x0, 0x0, 0x0, 0x0, 0xFFFFFFFF, false, fun _ _ => 0x0⟩,
    ⟨0x17000078, 1, 0x0, 1, 0x0, 0x0, 0x0, 0x0, 0x0, 0xFFFFFFFF, false, fun _ _ => 0x0⟩,
    ⟨0x17000080, 16, 0x4, 1, 0x0, 0x0, 0x0, 0x0, 0x0, 0x8001FFFF, false, fun _ _ => 0x0⟩,
    ⟨0x17010000, 32, 0x40, 1, 0x0, 0x1FFF, 0x0, 0x2000, 0x0, 0x0, false, fun _ _ => 0x6F9⟩,
    ⟨0x17010004, 32, 0x40, 1, 0x0, 0x0, 0x4, 0x0, 0x0, 0x1B, false, fun _ _ => 0x0⟩,
    ⟨0x17010008, 32, 0x40, 1, 0x0, 0xFFFFFFFF, 0x0, 0x0, 0x0, 0x0, false, fun _ _ => 0x0⟩,
    ⟨0x1701000C, 32, 0x40, 1, 0x0, 0xFFFFFFFF, 0x0, 0x0, 0x0, 0x0, false, fun _ _ => 0x0⟩,
    ⟨0x17010010, 32, 0x40, 1, 0x0, 0xFFFFFFFF, 0x0, 0x0, 0x0, 0x0, false, fun _ _ => 0x0⟩,
    ⟨0x17010014, 32, 0x40, 1, 0x0, 0xFFFFFFFF, 0x0, 0x0, 0x0, 0x0, false, fun _ _ => 0x0⟩,
    ⟨0x17010018, 32, 0x40, 1, 0x0, 0xFFFFFFFF, 0x0, 0x0, 0x0, 0x0, false, fun _ _ => 0x0⟩,
    ⟨0x1701001C, 32, 0x40, 1, 0x0, 0xFFFFFFFF, 0x0, 0x0, 0x0, 0x0, false, fun _ _ => 0x0⟩,
    ⟨0x17010020, 32, 0x40, 1, 0x0, 0xFFFFFFFF, 0x0, 0x0, 0x0, 0x0, false, fun _ _ => 0x0⟩,
    ⟨0x17010024, 32, 0x40, 1, 0x0, 0xFFFFFFFF, 0x0, 0x0, 0x0, 0x0, false, fun _ _ => 0x0⟩,
    ⟨0x17010028, 32, 0x40, 1, 0x0, 0xFFFFFFFF, 0x0, 0x0, 0x0, 0x0, false, fun _ _ => 0x0⟩,
    ⟨0x1701002C, 32, 0x40, 1, 0x0, 0xFFFFFFFF, 0x0, 0x0, 0x0, 0x0, false, fun _ _ => 0x0⟩,
    ⟨0x17010030, 32, 0x40, 1, 0x0, 0x0, 0x0, 0x0, 0x0, 0xFFFFFFFF, false, fun _ _ => 0x0⟩,
    ⟨0x17010034, 32, 0x40, 1, 0x0, 0x0, 0x0, 0x0, 0x0, 0xFFFFFFFF, false, fun _ _ => 0x0⟩ ]

def secRows : List RegRow :=
  [ ⟨0x18000000, 1, 0x0, 1, 0x0, 0x3, 0x0, 0x0, 0x0, 0x0, false, fun _ _ => 0x1⟩,
    ⟨0x18000004, 1, 0x0, 1, 0x0, 0x0, 0x0, 0x0, 0x0, 0xFF, false, fun _ _ => 0x0⟩,
    ⟨0x18000008, 1, 0x0, 1, 0x0, 0x0, 0xF, 0x0, 0x0, 0x0, false, fun _ _ => 0x0⟩,
    ⟨0x1800000C, 1, 0x0, 1, 0x0, 0xF, 0x0, 0x0, 0x0, 0x0, false, fun _ _ => 0x0⟩,
    ⟨0x18000010, 1, 0x0, 1, 0x0, 0x0, 0x0, 0x0, 0x0, 0xFFFFFFFF, false, fun _ _ => 0x0⟩,
    ⟨0x18000014, 1, 0x0, 1, 0x0, 0x0, 0x0, 0x0, 0x0, 0xFFFFFFFF, false, fun _ _ => 0x0⟩,
    ⟨0x18000018, 1, 0x0, 1, 0x0, 0x1, 0x0, 0x2, 0x0, 0x3C, false, fun _ _ => 0x0⟩,
    ⟨0x1800001C, 1, 0x0, 1, 0x0, 0xFFFF, 0x0, 0x0, 0x0, 0x0, false, fun _ _ => 0x0⟩,
    ⟨0x18000020, 1, 0x0, 1, 0x0, 0x0, 0x0, 0x0, 0xFFFFFFFF, 0x0, false, fun _ _ => 0x0⟩,
    ⟨0x18000040, 16, 0x4, 1, 0x0, 0x0, 0x0, 0x0, 0x0, 0xFFFFFFFF, false, fun _ _ => 0x0⟩,
    ⟨0x18000080, 8, 0x4, 1, 0x0, 0x0, 0x0, 0x0, 0x0, 0xFFFFFFFF, false, fun _ _ => 0x0⟩,
    ⟨0x180000A0, 8, 0x4, 1, 0x0, 0x0, 0x0, 0x0, 0x0, 0xFFFFFFFF, false, fun _ _ => 0x0⟩,
    ⟨0x18000100, 4, 0x40, 15, 0x4, 0x0, 0x0, 0x0, 0x0, 0xFFFFFFFF, false, fun _ _ => 0x0⟩,
    ⟨0x18000200, 4, 0x4, 1, 0x0, 0x0, 0x0, 0x0, 0x0, 0x8000001F, false, fun _ _ => 0x0⟩ ]

def pmuRows : List RegRow :=
  [ ⟨0x19000000, 1, 0x0, 1, 0x0, 0xF, 0x0, 0x0, 0x0, 0x0, false, fun _ _ => 0x8⟩,
    ⟨0x19000004, 1, 0x0, 1, 0x0, 0x0, 0xF, 0x0, 0x0, 0x0, false, fun _ _ => 0x0⟩,
    ⟨0x19000008, 1, 0x0, 1, 0x0, 0xF, 0x0, 0x0, 0x0, 0x0, false, fun _ _ => 0x0⟩,
    ⟨0x19000010, 1, 0x0, 1, 0x0, 0x0, 0xFFFFFFFF, 0x0, 0x0, 0x0, false, fun _ _ => 0x0⟩,
    ⟨0x19000014, 1, 0x0, 1, 0x0, 0x0, 0xFFFFFFFF, 0x0, 0x0, 0x0, false, fun _ _ => 0x0⟩,
    ⟨0x19000018, 1, 0x0, 1, 0x0, 0x0, 0x0, 0x0, 0x0, 0xFFFFFFFF, false, fun _ _ => 0x0⟩,
    ⟨0x1900001C, 1, 0x0, 1, 0x0, 0xFFFFFFFF, 0x0, 0x0, 0x0, 0x0, false, fun _ _ => 0x0⟩,
    ⟨0x19000020, 1, 0x0, 1, 0x0, 0x0, 0x0, 0x0, 0xFFFFFFFF, 0x0, false, fun _ _ => 0x0⟩,
    ⟨0x19000100, 64, 0x10, 1, 0x0, 0x1FFFFFFF, 0x0, 0x0, 0x0, 0x0, false, fun _ _ => 0x47FE000⟩,
    ⟨0x19000104, 64, 0x10, 1, 0x0, 0xFFFFFFFF, 0x0, 0x0, 0x0, 0x0, false, fun _ _ => 0x0⟩,
    ⟨0x19000108, 64, 0x10, 1, 0x0, 0xFFFF, 0x0, 0x0, 0x0, 0x0, false, fun _ _ => 0x0⟩,
    ⟨0x1900010C, 64, 0x10, 1, 0x0, 0xFFFFFFFF, 0x0, 0x0, 0x0, 0x0, false, fun _ _ => 0x0⟩,
    ⟨0x19001000, 1024, 0x4, 1, 0x0, 0x0, 0x0, 0x0, 0x0, 0xFFFFFFFF, false, fun _ _ => 0x0⟩,
    ⟨0x19010000, 288, 0x30, 1, 0x0, 0xFFFFFFFF, 0x0, 0x0, 0x0, 0x0, false, fun _ _ => 0x0⟩,
    ⟨0x19010004, 288, 0x30, 1, 0x0, 0xFFFF, 0x0, 0x0, 0x0, 0x0, false, fun _ _ => 0x0⟩,
    ⟨0x19010008, 288, 0x30, 1, 0x0, 0xFFFFFFFF, 0x0, 0x0, 0x0, 0x0, false, fun _ _ => 0x0⟩,
    ⟨0x1901000C, 288, 0x30, 1, 0x0, 0xFFFF, 0x0, 0x0, 0x0, 0x0, false, fun _ _ => 0x0⟩,
    ⟨0x19010010, 288, 0x30, 1, 0x0, 0xFFFFFFFF, 0x0, 0x0, 0x0, 0x0, false, fun _ _ => 0x0⟩,
    ⟨0x19010014, 288, 0x30, 1, 0x0, 0xFFFF, 0x0, 0x0, 0x0, 0x0, false, fun _ _ => 0x0⟩,
    ⟨0x19010018, 288, 0x30, 1, 0x0, 0xFFFFFFFF, 0x0, 0x0, 0x0, 0x0, false, fun _ _ => 0x0⟩,
    ⟨0x1901001C, 288, 0x30, 1, 0x0, 0xFFFF, 0x0, 0x0, 0x0, 0x0, false, fun _ _ => 0x0⟩,
    ⟨0x19010020, 288, 0x30, 1, 0x0, 0xFFFFFFFF, 0x0, 0x0, 0x0, 0x0, false, fun _ _ => 0x0⟩,
    ⟨0x19010024, 288, 0x30, 1, 0x0, 0xFFFF, 0x0, 0x0, 0x0, 0x0, false, fun _ _ => 0x0⟩,
    ⟨0x19020000, 288, 0x4, 1, 0x0, 0x0, 0x1F, 0x0, 0x0, 0x0, false, fun _ _ => 0x0⟩ ]

/-- The rows of the window (Table 20-1) an offset lies in. -/
def windowRows (off : Nat) : List RegRow :=
  match off / 0x1000000 with
  | 0 => glbRows
  | 1 => ephRows
  | 2 => optRows
  | 3 => trnRows
  | 4 => lnkRows
  | 5 => lnkRows
  | 6 => fwdRows
  | 7 => fwdRows
  | 8 => coreRows
  | 9 => coreRows
  | 10 => schRows
  | 11 => schRows
  | 12 => cnjRows
  | 13 => cnjRows
  | 14 => cnjRows
  | 15 => cnjRows
  | 16 => stkRows
  | 17 => stkRows
  | 18 => msfRows
  | 19 => msfRows
  | 20 => oryRows
  | 21 => oryRows
  | 22 => hltRows
  | 23 => cfgRows
  | 24 => secRows
  | _ => if off < 0x20000000 ∧ 0x19000000 ≤ off then pmuRows else []

/-- The indices an offset has in a row, when the row names that offset. -/
def RegRow.index? (r : RegRow) (off : Nat) : Option (Nat × Nat) :=
  if off < r.base then none
  else
    let d := off - r.base
    let i := if r.n1 = 1 then 0 else d / r.s1
    let e := d - i * r.s1
    let j := if r.n2 = 1 then 0 else e / r.s2
    if i < r.n1 ∧ j < r.n2 ∧ e = j * r.s2 then some (i, j) else none

/-- The row that names a register at this offset; none for an unnamed offset (R9, R419). -/
def regRow? (off : Nat) : Option RegRow :=
  (windowRows off).find? fun r => (r.index? off).isSome

/-- The value a register has at cold reset (R11). -/
def regReset (off : Nat) : W32 :=
  match regRow? off with
  | some r =>
    match r.index? off with
    | some (i, j) => BitVec.ofNat 32 (r.reset i j)
    | none => 0
  | none => 0

end Sys2Proof.Machine
end

