-- ==== Sys2Proof/Machine/Ops.lean ====
section
/-!
DEFINITION. The named operations over the state that every meaning uses: registers and their fields, the clock, the
per-port and per-die records, what is sent out, and free values.
-/

namespace Sys2Proof.Machine

/-! ### Registers -/

/-- The stored word of the register at an offset. -/
def State.reg (s : State) (off : Nat) : W32 := s.regs.read (regReset off) off

/-- Stores a word in the register at an offset. -/
def State.setReg (s : State) (off : Nat) (v : W32) : State :=
  { s with regs := s.regs.write (regReset off) off v }

/-- A field of a word. -/
def Fld.of (f : Fld) (w : W32) : Nat := w.toNat / 2 ^ f.lo % 2 ^ f.width

/-- A word with a field replaced (modulo the field's width). -/
def Fld.put (f : Fld) (w : W32) (v : Nat) : W32 :=
  BitVec.ofNat 32 (w.toNat - w.toNat / 2 ^ f.lo % 2 ^ f.width * 2 ^ f.lo + v % 2 ^ f.width * 2 ^ f.lo)

/-- The value of a register field. -/
def State.fld (s : State) (f : Fld) : Nat := f.of (s.reg f.off)

/-- Whether a one-bit field is set. -/
def State.bit (s : State) (f : Fld) : Bool := s.fld f = 1

/-- Sets a register field. -/
def State.setFld (s : State) (f : Fld) (v : Nat) : State := s.setReg f.off (f.put (s.reg f.off) v)

/-- The value of a 64-bit pair given the low field's offset (R8). -/
def State.pair (s : State) (lo : Fld) : Nat := (s.reg lo.off).toNat + 2 ^ 32 * (s.reg (lo.off + 4)).toNat

/-- Sets a 64-bit pair. -/
def State.setPair (s : State) (lo : Fld) (v : Nat) : State :=
  (s.setReg lo.off (BitVec.ofNat 32 v)).setReg (lo.off + 4) (BitVec.ofNat 32 (v / 2 ^ 32))

/-- A 32-bit signed reading of a field of that width. -/
def signed (w : Nat) (v : Nat) : Int := if v % 2 ^ w < 2 ^ (w - 1) then (v % 2 ^ w : Nat) else (v % 2 ^ w : Nat) - (2 ^ w : Nat)

/-- The two's complement of an integer at a width. -/
def wrap (w : Nat) (v : Int) : Nat := (v % (2 ^ w : Nat)).toNat

/-- Clamps an integer between two bounds. -/
def clampInt (v lo hi : Int) : Int := if v < lo then lo else if hi < v then hi else v

/-- x >> n for an integer: the floor of x / 2^n (R12). -/
def sar (x : Int) (n : Nat) : Int := x / (2 ^ n : Nat)

/-! ### The clock -/

/-- The visible fabric time (R36). -/
def State.ft (s : State) : Nat := s.eph.acc.toNat / 2 ^ 48

/-- The fabric time in units of 2^-16 FT. -/
def State.ft16 (s : State) : Int := (s.eph.acc.toNat / 2 ^ 32 : Nat)

/-! ### Records by port, die, engine -/

def State.link (s : State) (p : Port) : Link := s.links.read { } p.toNat
def State.setLink (s : State) (p : Port) (l : Link) : State := { s with links := s.links.write { } p.toNat l }
def State.time (s : State) (p : Port) : PortTime := s.ptime.read { } p.toNat
def State.setTime (s : State) (p : Port) (t : PortTime) : State := { s with ptime := s.ptime.write { } p.toNat t }
def State.act (s : State) (k : Nat) : Act := s.acts.read { } k
def State.setAct (s : State) (k : Nat) (a : Act) : State := { s with acts := s.acts.write { } k a }
def State.core (s : State) (d : Nat) : DieCore := s.cores.read { } d
def State.setCore (s : State) (d : Nat) (c : DieCore) : State := { s with cores := s.cores.write { } d c }
def State.engine (s : State) (f : Nat) : Engine := s.opt.engines.read { } f
def State.setEngine (s : State) (f : Nat) (e : Engine) : State := { s with opt.engines := s.opt.engines.write { } f e }
def State.line (s : State) (f n : Nat) : Line := s.opt.lines.read { } (18 * f + n)
def State.setLine (s : State) (f n : Nat) (l : Line) : State := { s with opt.lines := s.opt.lines.write { } (18 * f + n) l }
def State.heater (s : State) (f h : Nat) : Heater := s.opt.heaters.read { } (36 * f + h)
def State.setHeater (s : State) (f h : Nat) (x : Heater) : State := { s with opt.heaters := s.opt.heaters.write { } (36 * f + h) x }
def State.plane (s : State) (c : Nat) : Plane := s.trn.planes.read { } c
def State.setPlane (s : State) (c : Nat) (x : Plane) : State := { s with trn.planes := s.trn.planes.write { } c x }
def State.elem (s : State) (c e : Nat) : Element := s.trn.elements.read { } (144 * c + e)
def State.setElem (s : State) (c e : Nat) (x : Element) : State := { s with trn.elements := s.trn.elements.write { } (144 * c + e) x }

/-- The ports in ascending order. -/
def allPorts : List Port := (List.range 512).map (BitVec.ofNat 9)

/-- The die that serves a port (R26). -/
def dieOf (p : Port) : Nat := p.toNat / 128

/-- The engine, fibre pair and pipeline of a port (R26). -/
def engineOf (p : Port) : Nat := p.toNat / 16

/-- The duty of a port: its line at start (R61). -/
def dutyOf (p : Port) : BitVec 4 := BitVec.ofNat 4 p.toNat

/-- The port of an engine and a duty (R26). -/
def portOf (f : Nat) (k : BitVec 4) : Port := BitVec.ofNat 9 (16 * f + k.toNat)

/-! ### Outputs and free values -/

/-- Sends something out. -/
def State.emit (s : State) (o : Output) : State := { s with out := s.out ++ [o] }

/-- The next index of a free value. -/
def State.draw (s : State) : State := { s with fresh := s.fresh + 1 }

end Sys2Proof.Machine
end

