-- ==== Sys2Proof/Machine/Flags.lean ====
section
/-!
DEFINITION. Interrupt causes and their MSI-X messages (R368), saturating counters (R10), almanac records (R372, R442)
and ALERT_N (R376), and the counting of programmable events (R411 to R414).
-/

namespace Sys2Proof.Machine

/-! ### Interrupts -/

/-- The interrupt source (Table 16-5) of the INT_STATUS register at an offset. -/
def irqSource (off : Nat) : Nat :=
  if 0x04000000 ≤ off ∧ off < 0x06000000 then (off - 0x04000000) / 0x1000
  else if 0x02000000 ≤ off ∧ off < 0x03000000 then 512 + (off - 0x02000000) / 0x10000
  else match off / 0x1000000 with
    | 0x01 => 544
    | 0x03 => 545
    | 0x06 => 546
    | 0x08 => 547
    | 0x0A => 548
    | 0x0C => 549
    | 0x10 => 550
    | 0x12 => 551
    | 0x14 => 552
    | 0x16 => 553
    | 0x17 => 554
    | 0x18 => 555
    | 0x19 => 556
    | _ => 557

/-- A block's source is pending: INT_STATUS and INT_ENABLE, which follows it, share a set bit (R368). -/
def State.irqPending (s : State) (off : Nat) : Bool := (s.reg off &&& s.reg (off + 4)) ≠ 0

/-- Sends the source's MSI-X vector, unless MSI-X is disabled (R368). -/
def State.sendMsix (s : State) (off : Nat) : State :=
  if s.msixEnable then s.emit (.msix (s.fld (Reg.GLB_INT_ROUTE.vector (irqSource off)))) else s

/-- Sends the vector if the block's source became pending since `before`. -/
def State.msixFrom (s : State) (before : State) (off : Nat) : State :=
  if !before.irqPending off && s.irqPending off then s.sendMsix off else s

/-- Raises an interrupt cause: sets the bit of the block's INT_STATUS. -/
def State.raise (s : State) (f : Fld) : State := (s.setFld f 1).msixFrom s f.off

/-! ### Counters -/

/-- Adds to a saturating counter field (R10). -/
def State.count (s : State) (f : Fld) (n : Nat := 1) : State :=
  s.setFld f (min (s.fld f + n) (2 ^ f.width - 1))

/-! ### The almanac -/

/-- The severity an event has under Table 16-15; an event outside the table is NOTICE (R442). -/
def AlmEvent.severity : AlmEvent → Nat
  | .restartMarker => 0
  | .amendmentFired => 0
  | .recordsLost => 2
  | .collectiveAbort => 2
  | .leakyBucket => 2
  | .bufferFree => 2
  | .bufferRepaired => 2
  | .bufferReclaimed => 2
  | .elementDegraded => 2
  | .elementExpelled => 2
  | .expulsionAborted => 2
  | .catalogueConflict => 2
  | .coolantSuspect => 2
  | .vinLow => 2
  | .dataCorruption => 3
  | .auditMismatch => 3
  | .uncorrectableWord => 3
  | .latticeWord => 3
  | .breakerFrozen => 3
  | .thermalCrit => 3
  | .watchdogLapse => 3
  | .identityFailure => 3
  | .latchFault => 3
  | .holdUpReserve => 3
  | .folioBad => 4
  | .thermtrip => 4
  | _ => 1

/-- ALERT_N is asserted: the Archivist is hung, a record at or above alert_level is unacknowledged (R376), or the reference
clock has failed (R431). -/
def State.alertOn (s : State) : Bool :=
  s.bit Reg.GLB_STATUS.arch_hung || s.pwr.refclkBad ||
    match s.alm.unacked with
    | none => false
    | some v => decide (s.fld Reg.GLB_ALM_CFG.alert_level ≤ v)

/-- Sends the change of ALERT_N since `before`, and keeps the alert field of GLB_STATUS. -/
def State.alertFrom (s : State) (before : State) : State :=
  let s := s.setFld Reg.GLB_STATUS.alert (if s.alertOn then 1 else 0)
  if s.alertOn ≠ before.alertOn then s.emit (.pin .alertN s.alertOn) else s

/-- Commits an almanac record (R372, R373). A record at or above alert_level raises alert. -/
def State.logSev (s : State) (severity : Nat) (block : BitVec 8) (ev : AlmEvent) (index : Nat) (detail : List Nat) : State :=
  let r : AlmRec :=
    { seq := s.alm.seq + 1, ft := BitVec.ofNat 64 s.ft, block := block, severity := severity, event := ev,
      epoch := s.reg Reg.CFG_EPOCH.addr, memEpoch := s.reg Reg.GLB_MEM_ERR_EPOCH.addr, index := index, detail := detail }
  let a := { s.alm with
    seq := s.alm.seq + 1
    ring := (r :: s.alm.ring).take 65536
    unacked := some (max severity (s.alm.unacked.getD 0)) }
  let t := { s with alm := a }
  let t := if s.fld Reg.GLB_ALM_CFG.alert_level ≤ severity then t.raise Reg.GLB_INT_STATUS.alert else t
  t.alertFrom s

/-- Commits a record with the severity its event has. -/
def State.log (s : State) (block : BitVec 8) (ev : AlmEvent) (index : Nat := 0) (detail : List Nat := []) : State :=
  s.logSev ev.severity block ev index detail

/-- A register-access event (R7): recorded, and reg_access raised (Table 16-11). -/
def State.regAccess (s : State) (off : Nat) : State :=
  (s.log 0x00 .registerAccess off).raise Reg.GLB_INT_STATUS.reg_access

/-! ### Event logs (R362, R365) -/

/-- Places a record in an event log, or sets overflow when the log is full. The log's interrupt setting asks for a message
where its mode, bits [1:0], is 1; its vector is bits [7:4] (CXL 3.1; log 50). -/
def State.addEvent (s : State) (k : Nat) (e : EventRec) : State :=
  let lg := s.arc.eventLogs.read [] k
  let stamp := s.ft / 16
  if 1024 ≤ lg.length then
    let (n, first, _) := (s.arc.logOverflow.get k).getD (0, stamp, stamp)
    { s with arc.logOverflow := s.arc.logOverflow.put k (min (n + 1) 65535, first, stamp) }
  else
    let h : BitVec 16 := if s.arc.eventHandle = 0xFFFF then 1 else s.arc.eventHandle + 1
    let s := { s with arc.eventLogs := s.arc.eventLogs.write [] k (lg ++ [⟨h, stamp, e⟩]), arc.eventHandle := h }
    let p := (s.arc.eventPolicy.getD k 0).toNat
    if s.msixEnable && decide (p % 4 = 1) then s.emit (.msix (p / 16)) else s

/-! ### Programmable counters (chapter 19) -/

/-- The events of each block of Table 19-1 are numbered from 1. -/
def pmuEvents (block : Nat) : Nat :=
  match block with
  | 0x01 => 1
  | 0x04 => 6
  | 0x06 => 3
  | 0x08 => 4
  | 0x0A => 2
  | 0x0C => 3
  | 0x10 => 3
  | 0x12 => 2
  | 0x14 => 2
  | 0x19 => 2
  | _ => 0

/-- Whether counter n selects an event of Table 19-1 (R412, R414). The events of blocks EPH and PMU have no index. -/
def State.pmuMatches (s : State) (n block event index : Nat) (vc : Option Nat) : Bool :=
  s.bit (Reg.PMU_EVSEL.enable n) && s.fld (Reg.PMU_EVSEL.block n) = block && s.fld (Reg.PMU_EVSEL.event n) = event &&
    (s.fld (Reg.PMU_EVSEL.index n) = 0x3FF || s.fld (Reg.PMU_EVSEL.index n) = index || block = 0x01 || block = 0x19) &&
    (match vc with
     | none => true
     | some v => s.bit (Reg.PMU_EVSEL.vc_all n) || s.fld (Reg.PMU_EVSEL.vc n) = v)

/-- The kind of a sample (Table 19-3): 1 for orrery events, 2 for those of links and forwarding (R416), else 0. -/
def sampleKind (block : Nat) : Nat := if block = 0x14 then 1 else if block = 0x04 ∨ block = 0x06 then 2 else 0

/-- The instruction or cell a sample names: one that the manual lets the device choose within a distance (R416; log 66),
unless it is given. -/
def State.attribution (s : State) (block : Nat) (given : Option (Nat × Nat × Nat)) : Nat × Nat × Nat :=
  let x := (Config.freeSample s.fresh).toNat
  match sampleKind block, given with
  | 0, _ => (0, 0, 0)
  | _, some a => a
  | 1, none => (x % 2 ^ 14, x / 2 ^ 16 % 2 ^ 16, x / 2 ^ 32 % 2 ^ 15)
  | _, none => (x % 2 ^ 16, x / 2 ^ 16 % 2 ^ 8, 0)

/-- Writes a sample record (R416, Table 19-3) at slot PROD mod 128, or counts it lost when 128 are unread. -/
def State.pmuSample (s : State) (n block index : Nat) (given : Option (Nat × Nat × Nat)) : State :=
  let prod := s.reg Reg.PMU_SMP_PROD.addr
  if (prod - s.reg Reg.PMU_SMP_CONS.addr) = 128 then
    (s.count Reg.PMU_SMP_LOST.value).raise Reg.PMU_INT_STATUS.sample_lost
  else
    let i := prod.toNat % 128
    let w (k : Nat) : Nat := Reg.PMU_SMP.addr (8 * i + k)
    let (thread, prog, pc) := s.attribution block given
    let s := s.draw
    let s := s.setReg (w 0) (BitVec.ofNat 32 s.ft)
    let s := s.setReg (w 1) (BitVec.ofNat 32 (s.ft / 2 ^ 32))
    let s := s.setReg (w 2) (BitVec.ofNat 32 (n + sampleKind block * 2 ^ 8 + index * 2 ^ 16))
    let s := s.setReg (w 3) (BitVec.ofNat 32 (thread + prog * 2 ^ 16))
    let s := s.setReg (w 4) (BitVec.ofNat 32 (pc % 2 ^ 16))
    let s := s.setReg (w 5) 0
    let s := s.setReg (w 6) 0
    let s := s.setReg (w 7) 0
    (s.setReg Reg.PMU_SMP_PROD.addr (prod + 1)).raise Reg.PMU_INT_STATUS.sample

/-- Adds to programmable counter n for an event (R411, R413, R416). -/
def State.pmuAdd (s : State) (n k block index : Nat) (given : Option (Nat × Nat × Nat)) : State :=
  let sum := s.pair (Reg.PMU_CNT_LO.value n) + k
  if sum < 2 ^ 48 then s.setPair (Reg.PMU_CNT_LO.value n) sum
  else
    let r := sum % 2 ^ 48
    let s := s.setPair (Reg.PMU_CNT_LO.value n) r
    let ovf : Fld := ⟨if n < 32 then Reg.PMU_OVF_LO.addr else Reg.PMU_OVF_HI.addr, n % 32, 1⟩
    let s := (s.setFld ovf 1).raise Reg.PMU_INT_STATUS.ovf
    let s := if s.bit Reg.PMU_CTL.freeze_on_ovf then s.setFld Reg.PMU_CTL.freeze 1 else s
    if s.bit (Reg.PMU_EVSEL.sample_en n) then
      let period := s.fld (Reg.PMU_PERIOD.value n)
      let s := if period = 0 then s else s.setPair (Reg.PMU_CNT_LO.value n) ((2 ^ 48 - period + r) % 2 ^ 48)
      s.pmuSample n block index given
    else s

/-- The PMU counts: global_en is 1 and freeze 0 (R412). -/
def State.pmuRuns (s : State) : Bool := s.bit Reg.PMU_CTL.global_en && !s.bit Reg.PMU_CTL.freeze

/-- Counts an event in every programmable counter that selects it, while the counters run (R412, R414). -/
def State.pmuEvent (s : State) (block event index : Nat) (vc : Option Nat := none) (k : Nat := 1)
    (given : Option (Nat × Nat × Nat) := none) : State :=
  if s.pmuRuns then
    (List.range 64).foldl (fun t n => if s.pmuMatches n block event index vc then t.pmuAdd n k block index given else t) s
  else s

end Sys2Proof.Machine
end

