-- ==== Sys2Proof/Machine/Operands.lean ====
section
/-!
DEFINITION. The operand forms of the fabric: bytes and little-endian numbers (R109), the fields of a frame's role area
(Table 5-4), its length and cells (R120), what makes it malformed (R112), and the frames the device builds.
-/

namespace Sys2Proof.Machine

/-! ### Bytes -/

/-- The number that little-endian bytes hold. -/
def leNat : List Byte → Nat
  | [] => 0
  | b :: bs => b.toNat + 256 * leNat bs

/-- The n little-endian bytes of a number. -/
def leBytes : Nat → Nat → List Byte
  | 0, _ => []
  | n + 1, v => BitVec.ofNat 8 v :: leBytes n (v / 256)

/-- The bytes [i, i + n) of a list, with zeros past its end. -/
def sliceBytes (bs : List Byte) (i n : Nat) : List Byte :=
  let x := (bs.drop i).take n
  x ++ List.replicate (n - x.length) 0

/-- The little-endian number in n bytes at i. -/
def numAt (bs : List Byte) (i n : Nat) : Nat := leNat (sliceBytes bs i n)

/-- All bytes of a list are zero. -/
def allZero (bs : List Byte) : Bool := bs.all (· == 0)

/-! ### Frame types and virtual channels (Table 5-3) -/

def ftLinkCtl : BitVec 4 := 0x0
def ftTime : BitVec 4 := 0x1
def ftMgmt : BitVec 4 := 0x2
def ftMemReq : BitVec 4 := 0x3
def ftMemRsp : BitVec 4 := 0x4
def ftContrib : BitVec 4 := 0x5
def ftResult : BitVec 4 := 0x6
def ftMcast : BitVec 4 := 0x7
def ftCollCtl : BitVec 4 := 0x8
def ftBulk : BitVec 4 := 0x9
def ftBestEffort : BitVec 4 := 0xA

/-- The VC of a frame type received from a leaf (Table 5-3); none for a reserved type. -/
def rxVc (t : BitVec 4) : Option (BitVec 3) :=
  match t.toNat with
  | 0 => some 0
  | 1 => some 0
  | 2 => some 1
  | 3 => some 2
  | 4 => some 3
  | 5 => some 4
  | 6 => some 5
  | 7 => some 5
  | 8 => some 4
  | 9 => some 6
  | 10 => some 7
  | _ => none

/-- The VC of a frame type the device sends. -/
def txVc (t : BitVec 4) : BitVec 3 := if t = ftCollCtl then 5 else (rxVc t).getD 0

/-- A payload length a frame type allows (Table 5-3). -/
def lengthOk (t : BitVec 4) (n : Nat) : Bool :=
  match t.toNat with
  | 0 => n = 0 || n = 32
  | 1 => n = 32
  | 2 => n ≤ 4096
  | 3 => n ≤ 256
  | 4 => n ≤ 256
  | 5 => n % 256 = 0 && 256 ≤ n && n ≤ 4096
  | 6 => n % 256 = 0 && 256 ≤ n && n ≤ 4096
  | 7 => n ≤ 256
  | 8 => n ≤ 256
  | 9 => n ≤ 65024
  | 10 => n ≤ 65024
  | _ => false

/-- A hop-local frame type (Table 5-3). -/
def hopLocal (t : BitVec 4) : Bool := t == ftLinkCtl || t == ftTime || t == ftCollCtl

/-- The opcodes of COLL_CTL that a leaf sends, and their payload bytes (Table 10-3; R225). -/
def collCtlUp (op : Nat) : Option Nat :=
  match op with
  | 0x02 => some 32
  | 0x05 => some 0
  | _ => none

end Sys2Proof.Machine

namespace Sys2Proof

open Sys2Proof.Machine

/-- The header, sidebands, payload and trailer in bytes (R120). -/
def Frame.bytes (f : Frame) : Nat :=
  let n := f.scales.length + f.payload.length
  48 + n + (if n = 0 then 0 else 4)

/-- The cells a frame takes and the credits it costs (R120). -/
def Frame.cells (f : Frame) : Nat := (f.bytes + 255) / 256

/-- Sequenced under link-level retry (R114). -/
def Frame.isSequenced (f : Frame) : Bool :=
  !(f.ftype == ftTime) &&
    !(f.ftype == ftLinkCtl && (f.opcode = 0x01 || f.opcode = 0x02 || f.opcode = 0x03 || f.opcode = 0x04 || f.opcode = 0x14))

/-! ### Fields of the role area (Table 5-4) -/

def Frame.address (f : Frame) : W64 := f.w5 ++ f.w4
def Frame.group (f : Frame) : BitVec 14 := f.w4.setWidth 14
def Frame.gen (f : Frame) : BitVec 8 := (f.w4 >>> 14).setWidth 8
def Frame.segment (f : Frame) : BitVec 24 := f.w5.setWidth 24
def Frame.firstLine (f : Frame) : BitVec 6 := (f.w5 >>> 24).setWidth 6
def Frame.cseq (f : Frame) : BitVec 16 := f.w6.setWidth 16
def Frame.members (f : Frame) : BitVec 18 := f.w8.setWidth 18
def Frame.memMod (f : Frame) : BitVec 8 := f.w6.setWidth 8
def Frame.status (f : Frame) : BitVec 8 := (f.w6 >>> 8).setWidth 8
/-- The correction of a time frame, signed (R39). -/
def Frame.correction (f : Frame) : Int := f.address.toInt
/-- The duty named by a lane message (Table 5-7). -/
def Frame.laneDuty (f : Frame) : BitVec 4 := f.w4.setWidth 4
/-- The line a lane message names as the new one (Table 5-7). -/
def Frame.laneTo (f : Frame) : Nat := (f.w4.toNat / 2 ^ 9) % 32

/-! ### Flags (Table 5-5) -/

def Frame.ooc (f : Frame) : Bool := f.flags.getLsbD 0
def Frame.backup (f : Frame) : Bool := f.flags.getLsbD 1
def Frame.resent (f : Frame) : Bool := f.flags.getLsbD 2
def Frame.last (f : Frame) : Bool := f.flags.getLsbD 3
def Frame.swSrc (f : Frame) : Bool := f.flags.getLsbD 5

/-- sw_src, set on every frame a spine originates (R18). -/
def flagSwSrc : BitVec 8 := 0x20
def flagLast : BitVec 8 := 0x08
def flagPad : BitVec 8 := 0x10

/-! ### Malformed frames (R112) -/

/-- The code an ABORT_REQ requests (Table 10-3). -/
def Frame.abortCode (f : Frame) : Nat := f.w8.toNat % 16

/-- A collective frame of a leaf that R225 makes malformed: an opcode not in Table 10-3 or of the other direction, a
COLL_CTL length that is not its opcode's, or an ABORT_REQ with a code other than 0x03 and 0x04. -/
def Frame.badColl (f : Frame) : Bool :=
  if f.ftype = ftCollCtl then
    match collCtlUp f.opcode.toNat with
    | none => true
    | some n => f.payload.length ≠ n || (f.opcode = 0x05 && f.abortCode ≠ 0x03 && f.abortCode ≠ 0x04)
  else f.ftype = ftContrib && f.opcode ≠ 0x01 && f.opcode ≠ 0x02

/-- A frame is malformed (R112). -/
def Frame.malformed (f : Frame) : Bool :=
  (match rxVc f.ftype with
   | none => true
   | some v => v ≠ f.vc) ||
  !lengthOk f.ftype f.payload.length || decide (8 ≤ f.hops.toNat) ||
  (hopLocal f.ftype && (f.dclass || f.dnode ≠ 0)) ||
  (f.dclass && f.dnode.toNat / 2 ^ 11 ≠ 0) ||
  f.badColl

end Sys2Proof

namespace Sys2Proof.Machine

/-! ### Addressing -/

/-- The frame names this spine (R18). -/
def State.mine (s : State) (f : Frame) : Bool := f.dclass && f.dnode.toNat = s.swAddr.toNat

/-- The cabling map: the port that faces a leaf (R27). -/
def State.cable (s : State) (leaf : Nat) : Port := BitVec.ofNat 9 (s.fld (Reg.FWD_CABLE_MAP.port leaf))

/-- The leaf the cabling map places on a port. -/
def State.leafOn (s : State) (p : Port) : Nat := ((List.range 512).find? fun l => s.cable l == p).getD 0

/-- The egress port of a node by coordinates (R131). -/
def State.route (s : State) (n : Node) : Port :=
  match s.fwd.catalogue.get n.toNat with
  | some e => e.port
  | none => s.cable (n.toNat / 256)

/-- The node field as a spine's own switch address (R18). -/
def State.ownSnode (s : State) : Node := s.swAddr.setWidth 17

/-- The destination of a frame that answers `f`, or reports its failure (R18): its dclass and dnode. -/
def answerTo (f : Frame) : Bool × Node := (f.swSrc, f.snode)

/-- The port an answer to `f`, which arrived on `p`, leaves by (R18, R131). -/
def State.answerPort (s : State) (f : Frame) (p : Port) : Port := if f.swSrc then p else s.route f.snode

/-- A frame of the device whose partition, seq and fence_epoch the manual does not state (log 68). -/
def State.withOpenHeader (s : State) (f : Frame) : Frame :=
  let h := Config.freeHeader s.fresh s.ft
  { f with partition := h.extractLsb' 0 12, seq := h.extractLsb' 12 24, epoch := h.extractLsb' 36 8 }

/-- A LINK_CTL frame of the device (Table 5-7), hop-local: dclass and dnode zero, snode the switch address. -/
def State.linkCtl (s : State) (op : BitVec 8) (w4 w5 w6 w7 : W32) (payload : List Byte := []) : Frame :=
  s.withOpenHeader
    { ftype := ftLinkCtl, vc := 0, snode := s.ownSnode, flags := flagSwSrc, opcode := op, w4 := w4, w5 := w5, w6 := w6,
      w7 := w7, payload := payload }

/-- PATH_FAIL for a failed memory frame (R125, Table 5-8). -/
def State.pathFail (s : State) (f : Frame) (reason : Nat) : Frame :=
  { ftype := ftMemRsp, vc := 3, dclass := f.swSrc, dnode := f.snode, snode := s.ownSnode, flags := flagSwSrc,
    partition := f.partition, opcode := 0xF0, seq := f.seq, epoch := f.epoch, w4 := f.w4, w5 := f.w5,
    w6 := BitVec.ofNat 32 (f.opcode.toNat + 256 * reason) }

/-- Reasons of PATH_FAIL (Table 5-8). -/
def pfLinkDown : Nat := 1
def pfNoPath : Nat := 2
def pfDestFenced : Nat := 3
def pfDataError : Nat := 4

end Sys2Proof.Machine
end

