-- ==== Sys2Proof/Machine/Image.lean ====
section
/-!
DEFINITION. The layout of folios and amendments (R341, R342): the header of Table 15-2, the directory, and the records
of the sections of Table 15-3.
-/

namespace Sys2Proof.Machine

/-- A directory record: section code, scope, offset and length. -/
structure DirRec where
  code : Nat
  scope : Nat
  off : Nat
  len : Nat
  deriving DecidableEq, Repr

/-- Fields of the header (Table 15-2). -/
def imgMagic (b : List Byte) : Nat := numAt b 0 4
def imgVersion (b : List Byte) : Nat := numAt b 4 1
def imgKind (b : List Byte) : Nat := numAt b 5 1
def imgSections (b : List Byte) : Nat := numAt b 6 2
def imgLength (b : List Byte) : Nat := numAt b 8 4
def imgTarget (b : List Byte) : Nat := numAt b 12 4
def imgDomain (b : List Byte) : Nat := numAt b 16 4
def imgEpoch (b : List Byte) : Nat := numAt b 20 4
def imgTAct (b : List Byte) : Nat := numAt b 24 8
def imgBase (b : List Byte) : List Byte := sliceBytes b 32 32

/-- The directory (R341). -/
def imgDir (b : List Byte) : List DirRec :=
  (List.range (min (imgSections b) 64)).map fun i =>
    let o := 128 + 16 * i
    ⟨numAt b o 2, numAt b (o + 2) 1, numAt b (o + 4) 4, numAt b (o + 8) 4⟩

/-- The bytes of a section. -/
def secBytes (b : List Byte) (r : DirRec) : List Byte := sliceBytes b r.off r.len

/-- The bytes of the section of a code and scope, if the image has it. -/
def imgSection (b : List Byte) (code scope : Nat) : Option (List Byte) :=
  ((imgDir b).find? fun r => r.code = code ∧ r.scope = scope).map (secBytes b)

/-- The bytes of the sections of a code, LOCAL then SHARED. -/
def imgSectionsOf (b : List Byte) (code : Nat) : List (List Byte) :=
  ((imgDir b).filter fun r => r.code = code).map (secBytes b)

/-- No two sections overlap. -/
def noOverlap : List DirRec → Bool
  | [] => true
  | r :: rs => (rs.all fun q => decide (r.off + r.len ≤ q.off) || decide (q.off + q.len ≤ r.off)) && noOverlap rs

/-- No code twice with the same scope. -/
def noRepeat : List DirRec → Bool
  | [] => true
  | r :: rs => (rs.all fun q => !(r.code == q.code && r.scope == q.scope)) && noRepeat rs

/-- A directory record keeps R341. -/
def recOk (b : List Byte) (i : Nat) (r : DirRec) : Bool :=
  let o := 128 + 16 * i
  decide (r.scope ≤ 1) && decide (numAt b (o + 3) 1 = 0) && decide (numAt b (o + 12) 4 = 0) && decide (r.off % 8 = 0) &&
    decide (128 + 16 * imgSections b ≤ r.off) && decide (r.off + r.len + 114 ≤ imgLength b)

/-- The header and directory keep R341, for a kind and a length limit; the target is checked elsewhere. -/
def imgFormatOk (b : List Byte) (kind limit : Nat) : Bool :=
  decide (imgMagic b = 0x4F494C46) && decide (imgVersion b = 1) && decide (imgKind b = kind) &&
    decide (1 ≤ imgSections b) && decide (imgSections b ≤ 64) && decide (imgLength b = b.length) &&
    decide (imgLength b ≤ limit) && allZero (sliceBytes b 64 64) &&
    (decide (kind = 1) || (decide (imgTAct b = 0) && allZero (imgBase b))) &&
    ((List.range (imgSections b)).zip (imgDir b)).all (fun e => recOk b e.1 e.2) && noOverlap (imgDir b) &&
    noRepeat (imgDir b)

/-- The bytes an image's signature covers, and the signature (R341). -/
def imgSigned (b : List Byte) : List Byte := b.take (b.length - 114)
def imgSig (b : List Byte) : List Byte := b.drop (b.length - 114)

/-! ### Records of sections -/

/-- Cuts bytes into records of n bytes. -/
def recordsOf (n : Nat) (bs : List Byte) : List (List Byte) :=
  (List.range (bs.length / n)).map fun i => sliceBytes bs (n * i) n

/-- REGS entries: offset and value. -/
def regsEntries (bs : List Byte) : List (Nat × W32) :=
  (recordsOf 8 bs).map fun r => (numAt r 0 4, BitVec.ofNat 32 (numAt r 4 4))

/-- One gate list of a GATES section. -/
structure GateRec where
  port : Nat
  base : Nat
  entries : List (BitVec 256)
  deriving DecidableEq, Repr

/-- The gate lists of a GATES section (Table 15-3). -/
def gateRecs : Nat → List Byte → List GateRec
  | 0, _ => []
  | n + 1, bs =>
    if bs.length < 16 then []
    else
      let count := numAt bs 2 2
      { port := numAt bs 0 2, base := numAt bs 8 8,
        entries := (List.range count).map fun i => BitVec.ofNat 256 (numAt bs (16 + 8 * i) 8) } ::
        gateRecs n (bs.drop (16 + 8 * count))

/-- A TRANSIT section: base_ft, permutations by index, and calendar entries. -/
def transitBase (bs : List Byte) : Nat := numAt bs 0 8
def transitPerms (bs : List Byte) : List (Nat × List Byte) :=
  (List.range (numAt bs 8 2)).map fun i => (numAt bs (16 + 36 * i) 4, sliceBytes bs (20 + 36 * i) 32)
def transitEntries (bs : List Byte) : List (BitVec 256) :=
  (List.range (numAt bs 10 2)).map fun i => BitVec.ofNat 256 (numAt bs (16 + 36 * numAt bs 8 2 + 32 * i) 32)

/-- The section of an image that holds a calendar. -/
def calSection (b : List Byte) : Option (List Byte) := (imgSectionsOf b 0x09).find? fun bs => decide (0 < numAt bs 10 2)

/-- The cyclic objects an image carries: the calendar (0) and gate lists (2 + p), by activation object. -/
def imgObjects (b : List Byte) : List Nat :=
  (if (calSection b).isNone then [] else [0]) ++
    (imgSectionsOf b 0x0A).flatMap fun bs => (gateRecs bs.length bs).map fun r => 2 + r.port

end Sys2Proof.Machine
end

