-- ==== Sys2Proof/Machine/Arith.lean ====
section
/-!
DEFINITION. Reduction arithmetic (chapter 9), as pure functions on one line: formats and arithmetic words (R192 to
R196), rounding and conversion (R197 to R202), the operations (R205 to R208), the checked add of a tile (R211 to R213), and
the result line (R203, R204). A lane is a 64-bit word; a MIN or MAX lane of a block format holds its pair as
m mod 2^32 + E · 2^32, and an ARG candidate takes two lanes, value then index (log 16).
-/

namespace Sys2Proof.Machine

/-! ### Formats and arithmetic words -/

/-- Elements of a line (Table 9-1), by format code. -/
def elemsPerLine (fmt : Nat) : Nat := [512, 256, 128, 64, 32, 64].getD fmt 64

/-- Bits of an element. -/
def elemBits (fmt : Nat) : Nat := [4, 8, 16, 32, 64, 32].getD fmt 32

/-- A format with blocks. -/
def isBlock (fmt : Nat) : Bool := decide (fmt < 3)

/-- Elements of a block. -/
def blockLen (fmt : Nat) : Nat := elemsPerLine fmt / 8

/-- The block of an element; 0 for formats without blocks. -/
def blockOf (fmt i : Nat) : Nat := if isBlock fmt then i / blockLen fmt else 0

/-- The footprint of a line's lanes in bytes (R215). -/
def laneBytes (fmt : Nat) : Nat := 8 * elemsPerLine fmt

/-- Fields of the arithmetic words (Table 9-2). -/
def awOp (w0 : W32) : Nat := w0.toNat % 16
def awFmt (w0 : W32) : Nat := w0.toNat / 16 % 8
def awNegotiated (w0 : W32) : Bool := w0.getLsbD 7
def awGuard (w0 : W32) : Nat := w0.toNat / 2 ^ 8 % 32
def awAfix (w0 : W32) : Int := signed 9 (w0.toNat / 2 ^ 16 % 512)
def awEin (w1 : W32) : Nat := w1.toNat % 256
def awEout (w1 : W32) : Nat := w1.toNat / 256 % 256

/-- g of the negotiated mode: 0 selects 16. -/
def guardOf (w0 : W32) : Nat := if awGuard w0 = 0 then 16 else awGuard w0

def opSum : Nat := 0
def opMin : Nat := 1
def opMax : Nat := 2
def opAnd : Nat := 3
def opOr : Nat := 4
def opXor : Nat := 5
def opArgmin : Nat := 6
def opArgmax : Nat := 7
def opCount : Nat := 8
def opHist : Nat := 9

/-- Whether Table 9-3 permits a format for an operation. -/
def opFmtOk (op fmt : Nat) : Bool :=
  if op = 0 ∨ op = 1 ∨ op = 2 then decide (fmt < 6)
  else if op = 3 ∨ op = 4 ∨ op = 5 then decide (fmt = 3 ∨ fmt = 4 ∨ fmt = 5)
  else if op = 6 ∨ op = 7 then decide (fmt = 3)
  else if op = 8 ∨ op = 9 then decide (fmt = 5)
  else false

/-- Additions under the residue check (Table 9-3). -/
def isSum (op : Nat) : Bool := decide (op = 0 ∨ op = 8 ∨ op = 9)

/-- The arithmetic words are accepted (R196). -/
def wordsOk (w0 w1 : W32) : Bool :=
  let op := awOp w0
  let fmt := awFmt w0
  opFmtOk op fmt &&
    !(awNegotiated w0 && !(decide (op = 0) && isBlock fmt)) &&
    decide (awGuard w0 ≠ 31) && decide (-64 ≤ awAfix w0) && decide (awAfix w0 ≤ 254) &&
    !(decide (fmt = 3 ∨ fmt = 4) && decide (awEin w1 = 255 ∨ awEout w1 = 255)) &&
    !(decide (op = 6 ∨ op = 7) && decide (awEin w1 ≠ awEout w1)) &&
    decide (w0.toNat / 2 ^ 13 % 8 = 0) && decide (w0.toNat / 2 ^ 25 = 0) && decide (w1.toNat / 2 ^ 16 = 0)

/-! ### Elements -/

/-- The bits of element i of a line. -/
def elemRaw (fmt : Nat) (data : List Byte) (i : Nat) : Nat :=
  if fmt = 0 then (data.getD (i / 2) 0).toNat / 16 ^ (i % 2) % 16
  else numAt data (elemBits fmt / 8 * i) (elemBits fmt / 8)

/-- The mantissa of element i: two's complement, but unsigned in U32. -/
def mantissa (fmt : Nat) (data : List Byte) (i : Nat) : Int :=
  if fmt = 5 then (elemRaw fmt data i : Nat) else signed (elemBits fmt) (elemRaw fmt data i)

/-- The range of a mantissa (Table 9-1). -/
def mantLo (fmt : Nat) : Int := if fmt = 5 then 0 else -(2 ^ (elemBits fmt - 1) : Nat)
def mantHi (fmt : Nat) : Int := if fmt = 5 then (2 ^ 32 - 1 : Nat) else (2 ^ (elemBits fmt - 1) - 1 : Nat)

/-- The 256 bytes of a line from the raw bits of its elements. -/
def packLine (fmt : Nat) (es : List Nat) : List Byte :=
  if fmt = 0 then (List.range 256).map fun k => BitVec.ofNat 8 (es.getD (2 * k) 0 % 16 + 16 * (es.getD (2 * k + 1) 0 % 16))
  else es.flatMap fun e => leBytes (elemBits fmt / 8) e

/-- The exponent of element i's block in a contribution; e_in, or 128 for U32, in formats without blocks. -/
def elemExp (fmt ein : Nat) (scales : List Byte) (i : Nat) : Nat :=
  if isBlock fmt then (scales.getD (blockOf fmt i) 0).toNat else if fmt = 5 then 128 else ein

/-! ### Rounding, conversion, lanes -/

/-- round_half_even(x / 2^s) (R197). -/
def shiftRound (x s : Int) : Int :=
  if s ≤ 0 then x * (2 ^ (-s).toNat : Nat)
  else
    let n := s.toNat
    let q := x / (2 ^ n : Nat)
    let r := x - q * (2 ^ n : Nat)
    let half : Int := (2 ^ (n - 1) : Nat)
    if half < r ∨ (r = half ∧ q % 2 = 1) then q + 1 else q

/-- CMAX of R200. -/
def cmax : Int := 2 ^ 45 - 1

/-- The lane value of an element, and whether it clamped (R200). -/
def convert (m : Int) (e : Nat) (a : Int) : Int × Bool :=
  let q := shiftRound m (a - e)
  if cmax < q then (cmax, true) else if q < -cmax then (-cmax, true) else (q, false)

/-- A lane read as int64. -/
def laneInt (v : W64) : Int := v.toInt

/-- The lane of an integer. -/
def intLane (v : Int) : W64 := BitVec.ofInt 64 v

/-- The residue of a lane (R211). -/
def laneRes (v : W64) : Nat := (v.toInt % 255).toNat

/-- The start value of lane i (Table 9-3). -/
def startLane (op fmt i : Nat) : W64 :=
  if op = 3 then BitVec.ofNat 64 (2 ^ elemBits fmt - 1)
  else if (op = 6 ∨ op = 7) ∧ i % 2 = 1 then 0xFFFFFFFF
  else 0

/-- The lanes of a line at segment start. -/
def startLanes (op fmt : Nat) : List W64 := (List.range (elemsPerLine fmt)).map (startLane op fmt)

/-- The pair a MIN or MAX lane holds. -/
def pairOf (fmt ein : Nat) (v : W64) : Int × Nat :=
  if isBlock fmt then (signed 32 v.toNat, v.toNat / 2 ^ 32)
  else if fmt = 5 then ((v.toNat : Nat), 128) else (v.toInt, ein)

/-- The lane of a pair. -/
def pairLane (fmt : Nat) (m : Int) (e : Nat) : W64 :=
  if isBlock fmt then BitVec.ofNat 64 (wrap 32 m + e * 2 ^ 32) else intLane m

/-- less of R205. -/
def pairLess (a b : Int × Nat) : Bool :=
  let e := min a.2 b.2
  decide (a.1 * (2 ^ (a.2 - e) : Nat) < b.1 * (2 ^ (b.2 - e) : Nat))

/-! ### One line into its lanes -/

/-- The accumulator exponents of a line: an entry of none is a null position (R199). -/
abbrev AList := List (Option Int)

/-- What adding a line gives: the lanes, residues and valid bits, the clamps, the steps repeated, and the first lane
with a second mismatch (R214). -/
structure LineRes where
  lanes : List W64
  res : List Nat
  valid : BitVec 8
  clamps : Nat := 0
  repeats : Nat := 0
  mismatch : Option Nat := none
  deriving DecidableEq, Repr

/-- A block of the contribution is null: E = 255 (R194). -/
def nullElem (fmt : Nat) (scales : List Byte) (i : Nat) : Bool :=
  isBlock fmt && (scales.getD (blockOf fmt i) 0).toNat == 255

/-- q of an element for SUM, COUNT and HIST: none adds nothing; and whether it clamped (R199, R200). -/
def sumQ (fmt ein : Nat) (a : AList) (data scales : List Byte) (i : Nat) : Option Int × Bool :=
  if nullElem fmt scales i then (none, false)
  else if fmt = 5 then (some (mantissa fmt data i), false)
  else
    match a.getD (blockOf fmt i) none with
    | none => (none, true)
    | some v =>
      let c := convert (mantissa fmt data i) (elemExp fmt ein scales i) v
      (some c.1, c.2)

/-- Whether an ARG candidate takes its slot (R206). -/
def argTakes (op : Nat) (v : Int) (ix : Nat) (hv : Int) (hix : Nat) : Bool :=
  decide (ix ≠ 0xFFFFFFFF) &&
    (decide (hix = 0xFFFFFFFF) || (if op = 6 then decide (v < hv) else decide (hv < v)) ||
      (decide (v = hv) && decide (ix < hix)))

/-- The new value of lane i for MIN, MAX, ARGMIN, ARGMAX and the bitwise operations (R205 to R207); none: unchanged. -/
def stepLane (op fmt ein : Nat) (valid : BitVec 8) (lanes : List W64) (data scales : List Byte) (i : Nat) : Option W64 :=
  let v := lanes.getD i 0
  if op = 1 ∨ op = 2 then
    if nullElem fmt scales i then none
    else
      let c := (mantissa fmt data i, elemExp fmt ein scales i)
      if !valid.getLsbD (blockOf fmt i) then some (pairLane fmt c.1 c.2)
      else
        let h := pairOf fmt ein v
        if (if op = 1 then pairLess c h else pairLess h c) then some (pairLane fmt c.1 c.2) else none
  else if op = 3 then some (v &&& BitVec.ofNat 64 (elemRaw fmt data i))
  else if op = 4 then some (v ||| BitVec.ofNat 64 (elemRaw fmt data i))
  else if op = 5 then some (v ^^^ BitVec.ofNat 64 (elemRaw fmt data i))
  else
    let k := i / 2
    let cv := signed 32 (elemRaw fmt data (2 * k))
    let ci := elemRaw fmt data (2 * k + 1)
    let hv := (lanes.getD (2 * k) 0).toInt
    let hi := (lanes.getD (2 * k + 1) 0).toNat % 2 ^ 32
    if argTakes op cv ci hv hi then some (if i % 2 = 0 then intLane cv else BitVec.ofNat 64 ci) else none

/-- One lane's add under the residue check (R212): the lane, its residue, whether it was recomputed, and whether both
adds failed. -/
def checkedAdd (v : W64) (r : Nat) (q : Int) (stored first second : W64) : W64 × Nat × Bool × Bool :=
  let v0 := v ^^^ stored
  let want := (r + (q % 255).toNat) % 255
  let x := (v0 + intLane q) ^^^ first
  if laneRes x = want then (x, laneRes x, false, false)
  else
    let y := (v0 + intLane q) ^^^ second
    if laneRes y = want then (y, laneRes y, true, false) else (v0, r, true, true)

/-- One lane's step under the duplicate check (R213). -/
def dupStep (v : W64) (r : Nat) (w : Option W64) (first second : W64) : W64 × Nat × Bool × Bool :=
  let x := w.getD v
  if first = 0 then (x, laneRes x, false, false)
  else if second = 0 then (x, laneRes x, true, false)
  else (v, r, true, true)

/-- The valid bits after a line: every block with a non-null contribution at a position that is not null (R199, R205;
log 17). -/
def validAfter (fmt : Nat) (a : AList) (valid : BitVec 8) (scales : List Byte) : BitVec 8 :=
  if isBlock fmt then
    (List.range 8).foldl (fun v b =>
      if (scales.getD b 0).toNat = 255 ∨ a.getD b none = none then v else v ||| (BitVec.ofNat 8 (2 ^ b))) valid
  else valid ||| 1

/-- A fault of lane i, or none. -/
def faultAt (faults : List AddFault) (i : Nat) : AddFault :=
  (faults.find? fun f => f.elem = i).getD { line := 0, elem := i }

/-- Adds or merges a contribution line into a line's lanes (R200, R205 to R208), under the checks of R212 and R213. -/
def addLine (op fmt ein : Nat) (a : AList) (x : LineRes) (data scales : List Byte) (faults : List AddFault) : LineRes :=
  let step (acc : LineRes) (i : Nat) : LineRes :=
    let f := faultAt faults i
    let v := x.lanes.getD i 0
    let r := x.res.getD i 0
    let (o, clamped) : (W64 × Nat × Bool × Bool) × Bool :=
      if isSum op then
        match sumQ fmt ein a data scales i with
        | (none, c) => ((v, r, false, false), c)
        | (some q, c) => (checkedAdd v r (q + f.conv) f.stored f.first f.second, c)
      else (dupStep (v ^^^ f.stored) r (stepLane op fmt ein x.valid x.lanes data scales i) f.first f.second, false)
    { acc with
      lanes := acc.lanes ++ [o.1]
      res := acc.res ++ [o.2.1]
      clamps := acc.clamps + (if clamped then 1 else 0)
      repeats := acc.repeats + (if o.2.2.1 then 1 else 0)
      mismatch := match acc.mismatch with
        | some k => some k
        | none => if o.2.2.2 then some i else none }
  (List.range (elemsPerLine fmt)).foldl step
    { lanes := [], res := [], valid := validAfter fmt a x.valid scales, clamps := x.clamps, repeats := x.repeats,
      mismatch := x.mismatch }

/-! ### The result line -/

/-- Tries the output exponents from e on (R203). -/
def selectExp (vals : List (Int × Int)) (w : Nat) : Nat → Nat → Option (Nat × List Int)
  | 0, _ => none
  | n + 1, e =>
    let ms := vals.map fun p => shiftRound p.1 (e - p.2)
    if ms.all (fun m => decide (-(2 ^ (w - 1) : Nat) ≤ m) && decide (m ≤ (2 ^ (w - 1) - 1 : Nat))) then some (e, ms)
    else selectExp vals w n (e + 1)

/-- select_block of R203: exponent, mantissas, saturations. -/
def selectBlock (vals : List (Int × Int)) (w : Nat) : Nat × List Int × Nat :=
  match selectExp vals w 255 0 with
  | some (e, ms) => (e, ms, 0)
  | none =>
    let raw := vals.map fun p => shiftRound p.1 (254 - p.2)
    let ms := raw.map fun m => clampInt m (-(2 ^ (w - 1) : Nat)) (2 ^ (w - 1) - 1 : Nat)
    (254, ms, (raw.zip ms).foldl (fun n p => if p.1 = p.2 then n else n + 1) 0)

/-- The result line of a line's lanes (R203 to R207): its bytes, sideband and saturations. -/
def resultLine (w0 w1 : W32) (a : List Int) (valid : BitVec 8) (lanes : List W64) : List Byte × List Byte × Nat :=
  let op := awOp w0
  let fmt := awFmt w0
  let ein := if fmt = 5 then 128 else awEin w1
  let eout := if fmt = 5 then 128 else awEout w1
  if isBlock fmt then
    let bl := blockLen fmt
    let block (b : Nat) : Nat × List Int × Nat :=
      if !valid.getLsbD b then (255, List.replicate bl 0, 0)
      else
        let ls := (lanes.drop (b * bl)).take bl
        selectBlock (ls.map fun v =>
          if op = 0 then (laneInt v, a.getD b 0) else ((pairOf fmt ein v).1, ((pairOf fmt ein v).2 : Int))) (elemBits fmt)
    let bs := (List.range 8).map block
    (packLine fmt ((bs.flatMap fun b => b.2.1).map fun m => wrap (elemBits fmt) m),
      bs.map fun b => BitVec.ofNat 8 b.1, bs.foldl (fun n b => n + b.2.2) 0)
  else
    let elem (v : W64) : Nat × Nat :=
      if op = 3 ∨ op = 4 ∨ op = 5 then (v.toNat % 2 ^ elemBits fmt, 0)
      else if op = 6 ∨ op = 7 then (v.toNat % 2 ^ 32, 0)
      else
        let (x, ax) : Int × Int :=
          if isSum op then (laneInt v, if fmt = 5 then 128 else a.getD 0 0) else ((pairOf fmt ein v).1, ein)
        if !isSum op && !valid.getLsbD 0 then (0, 0)
        else
          let raw := shiftRound x (eout - ax)
          let m := clampInt raw (mantLo fmt) (mantHi fmt)
          (wrap (elemBits fmt) m, if m = raw then 0 else 1)
    let es := lanes.map elem
    (packLine fmt (es.map (·.1)), [], es.foldl (fun n e => n + e.2) 0)

end Sys2Proof.Machine
end

