-- ==== Sys2Proof/Machine/Egress.lean ====
section
/-!
DEFINITION. The shelves and the way of a frame to an egress port (chapter 7): pools and their buffers (R165 to R171),
credits returned (R120, R169), descriptors, and the frames the device originates (R168).
-/

namespace Sys2Proof.Machine

/-! ### Pools -/

/-- The key of a buffer: die, pool and index. -/
def bufKey (die pool index : Nat) : Nat := die * 2 ^ 24 + pool * 2 ^ 21 + index

/-- The die, pool and index of a buffer. -/
def bufDie (k : Nat) : Nat := k / 2 ^ 24
def bufPool (k : Nat) : Nat := k / 2 ^ 21 % 8
def bufIndex (k : Nat) : Nat := k % 2 ^ 21

/-- Cells a buffer of pool i holds (Table 7-4). -/
def poolCells (i : Nat) : Nat := [1, 4, 16, 64, 256].getD i 0

/-- The smallest pool whose buffer holds a number of cells (R166). -/
def poolFor (cells : Nat) : Nat := ((List.range 5).find? fun i => cells ≤ poolCells i).getD 4

/-- Buffers a pool of a die has, and those in use. -/
def State.poolCount (s : State) (d i : Nat) : Nat := s.fld (Reg.CORE_POOL_CFG.count d i)
def State.poolUse (s : State) (d i : Nat) : Nat :=
  (s.bufs.filter fun e => bufDie e.1 = d && bufPool e.1 = i).length

/-- Reserve buffers of a die in use (R168). -/
def State.reserveUse (s : State) (d : Nat) : Nat :=
  (s.bufs.filter fun e => bufDie e.1 = d && bufPool e.1 = 3 && e.2.reserve).length

/-- The P3 buffers that only originated frames take (R168). -/
def originReserve : Nat := 4096

/-- A pool has a free buffer outside the origin reserve. -/
def State.poolFree (s : State) (d i : Nat) : Bool :=
  if i = 3 then decide (s.poolUse d 3 - s.reserveUse d < s.poolCount d 3 - originReserve)
  else decide (s.poolUse d i < s.poolCount d i)

/-- The lowest index of a pool not in use (log 14). -/
def State.freeIndex (s : State) (d i : Nat) : Nat :=
  ((List.range (s.poolUse d i + 1)).find? fun k => (s.bufs.get (bufKey d i k)).isNone).getD 0

/-- The pool a frame of so many cells takes a buffer from (R166, R168), and whether it is a reserve buffer.
Originated frames stop at P3 and may take the reserve. -/
def State.choosePool (s : State) (d cells : Nat) (originated : Bool) : Option (Nat × Bool) :=
  let top := if originated then 4 else 5
  match (List.range top).find? fun i => poolFor cells ≤ i && s.poolFree d i with
  | some i => some (i, false)
  | none =>
    if originated && decide (cells ≤ poolCells 3) && decide (s.reserveUse d < originReserve) then some (3, true) else none

/-- Occupancy of a pool in per mille (R169). -/
def State.poolOcc (s : State) (d i : Nat) : Nat := s.poolUse d i * 1000 / s.poolCount d i

/-- Cells in a die's landing area (R173), and its occupancy. -/
def State.landed (s : State) (d : Nat) : Nat :=
  (s.bufs.filter fun e => bufDie e.1 = d).foldl (fun n e => n + e.2.landed) 0
def State.landingOcc (s : State) (d : Nat) : Nat := s.landed d * 1000 / s.fld (Reg.CORE_LANDING_CFG.cells d)

/-- Counts cells written to the stack, in units of 256 cells (Table 7-7). -/
def State.countSpill (s : State) (d cells : Nat) : State :=
  if cells = 0 then s
  else
    let c := s.core d
    let total := c.spillRest + cells
    let s := s.setCore d { c with spillMs := c.spillMs + cells, spillRest := total % 256 }
    (s.count (Reg.CORE_CNT_SPILL_CELLS.value d) (total / 256)).pmuEvent 0x08 0x02 d none cells

/-- Moves a buffer's landed cells to its stack slot (R173). -/
def State.spillBuf (s : State) (k : Nat) : State :=
  match s.bufs.get k with
  | none => s
  | some b =>
    ({ s with bufs := s.bufs.put k { b with landed := 0, spilled := b.spilled + b.landed } }).countSpill (bufDie k) b.landed

/-- The landed buffer of a die that landed first. -/
def State.oldestLanded (s : State) (d : Nat) : Option Nat :=
  ((s.bufs.filter fun e => bufDie e.1 = d && decide (0 < e.2.landed)).foldl (fun o e =>
    match o with
    | none => some (e.1, e.2.landedAt)
    | some (k, t) => if e.2.landedAt < t then some (e.1, e.2.landedAt) else some (k, t)) none).map (·.1)

/-- Moves the oldest landed cells until the landing area is below landing_high - 50 (R173). -/
def spillDown (d : Nat) : Nat → State → State
  | 0, s => s
  | n + 1, s =>
    if s.landingOcc d < s.fld Reg.CORE_SPILL_CFG.landing_high - 50 then s
    else
      match s.oldestLanded d with
      | none => s
      | some k => spillDown d n (s.spillBuf k)

/-- Stores an allocated buffer and keeps the pool's promotions, high-water mark and landing (R166, R173). -/
def State.putBuf (s : State) (d pool : Nat) (b : Buf) : State × Nat :=
  let k := bufKey d pool (s.freeIndex d pool)
  let first := poolFor b.cells
  let s := if first < pool then
      (s.count (Reg.CORE_POOL_PROMOTE.value d first)).pmuEvent 0x08 0x04 d
    else s
  let room := s.fld (Reg.CORE_LANDING_CFG.cells d) - s.landed d
  let lands := if 3 ≤ pool then min b.cells room else 0
  let b := { b with landedAt := s.ft, landed := lands, spilled := if 3 ≤ pool then b.cells - lands else 0 }
  let s := ({ s with bufs := s.bufs.put k b }).countSpill d b.spilled
  let s := s.setCore d { s.core d with reclaimed := (s.core d).reclaimed.filter (· ≠ k) }
  let s := s.setFld (Reg.CORE_POOL_STAT.high_water d pool)
    (max (s.fld (Reg.CORE_POOL_STAT.high_water d pool)) (s.poolOcc d pool))
  let s := if 3 ≤ pool && decide (s.fld Reg.CORE_SPILL_CFG.landing_high ≤ s.landingOcc d) then
      spillDown d (s.bufs.length) s
    else s
  (s, k)

/-! ### Credits of the receiving side (R120, R169) -/

/-- Cells of a VC are freed on a port: L_v rises, unless the VC is withheld, when they wait. -/
def State.freeCells (s : State) (p : Port) (vc : BitVec 3) (cells : Nat) : State :=
  if vc = 0 then s
  else
    let l := s.link p
    let c := BitVec.ofNat 24 cells
    if (s.core (dieOf p)).withheld.contains vc then
      s.setLink p { l with withheldCells := l.withheldCells.write 0 vc.toNat (l.withheldCells.read 0 vc.toNat + c) }
    else s.setLink p { l with lim := l.lim.write 0 vc.toNat (l.lim.read 0 vc.toNat + c) }

/-- Frees a buffer and returns the credits it held (R163, R170); credits of an earlier training of the port ended with
it (R120; log 27). -/
def State.freeBuf (s : State) (k : Nat) : State :=
  match s.bufs.get k with
  | none => s
  | some b =>
    let s := { s with bufs := s.bufs.del k }
    match b.inPort with
    | none => s
    | some p => if b.landedAt < (s.link p).trainAt then s else s.freeCells p b.vc b.cells

/-! ### Descriptors -/

/-- The key of a flow (R158): ingress port (or 512 + die for frames the device originates), egress port and VC. -/
def flowKey (src : Nat) (p : Port) (vc : BitVec 3) : Nat := (src * 512 + p.toNat) * 8 + vc.toNat

/-- The flow source of a buffer. -/
def flowSrc (k : Nat) (b : Buf) : Nat :=
  match b.inPort with
  | some p => p.toNat
  | none => 512 + bufDie k

/-- Numbers the cells of a copy in its flow (R155, R158) and gives its descriptor. -/
def State.newDest (s : State) (src : Nat) (cells : Nat) (p : Port) (f : Frame) : State × Dest :=
  let fk := flowKey src p f.vc
  let fl := s.flows.read { } fk
  ({ s with flows := s.flows.write { } fk { fl with next := fl.next + BitVec.ofNat 24 cells } },
    { port := p, frame := f, rseq := fl.next })

/-- Numbers the cells of every copy. -/
def newDests (src cells : Nat) : List (Port × Frame) → State → State × List Dest
  | [], s => (s, [])
  | (p, f) :: cs, s =>
    let (s, d) := s.newDest src cells p f
    let (s, ds) := newDests src cells cs s
    (s, d :: ds)

/-- The last owner of a copy set: its highest-numbered port (R171). -/
def lastOwnerOf (cs : List (Port × Frame)) : Port :=
  cs.foldl (fun m c => if m.toNat ≤ c.1.toNat then c.1 else m) 0

/-- Takes a buffer for copies of a frame and places their descriptors; none when no buffer is free. -/
def State.place (s : State) (d : Nat) (inPort : Option Port) (vc : BitVec 3) (stamp : Stamp) (cells : Nat)
    (owner : Owner) (copies : List (Port × Frame)) : Option State :=
  match s.choosePool d cells inPort.isNone with
  | none => none
  | some (pool, reserve) =>
    let src := match inPort with
      | some p => p.toNat
      | none => 512 + d
    let (s, ds) := newDests src cells copies s
    some (s.putBuf d pool
      { inPort := inPort, vc := vc, stamp := stamp, cells := cells, dests := ds, owner := owner,
        lastOwner := lastOwnerOf copies, reserve := reserve }).1

/-- Originates copies of a frame from a die without asking after their ports (R168): they take a buffer of the die,
or wait for one. -/
def State.originateRaw (s : State) (d : Nat) (owner : Owner) (copies : List (Port × Frame)) : State :=
  match copies with
  | [] => s
  | (_, f) :: _ =>
    if s.originWait.any (fun w => w.die.toNat = d) then
      { s with originWait := s.originWait ++ [⟨BitVec.ofNat 2 d, owner, copies⟩] }
    else
      match s.place d none f.vc 0 f.cells owner copies with
      | some s => s
      | none => { s with originWait := s.originWait ++ [⟨BitVec.ofNat 2 d, owner, copies⟩] }

/-! ### Resequencing (R158) -/

/-- Releases the cells at the head of a flow that are there. -/
def Flow.absorb : Nat → Flow → Flow
  | 0, fl => fl
  | n + 1, fl =>
    if fl.ahead.contains fl.expect then
      Flow.absorb n { fl with expect := fl.expect + 1, ahead := fl.ahead.filter (· ≠ fl.expect) }
    else fl

/-- Cells of a flow have arrived. -/
def Flow.take (fl : Flow) (ns : List (BitVec 24)) : Flow :=
  let ahead := fl.ahead ++ ns.filter fun n => !fl.ahead.contains n && decide ((n - fl.expect).toNat < 2 ^ 23)
  Flow.absorb ahead.length { fl with ahead := ahead }

/-- Cells of a destination that are in order. -/
def Flow.inOrder (fl : Flow) (d : Dest) (cells : Nat) : Nat :=
  let n := (fl.expect - d.rseq).toNat
  if n < 2 ^ 23 then min n cells else 0

/-- A frame may start at an egress port: its first ct_lead cells, or all of it, are in order (R160). -/
def State.canStart (s : State) (fl : Flow) (d : Dest) (cells : Nat) : Bool :=
  decide (min (s.fld Reg.CORE_RESEQ_CFG.ct_lead) cells ≤ fl.inOrder d cells)

/-- Inserts by rank. -/
def insertRanked : Nat × Nat → List (Nat × Nat) → List (Nat × Nat)
  | x, [] => [x]
  | x, y :: ys => if x.2 < y.2 then x :: y :: ys else y :: insertRanked x ys

/-- The descriptors of a flow that become ready to start enter their queue in rseq order (R158, R181). -/
def State.wake (s : State) (src : Nat) (p : Port) (vc : BitVec 3) : State :=
  let fl := s.flows.read { } (flowKey src p vc)
  let found := s.bufs.foldl (fun xs e =>
    if flowSrc e.1 e.2 = src then
      match e.2.dests.find? fun d => d.port == p && d.frame.vc == vc && !d.ready && s.canStart fl d e.2.cells with
      | some d => insertRanked (e.1, (d.rseq - fl.expect + 8388608).toNat) xs
      | none => xs
    else xs) []
  found.foldl (fun s x =>
    match s.bufs.get x.1 with
    | none => s
    | some b =>
      let qk := p.toNat * 8 + vc.toNat
      { s with
        bufs := s.bufs.put x.1 { b with dests := b.dests.map fun d => if d.port == p then { d with ready := true } else d }
        queues := s.queues.write [] qk (s.queues.read [] qk ++ [x.1]) }) s

/-- Cells of a flow arrive, or are given up. -/
def State.takeCells (s : State) (src : Nat) (p : Port) (vc : BitVec 3) (ns : List (BitVec 24)) : State :=
  let fk := flowKey src p vc
  ({ s with flows := s.flows.write { } fk ((SMap.read ({ } : Flow) s.flows fk).take ns) }).wake src p vc

/-- Removes a destination from a buffer, from its port's queue, and frees the buffer after its last one (R163, R171). Its
flow waits for none of its cells any more. -/
def State.dropDest (s : State) (k : Nat) (p : Port) : State :=
  match s.bufs.get k with
  | none => s
  | some b =>
    let lost := match b.dests.find? fun d => d.port == p with
      | some d => ((List.range b.cells).filter fun i => !d.got.contains i).map fun i => d.rseq + BitVec.ofNat 24 i
      | none => []
    let vc := match b.dests.find? fun d => d.port == p with
      | some d => d.frame.vc
      | none => b.vc
    let ds := b.dests.filter fun d => !(d.port == p)
    let qk := p.toNat * 8 + vc.toNat
    let s := { s with queues := s.queues.write [] qk ((s.queues.read [] qk).filter (· ≠ k)) }
    let s := match ds with
      | [] => ({ s with bufs := s.bufs.put k { b with dests := [] } }).freeBuf k
      | _ => { s with bufs := s.bufs.put k { b with dests := ds } }
    if lost.isEmpty then s else s.takeCells (flowSrc k b) p vc lost

/-! ### VC0 -/

/-- Queues a VC0 frame on a port (R113: nothing is queued on a port that is DOWN). -/
def State.sendVc0 (s : State) (p : Port) (f : Frame) (fill : TxFill := .plain) : State :=
  let l := s.link p
  match l.state with
  | .down => s
  | _ => s.setLink p { l with vc0 := l.vc0 ++ [⟨f, fill⟩] }

/-- The fence state of a port (Table 5-16): 0 OPEN, 1 FENCED, 2 ISOLATED. -/
def State.fence (s : State) (p : Port) : Nat := s.fld (Reg.LNK_FENCE.state p.toNat)

/-- A port is UP. -/
def State.isUp (s : State) (p : Port) : Bool := (s.link p).state == .up

end Sys2Proof.Machine
end

