-- ==== Sys2Proof/Machine/Stack.lean ====
section
/-!
DEFINITION. Stack memory (chapter 11): addresses and partitions (R252, R255), bytes of memory, the channel's checks
and leaky buckets (R267 to R270), and the regions with their lines (R258 to R263).
-/

namespace Sys2Proof.Machine

/-! ### Addresses -/

/-- Bytes of one stack, and of all stacks (R251, R252). -/
def stackBytes : Nat := 0xC00000000
def dpaEnd : Nat := 0x9000000000

/-- Stack, page channel and home die of a DPA (R251, R252). -/
def dpaStack (dpa : Nat) : Nat := dpa / stackBytes
def dpaChannel (dpa : Nat) : Nat := 32 * dpaStack dpa + dpa % stackBytes / 2 ^ 12 % 32
def dpaDie (dpa : Nat) : Nat := dpaStack dpa / 3

/-- Fields of partition n (Table 11-17). -/
def State.partKind (s : State) (n : Nat) : Nat := (s.reg (Reg.STK_PART.addr (4 * n + 0))).toNat % 16
def State.partDie (s : State) (n : Nat) : Nat := (s.reg (Reg.STK_PART.addr (4 * n + 0))).toNat / 2 ^ 4 % 4
def State.partMask (s : State) (n : Nat) : Nat := (s.reg (Reg.STK_PART.addr (4 * n + 0))).toNat / 2 ^ 6 % 4096
def State.partBase (s : State) (n : Nat) : Nat := (s.reg (Reg.STK_PART.addr (4 * n + 1))).toNat % 1024 * 2 ^ 26
def State.partStride (s : State) (n : Nat) : Nat := (s.reg (Reg.STK_PART.addr (4 * n + 2))).toNat % 1024 * 2 ^ 26

/-- The set bits of a stack mask, in order. -/
def maskStacks (m : Nat) : List Nat := (List.range 12).filter fun k => m / 2 ^ k % 2 = 1

/-- The partition of a kind. -/
def State.partOf (s : State) (kind : Nat) : Option Nat := (List.range 16).find? fun n => s.partKind n = kind

/-- Bytes of a partition (R255). -/
def State.partSize (s : State) (n : Nat) : Nat := (maskStacks (s.partMask n)).length * s.partStride n

/-- part_to_dpa of R255. -/
def State.partDpa (s : State) (n o : Nat) : Nat :=
  let st := maskStacks (s.partMask n)
  let k := st.length
  let pg := o / 2 ^ 12
  st.getD (pg % k) 0 * stackBytes + s.partBase n + pg / k * 4096 + o % 4096

/-- Bytes of the fabric memory window (0: the folio gives none). -/
def State.windowSize (s : State) : Nat :=
  match s.partOf 2 with
  | some n => s.partSize n
  | none => 0

/-- The DPA of a window offset. -/
def State.windowDpa (s : State) (o : Nat) : Nat := s.partDpa ((s.partOf 2).getD 0) o

/-- The DPA of an offset of the ACCESSION partition. -/
def State.accDpa (s : State) (o : Nat) : Nat := s.partDpa ((s.partOf 3).getD 0) o

/-! ### Bytes of memory -/

/-- The byte at a DPA; a byte nothing has written reads 0 (R273; log 15). -/
def State.byteAt (s : State) (dpa : Nat) : Byte := s.stk.mem.read 0 dpa

/-- The n bytes from a DPA. -/
def State.bytesAt (s : State) (dpa n : Nat) : List Byte := (List.range n).map fun i => s.byteAt (dpa + i)

/-- Stores bytes from a key on. -/
def writeBytes : SMap Byte → Nat → List Byte → SMap Byte
  | m, _, [] => m
  | m, k, b :: bs => writeBytes (SMap.write 0 m k b) (k + 1) bs

/-- The 64-byte words a range wholly covers, by DPA / 64. -/
def wholeWords (dpa n : Nat) : List Nat :=
  (List.range (n / 64 + 1)).filterMap fun i =>
    let w := (dpa + 63) / 64 + i
    if w * 64 + 64 ≤ dpa + n then some w else none

/-- The 64-byte words a range touches, by DPA / 64. -/
def touchedWords (dpa n : Nat) : List Nat :=
  if n = 0 then [] else (List.range ((dpa + n - 1) / 64 - dpa / 64 + 1)).map (· + dpa / 64)

/-- Stores bytes in stack memory; a word wholly rewritten is readable again (R269). -/
def State.storeMem (s : State) (dpa : Nat) (bs : List Byte) : State :=
  let ws := wholeWords dpa bs.length
  let s := { s with stk.mem := writeBytes s.stk.mem dpa bs
                    stk.badWords := ws.foldl (fun m w => SMap.del m w) s.stk.badWords }
  s.pmuEvent 0x10 0x02 (dpaStack dpa) none (touchedWords dpa bs.length).length

/-- Reads bytes of stack memory, counting the words read. -/
def State.countRead (s : State) (dpa n : Nat) : State :=
  s.pmuEvent 0x10 0x01 (dpaStack dpa) none (touchedWords dpa n).length

/-! ### Errors of a channel (R267 to R270) -/

/-- Adds to a channel's leaky bucket; at depth it overflows and albedo is told by input 10, which is a command of its
own (R270). -/
def State.bucketAdd (s : State) (ch n : Nat) : State :=
  if !s.bit Reg.STK_CTL.lb_en then s
  else
    let lv := s.fld (Reg.STK_LB.level ch) + n
    let depth := s.fld Reg.STK_LB_CFG.depth
    if depth ≤ lv then
      let s := s.log 0x10 .leakyBucket ch
      let s := (s.setFld (Reg.STK_LB.level ch) (depth / 2)).count (Reg.STK_LB.overflows ch)
      s.raise Reg.STK_INT_STATUS.lb_overflow
    else s.setFld (Reg.STK_LB.level ch) lv

/-- Words corrected by the word code (R267). -/
def State.wordsCorrected (s : State) (dpa n : Nat) : State :=
  if n = 0 then s
  else ((s.count (Reg.STK_CNT_WORD_CORR.value (dpaStack dpa)) n).bucketAdd (dpaChannel dpa) n)

/-- A media event (R269, Table 11-16) of a requester class. -/
def State.mediaEvent (s : State) (dpa cls : Nat) : State :=
  let s := s.log 0x10 .uncorrectableWord (dpaChannel dpa) [dpa, cls]
  let s := s.count (Reg.STK_CNT_UNCORR.value (dpaStack dpa))
  let s := if s.bit Reg.STK_MEDIA_EVT.valid then s.setFld Reg.STK_MEDIA_EVT.overrun 1
    else
      let s := (s.setFld Reg.STK_MEDIA_EVT.class cls).setFld Reg.STK_MEDIA_EVT.valid 1
      s.setPair Reg.STK_MEDIA_DPA_LO.value dpa
  s.raise Reg.STK_INT_STATUS.ue_event

/-- The first word of a range that is unreadable. -/
def State.badIn (s : State) (dpa n : Nat) : Option Nat :=
  (touchedWords dpa n).find? fun w => (s.stk.badWords.get w).isSome

/-- The access that reads words of one page, given by DPA / 64 from its first word on, waits: the page is being decoded,
or a word it reads fails the word code (R267, R268). Answers the state with the access held. -/
def State.holdWords (s : State) (dpa : Nat) (ws : List Nat) (io : ChannelIo) (a : Access) : Option State :=
  let pg := dpa / 4096
  match s.stk.pages.get pg with
  | some (w, as) => some { s with stk.pages := s.stk.pages.put pg (w, as ++ [a]) }
  | none =>
    match ws.find? (fun w => (s.stk.badWords.get w).isSome || (match io.failed with
      | some k => w = dpa / 64 + k.toNat
      | none => false)) with
    | some w => some { s with stk.pages := s.stk.pages.put pg (w, [a]) }
    | none => none

/-- The access to a range of one page, all of which it reads, waits. -/
def State.holdPage (s : State) (dpa n : Nat) (io : ChannelIo) (a : Access) : Option State :=
  s.holdWords dpa (touchedWords dpa n) io a

/-- The words of a range that a write covers only in part, which it reads and merges (R265). -/
def partWords (dpa n : Nat) : List Nat := (touchedWords dpa n).filter fun w => !(wholeWords dpa n).contains w

/-! ### Regions (Table 11-5) -/

def State.regionField (s : State) (r w lo width : Nat) : Nat :=
  (s.reg (Reg.STK_REGION_W0.addr r + 4 * w)).toNat / 2 ^ lo % 2 ^ width

def State.regionValid (s : State) (r : Nat) : Bool := s.regionField r 0 0 1 = 1
def State.regionRequest (s : State) (r : Nat) : Bool := s.regionField r 0 1 1 = 1
def State.regionBusy (s : State) (r : Nat) : Bool := s.regionField r 0 2 1 = 1
def State.regionClear (s : State) (r : Nat) : Bool := s.regionField r 0 3 1 = 1
def State.regionGroup (s : State) (r : Nat) : BitVec 14 := BitVec.ofNat 14 (s.regionField r 0 4 14)
def State.regionPart (s : State) (r : Nat) : BitVec 12 := BitVec.ofNat 12 (s.regionField r 0 18 12)
def State.regionW0 (s : State) (r : Nat) : W32 := s.reg (Reg.STK_REGION_W1.addr r)
def State.regionW1 (s : State) (r : Nat) : W32 := s.reg (Reg.STK_REGION_W2.addr r)
def State.regionBase (s : State) (r : Nat) : Nat := s.regionField r 3 0 24 * 2 ^ 16
def State.regionLines (s : State) (r : Nat) : Nat := s.regionField r 4 0 30
def State.regionFmt (s : State) (r : Nat) : Nat := awFmt (s.regionW0 r)

/-- Rounds up to 4 KiB. -/
def up4k (n : Nat) : Nat := (n + 4095) / 4096 * 4096

/-- M and the footprint of a region (R260). -/
def regionM (lines fmt : Nat) : Nat := up4k (lines * laneBytes fmt)
def regionFootprint (lines fmt : Nat) : Nat := regionM lines fmt + up4k (lines * 64)

/-- The DPA of a region byte, by offset within its footprint. -/
def State.regionDpa (s : State) (r o : Nat) : Nat := s.accDpa (s.regionBase r + o)

/-- The DPA of the lanes and of the metadata of a region line. -/
def State.lineDpa (s : State) (r l : Nat) : Nat := s.regionDpa r (l * laneBytes (s.regionFmt r))
def State.metaDpa (s : State) (r l : Nat) : Nat := s.regionDpa r (regionM (s.regionLines r) (s.regionFmt r) + 64 * l)

/-- The lanes of a region line. -/
def State.lineLanes (s : State) (r l : Nat) : List W64 :=
  let bs := s.bytesAt (s.lineDpa r l) (laneBytes (s.regionFmt r))
  (List.range (elemsPerLine (s.regionFmt r))).map fun i => BitVec.ofNat 64 (numAt bs (8 * i) 8)

/-- The metadata of a region line (Table 11-6): exponents, adds and valid bits. -/
def State.lineMeta (s : State) (r l : Nat) : List Int × Nat × BitVec 8 :=
  let bs := s.bytesAt (s.metaDpa r l) 64
  ((List.range 8).map fun b => signed 16 (numAt bs (2 * b) 2), numAt bs 16 4 % 2 ^ 18, bs.getD 20 0)

/-- The 64 bytes of metadata. -/
def metaBytes (a : List Int) (adds : Nat) (valid : BitVec 8) : List Byte :=
  ((List.range 8).flatMap fun b => leBytes 2 (wrap 16 (a.getD b 0))) ++ leBytes 4 (adds % 2 ^ 18) ++ [valid] ++
    List.replicate 43 0

/-- Stores the lanes of a region line. -/
def State.putLanes (s : State) (r l : Nat) (lanes : List W64) : State :=
  s.storeMem (s.lineDpa r l) (lanes.flatMap fun v => leBytes 8 v.toNat)

/-- Stores the metadata of a region line. -/
def State.putMeta (s : State) (r l : Nat) (a : List Int) (adds : Nat) (valid : BitVec 8) : State :=
  s.storeMem (s.metaDpa r l) (metaBytes a adds valid)

/-! ### Accession commands (R261 to R263) -/

/-- What an accession command answers. -/
inductive AccAns where
  /-- Performed: the bytes returned, the clamps and the saturations. -/
  | done (data : List Byte) (clamps sats : Nat)
  /-- Refused for LANE_LIMIT (R262), or for another reason (region absent or not cleared, partition, format). -/
  | laneLimit
  | refused
  deriving DecidableEq, Repr

/-- The refusal of a line is counted, and lane_limit raised (R262). -/
def State.accRefuse (s : State) (r : Nat) : State :=
  (s.count (Reg.STK_CNT_ACC_REFUSED.value (dpaStack (s.lineDpa r 0)))).raise Reg.STK_INT_STATUS.lane_limit

/-- The two units of an engine disagree (R263): once, the step is repeated; twice, the engine enters BYPASS, where
the step is performed from its held operands. Answers whether the step is performed: with bypass_en clear it is not. -/
def State.engineStep (s : State) (dpa : Nat) (disagree : Nat) : State × Bool :=
  let ch := dpaChannel dpa
  if disagree = 0 || s.bit (Reg.STK_ENG.bypass ch) then (s, true)
  else
    let s := (s.count (Reg.STK_CNT_ACC_MISMATCH.value (dpaStack dpa)))
    if disagree = 1 then (s, true)
    else if s.bit Reg.STK_CTL.bypass_en then
      let s := s.log 0x10 .dataCorruption ch [dpa]
      let s := (s.setFld (Reg.STK_ENG.bypass ch) 1).count (Reg.STK_ENG.faults ch)
      (s.raise Reg.STK_INT_STATUS.engine_bypass, true)
    else (s.log 0x10 .dataCorruption ch [dpa], false)

/-- Counts accession lines performed, in units of 65,536 (Table 11-9). -/
def State.countLine (s : State) (dpa : Nat) : State :=
  let k := dpaStack dpa
  let n := s.stk.accRest.read 0 k + 1
  let s' : State := { s with stk.accRest := s.stk.accRest.write 0 k (n % 65536) }
  if n = 65536 then s'.count (Reg.STK_CNT_ACC_LINES.value k) else s'

/-- A command on a line has been performed. -/
def State.linePerformed (s : State) (dpa : Nat) : State := (s.countLine dpa).pmuEvent 0x10 0x03 (dpaStack dpa)

/-- Clears the lines [l, l + n) of a region (CLEAR). -/
def clearLines (r : Nat) : Nat → Nat → State → State
  | 0, _, s => s
  | n + 1, l, s =>
    let w0 := s.regionW0 r
    let s := s.putLanes r l (startLanes (awOp w0) (awFmt w0))
    clearLines r n (l + 1) ((s.putMeta r l (List.replicate 8 (awAfix w0)) 0 0).countLine (s.lineDpa r l))

/-- A region takes commands: installed, and its install clearing ended (R259). -/
def State.regionUsable (s : State) (r l : Nat) : Bool :=
  s.regionValid r && s.regionClear r && decide (l < s.regionLines r)

/-- ADD or MERGE of contribution lines to a region line in one step, each counted as an add (R262, R288). -/
def State.accAdd (s : State) (r l : Nat) (lines : List (List Byte × List Byte)) : State × AccAns :=
  let w0 := s.regionW0 r
  let w1 := s.regionW1 r
  let (a, adds, valid) := s.lineMeta r l
  if isSum (awOp w0) && decide (2 ^ 17 < adds + lines.length) then (s.accRefuse r, .laneLimit)
  else
    let lanes := s.lineLanes r l
    let x := lines.foldl (fun x e => addLine (awOp w0) (awFmt w0) (awEin w1) (a.map some) x e.1 e.2 [])
      { lanes := lanes, res := lanes.map laneRes, valid := valid }
    let s := (s.putLanes r l x.lanes).putMeta r l a (if isSum (awOp w0) then adds + lines.length else adds) x.valid
    (s.linePerformed (s.lineDpa r l), .done [] x.clamps 0)

/-- The new value of an ATOMIC (Table 12-3); none for a reserved sub-op. -/
def atomicNew (sub : BitVec 8) (old b c : W64) : Option W64 :=
  match sub.toNat with
  | 0 => some (old + b)
  | 1 => some b
  | 2 => some (if old = c then b else old)
  | 3 => some (if old.toInt < b.toInt then old else b)
  | 4 => some (if old.toInt < b.toInt then b else old)
  | 5 => some (if old.toNat < b.toNat then old else b)
  | 6 => some (if old.toNat < b.toNat then b else old)
  | _ => none

/-- The region and line of an accession command, and the range of memory it reads first. -/
def State.accRange (s : State) : AccCmd → Nat × Nat
  | .clear _ _ _ => (0, 0)
  | .setA r l _ => (s.metaDpa r l, 64)
  | .add r l _ _ _ _ => (s.lineDpa r l, laneBytes (s.regionFmt r))
  | .merge r l _ _ _ _ => (s.lineDpa r l, laneBytes (s.regionFmt r))
  | .readLanes r l => (s.lineDpa r l, laneBytes (s.regionFmt r))
  | .writeLanes _ _ _ => (0, 0)
  | .readFmt r l => (s.lineDpa r l, laneBytes (s.regionFmt r))
  | .atomic d _ _ _ => (d, 8)

/-- The DPA that names the engine of a command. -/
def State.accEngine (s : State) : AccCmd → Nat
  | .clear r l _ => s.lineDpa r l
  | .setA r l _ => s.lineDpa r l
  | .add r l _ _ _ _ => s.lineDpa r l
  | .merge r l _ _ _ _ => s.lineDpa r l
  | .readLanes r l => s.lineDpa r l
  | .writeLanes r l _ => s.lineDpa r l
  | .readFmt r l => s.lineDpa r l
  | .atomic d _ _ _ => d

/-- Performs an accession command (Table 11-7). -/
def State.accession (s : State) (c : AccCmd) : State × AccAns :=
  let pm (s : State) (dpa : Nat) : State := s.linePerformed dpa
  match c with
  | .clear r l n =>
    if s.regionUsable r l && decide (l + n ≤ s.regionLines r) then ((clearLines r n l s).pmuEvent 0x10 0x03 (dpaStack (s.lineDpa r l)), .done [] 0 0)
    else (s, .refused)
  | .setA r l a =>
    if s.regionUsable r l then
      let (_, adds, valid) := s.lineMeta r l
      (pm (s.putMeta r l a adds valid) (s.lineDpa r l), .done [] 0 0)
    else (s, .refused)
  | .add r l part fmt data scales =>
    if !s.regionUsable r l then (s, .refused)
    else if fmt ≠ s.regionFmt r || part ≠ s.regionPart r || !isSum (awOp (s.regionW0 r)) then (s.accRefuse r, .refused)
    else s.accAdd r l [(data, scales)]
  | .merge r l part fmt data scales =>
    if !s.regionUsable r l then (s, .refused)
    else if fmt ≠ s.regionFmt r || part ≠ s.regionPart r || isSum (awOp (s.regionW0 r)) then (s.accRefuse r, .refused)
    else s.accAdd r l [(data, scales)]
  | .readLanes r l =>
    if s.regionUsable r l then
      (pm (s.countRead (s.lineDpa r l) (laneBytes (s.regionFmt r))) (s.lineDpa r l),
        .done (s.bytesAt (s.lineDpa r l) (laneBytes (s.regionFmt r)) ++ s.bytesAt (s.metaDpa r l) 64) 0 0)
    else (s, .refused)
  | .writeLanes r l lanes =>
    if s.regionUsable r l then (pm (s.putLanes r l lanes) (s.lineDpa r l), .done [] 0 0) else (s, .refused)
  | .readFmt r l =>
    if s.regionUsable r l then
      let (a, _, valid) := s.lineMeta r l
      let (bs, sc, sats) := resultLine (s.regionW0 r) (s.regionW1 r) a valid (s.lineLanes r l)
      (pm s (s.lineDpa r l), .done (bs ++ sc) 0 sats)
    else (s, .refused)
  | .atomic d sub b c =>
    let old := BitVec.ofNat 64 (numAt (s.bytesAt d 8) 0 8)
    match atomicNew sub old b c with
    | none => (s, .refused)
    | some v => ((s.storeMem d (leBytes 8 v.toNat)).pmuEvent 0x10 0x03 (dpaStack d), .done (leBytes 8 old.toNat) 0 0)

end Sys2Proof.Machine
end

