-- ==== Sys2Proof/Machine/Health.lean ====
section
/-!
DEFINITION. Albedo's decisions (R320 to R328, R331): scores, states, requests, budgets and the breaker. The actions
they start are carried out by the commands of the units concerned.
-/

namespace Sys2Proof.Machine

/-! ### Elements -/

/-- The key of an element: class and index (Table 14-1). -/
def elemKey (cls idx : Nat) : Nat := 1024 * cls + idx

/-- How many elements a class has. -/
def elemCount (cls : Nat) : Nat := [576, 68, 256, 384, 32, 512].getD cls 0

def State.elemAt (s : State) (cls idx : Nat) : Elem := s.hlt.elems.read { } (elemKey cls idx)
def State.setElemAt (s : State) (cls idx : Nat) (e : Elem) : State :=
  { s with hlt.elems := s.hlt.elems.write { } (elemKey cls idx) e }

/-- The die of a tile: 16 global tiles a die, then the spares (R214, R320). -/
def tileDie (t : Nat) : Nat := if t < 64 then t / 16 else t - 64

/-- The die an element lies on. -/
def elemDie (cls idx : Nat) : Nat :=
  match cls with
  | 0 => idx / 18 / 8
  | 1 => tileDie idx
  | 2 => idx / 64
  | 3 => idx / 32 / 3
  | 4 => idx / 8
  | _ => idx / 128

/-- The spare group of an element (Table 14-1). -/
def elemGroup (cls idx : Nat) : Option Nat :=
  match cls with
  | 0 => some (idx / 18)
  | 1 => some (32 + tileDie idx)
  | 2 => some (36 + idx / 4)
  | 5 => some 100
  | _ => none

/-- The class and the elements of a group, in ascending index order. -/
def groupElems (g : Nat) : List (Nat × Nat) :=
  if g < 32 then (List.range 18).map fun n => (0, 18 * g + n)
  else if g < 36 then ((List.range 16).map fun t => (1, 16 * (g - 32) + t)) ++ [(1, 64 + (g - 32))]
  else if g < 100 then (List.range 4).map fun c => (2, 4 * (g - 36) + c)
  else (List.range 512).map fun p => (5, p)

/-- The class whose budget a group has (R324). -/
def groupClass (g : Nat) : Nat := if g < 32 then 0 else if g < 36 then 1 else if g < 100 then 2 else 5

/-! ### Spares (Table 14-1) -/

/-- A spare line of an engine is ready (R62). -/
def State.spareReady (s : State) (f n : Nat) : Bool :=
  let l := s.line f n
  l.duty.isNone && l.usable && l.locked && (s.plane n).standinFor.isNone &&
    (match l.fade with
     | .failed => false
     | _ => true)

/-- The spare R78 picks. -/
def State.spareLine (s : State) (f : Nat) : Option Nat :=
  if s.spareReady f 16 then some 16 else if s.spareReady f 17 then some 17 else none

/-- S_d is SPARE_IDLE: it serves no tile, moves for none, is not out of service, mirrors no quarantine and holds no
segment. -/
def State.spareTileIdle (s : State) (d : Nat) : Bool :=
  (s.cnj.spareOf.get d).isNone && !s.cnj.moving.any (fun t => tileDie t = d) &&
    !s.hlt.quarantined.any (fun t => tileDie t = d) &&
    !s.cnj.segs.any (fun e => decide (e.2.tile = 64 + d) && decide (e.2.slots ≠ 0)) &&
    (match (s.elemAt 1 (64 + d)).state with
     | .expelled => false
     | .expelling => false
     | .excluded => false
     | _ => true)

/-- A core is in service (R317). -/
def State.coreIn (s : State) (c : Nat) : Bool := s.bit (Reg.ORY_CORE.in_service c)

/-- Ports that are EXPELLED or on their way. -/
def State.portsOut (s : State) : Nat :=
  ((List.range 512).filter fun p =>
    match (s.elemAt 5 p).state with
    | .expelled => true
    | .expelling => true
    | _ => false).length

/-- A spare is available for an element (Table 14-1). -/
def State.spareAvailable (s : State) (cls idx : Nat) : Bool :=
  match cls with
  | 0 => (s.spareLine (idx / 18)).isSome
  | 1 => decide (idx < 64) && s.spareTileIdle (tileDie idx)
  | 2 => (List.range 4).any fun k => 4 * (idx / 4) + k ≠ idx && s.coreIn (4 * (idx / 4) + k)
  | 5 => decide (s.portsOut < s.fld Reg.HLT_CTL.fence_cap)
  | _ => false

/-! ### Scores and states -/

/-- The effective score (R321). -/
def State.effective (s : State) (e : Elem) : Nat :=
  if e.capped then min e.score (s.fld Reg.HLT_THRESH.suspect - 1) else e.score

/-- Ticks of FT in the units of the registers. -/
def second : Nat := 16000000000

/-- The die's hottest junction, in 0.01 C (R331). -/
def State.dieTemp (s : State) (d : Nat) : Int := signed 16 (s.fld (Reg.HLT_TJ_MAX.temp d))

/-- The temperature bin of R331. -/
def tempBin (t : Int) : Nat := (clampInt ((t - 3000) / 500) 0 15).toNat

/-- Hold reasons (Table 14-11). -/
def holdDisabled : Nat := 1
def holdNoGroup : Nat := 2
def holdNoSpare : Nat := 3
def holdFrozen : Nat := 4
def holdBudget : Nat := 5

/-- hold of R323: the element is DEGRADED with a reason (log 20: a hold that changes nothing is not counted again). A
stack channel that becomes DEGRADED adds a Memory Module record to the Warning log (R363). -/
def State.holdElem (s : State) (cls idx reason : Nat) : State :=
  let e := s.elemAt cls idx
  if e.state = .degraded ∧ e.holdReason = reason then s
  else
    let s := s.log 0x16 .elementDegraded (elemKey cls idx) [reason]
    let s := s.setElemAt cls idx { e with state := .degraded, holdReason := reason, started := false }
    let s := if cls = 3 ∧ e.state ≠ .degraded then s.addEvent 1 (.health idx) else s
    (s.count Reg.HLT_CNT_DEGRADED.value).raise Reg.HLT_INT_STATUS.degraded

/-- Grants in the breaker's window (R328). -/
def State.windowGrants (s : State) : List Grant :=
  let w := s.fld Reg.HLT_BREAKER_CFG.window * 10 * second
  s.hlt.grants.filter fun g => decide (s.ft < g.at_ + w)

/-- The record of a grant or a freezing request. -/
def State.grantOf (s : State) (cls idx : Nat) : Grant :=
  let d := elemDie cls idx
  { cls := cls, idx := idx, die := d, temp := s.dieTemp d, bin := tempBin (s.dieTemp d),
    epoch := s.reg Reg.CFG_EPOCH.addr, at_ := s.ft }

/-- The breaker freezes on a request (R328, Table 14-9). -/
def State.freezeBreaker (s : State) (cls idx : Nat) : State :=
  let me := s.grantOf cls idx
  let all := s.windowGrants ++ [me]
  let sameDie := all.all fun g => g.die = me.die
  let sameBin := all.all fun g => g.bin = me.bin
  let w := s.fld Reg.HLT_BREAKER_CFG.window * 10 * second
  let first := (all.head?.map Grant.at_).getD s.ft
  let recent := match s.hlt.activatedAt with
    | some t => decide (t ≤ first) && decide (first < t + w)
    | none => false
  let s := s.log 0x16 .breakerFrozen (elemKey cls idx) (all.flatMap fun g => [g.cls, g.idx, g.die, g.bin])
  let n (b : Bool) : Nat := if b then 1 else 0
  let s := (s.setFld Reg.HLT_BREAKER.frozen 1).setFld Reg.HLT_BREAKER.common_die (n sameDie)
  let s := (s.setFld Reg.HLT_BREAKER.common_bin (n sameBin)).setFld Reg.HLT_BREAKER.epoch_recent (n recent)
  let s := s.setFld Reg.HLT_BREAKER.die (if sameDie then me.die else 0)
  let s := s.setFld Reg.HLT_BREAKER.bin (if sameBin then me.bin else 0)
  s.raise Reg.HLT_INT_STATUS.breaker_frozen

/-! ### Actions (R326) -/

/-- An action runs in a group. -/
def State.groupBusy (s : State) (g : Nat) : Bool :=
  (groupElems g).any fun e => (s.elemAt e.1 e.2).state == .expelling && (s.elemAt e.1 e.2).started

/-- Begins the action of an EXPELLING element: a lane's cut-over is triggered, a tile's move begins; a core and a port
act when the action completes. -/
def State.beginAction (s : State) (cls idx : Nat) : State :=
  let s := s.setElemAt cls idx { s.elemAt cls idx with started := true }
  match cls with
  | 0 =>
    match (s.line (idx / 18) (idx % 18)).duty with
    | some k =>
      let en := s.engine (idx / 18)
      s.setEngine (idx / 18) { en with waiting := en.waiting ++ [⟨k, none, .albedo⟩] }
    | none => s
  | 1 => { s with cnj.moving := s.cnj.moving ++ [idx] }
  | _ => s

/-- Starts the next waiting action of a group, in ascending index order. -/
def State.nextAction (s : State) (g : Nat) : State :=
  if s.groupBusy g then s
  else
    match (groupElems g).find? fun e => (s.elemAt e.1 e.2).state == .expelling with
    | some e => s.beginAction e.1 e.2
    | none => s

/-- Tokens of a group. -/
def State.groupTokens (s : State) (g : Nat) : Nat := s.fld (Reg.HLT_BUDGET_TOK.tokens g)

/-- Grants an expulsion (R323): a token, the breaker's record, and the action or its wait. -/
def State.grantExpulsion (s : State) (cls idx g : Nat) : State :=
  let s := s.setFld (Reg.HLT_BUDGET_TOK.tokens g) (s.groupTokens g - 1)
  let s := { s with hlt.grants := s.windowGrants ++ [s.grantOf cls idx] }
  let s := s.setElemAt cls idx { s.elemAt cls idx with state := .expelling, started := false, holdReason := 0 }
  s.nextAction g

/-- request of R323. -/
def State.requestExpulsion (s : State) (cls idx : Nat) : State :=
  match (s.elemAt cls idx).state with
  | .expelling => s
  | .expelled => s
  | .excluded => s
  | _ =>
    if !s.bit Reg.HLT_CTL.expel_en then s.holdElem cls idx holdDisabled
    else
      match elemGroup cls idx with
      | none => s.holdElem cls idx holdNoGroup
      | some g =>
        if !s.spareAvailable cls idx then s.holdElem cls idx holdNoSpare
        else if s.bit Reg.HLT_BREAKER.frozen then s.holdElem cls idx holdFrozen
        else if s.groupTokens g = 0 then s.holdElem cls idx holdBudget
        else if s.fld Reg.HLT_BREAKER_CFG.limit ≤ s.windowGrants.length then
          (s.freezeBreaker cls idx).holdElem cls idx holdFrozen
        else s.grantExpulsion cls idx g

/-- Moves an element on its effective score (R322, Table 14-3). -/
def State.moveElem (s : State) (cls idx : Nat) : State :=
  let e := s.elemAt cls idx
  let v := s.effective e
  let toSuspect (s : State) : State :=
    let s := s.log 0x16 .elementSuspect (elemKey cls idx) [v]
    (s.setElemAt cls idx { s.elemAt cls idx with state := .suspect, holdReason := 0 }).raise Reg.HLT_INT_STATUS.suspect
  match e.state with
  | .ok =>
    if v < s.fld Reg.HLT_THRESH.suspect then
      let s := toSuspect s
      if v < s.fld Reg.HLT_THRESH.expel then s.requestExpulsion cls idx else s
    else s
  | .suspect =>
    if s.fld Reg.HLT_THRESH.suspect_leave ≤ v then s.setElemAt cls idx { e with state := .ok }
    else if v < s.fld Reg.HLT_THRESH.expel then s.requestExpulsion cls idx
    else s
  | .degraded =>
    if s.fld Reg.HLT_THRESH.suspect_leave ≤ v then s.setElemAt cls idx { e with state := .ok, holdReason := 0 }
    else if s.fld Reg.HLT_THRESH.expel ≤ v then toSuspect s
    else s
  | _ => s

/-- Sets a score and moves the element. -/
def State.setScore (s : State) (cls idx score : Nat) : State :=
  (s.setElemAt cls idx { s.elemAt cls idx with score := score }).moveElem cls idx

/-- The cap condition of a lane holds (input 3 of Table 14-2): margin_low, or NO_SPARE with its fade at or beyond
cutover_db. -/
def State.capHolds (s : State) (idx : Nat) : Bool :=
  let l := s.line (idx / 18) (idx % 18)
  let cut : Int := s.fld (Reg.OPT_FADE_CFG.cutover_db (idx / 18))
  l.marginLow || (l.fade == .noSpare && (decide (l.avgTx ≤ -cut) || decide (l.avgRx ≤ -cut)))

/-- A cap condition of R321 begins or ends to hold. -/
def State.setCap (s : State) (cls idx : Nat) (c : Bool) : State :=
  if (s.elemAt cls idx).capped = c then s
  else (s.setElemAt cls idx { s.elemAt cls idx with capped := c }).moveElem cls idx

/-- Repeats the decision for the degraded elements of a group (R325). -/
def State.retryGroup (s : State) (g : Nat) : State :=
  (groupElems g).foldl (fun s e =>
    let x := s.elemAt e.1 e.2
    if x.state = .degraded ∧ s.effective x < s.fld Reg.HLT_THRESH.expel then s.requestExpulsion e.1 e.2 else s) s

/-- The classes an input belongs to (Table 14-2). -/
def inputClass (i cls : Nat) : Bool :=
  if i ≤ 3 then cls == 0
  else if i ≤ 6 then cls == 1
  else if i ≤ 8 then cls == 1 || cls == 2 || cls == 4
  else if i = 9 then cls == 2
  else if i ≤ 12 then cls == 3
  else if i = 13 then cls == 4
  else if i ≤ 18 then cls == 5
  else false

/-- The evidence counter of a tile's event (R331): its temperature bin and load code. The model holds no cell rates, so
the load code is a free value (log 18). -/
def State.evidence (s : State) (t : Nat) : State :=
  let b := tempBin (s.dieTemp (tileDie t))
  let k := 16 * (Config.freeLoadCode s.fresh).toNat + b
  let f : Fld := ⟨(Reg.HLT_BIN.lo (128 * t + k / 2)).off, 16 * (k % 2), 16⟩
  (s.count f).draw

/-- An input of Table 14-2 takes effect (R321). With albedo_en 0 no score changes; input 6 still makes its request
(R323). -/
def State.albedo (s : State) (cls idx i : Nat) : State :=
  if !inputClass i cls || decide (elemCount cls ≤ idx) then s
  else
    let s := if cls = 1 && (i == 4 || i == 5 || i == 6 || i == 8) then s.evidence idx else s
    let s := s.setElemAt cls idx { s.elemAt cls idx with lastInput := i }
    if i = 6 then
      let s := if s.bit Reg.HLT_CTL.albedo_en then s.setElemAt cls idx { s.elemAt cls idx with score := 0 } else s
      let s := if (s.elemAt cls idx).state = .ok then s.moveElem cls idx else s
      match (s.elemAt cls idx).state with
      | .degraded => s.requestExpulsion cls idx
      | .suspect => s.requestExpulsion cls idx
      | .ok => s.requestExpulsion cls idx
      | _ => s
    else if i = 3 then s.setCap cls idx (s.capHolds idx)
    else if s.bit Reg.HLT_CTL.albedo_en then
      s.setScore cls idx ((s.elemAt cls idx).score - s.fld (Reg.HLT_WEIGHT.weight i))
    else s

/-- An expulsion that HLT_ELEM_CMD commanded ends with a status (Table 14-12). -/
def State.elemEnds (s : State) (cls idx : Nat) (e : Elem) (status : Nat) : State :=
  if e.manual ∧ s.fld Reg.HLT_ELEM_CMD.status = 2 ∧ s.fld Reg.HLT_ELEM_SEL.class = cls ∧ s.fld Reg.HLT_ELEM_SEL.index = idx then
    s.setFld Reg.HLT_ELEM_CMD.status status
  else s

/-- An action aborts (R324): DEGRADED, the token returned, and the grant no longer counted. -/
def State.actionAborted (s : State) (cls idx : Nat) : State :=
  let e := s.elemAt cls idx
  if e.state ≠ .expelling then s
  else
    let s := (s.log 0x16 .expulsionAborted (elemKey cls idx)).elemEnds cls idx e 5
    let s := s.setElemAt cls idx { e with state := .degraded, started := false, holdReason := 0, manual := false }
    let s := { s with hlt.grants := s.hlt.grants.filter fun g => !(g.cls == cls && g.idx == idx) }
    match elemGroup cls idx with
    | none => s
    | some g =>
      let s := if e.manual then s
        else s.setFld (Reg.HLT_BUDGET_TOK.tokens g)
          (min (s.groupTokens g + 1) (s.fld (Reg.HLT_BUDGET_CFG.burst (groupClass g))))
      let s := s.raise Reg.HLT_INT_STATUS.expel_abort
      s.nextAction g

/-- An action completes (R322): EXPELLED, and the next waiting action of the group starts (R326). -/
def State.actionDone (s : State) (cls idx : Nat) : State :=
  let e := s.elemAt cls idx
  let s := (s.log 0x16 .elementExpelled (elemKey cls idx)).elemEnds cls idx e 1
  let s := s.setElemAt cls idx { e with state := .expelled, started := false, manual := false }
  let s := (s.count Reg.HLT_CNT_EXPEL.value).raise Reg.HLT_INT_STATUS.expelled
  match elemGroup cls idx with
  | none => s
  | some g => s.nextAction g

end Sys2Proof.Machine
end

