-- ==== Sys2Proof/Machine/CollCore.lean ====
section
/-!
DEFINITION. What every collective shares (chapter 10): slots and keys, descriptors (Table 10-4), the frames the device
sends to leaves, the record of Table 10-7, and the abort of a collective (R245).
-/

namespace Sys2Proof.Machine

/-! ### Keys -/

def State.group (s : State) (g : Nat) : Group := s.cnj.groups.read { } g
def State.setGroup (s : State) (g : Nat) (x : Group) : State := { s with cnj.groups := s.cnj.groups.write { } g x }

/-- The key of a collective and of a segment. -/
def collKey (g : Nat) (c : BitVec 16) : Nat := 65536 * g + c.toNat
def segKey (g : Nat) (c : BitVec 16) (n : Nat) : Nat := 2 ^ 24 * collKey g c + n

def State.coll (s : State) (g : Nat) (c : BitVec 16) : Option Coll := s.cnj.colls.get (collKey g c)
def State.setColl (s : State) (g : Nat) (c : BitVec 16) (x : Coll) : State :=
  { s with cnj.colls := s.cnj.colls.put (collKey g c) x }
def State.seg (s : State) (g : Nat) (c : BitVec 16) (n : Nat) : Option Segment := s.cnj.segs.get (segKey g c n)
def State.setSeg (s : State) (g : Nat) (c : BitVec 16) (n : Nat) (x : Segment) : State :=
  { s with cnj.segs := s.cnj.segs.put (segKey g c n) x }
def State.delSeg (s : State) (g : Nat) (c : BitVec 16) (n : Nat) : State :=
  { s with cnj.segs := s.cnj.segs.del (segKey g c n) }

/-- The segments of a collective in progress, with their numbers. -/
def State.collSegs (s : State) (g : Nat) (c : BitVec 16) : List (Nat × Segment) :=
  (s.cnj.segs.filter fun e => e.1 / 2 ^ 24 = collKey g c).map fun e => (e.1 % 2 ^ 24, e.2)

/-- The ports of a mask, ascending. -/
def maskPorts (m : BitVec 512) : List Port := allPorts.filter fun p => m.getLsbD p.toNat

/-- The mask of one port. -/
def portBit (p : Port) : BitVec 512 := (1 : BitVec 512) <<< p.toNat

/-- The mask of a list of ports. -/
def portsMask (ps : List Port) : BitVec 512 := ps.foldl (fun m p => m ||| portBit p) 0

/-! ### Descriptors (Table 10-4) -/

def descW0 (d : List Byte) : W32 := BitVec.ofNat 32 (numAt d 0 4)
def descW1 (d : List Byte) : W32 := BitVec.ofNat 32 (numAt d 4 4)
def descLines (d : List Byte) : Nat := numAt d 8 4 % 2 ^ 30
def descSegLines (d : List Byte) : Nat := numAt d 12 1 % 2 ^ 7
def descKind (d : List Byte) : Nat := numAt d 13 1 % 8
def descPath (d : List Byte) : Nat := numAt d 13 1 / 8 % 2
def descCseq (d : List Byte) : BitVec 16 := BitVec.ofNat 16 (numAt d 14 2)
def descRoot (d : List Byte) : Nat := numAt d 16 2 % 512
def descRegion (d : List Byte) : Nat := numAt d 18 2

def kindReduce : Nat := 1
def kindGather : Nat := 2
def kindA2a : Nat := 3

/-- ceil(a / b). -/
def ceilDiv (a b : Nat) : Nat := (a + b - 1) / b

/-- Segments of a collective; for ALL_TO_ALL the chunks of a pair (R226). -/
def descSegs (d : List Byte) : Nat := ceilDiv (descLines d) (descSegLines d)

/-- Lines of segment n (R231). -/
def segLinesOf (d : List Byte) (n : Nat) : Nat := min (descSegLines d) (descLines d - n * descSegLines d)

/-- A descriptor keeps the rules of Table 10-4 and R196 (R226), for the cseq of the BEGIN that carries it. -/
def descOk (d : List Byte) (cseq : BitVec 16) : Bool :=
  let k := descKind d
  let n := descSegs d
  decide (d.length = 32) && decide (numAt d 8 4 / 2 ^ 30 = 0) && decide (1 ≤ descLines d) &&
    decide (numAt d 12 1 / 2 ^ 7 = 0) && decide (1 ≤ descSegLines d) && decide (descSegLines d ≤ 64) &&
    decide (k ≤ 3) && decide (numAt d 13 1 / 16 = 0) && descCseq d == cseq &&
    decide (numAt d 16 2 / 512 = 0) && (decide (k = kindReduce) || decide (descRoot d = 0)) &&
    (decide (descPath d = 1) || decide (descRegion d = 0)) && allZero (sliceBytes d 20 12) &&
    decide (n ≤ 2 ^ 24) && !(decide (k = kindA2a) && decide (2 ^ 15 < n)) &&
    wordsOk (descW0 d) (descW1 d) &&
    (decide (k < 2) || (decide (awOp (descW0 d) = 0) && decide (descW1 d = 0)))

/-! ### Frames to leaves -/

/-- A frame of a collective: COLL_CTL or RESULT, on VC5 (R225, Table 5-4). -/
def State.collFrame (s : State) (ft : BitVec 4) (op : BitVec 8) (part : BitVec 12) (g : Nat) (gen : BitVec 8)
    (cseq : BitVec 16) (seg first : Nat) (sig : W32) (members : Nat) (payload : List Byte) : Frame :=
  let h := s.withOpenHeader { }
  { ftype := ft, vc := 5, snode := s.ownSnode, flags := flagSwSrc, partition := part, opcode := op, seq := h.seq,
    epoch := h.epoch, w4 := BitVec.ofNat 32 (g + gen.toNat * 2 ^ 14), w5 := BitVec.ofNat 32 (seg + first * 2 ^ 24),
    w6 := BitVec.ofNat 32 cseq.toNat, w7 := sig, w8 := BitVec.ofNat 32 members, payload := payload }

def opResend : BitVec 8 := 0x01
def opAbort : BitVec 8 := 0x03
def opComplete : BitVec 8 := 0x04

/-- Sends one COLL_CTL frame to each of some ports, from the die of the port (log 21). -/
def State.toPorts (s : State) (f : Frame) (ps : List Port) : State :=
  ps.foldl (fun s p => s.originateRaw (dieOf p) .plain [(p, f)]) s

/-! ### The record of Table 10-7 -/

/-- Abort codes (Table 10-8). -/
def abTimeout : Nat := 1
def abSignature : Nat := 2
def abFenced : Nat := 3
def abLink : Nat := 4
def abResource : Nat := 5
def abReset : Nat := 6
def abArith : Nat := 7
def abStale : Nat := 8
def abPartition : Nat := 9

/-- The highest n such that segments 0 to n are DONE; 0xFF_FFFF where none is. -/
def completedThrough (done : SMap Bool) : Nat :=
  match (List.range (done.length + 1)).find? fun n => (done.get n).isNone with
  | some 0 => 0xFFFFFF
  | some n => n - 1
  | none => 0xFFFFFF

/-- Members over the contributing ports. -/
def membersTotal (c : Coll) : Nat :=
  c.begins.foldl (fun n b => if c.excluded.getLsbD b.1.toNat then n else n + b.2.2) 0

/-- The 112 bytes of Table 10-7. -/
def State.collRecord (s : State) (g : Nat) (cseq : BitVec 16) (c : Coll) (code cause seg : Nat) (ports : BitVec 512) :
    List Byte :=
  leBytes 1 code ++ leBytes 1 cause ++ leBytes 2 cseq.toNat ++ leBytes 2 g ++ leBytes 1 c.gen.toNat ++
    leBytes 1 (descKind c.desc) ++ leBytes 4 (completedThrough c.done) ++ leBytes 4 seg ++ leBytes 8 s.ft ++
    leBytes 4 (min c.clamps (2 ^ 32 - 1)) ++ leBytes 4 (min c.sats (2 ^ 32 - 1)) ++
    leBytes 4 (membersTotal c % 2 ^ 18) ++ leBytes 4 (min c.overflow (2 ^ 32 - 1)) ++ leBytes 8 0 ++
    leBytes 64 ports.toNat

/-- Keeps an error record in CNJ_LAST_ERR (R245). -/
def State.keepRecord (s : State) (r : List Byte) : State :=
  (List.range 28).foldl (fun s w => s.setReg (Reg.CNJ_LAST_ERR.addr w) (BitVec.ofNat 32 (numAt r (4 * w) 4))) s

/-! ### Held frames -/

/-- Cells of a group's frames held in the shelves (R236). -/
def heldCells (x : Group) : Nat := x.held.foldl (fun n h => n + h.frame.cells) 0

/-- Frees the held frames of a group that a test picks. -/
def State.freeHeld (s : State) (g : Nat) (pick : HeldFrame → Bool) : State :=
  let x := s.group g
  let s := (x.held.filter pick).foldl (fun s h => s.freeBuf h.buf) s
  s.setGroup g { x with held := x.held.filter fun h => !pick h }

/-! ### Abort (R245) -/

/-- A path-1 collective releases its region (R264). -/
def State.releaseRegion (s : State) (c : Coll) : State :=
  if descPath c.desc = 1 ∧ s.regionBusy (descRegion c.desc) then
    (s.setFld (Reg.STK_REGION_W0.busy (descRegion c.desc)) 0).setFld (Reg.STK_REGION_W5.holder_cseq (descRegion c.desc)) 0
  else s

/-- A segment is abandoned: its handle advances, so its tokens are stale (R308). -/
def State.bumpHandle (s : State) (g : Nat) (cseq : BitVec 16) (n : Nat) : State :=
  let k := segKey g cseq n
  { s with cnj.handles := s.cnj.handles.write 0 k (s.cnj.handles.read 0 k + 1) }

/-- Aborts an open collective with a code and a cause, naming ports and a segment (R245). Frames of it that wait in
the shelves are discarded as late. -/
def State.abortColl (s : State) (g : Nat) (cseq : BitVec 16) (code cause : Nat) (ports : BitVec 512)
    (seg : Nat := 0xFFFFFF) : State :=
  match s.coll g cseq with
  | none => s
  | some c =>
    let x := s.group g
    let segs := s.collSegs g cseq
    let r := s.collRecord g cseq c code cause seg ports
    let s := s.log 0x0C .collectiveAbort g [cseq.toNat, code, cause, seg, completedThrough c.done]
    let s := (s.keepRecord r).count Reg.CNJ_CNT_ABORT.value
    let s := segs.foldl (fun s e => (s.bumpHandle g cseq e.1).delSeg g cseq e.1) s
    let s := s.releaseRegion c
    let s := { s with cnj.colls := s.cnj.colls.del (collKey g cseq) }
    let s := s.setGroup g { s.group g with opened := x.opened.filter (· ≠ cseq) }
    let late := (s.group g).held.filter fun h => h.frame.cseq == cseq
    let s := (s.freeHeld g fun h => h.frame.cseq == cseq).count Reg.CNJ_CNT_LATE_DROP.value late.length
    let s := s.raise Reg.CNJ_INT_STATUS.coll_abort
    let f := s.collFrame ftCollCtl opAbort x.partition g c.gen cseq 0 0 c.sig 0 r
    s.toPorts f ((maskPorts x.mask).filter fun p =>
      s.isUp p && s.fence p == 0 && !c.excluded.getLsbD p.toNat)

/-- A RESEND leaves a port: its resend_timeout runs from here (R234). -/
def State.resendLeft (s : State) (p : Port) (f : Frame) : State :=
  if f.ftype = ftCollCtl ∧ f.opcode = opResend then
    match s.coll f.group.toNat f.cseq with
    | none => s
    | some c =>
      s.setColl f.group.toNat f.cseq { c with resends := c.resends.map fun r =>
        if r.port = p ∧ r.segment = f.segment ∧ r.firstLine = f.firstLine.toNat ∧ r.left = none then
          { r with left := some s.ft } else r }
  else s

/-! ### Ports that a collective awaits (R244) -/

/-- The arrival bitmap of a segment whose every line is in. -/
def fullMap (lines : Nat) : BitVec 64 := BitVec.ofNat 64 (2 ^ lines - 1)

/-- All lines of a segment have arrived from a port. -/
def Segment.hasAll (g : Segment) (p : Port) : Bool := SMap.read 0 g.arrived p.toNat == fullMap g.lines

/-- Some segment of an open collective awaits lines from a port. A segment of an ALL_GATHER that no port has begun awaits
no particular port (log 22). -/
def State.awaitsPort (s : State) (g : Nat) (cseq : BitVec 16) (c : Coll) (p : Port) : Bool :=
  let segs := s.collSegs g cseq
  if descKind c.desc = kindA2a then
    (maskPorts ((s.group g).mask &&& ~~~c.excluded)).any fun d => (c.pairDone.get (512 * p.toNat + d.toNat)).isNone
  else if descKind c.desc = kindGather then
    segs.any fun e => e.2.owner == some p && !e.2.hasAll p && e.2.state == .collect
  else
    decide (c.done.length + segs.length < descSegs c.desc) ||
      segs.any fun e =>
        match e.2.state with
        | .exponent => true
        | .collect => !e.2.hasAll p
        | _ => false

/-- A mask port became FENCED, ISOLATED or DOWN (R244): each open collective that awaits its lines aborts. -/
def State.collPortLost (s : State) (p : Port) (fenced : Bool) : State :=
  s.cnj.colls.foldl (fun t e =>
    let g := e.1 / 65536
    let cseq := BitVec.ofNat 16 e.1
    let c := e.2
    if (t.group g).mask.getLsbD p.toNat && !c.excluded.getLsbD p.toNat && t.awaitsPort g cseq c p then
      if fenced then t.abortColl g cseq abFenced 2 (portBit p) else t.abortColl g cseq abLink 1 (portBit p)
    else t) s

/-- Opens next_cseq as already aborted (R228): it takes no place, and next_cseq advances. -/
def State.openAborted (s : State) (g : Nat) (code cause : Nat) (ports : BitVec 512) (desc : List Byte) (sig : W32)
    (begins : List (Port × W32 × Nat) := []) : State :=
  let x := s.group g
  let c := x.nextCseq
  let s := s.setColl g c { gen := x.gen, desc := desc, sig := sig, begins := begins, timerFrom := s.ft }
  let s := s.setGroup g { x with nextCseq := c + 1, opened := x.opened ++ [c] }
  s.abortColl g c code cause ports

end Sys2Proof.Machine
end

