-- ==== Sys2Proof/Machine/OryCore.lean ====
section
/-!
DEFINITION. Threads and tokens of the orrery (R297, R306, R315): the start state of a thread, its registers, what a
token names, and a thread's fault.
-/

namespace Sys2Proof.Machine

/-- The core and the index of a thread ID (R297). -/
def thrCore (t : Nat) : Nat := t / 64
def thrIndex (t : Nat) : Nat := t % 64

/-- The slot of the program a thread belongs to. -/
def State.thrSlot (s : State) (t : Nat) : Option Nat :=
  (s.ory.progs.find? fun e => e.2.idx.contains (thrIndex t)).map (·.1)

/-- The program of a thread. -/
def State.thrProg (s : State) (t : Nat) : Option Prog := (s.thrSlot t).bind fun n => s.ory.progs.get n

/-- A thread as its program starts it (R297): s1 its index within the program on its core, s2 the core. -/
def startThread (p : Prog) (t : Nat) : Thread :=
  { regs := SMap.write 0 (SMap.write 0 [] 1 (BitVec.ofNat 64 (p.idx.findIdx fun i => i = thrIndex t))) 2 (BitVec.ofNat 64 (thrCore t)),
    far := p.far }

/-- A thread's state; one not listed is in its start state. -/
def State.thread (s : State) (t : Nat) : Thread :=
  match s.ory.threads.get t with
  | some x => x
  | none =>
    match s.thrProg t with
    | some p => startThread p t
    | none => { }

def State.setThread (s : State) (t : Nat) (x : Thread) : State := { s with ory.threads := s.ory.threads.put t x }

/-- A scalar register: s0 reads as zero (R297). -/
def Thread.get (x : Thread) (r : BitVec 5) : W64 := if r = 0 then 0 else x.regs.read 0 r.toNat

/-- A scalar register written: writes to s0 are discarded (R297). -/
def Thread.put (x : Thread) (r : BitVec 5) (v : W64) : Thread :=
  if r = 0 then x else { x with regs := x.regs.write 0 r.toNat v }

/-- A vector register's lane. -/
def Thread.vget (x : Thread) (v : BitVec 5) (i : Nat) : W64 := x.vregs.read 0 (16 * v.toNat + i)
def Thread.vput (x : Thread) (v : BitVec 5) (i : Nat) (w : W64) : Thread :=
  { x with vregs := x.vregs.write 0 (16 * v.toNat + i) w }

/-- The lanes of a vector register. -/
def Thread.vlanes (x : Thread) (v : BitVec 5) : List W64 := (List.range 16).map (x.vget v)

/-- A vector register set from a list of lanes. -/
def Thread.vset (x : Thread) (v : BitVec 5) (ls : List W64) : Thread :=
  (List.range 16).foldl (fun y i => y.vput v i (ls.getD i 0)) x

/-- The instruction has been performed: the next word, or another place, and one more instruction (R315). -/
def Thread.goto (x : Thread) (pc : Nat) : Thread := { x with pc := pc, count := x.count + 1 }
def Thread.step (x : Thread) (n : Nat := 1) : Thread := x.goto (x.pc + n)

/-! ### Tokens (Table 13-6) -/

def tokKind (t : Token) : Nat := t.w0.toNat % 16
def tokGroup (t : Token) : Nat := t.w0.toNat / 2 ^ 16 % 2 ^ 14
def tokCseq (t : Token) : BitVec 16 := BitVec.ofNat 16 (t.w0.toNat / 2 ^ 38)
def w1Segment (w : W64) : Nat := w.toNat % 2 ^ 24
def w1First (w : W64) : Nat := w.toNat / 2 ^ 24 % 2 ^ 7
def w1Lines (w : W64) : Nat := w.toNat / 2 ^ 31 % 2 ^ 7
def w1Handle (w : W64) : BitVec 16 := BitVec.ofNat 16 (w.toNat / 2 ^ 46)

/-- The handle of a SEG_FINAL token is current (R308). -/
def State.tokCurrent (s : State) (t : Token) : Bool :=
  let k := segKey (tokGroup t) (tokCseq t) (w1Segment t.w1)
  (match s.cnj.segs.get k with
   | some g => g.state == .final
   | none => false) && s.cnj.handles.read 0 k == w1Handle t.w1

/-- The chunk a token names has not been released yet (R310). -/
def State.chunkHeld (s : State) (t : Token) : Bool :=
  s.tokCurrent t &&
    match s.seg (tokGroup t) (tokCseq t) (w1Segment t.w1) with
    | some g => g.chunks.any fun c => c.1 = w1First t.w1
    | none => false

/-! ### Faults (R315) -/

def faultIllegal : Nat := 1
def faultAddr : Nat := 2
def faultAlign : Nat := 3
def faultNack : Nat := 4
def faultPath : Nat := 5
def faultMedia : Nat := 6
def faultBudget : Nat := 7
def faultARange : Nat := 8
def faultExplicit : Nat := 9

/-- A thread restarts as at load; its scratch is kept (R315). -/
def State.restartThread (s : State) (t : Nat) : State := { s with ory.threads := s.ory.threads.del t }

/-- A thread faults (R315): recorded, the collective of a held chunk aborts with TRANSFORM, and the thread restarts. -/
def State.faultThread (s : State) (t code : Nat) (addr : W64 := 0) (user : Nat := 0) : State :=
  let x := s.thread t
  let id := ((s.thrProg t).map fun p => p.id.toNat).getD 0
  let held := match x.chunk with
    | some k => s.chunkHeld k
    | none => false
  let s := s.log 0x14 .threadFault t [code, id, x.pc, addr.toNat]
  let s := s.count Reg.ORY_CNT_FAULT.value
  let s := if s.bit Reg.ORY_FAULT.valid then s
    else
      let s := (s.setFld Reg.ORY_FAULT.code code).setFld Reg.ORY_FAULT.thread t
      let s := (s.setFld Reg.ORY_FAULT.user_code user).setFld Reg.ORY_FAULT.chunk_held (if held then 1 else 0)
      let s := (s.setFld Reg.ORY_FAULT.valid 1).setFld Reg.ORY_FAULT_PC.pc x.pc
      (s.setFld Reg.ORY_FAULT_PC.prog id).setPair Reg.ORY_FAULT_ADDR_LO.value addr.toNat
  let s := match s.thrSlot t with
    | none => s
    | some n =>
      match s.ory.progs.get n with
      | none => s
      | some p =>
        let p' : Prog := { p with faults := (p.faults.filter fun f => decide (s.ft < f + second)) ++ [s.ft] }
        { s with ory.progs := s.ory.progs.put n p' }
  let s := s.raise Reg.ORY_INT_STATUS.thread_fault
  let s := s.restartThread t
  match x.chunk with
  | some k => if held then s.abortColl (tokGroup k) (tokCseq k) abArith 4 0 (w1Segment k.w1) else s
  | none => s

/-- A posted store of a thread is answered (R301, R315); a thread in FENCE goes on when none is left. -/
def State.postedDone (s : State) (t id : Nat) (bad : Option Nat) : State :=
  let x := s.thread t
  let addr := ((x.posted.find? fun p => p.1 = id).map (·.2)).getD 0
  let x := { x with
    posted := x.posted.filter fun p => p.1 ≠ id
    badStore := match x.badStore, bad with
      | none, some c => some (c, addr)
      | b, _ => b }
  if x.fencing && x.posted.isEmpty then
    match x.badStore with
    | some (c, a) => (s.setThread t { x with fencing := false }).faultThread t c a
    | none => s.setThread t ({ x with fencing := false }.step)
  else s.setThread t x

/-- The value an access of so many bytes gives a register (R303). -/
def loadValue (bytes : Nat) (sign : Bool) (v : Nat) : W64 :=
  if sign then BitVec.ofInt 64 (signed (8 * bytes) v) else BitVec.ofNat 64 (v % 2 ^ (8 * bytes))

/-- An answer with data reaches a blocked thread (R301): it fills its lanes, and the thread goes on after the last. -/
def State.awaitDone (s : State) (t : Nat) (seq : BitVec 24) (data : List Byte) : State :=
  let x := s.thread t
  match x.blocked with
  | none => s
  | some b =>
    match b.awaits.find? fun a => a.seq == seq with
    | none => s
    | some a =>
      let x := if b.vector then
          (List.range (data.length / 8)).foldl (fun y i => y.vput b.dest (a.lane + i) (BitVec.ofNat 64 (numAt data (8 * i) 8))) x
        else x.put b.dest (loadValue b.bytes b.sign (numAt data a.lane b.bytes))
      let rest := b.awaits.filter fun a => !(a.seq == seq)
      if rest.isEmpty then s.setThread t ({ x with blocked := none }.step)
      else s.setThread t { x with blocked := some { b with awaits := rest } }

end Sys2Proof.Machine
end

