-- ==== Sys2Proof/Machine/MsfCore.lean ====
section
/-!
DEFINITION. Answers of the memory-and-orrery unit (R275, R290) and of others to its own requests (R291, R292, R300).
-/

namespace Sys2Proof.Machine

/-- MEM_RSP opcodes (Table 12-2). -/
def rspData : BitVec 8 := 0x01
def rspAck : BitVec 8 := 0x02
def rspNack : BitVec 8 := 0x03
def rspAckSet : BitVec 8 := 0x04
def rspPathFail : BitVec 8 := 0xF0

/-- MEM_REQ opcodes (Table 12-1). -/
def reqLoad : BitVec 8 := 0x01
def reqStore : BitVec 8 := 0x02
def reqMcast : BitVec 8 := 0x03
def reqAtomic : BitVec 8 := 0x04
def reqReduce : BitVec 8 := 0x05
def reqFence : BitVec 8 := 0x06

/-- The answer to a request: MEM_RSP on VC3 to its source (R275, R18). -/
def State.memRsp (s : State) (f : Frame) (op : BitVec 8) (status : Nat) (payload : List Byte) : Frame :=
  { ftype := ftMemRsp, vc := 3, dclass := f.swSrc, dnode := f.snode, snode := s.ownSnode, flags := flagSwSrc,
    partition := f.partition, opcode := op, seq := f.seq, epoch := f.epoch, w4 := f.w4, w5 := f.w5,
    w6 := BitVec.ofNat 32 (f.opcode.toNat + 256 * status), payload := payload }

/-- A response of the device's own memory leaves by a port; on a port that is DOWN it is discarded and counted
(Table 5-9). -/
def State.sendRsp (s : State) (die : Nat) (p : Port) (f : Frame) : State :=
  match (s.link p).state with
  | .down => s.count (Reg.LNK_CNT_LINKDOWN_DROP.value p.toNat)
  | _ => s.originateRaw die .ownRsp [(p, f)]

/-- Answers one request (R275). -/
def State.answer (s : State) (die : Nat) (q : MemReq) (op : BitVec 8) (status : Nat) (payload : List Byte) : State :=
  s.sendRsp die (s.answerPort q.frame q.port) (s.memRsp q.frame op status payload)

/-- NACK: counted, and recorded in MSF_LAST_NACK (Table 12-14). -/
def State.nack (s : State) (die : Nat) (q : MemReq) (reason : Nat) : State :=
  let s := s.count Reg.MSF_CNT_NACK.value
  let s := if s.bit Reg.MSF_LAST_NACK.valid then s
    else
      let op := if 1 ≤ q.frame.opcode.toNat ∧ q.frame.opcode.toNat ≤ 6 then q.frame.opcode.toNat else 0
      let s := (s.setFld Reg.MSF_LAST_NACK.snode q.frame.snode.toNat).setFld Reg.MSF_LAST_NACK.reason reason
      (s.setFld Reg.MSF_LAST_NACK.opcode op).setFld Reg.MSF_LAST_NACK.valid 1
  s.answer die q rspNack reason []

/-- PATH_FAIL to the source of a failed frame that arrived on a port (R125). It is never answered: on a port that is
DOWN it is discarded and counted (Table 5-9). -/
def State.pathFailTo (s : State) (die : Nat) (f : Frame) (p : Port) (reason : Nat) : State :=
  let out := s.answerPort f p
  match (s.link out).state with
  | .down => s.count (Reg.LNK_CNT_LINKDOWN_DROP.value out.toNat)
  | _ => s.originateRaw die .plain [(out, s.pathFail f reason)]

/-! ### Answers to merged requests (R290) -/

/-- The three keys of an ACK_SET: egress port, line address and partition. -/
def State.ackKey (s : State) (q : MemReq) : Port × Nat × BitVec 12 :=
  (s.route q.frame.snode, q.frame.address.toNat / 256, q.frame.partition)

/-- The 8 bytes of an entry (Table 12-7). -/
def ackEntry (q : MemReq) : List Byte :=
  leBytes 4 q.frame.snode.toNat ++ leBytes 3 q.frame.seq.toNat ++ leBytes 1 q.frame.epoch.toNat

/-- Cuts a list into pieces of n. -/
def chunksOf {α : Type} (n : Nat) : Nat → List α → List (List α)
  | 0, _ => []
  | k + 1, xs => match xs with
    | [] => []
    | _ => xs.take n :: chunksOf n k (xs.drop n)

/-- The constituents grouped by key, in order of first arrival. -/
def State.ackGroups (s : State) : Nat → List MemReq → List (List MemReq)
  | 0, _ => []
  | k + 1, qs =>
    match qs with
    | [] => []
    | q :: _ =>
      (qs.filter fun r => s.ackKey r == s.ackKey q) ::
        s.ackGroups k (qs.filter fun r => !(s.ackKey r == s.ackKey q))

/-- One ACK_SET frame of at most 32 entries. -/
def State.ackSetFrame (s : State) (op : BitVec 8) (status : Nat) (qs : List MemReq) : Option (Port × Frame) :=
  match qs with
  | [] => none
  | q :: _ =>
    let p := s.route q.frame.snode
    some (p,
      { ftype := ftMemRsp, vc := 3, dnode := BitVec.ofNat 17 (s.leafOn p * 256), snode := s.ownSnode,
        flags := flagSwSrc, partition := q.frame.partition, opcode := rspAckSet,
        w4 := BitVec.ofNat 32 (q.frame.address.toNat / 256 * 256), w5 := q.frame.w5,
        w6 := BitVec.ofNat 32 (op.toNat + 256 * status), payload := qs.flatMap ackEntry })

/-- The ACK of a flushed request reaches its constituents (R290). -/
def State.ackAll (s : State) (die : Nat) (op : BitVec 8) (status : Nat) (qs : List MemReq) : State :=
  match qs with
  | [q] => s.answer die q rspAck status []
  | _ =>
    let s := (qs.filter fun q => q.frame.swSrc).foldl (fun s q => s.answer die q rspAck status []) s
    let groups := s.ackGroups qs.length (qs.filter fun q => !q.frame.swSrc)
    groups.foldl (fun s g =>
      (chunksOf 32 g.length g).foldl (fun s c =>
        match s.ackSetFrame op status c with
        | some (p, f) => s.sendRsp die p f
        | none => s) s) s

/-! ### Answers to the unit's own requests -/

/-- The thread that waits for an answer under a seq, or posted a store under it. -/
def State.seqThread (s : State) (seq : BitVec 24) : Option Nat :=
  (s.ory.threads.find? fun e =>
    (match e.2.blocked with
     | some b => b.awaits.any fun a => a.seq == seq
     | none => false) || e.2.posted.any fun p => p.1 = seq.toNat).map (·.1)

/-- An answer to the unit's own request (R291, R292, R300, R315): to the constituents of a merged request, or to a
thread. One that answers nothing outstanding is discarded and counted. -/
def State.ownAnswer (s : State) (seq : BitVec 24) (op : BitVec 8) (status : Nat) (payload : List Byte) : State :=
  match s.msf.thrus.find? fun r => r.seq == seq with
  | some r =>
    let s := { s with msf.thrus := s.msf.thrus.filter fun x => !(x.seq == seq) }
    if op = rspNack then r.qs.foldl (fun s q => s.nack r.die.toNat q status) s
    else if op = rspPathFail then r.qs.foldl (fun s q => s.pathFailTo r.die.toNat q.frame q.port status) s
    else s.ackAll r.die.toNat r.opcode status r.qs
  | none =>
    match s.seqThread seq with
    | none => s.count Reg.MSF_CNT_LATE_RSP.value
    | some t =>
      let x := s.thread t
      let isPosted := x.posted.any fun p => p.1 = seq.toNat
      let addr := match x.blocked with
        | some b => ((b.awaits.find? fun a => a.seq == seq).map Await.addr).getD 0
        | none => 0
      if op = rspNack then (if isPosted then s.postedDone t seq.toNat (some faultNack) else s.faultThread t faultNack addr)
      else if op = rspPathFail then
        (if isPosted then s.postedDone t seq.toNat (some faultPath) else s.faultThread t faultPath addr)
      else if isPosted then s.postedDone t seq.toNat none
      else s.awaitDone t seq payload

/-- Takes the unit's next request number. -/
def State.takeSeq (s : State) : State × BitVec 24 := ({ s with msf.ownSeq := s.msf.ownSeq + 1 }, s.msf.ownSeq)

end Sys2Proof.Machine
end

