-- ==== Sys2Proof/Machine/Loss.lean ====
section
/-!
DEFINITION. What becomes of a frame that cannot be delivered: bound for a port that is DOWN (R126, Table 5-9), stopped
by a fence (R128, Table 5-11, R150), or a data error (R163, Table 7-3). And the frames the device originates, checked
against their ports.
-/

namespace Sys2Proof.Machine

/-- Why a frame is lost. -/
inductive LossCause where
  | linkDown | fenced | dataError
  deriving DecidableEq, Repr

/-- The counter of a discarded frame. -/
def State.countLoss (s : State) (p : Port) : LossCause → State
  | .linkDown => s.count (Reg.LNK_CNT_LINKDOWN_DROP.value p.toNat)
  | .fenced => s.count (Reg.LNK_CNT_FENCE_DROP.value p.toNat)
  | .dataError => s

/-- PATH_FAIL reasons of the causes (Table 5-8). -/
def LossCause.reason : LossCause → Nat
  | .linkDown => pfLinkDown
  | .fenced => pfDestFenced
  | .dataError => pfDataError

/-- A result copy is lost (R244, R150): an ordinary group aborts, a fence-tolerant group places the port in the unreached
set. -/
def State.resultLost (s : State) (f : Frame) (p : Port) (c : LossCause) : State :=
  let g := f.group.toNat
  let s := s.count Reg.FWD_CNT_MC_DISCARD.value
  match s.coll g f.cseq with
  | none => s
  | some x =>
    if (s.group g).fenceTolerant then s.setColl g f.cseq { x with unreached := x.unreached ||| portBit p }
    else
      match c with
      | .fenced => s.abortColl g f.cseq abFenced 3 (portBit p)
      | _ => s.abortColl g f.cseq abLink 2 (portBit p)

/-- A COLL_CTL frame to a port is lost: the collective it belongs to aborts (Table 5-9, Table 5-11). -/
def State.ctlLost (s : State) (f : Frame) (p : Port) (c : LossCause) : State :=
  match c with
  | .fenced => s.abortColl f.group.toNat f.cseq abFenced 2 (portBit p)
  | _ => s.abortColl f.group.toNat f.cseq abLink 1 (portBit p)

/-- A copy of a STORE_MCAST is discarded (R150, R281): counted, and its port is unreached where its report flag is set. -/
def State.copyLost (s : State) (op : Nat) (p : Port) : State :=
  let s := s.count Reg.FWD_CNT_MC_DISCARD.value
  match s.msf.mcasts.get op with
  | none => s
  | some m =>
    if m.report.getLsbD p.toNat then
      { s with msf.mcasts := s.msf.mcasts.put op { m with unreached := m.unreached ||| portBit p } }
    else s

/-- The outcome of a frame that cannot leave by a port: its cause, where it came in (none: originated), its owner, the
frame, and the die that answers for it. -/
def State.lose (s : State) (c : LossCause) (die : Nat) (p : Port) (inPort : Option Port) (o : Owner) (f : Frame) : State :=
  let discard (s : State) : State := s.countLoss p c
  match o with
  | .mcast op => s.copyLost op p
  | .ownRsp =>
    match c with
    | .dataError => s.originateRaw die .ownRsp [(p, f)]
    | _ => discard s
  | .plain =>
    match f.ftype.toNat with
    | 3 =>
      let s := s.count (Reg.LNK_CNT_PATHFAIL.value p.toNat)
      match inPort with
      | none => s.ownAnswer f.seq rspPathFail c.reason []
      | some q => s.pathFailTo die f q c.reason
    | 4 =>
      if f.opcode = rspPathFail then discard s
      else
        match c, inPort with
        | .fenced, _ => discard s
        | _, none => discard s
        | _, some q => (s.count (Reg.LNK_CNT_PATHFAIL.value p.toNat)).pathFailTo die f q c.reason
    | 6 =>
      match c with
      | .dataError => s.originateRaw die .plain [(p, f)]
      | _ => s.resultLost f p c
    | 7 => s.count Reg.FWD_CNT_MC_DISCARD.value
    | 8 =>
      match c with
      | .dataError => s.originateRaw die .plain [(p, f)]
      | _ => s.ctlLost f p c
    | _ => discard s

/-- Originates copies of a frame (R168). A copy for a port that is DOWN meets its outcome at once (R126). -/
def State.originate (s : State) (die : Nat) (o : Owner) (copies : List (Port × Frame)) : State :=
  let down (e : Port × Frame) : Bool := (s.link e.1).state == .down
  let s' := s.originateRaw die o (copies.filter fun e => !down e)
  (copies.filter down).foldl (fun s e => s.lose .linkDown die e.1 none o e.2) s'

/-- A frame that a fence state stops on its way out (Table 5-11). -/
def fenceStops (fence : Nat) (f : Frame) : Bool :=
  match fence with
  | 0 => false
  | 1 => !(f.ftype == ftLinkCtl) && !(f.vc == 1) &&
      !(f.ftype == ftTime && (f.opcode == 0x02 || f.opcode == 0x03))
  | _ => !(f.ftype == ftLinkCtl)

/-- A destination of a buffer is lost: its outcome, and its descriptor and buffer released (R163). -/
def State.loseDest (s : State) (c : LossCause) (k : Nat) (p : Port) : State :=
  match s.bufs.get k with
  | none => s
  | some b =>
    match b.dests.find? fun d => d.port == p with
    | none => s
    | some d =>
      let s := if c == .dataError then (s.count (Reg.CORE_CNT_DATA_ERROR.value (bufDie k))).raise Reg.CORE_INT_STATUS.data_error else s
      let s := s.dropDest k p
      s.lose c (bufDie k) p b.inPort b.owner d.frame

/-- Every frame waiting for a port is lost: the buffers with a destination there, and originated frames without one. -/
def State.loseAll (s : State) (c : LossCause) (p : Port) : State :=
  let ks := (s.bufs.filter fun e => e.2.dests.any fun d => d.port == p).map (·.1)
  let s := ks.foldl (fun s k => s.loseDest c k p) s
  let ws := s.originWait.filter fun w => w.copies.any fun e => e.1 == p
  let s := { s with originWait := (s.originWait.map fun w =>
      { w with copies := w.copies.filter fun e => !(e.1 == p) }).filter fun w => !w.copies.isEmpty }
  ws.foldl (fun s w =>
    match w.copies.find? fun e => e.1 == p with
    | some (_, f) => s.lose c w.die.toNat p none w.owner f
    | none => s) s

end Sys2Proof.Machine
end

