-- ==== Sys2Proof/Machine/Activate.lean ====
section
/-!
DEFINITION. Pending activations (R57, R58): objects and reasons, cyclic banks, arming and cancelling, and the arming of
the folio's calendar and gate lists (R344).
-/

namespace Sys2Proof.Machine


/-- The objects: the transit calendar, the amendment, and the gate list of port p. -/
def objCal : Nat := 0
def objAmend : Nat := 1
def objGate (p : Nat) : Nat := 2 + p

/-- Act reasons (Table 2-8). -/
def arNone : Nat := 0
def arLate : Nat := 1
def arMisaligned : Nat := 2
def arBusy : Nat := 3
def arFiredLate : Nat := 4
def arIncomplete : Nat := 5

/-- The duration of a stored entry: its low 32 bits (Table 4-3; Table 8-2 keeps the duration there too). -/
def entryDur (e : BitVec 256) : Nat := e.toNat % 2 ^ 32

/-- Durations of a bank's entries, in order; an entry that is not stored has none. -/
def Bank.durs (b : Bank) : List Nat := (List.range b.len).map fun i => entryDur ((SMap.get b.ent i).getD 0)

/-- The sum of the durations (R92). -/
def Bank.cycle (b : Bank) : Nat := b.durs.foldl (· + ·) 0

/-- Every entry below the length is stored (R57). -/
def Bank.complete (b : Bank) (len : Nat) : Bool := (List.range len).all fun i => (SMap.get b.ent i).isSome

/-- The running sums of a list of durations, from 0. -/
def sums : Nat → List Nat → List Nat
  | a, [] => [a]
  | a, d :: ds => a :: sums (a + d) ds

/-- A time is an entry boundary of a bank (R57); with no list active every time is one. -/
def Bank.boundary (b : Bank) (t : Nat) : Bool :=
  !b.on || decide (b.cycle = 0) ||
    (sums 0 b.durs).contains (((t : Int) - (b.base : Int)) % (b.cycle : Int)).toNat

/-- The index of the entry whose span holds an offset within the cycle (R92). -/
def entryIndexAt : List Nat → Nat → Nat → Nat
  | [], i, _ => i
  | d :: ds, i, x => if x < d then i else entryIndexAt ds (i + 1) (x - d)

/-- The entry of a bank that holds at a time, with the time left to its end. -/
def Bank.entryAt (b : Bank) (t : Nat) : Nat :=
  if b.cycle = 0 then 0 else entryIndexAt b.durs 0 (((t : Int) - (b.base : Int)) % (b.cycle : Int)).toNat

/-- The first entry boundary of a bank at or after a time. -/
def Bank.nextBoundary (b : Bank) (t : Nat) : Nat :=
  if b.cycle = 0 then t
  else
    let x := (((t : Int) - (b.base : Int)) % (b.cycle : Int)).toNat
    t + (((sums 0 b.durs).find? fun v => x ≤ v).getD x - x)

/-- Decides an arming (R57). `cyclic` gives the active and shadow banks with the shadow length, for a cyclic object. -/
def State.armDecide (s : State) (a : Act) (tAct : Nat) (cyclic : Option (Bank × Bank × Nat)) : Option Nat :=
  let lead := s.fld Reg.EPH_ACT_LEAD.value
  if a.pending ∧ (a.tAct : Int) - s.ft < lead then some arBusy
  else if (tAct : Int) - s.ft < lead then some arLate
  else
    match cyclic with
    | none => none
    | some (active, shadow, len) =>
      if !shadow.complete len then some arIncomplete
      else if !active.boundary tAct then some arMisaligned
      else none

/-- Arms an object, or refuses (R57). -/
def State.arm (s : State) (k tAct : Nat) (cyclic : Option (Bank × Bank × Nat)) : State × Bool :=
  let a := s.act k
  match s.armDecide a tAct cyclic with
  | some r =>
    ((s.setAct k { a with reason := r, state := if a.pending then a.state else 3 }).raise Reg.EPH_INT_STATUS.act_refused,
      false)
  | none => (s.setAct k { pending := true, tAct := tAct, state := 1, reason := arNone }, true)

/-- Cancels a pending activation, or refuses (R57): whether it was cancelled. -/
def State.cancel (s : State) (k : Nat) : State × Bool :=
  let a := s.act k
  if !a.pending then (s, false)
  else if (a.tAct : Int) - s.ft < s.fld Reg.EPH_ACT_LEAD.value then
    ((s.setAct k { a with reason := arBusy }).raise Reg.EPH_INT_STATUS.act_refused, false)
  else (s.setAct k { a with pending := false, state := 0, reason := arNone }, true)

/-- The banks of a cyclic object swap at its firing (R58): the shadow, of a length, becomes active with a base; the list
that was active becomes the shadow, each of its entries stored. -/
def swapBanks (active shadow : Bank) (len base : Nat) : Bank × Bank :=
  ({ on := true, base := base, len := len, ent := shadow.ent.filter fun e => decide (e.1 < len) },
    if active.on then { active with on := false, base := 0 } else { })

/-- A bank made of a list of entries. -/
def bankOf (base : Nat) (es : List (BitVec 256)) : Bank :=
  { on := true, base := base, len := es.length,
    ent := (List.range es.length).map fun i => (i, es.getD i 0) }

/-- The object's shadow bank is locked: it is armed (R57). -/
def State.shadowLocked (s : State) (k : Nat) : Bool := (s.act k).pending

/-- The words of a shadow bank, at a base offset, become those of a list in it: so many words in all, some per entry. -/
def State.showBank (s : State) (base count width : Nat) (b : Bank) : State :=
  let t := { s with regs := s.regs.filter fun e => decide (e.1 < base) || decide (base + 4 * count ≤ e.1) }
  b.ent.foldl (fun t e => (List.range width).foldl (fun t w =>
    t.setReg (base + 4 * (width * e.1 + w)) (BitVec.ofNat 32 (e.2.toNat / 2 ^ (32 * w)))) t) t
def State.showCal (s : State) : State := s.showBank (Reg.TRN_CAL_SHADOW.addr 0) 32768 8 s.calShadow
def State.showGates (s : State) (p : Nat) : State :=
  s.showBank (Reg.SCH_GATE_SHADOW.addr p 0) 512 2 (s.gateShadow.read { } p)

/-- Places a list in the shadow bank of the calendar, and of a port's gate list, with its length. -/
def State.fillCal (s : State) (es : List (BitVec 256)) : State :=
  ({ s with calShadow := { bankOf 0 es with on := false } }.setFld Reg.TRN_CAL_LEN.shadow (es.length - 1)).showCal
def State.fillGates (s : State) (p : Nat) (es : List (BitVec 256)) : State :=
  (({ s with gateShadow := s.gateShadow.write { } p { bankOf 0 es with on := false } }.setFld (Reg.SCH_GATE_LEN.shadow p)
    (es.length - 1))).showGates p

/-- The first base + n cycle at or after a time. -/
def firstPhase (base cycle t : Nat) : Nat :=
  if cycle = 0 then t else t + (((base : Int) - (t : Int)) % (cycle : Int)).toNat

/-- An object of the folio is armed at the first phase of its base that lies act_lead ahead (R344). -/
def State.armPhase (s : State) (k base : Nat) (active shadow : Bank) (len : Nat) : State :=
  (s.arm k (firstPhase base { shadow with len := len }.cycle (s.ft + s.fld Reg.EPH_ACT_LEAD.value))
    (some (active, shadow, len))).1

/-- The calendar and gate lists of the folio are armed as LOCKED is first entered (R344). -/
def State.armFolio (s : State) : State :=
  let secs (c : Nat) : List (List Byte) := [SMap.get s.cfg.sections (2 * c), SMap.get s.cfg.sections (2 * c + 1)].filterMap id
  let s := (secs 0x09).foldl (fun s bs =>
    let es := transitEntries bs
    if es.isEmpty then s
    else
      let s := s.fillCal es
      s.armPhase objCal (transitBase bs) s.calActive s.calShadow es.length) s
  ((secs 0x0A).flatMap fun bs => gateRecs bs.length bs).foldl (fun s r =>
    let s := s.fillGates r.port r.entries
    s.armPhase (objGate r.port) r.base (s.gateActive.read { } r.port) (s.gateShadow.read { } r.port) r.entries.length) s

end Sys2Proof.Machine
end

