-- ==== Sys2Proof/Machine/Ephemeris.lean ====
section
/-!
DEFINITION. The ephemeris unit (chapter 2): steps, time states and the servo (R48 to R50), parents (R45), and the
output pulses' pins.
-/

namespace Sys2Proof.Machine

/-! ### Time states (Tables 2-3 and 2-4) -/

/-- Activations fire and pulses are driven (Table 2-3). -/
def TimeState.drives : TimeState → Bool
  | .locked => true
  | .holdover => true
  | .expired => true
  | _ => false

/-- The transit calendar runs (Table 2-3). -/
def TimeState.runsCalendar : TimeState → Bool
  | .locked => true
  | .holdover => true
  | _ => false

/-- The code of EPH_STATUS (Table 2-11). -/
def TimeState.code : TimeState → Nat
  | .free => 0
  | .acquire => 1
  | .locked => 2
  | .holdover => 3
  | .expired => 4

def State.pulse (s : State) (n : Nat) : Pulse := s.pulses.read { } n
def State.setPulse (s : State) (n : Nat) (x : Pulse) : State := { s with pulses := s.pulses.write { } n x }

/-- Drives the pin of a pulse to its active or inactive level; the level is sent when it changes (R55). -/
def State.drivePulse (s : State) (n : BitVec 2) (on : Bool) : State :=
  let x := s.pulse n.toNat
  if x.active = on then s
  else
    (s.setPulse n.toNat { x with active := on }).emit
      (.pin (.ppsOut n) (on != s.bit (Reg.EPH_PULSE_CTL.polarity n.toNat)))

/-- Every output pulse's pin is inactive (Table 2-3). -/
def State.pulsesOff (s : State) : State :=
  [0, 1, 2, 3].foldl (fun s n => s.drivePulse n false) s

/-- The calendar stops: every port is electrical in both directions (R92). -/
def State.stopCalendar (s : State) : State := { s with trn.calRunning := false, trn.quiet := 0, trn.rxBack := 0 }

/-- Enters a time state: state_change is raised, and what Table 2-3 no longer lets run stops. The calendar resumes at
its next entry boundary, a command of its own (R92). -/
def State.setTimeState (s : State) (t : TimeState) : State :=
  if s.eph.state = t then s
  else
    let s := ({ s with eph.state := t }).raise Reg.EPH_INT_STATUS.state_change
    let s := if t.drives then s else s.pulsesOff
    if t.runsCalendar then s else s.stopCalendar

/-- Enters LOCKED. From ACQUIRE it is the FT at which waiting activations fire (R58); the first time, the calendar and
gate lists of the folio are armed (R344). -/
def State.enterLocked (s : State) : State :=
  let fresh := s.eph.state == .acquire || s.eph.state == .free
  let first := !s.eph.everLocked
  let s := ({ s with
    eph.everLocked := true, eph.leftAcquire := true
    eph.lockedAt := if fresh then s.ft else s.eph.lockedAt }).setTimeState .locked
  if first then s.armFolio else s

/-- Relayed time frames in residence are dropped and counted (R47). -/
def State.dropResident (s : State) : State :=
  allPorts.foldl (fun s p =>
    let l := s.link p
    let gone := l.vc0.filter fun t =>
      match t.fill with
      | .relay _ _ => true
      | _ => false
    if gone.isEmpty then s
    else
      let s := s.setLink p { l with vc0 := l.vc0.filter fun t =>
        match t.fill with
        | .relay _ _ => false
        | _ => true }
      (s.count (Reg.EPH_PORT_STAT.time_drops p.toNat) gone.length).raise Reg.EPH_INT_STATUS.relay_drop) s

/-- Steps the counter by an offset in units of 2^-16 FT (R48, Table 2-4). -/
def State.stepTime (s : State) (e : Int) : State :=
  let s := { s with eph.acc := BitVec.ofInt 112 ((s.eph.acc.toNat : Int) - e * (2 ^ 32 : Nat))
                    eph.lastRx := none, eph.lockCount := 0 }
  s.dropResident.raise Reg.EPH_INT_STATUS.step_taken

/-- The clamp F of R48. -/
def adjClamp : Int := 2 ^ 36

/-- The servo's part of a sample (R48): adj and integ from the offset over T whole FT. With servo_en 0 both are left. -/
def State.servo (s : State) (e tw : Int) : State :=
  if !s.bit Reg.EPH_CTL.servo_en then s
  else
    let slews := s.eph.state = .acquire ∨ s.eph.state = .expired
    if slews ∧ s.fld Reg.EPH_STEP_THRESH.value * 2 ^ 16 < e.natAbs then
      { s with eph.adj := if 0 < e then -adjClamp else adjClamp }
    else
      let r := if tw = 0 then Config.freeServoRate e else e * (2 ^ 32 : Nat) / tw
      let i := clampInt (s.eph.integ - sar r (s.fld Reg.EPH_SERVO.ki_shift)) (-adjClamp) adjClamp
      { s with eph.integ := i, eph.adj := clampInt (i - sar r (s.fld Reg.EPH_SERVO.kp_shift)) (-adjClamp) adjClamp }

/-- The transitions a sample causes after the procedure of R48 (Table 2-4). -/
def State.afterSample (s : State) (e : Int) : State :=
  let inLock := e.natAbs ≤ s.fld Reg.EPH_SERVO.lock_threshold * 2 ^ 16
  let s := { s with eph.lockCount := if inLock then min (s.eph.lockCount + 1) 255 else 0 }
  match s.eph.state with
  | .acquire => if 16 ≤ s.eph.lockCount then s.enterLocked else s
  | .expired => if 16 ≤ s.eph.lockCount then s.enterLocked else s
  | .holdover => if e.natAbs ≤ s.fld Reg.EPH_SERVO.outlier_limit * 2 ^ 16 then s.enterLocked else s
  | _ => s

/-- R48 from the point where the sample is not discarded as an outlier. -/
def State.takeSample (s : State) (e tRx : Int) : State :=
  let s := { s with eph.outliers := 0 }
  let wasFree := s.eph.state = .free
  let s := if wasFree then s.setTimeState .acquire else s
  let stepEn := s.bit Reg.EPH_CTL.step_en
  let big := s.fld Reg.EPH_STEP_THRESH.value * 2 ^ 16 < e.natAbs
  if (wasFree ∧ stepEn) ∨ (s.eph.state = .acquire ∧ stepEn ∧ !s.eph.leftAcquire ∧ big) then s.stepTime e
  else
    match s.eph.lastRx with
    | none => ({ s with eph.lastRx := some tRx }).afterSample e
    | some t0 =>
      let tw := sar (tRx - t0) 16
      ((({ s with eph.lastRx := some tRx }).servo e tw)).afterSample e

/-- One accepted sample: its offset and receive time, in units of 2^-16 FT (R48). -/
def State.sample (s : State) (e tRx : Int) : State :=
  let s := { s with eph.offset := e, eph.lastSample := s.ft }
  if s.eph.state = .locked ∧ s.fld Reg.EPH_SERVO.outlier_limit * 2 ^ 16 < e.natAbs then
    let s := { s with eph.outliers := s.eph.outliers + 1 }
    if s.eph.outliers < s.fld Reg.EPH_SERVO.outlier_run then s
    else ((s.raise Reg.EPH_INT_STATUS.outlier_run).setTimeState .acquire).takeSample e tRx
  else s.takeSample e tRx

/-! ### Parents (R45) -/

/-- Three sync intervals, in FT. -/
def State.syncLimit (s : State) : Nat := 3 * s.fld Reg.EPH_SYNC_INTERVAL.value

/-- A port meets the conditions of R45. -/
def State.eligible (s : State) (p : Port) : Bool :=
  s.isUp p && s.fence p == 0 && (s.time p).valid &&
    match (s.time p).lastSync with
    | some t => decide (s.ft ≤ t + s.syncLimit)
    | none => false

/-- The listed parent ports with their ranks (Table 2-13). -/
def State.parentList (s : State) : List (Port × BitVec 2) :=
  (if s.bit Reg.EPH_PARENT01.valid_a then [(BitVec.ofNat 9 (s.fld Reg.EPH_PARENT01.port_a), 0)] else []) ++
    (if s.bit Reg.EPH_PARENT01.valid_b then [(BitVec.ofNat 9 (s.fld Reg.EPH_PARENT01.port_b), 1)] else []) ++
    (if s.bit Reg.EPH_PARENT23.valid_a then [(BitVec.ofNat 9 (s.fld Reg.EPH_PARENT23.port_a), 2)] else []) ++
    (if s.bit Reg.EPH_PARENT23.valid_b then [(BitVec.ofNat 9 (s.fld Reg.EPH_PARENT23.port_b), 3)] else [])

/-- Selects the active parent again; a change raises parent_change and steps nothing (R45). -/
def State.refreshParent (s : State) : State :=
  let q := s.parentList.find? fun e => s.eligible e.1
  if s.eph.parent = q then s else ({ s with eph.parent := q }).raise Reg.EPH_INT_STATUS.parent_change

/-- delay_in of a port (R42), in units of 2^-16 FT. -/
def State.delayIn (s : State) (p : Port) : Int := (s.time p).mean + signed 32 (s.fld (Reg.EPH_PORT_ASYM.value p.toNat))

/-- A time frame of a port is dropped and counted (R39, R45). -/
def State.timeDrop (s : State) (p : Port) : State := s.count (Reg.EPH_PORT_STAT.time_drops p.toNat)

/-! ### Activations (R57, Table 2-8) -/

end Sys2Proof.Machine
end

