-- ==== Sys2Proof/Machine/Lanes.lean ====
section
/-!
DEFINITION. Carriers and cut-overs (R62, R77 to R81), the circuits of the transit calendar (R87 to R92), and the notices
that suspend and resume them (R98 to R100).
-/

namespace Sys2Proof.Machine

/-! ### Carriers -/

/-- The line that carries a port's duty (R61, R62). -/
def State.carrier (s : State) (p : Port) : Option Nat :=
  (List.range 18).find? fun n => (s.line (engineOf p) n).duty == some (dutyOf p)

/-- Umbra latch f is latched: engine f sees no leaf light (R102). -/
def State.latched (s : State) (f : Nat) : Bool := (s.reg Reg.TRN_UMBRA_STAT.addr).getLsbD f

/-- Latches may be released: the hold-up reserve was found full enough (R397), and neither THERMTRIP_N nor a reference
clock that failed holds the device (R337, R431). -/
def State.mayRelease (s : State) : Bool := s.pwr.reserveOk && !s.hlt.thermtripOn && !s.pwr.refclkBad

/-! ### Permutations and the calendar -/

/-- Byte f of permutation i (Table 4-2); permutation 0 reads as zero (R89). -/
def State.permByte (s : State) (i f : Nat) : Nat :=
  if i = 0 then 0 else (s.reg (Reg.TRN_PERM.addr (8 * i + f / 4))).toNat / 256 ^ (f % 4) % 256

/-- The output fibre of input f in permutation i, if the input is valid. -/
def State.permDest (s : State) (i f : Nat) : Option Nat :=
  let b := s.permByte i f
  if b / 32 % 2 = 1 then some (b % 32) else none

/-- The permutation of duty plane k in a calendar entry (Table 4-3). -/
def entryPerm (e : BitVec 256) (k : Nat) : Nat := e.toNat / 2 ^ (32 + 12 * k) % 4096

/-- The circuits of duty plane k in an entry. -/
def State.entryCircuits (s : State) (e : BitVec 256) (k : Nat) : List (Nat × Nat) :=
  (List.range 32).filterMap fun f => (s.permDest (entryPerm e k) f).map fun g => (f, g)

/-- The circuits of duty plane k in any entry of the active calendar. -/
def State.calCircuits (s : State) (k : Nat) : List (Nat × Nat) :=
  if s.calActive.on then s.calActive.ent.flatMap fun e => s.entryCircuits e.2 k else []

/-- The entry in force, while the calendar runs and transit is enabled (Table 4-7). -/
def State.entryNow (s : State) : Option (BitVec 256) :=
  if s.trn.calRunning && s.bit Reg.TRN_CTL.transit_en then SMap.get s.calActive.ent s.trn.calEntry else none

/-- The circuits of a port's duty plane that run in the entry in force. -/
def State.circuitsNow (s : State) (p : Port) : List (Nat × Nat) :=
  match s.entryNow with
  | none => []
  | some e =>
    let k := (dutyOf p).toNat
    let sm := s.trn.suspMask.read 0 k
    (s.entryCircuits e k).filter fun c => !sm.getLsbD c.1 && !sm.getLsbD c.2

/-- A port is a circuit source, or destination, now (R90). -/
def State.isSource (s : State) (p : Port) : Bool := (s.circuitsNow p).any fun c => c.1 = engineOf p
def State.isDest (s : State) (p : Port) : Bool := (s.circuitsNow p).any fun c => c.2 = engineOf p

/-- The ports a predicate picks, as a mask. -/
def maskOf (pick : Port → Bool) : BitVec 512 := allPorts.foldl (fun m p => if pick p then m ||| portBit p else m) 0

/-! ### Planes (R98) -/

/-- All 144 elements of a plane are locked (R97). -/
def State.elemsLocked (s : State) (c : Nat) : Bool := (List.range 144).all fun e => (s.elem c e).locked

/-- Line c is locked, and its comb present, on every ready engine that uses it (R63, R70; log 23). -/
def State.linesLocked (s : State) (c : Nat) : Bool :=
  (List.range 32).all fun f =>
    let l := s.line f c
    (s.engine f).calState ≠ 2 || !l.usable || l.fade == .moved || (l.locked && !l.laserLow)

/-- A physical plane carries circuits (R98). -/
def State.planeUsable (s : State) (c : Nat) : Bool :=
  s.elemsLocked c && s.linesLocked c && !(s.plane c).failed

/-- The line a port's transit duty runs on (R80, R87). -/
def State.transitLine (s : State) (p : Port) : Nat := (s.trn.transitCarrier.get p.toNat).getD (dutyOf p).toNat

/-- A port whose circuits are suspended: ISOLATED (Table 5-11), or reset and not trained yet (R106). -/
def State.portSuspends (s : State) (p : Port) : Bool :=
  s.fence p == 2 || (!s.isUp p && (s.link p).cause == 5)

/-- A circuit of duty k cannot run (R87, R98, R99). -/
def State.circuitBad (s : State) (k : BitVec 4) (f g : Nat) : Bool :=
  let a := portOf f k
  let b := portOf g k
  s.transitLine a ≠ s.transitLine b || !s.planeUsable (s.transitLine a) || s.portSuspends a || s.portSuspends b

/-- The fibres of duty k that are affected: those of a circuit that cannot run, in any entry. -/
def State.badMask (s : State) (k : BitVec 4) : BitVec 32 :=
  (s.calCircuits k.toNat).foldl (fun m c =>
    if s.circuitBad k c.1 c.2 then m ||| ((1 : BitVec 32) <<< c.1) ||| ((1 : BitVec 32) <<< c.2) else m) 0

/-! ### Notices (R99, R100) -/

def opSuspend : BitVec 8 := 0x20
def opResume : BitVec 8 := 0x21

/-- Sends a notice of duty k to the ports of a fibre mask. -/
def State.sendNotice (s : State) (op : BitVec 8) (k : BitVec 4) (mask : BitVec 32) (tFrom : Nat) : State :=
  (List.range 32).foldl (fun s f =>
    if mask.getLsbD f then
      s.sendVc0 (portOf f k) (s.linkCtl op (BitVec.ofNat 32 k.toNat) mask (BitVec.ofNat 32 tFrom)
        (BitVec.ofNat 32 (tFrom / 2 ^ 32)))
    else s) s

/-- The suspension of duty k as last announced. -/
def State.announced (s : State) (k : BitVec 4) : BitVec 32 :=
  match s.trn.notices.reverse.find? fun n => n.duty == k with
  | some n => n.mask
  | none => s.trn.suspMask.read 0 k.toNat

/-- Announces what changed for duty k, to take effect at a time; a later notice replaces a pending one (R100). -/
def State.announce (s : State) (k : BitVec 4) (tFrom : Nat) : State :=
  let want := s.badMask k
  let old := s.announced k
  if want = old then s
  else
    let s := if want &&& ~~~old = 0 then s else s.sendNotice opSuspend k (want &&& ~~~old) tFrom
    let s := if old &&& ~~~want = 0 then s else s.sendNotice opResume k (old &&& ~~~want) tFrom
    { s with trn.notices := (s.trn.notices.filter fun n => !(n.duty == k)) ++ [⟨k, want, tFrom⟩] }

/-- Keeps the state of a physical plane and raises what changed (Table 4-9, Table 4-15). The plane's latency is measured,
at most 400 FT (Table 4-1), when it leaves IDLE (log 84). -/
def State.refreshPlane (s : State) (c : Nat) : State :=
  let x := s.plane c
  let ok := s.planeUsable c
  let idle := x.state = .idle ∧ !s.elemsLocked c
  let x' : Plane := { x with
    state := if x.failed then .failed else if idle then .idle
      else if !ok then .unusable else if c < 16 ∨ x.standinFor.isSome then .active else .standby
    suspended := !idle && !ok }
  let s := if x' = x then s
    else if x.state = .idle ∧ x'.state ≠ .idle then
      s.draw.setPlane c { x' with latency := (Config.freeLatency s.fresh).toNat % 401 }
    else s.setPlane c x'
  if x'.suspended ∧ !x.suspended then s.raise Reg.TRN_INT_STATUS.plane_unusable
  else if x.suspended ∧ !x'.suspended then s.raise Reg.TRN_INT_STATUS.plane_usable
  else s

/-- Brings the planes and the notices up to date, the notices with t_from at an entry boundary at least 8,000 FT after
the last of them has crossed its boundary (R99; log 12), or after a given time (R100). -/
def State.refreshTransit (s : State) (after : Option Nat := none) : State :=
  let s := (List.range 18).foldl (fun s c => s.refreshPlane c) s
  let tFrom := match after with
    | some t => s.calActive.nextBoundary (t + 1)
    | none => s.calActive.nextBoundary (s.ft + 8000 + (Config.freeNoticeDelay s.fresh).toNat)
  let ks := (List.range 16).map (BitVec.ofNat 4)
  if ks.all fun k => s.badMask k == s.announced k then s
  else
    let s := ks.foldl (fun s k => s.announce k tFrom) s
    match after with
    | some _ => s
    | none => s.draw

/-! ### Aborted cut-overs (R81) -/

def opLaneMove : BitVec 8 := 0x10
def opLaneMoveReq : BitVec 8 := 0x11
def opLaneAck : BitVec 8 := 0x12
def opLaneReady : BitVec 8 := 0x13
def opLaneMark : BitVec 8 := 0x14
def opLaneAbort : BitVec 8 := 0x15

/-- The fade state that a line's averages give it (Table 3-2). -/
def State.fadeOf (s : State) (f : Nat) (l : Line) : FadeState :=
  let a : Int := s.fld (Reg.OPT_FADE_CFG.advisory_db f)
  if l.avgTx ≤ -a ∨ l.avgRx ≤ -a then .advisory else .normal

/-- Sets the transit line of a port; its own line is not listed. -/
def State.setTransitLine (s : State) (p : Port) (n : Nat) : State :=
  if n = (dutyOf p).toNat then { s with trn.transitCarrier := s.trn.transitCarrier.del p.toNat }
  else { s with trn.transitCarrier := s.trn.transitCarrier.put p.toNat n }

/-- The device aborts the cut-over of an engine (R81): LANE_ABORT, the duty stays on its line, and after three aborts in
a row the line is NO_SPARE. -/
def State.abortCutover (s : State) (f : Nat) (reason : Nat) : State :=
  match (s.engine f).cutover with
  | none => s
  | some c =>
    let p := portOf f c.duty
    let s := s.sendVc0 p (s.linkCtl opLaneAbort (BitVec.ofNat 32 (c.duty.toNat + reason * 2 ^ 16)) 0 0 0)
    let s := s.setEngine f { s.engine f with cutover := none }
    let l := s.line f c.source
    let n := l.aborts + 1
    let s := s.setLine f c.source { l with
      aborts := n, retryFrom := some s.ft, fade := if 3 ≤ n then .noSpare else s.fadeOf f l }
    let s := s.raise (Reg.OPT_INT_STATUS.cutover_abort f)
    let s := if 3 ≤ n then s.raise (Reg.OPT_INT_STATUS.no_spare f) else s
    let s := s.setTransitLine p c.source
    let s := match c.cause with
      | .manual => s.setFld (Reg.OPT_LANE_MOVE.result f) 3
      | .albedo => s.actionAborted 0 (18 * f + c.source)
      | _ => s
    s.refreshTransit

end Sys2Proof.Machine
end

