-- ==== Sys2Proof/Machine/Crc.lean ====
section
/-!
DEFINITION. The cyclic redundancy checks of R356 and Table 15-8, and the 48 header bytes of a frame (Table 5-2) with their
hcrc (R110).
-/

namespace Sys2Proof.Machine

/-- One bit of R356 through a register of width w. -/
def crcBit (w poly : Nat) (c bit : Nat) : Nat :=
  let fb := (c / 2 ^ (w - 1) % 2 + bit) % 2
  let c2 := c * 2 % 2 ^ w
  if fb = 1 then Nat.xor c2 poly else c2

/-- One byte of R356. -/
def crcByte (w poly : Nat) (refl : Bool) (c : Nat) (b : Byte) : Nat :=
  (List.range 8).foldl (fun c i => crcBit w poly c (if refl then b.toNat / 2 ^ i % 2 else b.toNat / 2 ^ (7 - i) % 2)) c

/-- The bits of a number in reverse over a width. -/
def reverseBits (c w : Nat) : Nat := (List.range w).foldl (fun r i => 2 * r + c / 2 ^ i % 2) 0

/-- crc of R356. -/
def crc (data : List Byte) (w poly init : Nat) (refl inv : Bool) : Nat :=
  let c := data.foldl (crcByte w poly refl) (init % 2 ^ w)
  let c := if refl then reverseBits c w else c
  if inv then Nat.xor c (2 ^ w - 1) else c

/-- CRC-32C (Table 15-8, preset 1). -/
def crc32c (data : List Byte) : Nat := crc data 32 0x1EDC6F41 0xFFFFFFFF true true

end Sys2Proof.Machine

namespace Sys2Proof

open Machine in
/-- Header bytes 0 to 43 (Table 5-2); reserved bits are zero. -/
def Frame.headerBody (f : Frame) : List Byte :=
  let n (b : Bool) : Nat := if b then 1 else 0
  leBytes 4 (f.ftype.toNat + f.vc.toNat * 2 ^ 4 + n f.dclass * 2 ^ 7 + f.dnode.toNat * 2 ^ 8 + f.hops.toNat * 2 ^ 25 +
      n f.sideband * 2 ^ 29) ++
    leBytes 4 (f.snode.toNat + f.partition.toNat * 2 ^ 17) ++
    leBytes 4 (f.seq.toNat + f.opcode.toNat * 2 ^ 24) ++
    leBytes 4 (f.payload.length % 2 ^ 16 + f.flags.toNat * 2 ^ 16 + f.epoch.toNat * 2 ^ 24) ++
    leBytes 4 f.w4.toNat ++ leBytes 4 f.w5.toNat ++ leBytes 4 f.w6.toNat ++ leBytes 4 f.w7.toNat ++ leBytes 4 f.w8.toNat ++
    leBytes 4 (f.crVc.toNat + n f.crValid * 2 ^ 3 + f.crLimit.toNat * 2 ^ 4) ++
    leBytes 4 (f.lseq.toNat + n f.sequenced * 2 ^ 15 + f.ackLseq.toNat * 2 ^ 16)

open Machine in
/-- The 48 header bytes, with hcrc over the first 44 (R110). -/
def Frame.headerBytes (f : Frame) : List Byte := f.headerBody ++ leBytes 4 (crc32c f.headerBody)

end Sys2Proof
end

