-- ==== Sys2Proof/Machine/Mirror.lean ====
section
/-!
DEFINITION. Mirror rings (R175, R176).
-/

namespace Sys2Proof.Machine

/-- Entries of a ring. -/
def ringEntries : Nat := 1048576

/-- The 64 bytes of an entry (Table 7-6). -/
def mirrorEntry (egress tree : Bool) (p : Port) (f : Frame) (stamp : Stamp) (pool die : Nat) : List Byte :=
  let n (b : Bool) : Nat := if b then 1 else 0
  leBytes 8 (stamp.toNat / 2 ^ 16) ++ f.headerBytes ++ leBytes 2 (stamp.toNat % 2 ^ 16) ++
    leBytes 2 (p.toNat + n egress * 2 ^ 9 + n tree * 2 ^ 10) ++ leBytes 2 f.cells ++ leBytes 1 pool ++ leBytes 1 die

/-- Writes an entry into ring n, or counts it in CORE_MIR_DROPn where a ring in stop mode is full (R176). -/
def State.mirrorPut (s : State) (n : Nat) (e : List Byte) : State :=
  let prod := s.reg (Reg.CORE_MIR_PROD.addr n)
  let full := (prod - s.reg (Reg.CORE_MIR_CONS.addr n)).toNat = ringEntries
  if s.bit (Reg.CORE_MIR_CTL.stop_mode n) ∧ full then
    (s.count (Reg.CORE_MIR_DROP.value n)).raise Reg.CORE_INT_STATUS.mirror_drop
  else
    (s.storeMem (s.pair (Reg.CORE_MIR_BASE_LO.value n) + 64 * (prod.toNat % ringEntries)) e).setReg
      (Reg.CORE_MIR_PROD.addr n) (prod + 1)

/-- Ring n's filter matches a frame (R175, Table 7-15). -/
def State.mirrorMatch (s : State) (n : Nat) (egress : Bool) (p : Port) (f : Frame) : Bool :=
  let dir := s.fld (Reg.CORE_MIR_FILT.direction n)
  s.bit (Reg.CORE_MIR_CTL.enable n) && (dir = 2 || (if egress then dir = 1 else dir = 0)) &&
    (s.bit (Reg.CORE_MIR_FILT.any_port n) || s.fld (Reg.CORE_MIR_FILT.port n) = p.toNat) &&
    decide (s.fld (Reg.CORE_MIR_FILT.vc_mask n) / 2 ^ f.vc.toNat % 2 = 1) &&
    decide (s.fld (Reg.CORE_MIR_FILT.type_mask n) / 2 ^ f.ftype.toNat % 2 = 1) &&
    (!s.bit (Reg.CORE_MIR_PART.match n) || s.fld (Reg.CORE_MIR_PART.partition n) = f.partition.toNat)

/-- Records a frame in every ring whose filter matches it, one in 2^sample (R175). -/
def State.mirror (s : State) (egress : Bool) (p : Port) (f : Frame) (stamp : Stamp) (pool die : Nat) : State :=
  [0, 1, 2, 3].foldl (fun s n =>
    if s.mirrorMatch n egress p f then
      let seen := s.mirSeen.read 0 n
      let s := { s with mirSeen := s.mirSeen.write 0 n (seen + 1) }
      if seen % 2 ^ s.fld (Reg.CORE_MIR_CTL.sample n) = 0 then s.mirrorPut n (mirrorEntry egress false p f stamp pool die)
      else s
    else s) s

/-- Records a copy to a port whose tree flag mirror is set, in the ring named for it (R175). -/
def State.mirrorTree (s : State) (p : Port) (f : Frame) (stamp : Stamp) (pool die : Nat) : State :=
  let n := s.fld Reg.CORE_CTL.mirror_tree_ring
  if s.bit Reg.CORE_CTL.mirror_tree_en && s.bit (Reg.CORE_MIR_CTL.enable n) then
    s.mirrorPut n (mirrorEntry true true p f stamp pool die)
  else s

/-- A 64 MiB ring at a DPA lies in the mirror partition (Table 7-14, Table 11-2). -/
def State.ringFits (s : State) (base : Nat) : Bool :=
  decide (base % 2 ^ 26 = 0) && decide (base < dpaEnd) &&
    (List.range 16).any fun n =>
      decide (s.partKind n = 4) && decide (s.partMask n / 2 ^ dpaStack base % 2 = 1) &&
        decide (s.partBase n ≤ base % stackBytes) && decide (base % stackBytes + 2 ^ 26 ≤ s.partBase n + s.partStride n)

end Sys2Proof.Machine
end

