-- ==== Sys2Proof/Machine/LinkCore.lean ====
section
/-!
DEFINITION. The link (chapter 5): acknowledgements and credits, hop errors (R115), a port that goes DOWN (R126), training
(R113), and what becomes of a frame at the moment it is received (R112, R115, R120, R121, R128).
-/

namespace Sys2Proof.Machine

/-! ### The sending side -/

/-- An acknowledgement of an lseq: it and every earlier outstanding frame leave the replay buffer (R114). -/
def State.ackTo (s : State) (p : Port) (lseq : BitVec 15) : State :=
  let l := s.link p
  if l.replay.any fun r => r.frame.lseq == lseq then
    let rest := (l.replay.dropWhile fun r => !(r.frame.lseq == lseq)).drop 1
    s.setLink p { l with replay := rest, ackAt := s.ft }
  else s

/-- The limits of the partner for one VC (R120). -/
def State.takeLimit (s : State) (p : Port) (vc : BitVec 3) (v : BitVec 24) : State :=
  if vc = 0 then s
  else
    let l := s.link p
    s.setLink p { l with plim := l.plim.write 0 vc.toNat v }

/-- The difference of two cumulative counts that a sender or receiver may still use (R120): none from 2^23 on. -/
def creditLeft (lim cnt : BitVec 24) : Nat := if (lim - cnt).toNat < 2 ^ 23 then (lim - cnt).toNat else 0

/-! ### The receiving side -/

def opHello : BitVec 8 := 0x01
def opCredit : BitVec 8 := 0x02
def opAck : BitVec 8 := 0x03
def opRetryReq : BitVec 8 := 0x04

/-- Sends RETRY_REQ for the expected lseq (R115); more than 16 within 1 ms raise retry_burst (Table 5-15). -/
def State.sendRetryReq (s : State) (p : Port) (cause : Nat) : State :=
  let l := s.link p
  let rs := (l.retries.filter fun t => decide (s.ft < t + 16000000)) ++ [s.ft]
  let s := s.setLink p { l with retryAt := some s.ft, retries := rs }
  let s := s.sendVc0 p (s.linkCtl opRetryReq (BitVec.ofNat 32 (l.rxLseq.toNat + cause * 2 ^ 16)) 0 0 0)
  let s := s.count (Reg.LNK_CNT_RETRY_REQ.value p.toNat)
  if 16 < rs.length then s.raise (Reg.LNK_INT_STATUS.retry_burst p.toNat) else s

/-- A hop error (R115): the frame is discarded and its retry asked for, unless one is already awaited. -/
def State.hopErr (s : State) (p : Port) (cause : Nat) : State :=
  match (s.link p).retryAt with
  | some _ => s
  | none => s.sendRetryReq p cause

/-- Spans in which FEC errors, alignment loss and lseq gaps are not counted (R118). -/
def State.rxExempt (s : State) (p : Port) : Bool :=
  s.isSource p || (s.trn.rxBack.getLsbD p.toNat && decide (s.ft < s.trn.boundaryAt + 512))

/-- Cells of a frame that takes no buffer: they arrive and are freed (R117, R120). -/
def State.passCells (s : State) (p : Port) (vc : BitVec 3) (cells : Nat) : State :=
  if vc = 0 then s
  else
    let l := s.link p
    let s := s.setLink p { l with arrived := l.arrived.write 0 vc.toNat (l.arrived.read 0 vc.toNat + BitVec.ofNat 24 cells) }
    s.freeCells p vc cells

/-! ### Down and training -/

/-- A port goes DOWN (R126): every frame held for it meets Table 5-9, its cut-over aborts (R81), collectives that await
it abort (R244), and it is no time parent (R45). -/
def State.linkDown (s : State) (p : Port) (cause : Nat) : State :=
  let l := s.link p
  match l.state with
  | .down => s
  | _ =>
    let s := s.setLink p
      { cause := cause, trainAt := l.trainAt, failAt := if cause = 1 then some s.ft else none,
        aligned := l.aligned && cause ≠ 3 }
    let s := s.raise (Reg.LNK_INT_STATUS.link_down p.toNat)
    let s := match (s.engine (engineOf p)).cutover with
      | some c => if portOf (engineOf p) c.duty = p ∧ !c.marked then s.abortCutover (engineOf p) 3 else s
      | none => s
    let s := (l.replay.filter fun r => !r.stomped).foldl (fun s r => s.lose .linkDown r.die p r.inPort r.owner r.frame) s
    let s := s.loseAll .linkDown p
    let s := s.collPortLost p false
    s.refreshParent.refreshTransit

/-- The VCs that carry credits. -/
def creditVcs : List Nat := [1, 2, 3, 4, 5, 6, 7]

/-- A port enters TRAINING (R113): sequence numbers and credits start again (R114, R120). -/
def State.startTraining (s : State) (p : Port) : State :=
  let lim := creditVcs.foldl (fun m v => SMap.write 0 m v (BitVec.ofNat 24 (s.fld (Reg.LNK_CREDIT_GRANT.grant p.toNat v)))) []
  s.setLink p { state := .training, cause := (s.link p).cause, trainAt := s.ft, aligned := true, lim := lim }

/-- The conditions of R113 under which a port enters TRAINING. -/
def State.canTrain (s : State) (p : Port) : Bool :=
  s.bit (Reg.LNK_CTL.port_en p.toNat) && (s.engine (engineOf p)).calState == 2 && !s.latched (engineOf p) && !s.trn.dark &&
    match s.carrier p with
    | some n => (s.line (engineOf p) n).locked
    | none => false

/-- A port in TRAINING enters UP once both ends' HELLO and CREDIT have passed (R113). -/
def State.tryUp (s : State) (p : Port) : State :=
  let l := s.link p
  if l.state = .training ∧ l.helloRx ∧ l.helloTx ∧ l.creditRx ∧ l.creditTx then
    let s := s.setLink p { l with state := .up }
    let s := s.raise (Reg.LNK_INT_STATUS.link_up p.toNat)
    s.refreshParent.refreshTransit
  else s

/-! ### Frames received -/

/-- A fence state stops a received frame (Table 5-11). -/
def fenceStopsIn (fence : Nat) (f : Frame) : Bool := fenceStops fence f

/-- The device can receive on a port: its latch is clear, the carrier's light is not taken by a circuit (R90, R102). -/
def State.hears (s : State) (p : Port) : Bool := !s.latched (engineOf p) && !s.isSource p

/-- The lseq of a good sequenced frame is taken and acknowledged (R114). -/
def State.takeLseq (s : State) (p : Port) (f : Frame) : State :=
  let l := s.link p
  if f.isSequenced then
    s.setLink p { l with
      rxLseq := l.rxLseq + 1, ackVal := f.lseq, retryAt := none
      ackDue := match l.ackDue with
        | some t => some t
        | none => some s.ft }
  else s

/-- What a good header carries beside its frame: the acknowledgement and one VC's limit (R114, R120). -/
def State.takeHeader (s : State) (p : Port) (f : Frame) : State :=
  let s := s.ackTo p f.ackLseq
  if f.crValid then s.takeLimit p f.crVc f.crLimit else s

/-- The link layer's part of receiving a frame on a port: whether it is taken in, with the state that leaves. -/
def State.linkIn (s : State) (p : Port) (f : Frame) : State × Bool :=
  let l := s.link p
  if !s.hears p then (s, false)
  else if l.state ≠ .up ∧ f.ftype ≠ ftLinkCtl ∧ f.ftype ≠ ftTime then (s, false)
  else if l.held.isSome then (s.hopErr p 2, false)
  else if f.isSequenced && f.lseq ≠ l.rxLseq then (s.hopErr p 4, false)
  else ((s.takeLseq p f).takeHeader p f, true)

/-- The pool a received frame takes its buffer from. -/
def State.rxPool (s : State) (p : Port) (f : Frame) : Nat := ((s.choosePool (dieOf p) f.cells false).map (·.1)).getD 4

/-- Receives a frame on a port up to the point where its own rule takes over: the link (R113 to R115), the checks of
R112, credits (R121), the fence (Table 5-11) and the mirror rings (R175). An accepted frame's cells have arrived; its rule
frees them. -/
def State.ingress (s : State) (p : Port) (f : Frame) (stamp : Option Stamp := none) : State × Bool :=
  match s.linkIn p f with
  | (s, false) => (s, false)
  | (s, true) =>
    let s := s.pmuEvent 0x04 0x01 p.toNat (some f.vc.toNat)
    let s := s.pmuEvent 0x04 0x03 p.toNat (some f.vc.toNat) f.cells
    if f.malformed then
      (((s.count (Reg.LNK_CNT_MALFORMED.value p.toNat)).raise (Reg.LNK_INT_STATUS.malformed p.toNat)).passCells p f.vc
        f.cells, false)
    else
      let l := s.link p
      let v := f.vc.toNat
      if v ≠ 0 ∧ creditLeft (l.pub.read 0 v) (l.arrived.read 0 v) < f.cells then
        ((s.count (Reg.LNK_CNT_CREDIT_VIOL.value p.toNat)).raise (Reg.LNK_INT_STATUS.credit_viol p.toNat), false)
      else if fenceStopsIn (s.fence p) f then
        ((s.count (Reg.LNK_CNT_FENCE_DROP.value p.toNat)).passCells p f.vc f.cells, false)
      else
        let s := if v = 0 then s
          else s.setLink p { l with arrived := l.arrived.write 0 v (l.arrived.read 0 v + BitVec.ofNat 24 f.cells) }
        (s.mirror false p f (stamp.getD (BitVec.ofInt 80 s.ft16)) (s.rxPool p f) (dieOf p), true)

/-- Runs a frame's own rule on it once it is received, after which a frame that took no buffer frees its cells. -/
def State.consume (s : State) (p : Port) (f : Frame) (rule : State → State) : State :=
  match s.ingress p f with
  | (s, false) => s
  | (s, true) => rule (s.freeCells p f.vc f.cells)

end Sys2Proof.Machine
end

