-- ==== Sys2Proof/Machine/ConfigCore.lean ====
section
/-!
DEFINITION. Writes to registers as such: which windows answer (R422), the ranges of fields (R441), and configuration
writes (R347), with the pending amendment that one may discard.
-/

namespace Sys2Proof.Machine

/-! ### Which windows answer -/

/-- A window answers (R422): GLB and SEC always, the windows of HALTED and of the recovery loader with boot 4 and 5, and
every window once boot has reached 3. -/
def State.answers (s : State) (off : Nat) : Bool :=
  let boot := s.fld Reg.GLB_STATUS.boot
  let w := off / 0x1000000
  if boot = 3 then true
  else if boot = 4 ∨ boot = 5 then w = 0 || w = 0x16 || w = 0x17 || decide (0x18 ≤ w)
  else w = 0 || w = 0x18

/-! ### Ranges (R441) -/

/-- The index of an offset in an array of n registers, if it names one. -/
def arrayIndex? (base n stride off : Nat) : Option Nat :=
  if base ≤ off ∧ off < base + n * stride ∧ (off - base) % stride = 0 then some ((off - base) / stride) else none

/-- The pilot tones of engine f, with heater h's replaced, differ by at least 500 Hz (R64). -/
def State.tonesOk (s : State) (f h v : Nat) : Bool :=
  (List.range 36).all fun k =>
    k = h || decide (5 ≤ s.fld (Reg.OPT_TONE.tone f k) - v) || decide (5 ≤ v - s.fld (Reg.OPT_TONE.tone f k))

/-- A value keeps a field inside bounds. -/
def between (f : Fld) (v : W32) (lo hi : Nat) : Bool := decide (lo ≤ f.of v) && decide (f.of v ≤ hi)

/-- A word written to a register keeps every field inside its stated range (R441). Registers whose rule says what
another value does are not named here. -/
def State.rangeOk (s : State) (off : Nat) (v : W32) : Bool :=
  match off / 0x1000000 with
  | 0x01 =>
    if off = Reg.EPH_SYNC_INTERVAL.addr ∨ off = Reg.EPH_PDELAY_INTERVAL.addr then
      decide (160000 ≤ v.toNat) && decide (v.toNat ≤ 160000000)
    else if off = Reg.EPH_ACT_LEAD.addr then decide (160000 ≤ v.toNat)
    else true
  | 0x02 =>
    let f := (off - 0x02000000) / 0x10000
    match arrayIndex? 0x0200 36 4 (off % 0x10000) with
    | some h => between (Reg.OPT_TONE.tone f h) v 10 400 && s.tonesOk f h (v.toNat % 512)
    | none => true
  | 0x08 =>
    if off = Reg.CORE_RESEQ_CFG.addr then
      between Reg.CORE_RESEQ_CFG.reseq_timeout v 1 255 && between Reg.CORE_RESEQ_CFG.cell_retry_limit v 1 15 &&
        between Reg.CORE_RESEQ_CFG.ct_lead v 1 15
    else true
  | 0x0A => off ≠ Reg.SCH_ARB_CFG.addr || between Reg.SCH_ARB_CFG.quantum v 1 255
  | 0x0C => off ≠ Reg.CNJ_CFGQ_CFG.addr || between Reg.CNJ_CFGQ_CFG.cfgq_interval v 1 65535
  | 0x10 =>
    off ≠ Reg.STK_LB_CFG.addr ||
      (between Reg.STK_LB_CFG.page_weight v 1 255 && between Reg.STK_LB_CFG.depth v 2 4095)
  | 0x12 =>
    if off = Reg.MSF_COMBINE_CFG.addr then between Reg.MSF_COMBINE_CFG.trigger_count v 1 255
    else if off = Reg.MSF_FILTER_CFG.addr ∨ off = Reg.MSF_RSP_TIMEOUT.addr then decide (1 ≤ v.toNat % 256)
    else true
  | 0x14 =>
    off ≠ Reg.ORY_PROG_LEN.addr || (decide (1 ≤ v.toNat % 2 ^ 19) && decide (v.toNat % 2 ^ 19 ≤ 262144))
  | 0x16 =>
    if off = Reg.HLT_AUDIT_CFG.addr then between Reg.HLT_AUDIT_CFG.audit_slots v 0 8
    else if off = Reg.HLT_THERM_CFG.addr then between Reg.HLT_THERM_CFG.coolant_slew v 1 127
    else if off = Reg.HLT_BREAKER_CFG.addr then between Reg.HLT_BREAKER_CFG.limit v 1 15
    else true
  | 0x17 =>
    off ≠ Reg.CFG_AMEND_LEN.addr || (decide (1 ≤ v.toNat % 2 ^ 24) && decide (v.toNat % 2 ^ 24 ≤ 8388608))
  | _ => true

/-- A word that the register's own table accepts: one it says is ignored as a whole is not (Tables 2-9, 5-16, 5-17,
7-10, 11-12, 14-8, 14-15, 14-20 and 16-13). -/
def textOk (off : Nat) (v : W32) : Bool :=
  match off / 0x1000000 with
  | 0x00 =>
    let m := Reg.GLB_CMD_MASK.host.of v ||| Reg.GLB_CMD_MASK.oob.of v ||| Reg.GLB_CMD_MASK.fabric.of v
    off ≠ Reg.GLB_CMD_MASK.addr || (decide (m % 2 = 1) && decide (m / 4 % 2 = 1))
  | 0x01 => off ≠ Reg.EPH_CTL.addr || decide (Reg.EPH_CTL.role.of v ≤ 1)
  | 0x08 =>
    off ≠ Reg.CORE_WITHHOLD_CFG.addr ||
      decide (Reg.CORE_WITHHOLD_CFG.wh_start.of v + 5 * Reg.CORE_WITHHOLD_CFG.wh_step.of v ≤
        Reg.CORE_WITHHOLD_CFG.wh_full.of v)
  | 0x10 => off ≠ Reg.STK_ARB_CFG.addr || (List.range 4).all fun i => decide (v.toNat / 256 ^ i % 256 ≠ 0)
  | 0x16 =>
    if off = Reg.HLT_THRESH.addr then
      decide (Reg.HLT_THRESH.expel.of v < Reg.HLT_THRESH.suspect.of v) &&
        decide (Reg.HLT_THRESH.suspect.of v ≤ Reg.HLT_THRESH.suspect_leave.of v)
    else if off = Reg.HLT_PWR_CFG.addr then decide (Reg.HLT_PWR_CFG.pkg_limit.of v ≤ 1150)
    else if off = Reg.HLT_THERM_CFG.addr then
      decide (Reg.HLT_THERM_CFG.tj_warn.of v ≤ Reg.HLT_THERM_CFG.tj_throttle.of v) &&
        decide (Reg.HLT_THERM_CFG.tj_throttle.of v ≤ 104)
    else true
  | _ =>
    if 0x04000000 ≤ off ∧ off < 0x04200000 then
      if off % 0x1000 = 0x010 then decide (v.toNat % 4 ≠ 3)
      else if off % 0x1000 = 0x014 then
        between (Reg.LNK_RETRY_CFG.ack_delay 0) v 1 25 && between (Reg.LNK_RETRY_CFG.ack_timeout 0) v 1 100 &&
          between (Reg.LNK_RETRY_CFG.retry_limit 0) v 1 8
      else true
    else true

/-! ### The pending amendment -/

/-- The pending amendment is dropped with a cause (R347, R350): it and the objects it carried are disarmed, and both
banks of every object stay as they were. -/
def State.dropAmendment (s : State) (cause : Nat) (ev : AlmEvent) : State :=
  match s.cfg.pendingAmend with
  | none => s
  | some a =>
    let s := (objAmend :: imgObjects a.image).foldl (fun s k =>
      s.setAct k { s.act k with pending := false, state := 0, reason := arNone }) s
    let s := ({ s with cfg.pendingAmend := none }).log 0x17 ev
    let s := s.setFld Reg.CFG_AMEND_STATUS.cause cause
    s.raise Reg.CFG_INT_STATUS.amend_discarded

/-! ### Configuration writes (R347) -/

/-- The rw bits of a register that are configuration. -/
def cfgMask (off : Nat) : Option Nat :=
  match regRow? off with
  | some r => if r.cfg then some r.rw else none
  | none => none

/-- The register is a configuration field. -/
def isConfig (off : Nat) : Bool := (cfgMask off).isSome

/-- What a write that changes the active configuration leaves beside its effect: its REGS entry, drift, the count, the
record, and a pending amendment discarded where the colophon changes. -/
def State.noteConfig (s : State) (off : Nat) (v : W32) : State :=
  let w := v &&& BitVec.ofNat 32 ((cfgMask off).getD 0)
  let shared := s.cfg.sharedRegs.get off
  let s := match shared with
    | some _ => { s with cfg.sharedRegs := s.cfg.sharedRegs.put off w }
    | none => { s with cfg.localRegs := s.cfg.localRegs.put off w }
  let s := (s.setFld Reg.CFG_STATUS.drift 1).count Reg.CFG_LOCAL_WRITES.value
  let s := (s.log 0x17 .configWrite off [w.toNat]).setFld Reg.CFG_STATUS.colophon_busy 1
  let s := s.raise Reg.CFG_INT_STATUS.local_write
  match shared with
  | some old => if old = w then s else s.dropAmendment 13 .amendmentDiscarded
  | none => s

/-- A write to a configuration field: discarded and logged with local_write_en 0, else applied (R347). -/
def State.configWrite (s : State) (off : Nat) (v : W32) (effect : State → State) : State :=
  if s.bit Reg.CFG_CTL.local_write_en then (effect s).noteConfig off v
  else s.log 0x17 .configWriteDiscarded off [v.toNat]

/-- A register write whose effect is its rule's: nothing where the window does not answer, a register-access event
where a field would leave its range, and R347 where the register is configuration. -/
def State.regWrite (s : State) (off : Nat) (v : W32) (effect : State → State) : State :=
  if !s.answers off then s
  else if !s.rangeOk off v then s.regAccess off
  else if !textOk off v then s
  else if isConfig off then s.configWrite off v effect
  else effect s

/-- Stores a register's rw fields from a written word and clears the rw1c bits written as 1 (R10). -/
def State.storeFields (s : State) (off : Nat) (v : W32) : State :=
  match regRow? off with
  | none => s
  | some r =>
    let old := s.reg off
    let rw := BitVec.ofNat 32 r.rw
    let w1c := BitVec.ofNat 32 r.rw1c
    s.setReg off ((old &&& ~~~rw &&& ~~~(w1c &&& v)) ||| (v &&& rw))

end Sys2Proof.Machine
end

