-- ==== Sys2Proof/Machine/SwitchCore.lean ====
section
/-!
DEFINITION. The way of a received frame through the switch (R130, R131, R154): its shelf buffer, the egress port its
coordinates name, and the frames that have no way on (R24, Table 6-1).
-/

namespace Sys2Proof.Machine

/-- Takes a shelf buffer for a received frame (R154, R166). R167 keeps a buffer free for it; were every pool full, P4
would still take it. -/
def State.park (s : State) (p : Port) (f : Frame) (stamp : Stamp) : State × Nat :=
  s.putBuf (dieOf p) (s.rxPool p f)
    { inPort := some p, vc := f.vc, stamp := stamp, cells := f.cells, dests := [], lastOwner := 0 }

/-- Places a descriptor with an egress port for a buffer (R154, R171), the frame as it will leave. -/
def State.attach (s : State) (k : Nat) (q : Port) (f : Frame) : State :=
  match s.bufs.get k with
  | none => s
  | some b =>
    let (s, d) := s.newDest (flowSrc k b) b.cells q f
    let top := if b.dests.isEmpty || decide (b.lastOwner.toNat < q.toNat) then q else b.lastOwner
    { s with bufs := s.bufs.put k { b with dests := b.dests ++ [d], lastOwner := top } }

/-- A frame with a buffer leaves by an egress port, or meets the outcome of a port that is DOWN or fenced (R126, R128). -/
def State.sendOn (s : State) (k : Nat) (p q : Port) (f : Frame) : State :=
  let s := if p = q then s.count Reg.FWD_CNT_HAIRPIN.value else s
  if (s.link q).state = .down then (s.freeBuf k).lose .linkDown (dieOf p) q (some p) .plain f
  else if fenceStops (s.fence q) f then (s.freeBuf k).lose .fenced (dieOf p) q (some p) .plain f
  else s.attach k q { f with hops := f.hops + 1 }

/-- Coordinate routing (R131): the catalogue's port, or the home port. -/
def State.forwardBuf (s : State) (k : Nat) (p : Port) (f : Frame) : State :=
  let s := match s.fwd.catalogue.get f.dnode.toNat with
    | some _ => s.pmuEvent 0x06 0x01 (dieOf p)
    | none => s
  s.sendOn k p (s.route f.dnode) f

/-- A frame for another spine or plane (R24): discarded and counted, and the source of a memory request is told. -/
def State.noPath (s : State) (p : Port) (f : Frame) : State :=
  let s := s.count Reg.FWD_CNT_NO_PATH.value
  if f.ftype = ftMemReq then
    (s.count (Reg.LNK_CNT_PATHFAIL.value p.toNat)).pathFailTo (dieOf p) f p pfNoPath
  else s

/-- A frame that Table 6-1 discards. -/
def State.dirDrop (s : State) : State := s.count Reg.FWD_CNT_DIR_DROP.value

/-- A routed frame is received on a port and Table 6-1 applies: no path, its rule where it names this spine, or its rule
where it is routed by coordinates. The rules act on the frame's buffer, by key. -/
def State.routed (s : State) (p : Port) (f : Frame) (stamp : Stamp) (mine : State → Nat → State)
    (onward : State → Nat → State) : State :=
  match s.ingress p f (some stamp) with
  | (s, false) => s
  | (s, true) =>
    let (s, k) := s.park p f stamp
    if !f.dclass then onward s k
    else if s.mine f then mine s k
    else (s.freeBuf k).noPath p f

end Sys2Proof.Machine
end

