-- ==== Sys2Proof/Machine/Meters.lean ====
section
/-!
DEFINITION. Meters and the hold areas (R185 to R190): buckets, the verdict on a frame, and the refill tick.
-/

namespace Sys2Proof.Machine

/-- The value of a meter or weight register in effect: a written one waits for the next tick (R180, R185). -/
def State.schReg (s : State) (off : Nat) : W32 := (s.sch.schOld.get off).getD (s.reg off)

/-- A field of a register in effect. -/
def State.schFld (s : State) (f : Fld) : Nat := f.of (s.schReg f.off)

/-- A register is written; the old value stays in effect until the tick. -/
def State.schWrite (s : State) (off : Nat) (v : W32) : State :=
  { s.storeFields off v with sch.schOld := s.sch.schOld.put off (s.schReg off) }

/-! ### Buckets -/

/-- The profile a node names (R187): byte j of SCH_NODE_PROFILEm for node 4m + j. -/
def State.nodeProfile (s : State) (n : Nat) : Nat :=
  (s.schReg (Reg.SCH_NODE_PROFILE.addr (n / 4))).toNat / 256 ^ (n % 4) % 256

/-- Rate and full bucket of a profile, of a partition's two buckets, and of the VC7 policer (R186). -/
def State.profRate (s : State) (i : Nat) : Nat := s.schFld (Reg.SCH_REQ_PROFILE.rate (i - 1))
def State.profFull (s : State) (i : Nat) : Nat := 256 * s.schFld (Reg.SCH_REQ_PROFILE.burst (i - 1))
def State.partFull (s : State) (q : Nat) : Nat × Nat :=
  (256 * s.schFld (Reg.SCH_PART_BURST.cbs q), 256 * s.schFld (Reg.SCH_PART_BURST.pbs q))
def State.vc7Full (s : State) : Nat := 256 * s.schFld Reg.SCH_VC7_POLICE.burst

/-- The tokens of a node's bucket, a partition's pair and a port's VC7 bucket. -/
def State.nodeTokens (s : State) (n : Nat) : Nat :=
  match s.sch.nodeTok.get n with
  | some t => t
  | none => (s.sch.profTok.get (s.nodeProfile n)).getD (s.profFull (s.nodeProfile n))
def State.partTokens (s : State) (q : Nat) : Nat × Nat := (s.sch.partTok.get q).getD (s.partFull q)
def State.vc7Tokens (s : State) (p : Nat) : Nat :=
  match s.sch.vc7Tok.get p with
  | some t => t
  | none => s.sch.vc7Rest.getD s.vc7Full

/-! ### Verdicts -/

/-- What a meter does with a frame. -/
inductive Verdict where
  | pass | hold | drop
  deriving DecidableEq, Repr

/-- A memory request at its node's bucket (R187). The bucket is that of the snode field, also where it names a spine
(log 28). -/
def State.reqMeter (s : State) (f : Frame) : State × Verdict :=
  let n := f.snode.toNat
  if !s.bit Reg.SCH_CTL.req_meter_en || s.nodeProfile n = 0 then (s, .pass)
  else
    let c := 256 * f.cells
    if c ≤ s.nodeTokens n then ({ s with sch.nodeTok := s.sch.nodeTok.put n (s.nodeTokens n - c) }, .pass) else (s, .hold)

/-- A BULK frame at its partition's buckets (R189). -/
def State.bulkMeter (s : State) (f : Frame) : State × Verdict :=
  let q := f.partition.toNat
  if !s.bit Reg.SCH_CTL.bulk_meter_en || s.schFld (Reg.SCH_PART_CTL.meter_en q) = 0 then (s, .pass)
  else
    let c := 256 * f.cells
    let (tc, tp) := s.partTokens q
    if f.ooc then
      if c ≤ tc ∧ c ≤ tp then ({ s with sch.partTok := s.sch.partTok.put q (tc - c, tp - c) }, .pass) else (s, .drop)
    else if c ≤ tp then
      ({ s with sch.partTok := s.sch.partTok.put q (if c ≤ tc then tc - c else tc, tp - c) }, .pass)
    else (s, .hold)

/-- The verdict on a frame of either kind. -/
def State.meter (s : State) (f : Frame) : State × Verdict := if f.ftype = ftBulk then s.bulkMeter f else s.reqMeter f

/-- Two frames share a meter: requests of one node, or BULK frames of one partition. -/
def sameMeter (a b : Frame) : Bool :=
  a.ftype == b.ftype && (if a.ftype = ftBulk then a.partition == b.partition else a.snode == b.snode)

/-- Frames a hold area has room for (R188). -/
def holdRoom : Nat := 8192

/-- An entry of a hold area meets its meter. `kept` are the entries before it that stay; an entry for which there is no
room has not left its receive stage and stays too. A frame that may be lost is never delayed (R189); others wait behind
the held frames of their meter (R188). Answers whether it stays. -/
def State.meterEntry (s : State) (kept : List Hold) (h : Hold) (go : State → Hold → State) : State × Bool :=
  if holdRoom ≤ kept.length then (s, true)
  else if !h.frame.ooc && kept.any (fun k => sameMeter k.frame h.frame) then (s, true)
  else
    match s.meter h.frame with
    | (s, .pass) => (go s h, false)
    | (s, .drop) => ((s.freeBuf h.buf).count (Reg.SCH_CNT_OOC_DROP.value h.port.toNat), false)
    | (s, .hold) => (s, true)

/-- The hold area of a die. -/
def State.holdOf (s : State) (d : Nat) : List Hold := s.sch.hold.read [] d
def State.setHold (s : State) (d : Nat) (hs : List Hold) : State := { s with sch.hold := s.sch.hold.write [] d hs }

/-- A received MEM_REQ or BULK frame meets its meter (R187, R189): it goes on, is dropped, or waits. -/
def State.meterIn (s : State) (h : Hold) (go : State → Hold → State) : State :=
  let d := dieOf h.port
  let hs := s.holdOf d
  match s.meterEntry hs h go with
  | (s, false) => s
  | (s, true) =>
    let s := s.setHold d (hs ++ [h])
    let s := (s.count (Reg.SCH_CNT_HELD.value h.port.toNat)).pmuEvent 0x0A 0x01 d (some h.frame.vc.toNat)
    if hs.length + 1 = holdRoom then s.raise Reg.SCH_INT_STATUS.hold_full else s

/-! ### The refill tick -/

/-- Fixes the tokens of the buckets whose parameters change at this tick, so that a bucket is never reset (R185). -/
def State.fixBuckets (s : State) (off : Nat) : State :=
  if off = Reg.SCH_VC7_POLICE.addr then { s with sch.vc7Rest := some (s.sch.vc7Rest.getD s.vc7Full) }
  else
    match arrayAt Reg.SCH_REQ_PROFILE.addr 255 4 off with
    | some k =>
      { s with sch.profTok := s.sch.profTok.put (k + 1) ((s.sch.profTok.get (k + 1)).getD (s.profFull (k + 1))) }
    | none =>
      match arrayAt Reg.SCH_NODE_PROFILE.addr 32768 4 off with
      | some m =>
        (List.range 4).foldl (fun s j =>
          if s.nodeProfile (4 * m + j) = 0 then s
          else { s with sch.nodeTok := s.sch.nodeTok.put (4 * m + j) (s.nodeTokens (4 * m + j)) }) s
      | none =>
        match arrayAt (fun q => Reg.SCH_PART_BURST.addr q) 4096 16 off with
        | some q => { s with sch.partTok := s.sch.partTok.put q (s.partTokens q) }
        | none => s
where
  /-- The index of an offset in an array of registers. -/
  arrayAt (at_ : Nat → Nat) (n stride off : Nat) : Option Nat :=
    if at_ 0 ≤ off ∧ off < at_ 0 + n * stride ∧ (off - at_ 0) % stride = 0 then some ((off - at_ 0) / stride) else none

/-- One refill of a bucket (R186). -/
def refill (t rate full : Nat) : Nat := min (t + rate) full

/-- Refills every bucket; a full one is not listed. -/
def State.refillAll (s : State) : State :=
  let prof := s.sch.profTok.filterMap fun e =>
    let t := refill e.2 (s.profRate e.1) (s.profFull e.1)
    if t = s.profFull e.1 then none else some (e.1, t)
  let node := s.sch.nodeTok.filterMap fun e =>
    let i := s.nodeProfile e.1
    if i = 0 then none
    else
      let t := refill e.2 (s.profRate i) (s.profFull i)
      if t = (SMap.get prof i).getD (s.profFull i) then none else some (e.1, t)
  let part := s.sch.partTok.filterMap fun e =>
    let (fc, fp) := s.partFull e.1
    let t := (refill e.2.1 (s.schFld (Reg.SCH_PART_CIR.cir e.1)) fc, refill e.2.2 (s.schFld (Reg.SCH_PART_PIR.pir e.1)) fp)
    if t = (fc, fp) then none else some (e.1, t)
  let rate := s.schFld Reg.SCH_VC7_POLICE.rate
  let rest := match s.sch.vc7Rest with
    | some t => if refill t rate s.vc7Full = s.vc7Full then none else some (refill t rate s.vc7Full)
    | none => none
  let vc7 := s.sch.vc7Tok.filterMap fun e =>
    let t := refill e.2 rate s.vc7Full
    if t = rest.getD s.vc7Full then none else some (e.1, t)
  { s with sch.profTok := prof, sch.nodeTok := node, sch.partTok := part, sch.vc7Tok := vc7, sch.vc7Rest := rest }

/-- The held frames of a die that their meters let go, in order (R188). -/
def releaseHeld (go : State → Hold → State) : List Hold → List Hold → State → State × List Hold
  | kept, [], s => (s, kept)
  | kept, h :: hs, s =>
    match s.meterEntry kept h go with
    | (s, true) => releaseHeld go (kept ++ [h]) hs s
    | (s, false) => releaseHeld go kept hs s

/-- The refill tick (R185, R186): written parameters take effect, buckets refill, and held frames leave in die order. -/
def State.refillTick (s : State) (go : State → Hold → State) : State :=
  let s := s.sch.schOld.foldl (fun s e => s.fixBuckets e.1) s
  let s := { s with sch.schOld := [] }
  (List.range 4).foldl (fun s d =>
    let hs := s.holdOf d
    let (s, kept) := releaseHeld go [] hs (s.setHold d [])
    s.setHold d kept) s.refillAll

/-! ### Writes of parameters (R185, R187, R189, R190) -/

/-- A word may be written to a meter register: a profile's burst is at least 2 cells; a partition keeps pir ≥ cir,
pbs ≥ cbs and both bursts at least 255 cells; the VC7 burst is at least 255 cells. -/
def State.meterOk (s : State) (off : Nat) (v : W32) : Bool :=
  let pOk (q cir pir cbs pbs : Nat) : Bool := decide (q < 4096) && decide (cir ≤ pir) && decide (cbs ≤ pbs) && decide (255 ≤ cbs)
  let inArr (base n stride : Nat) : Bool := decide (base ≤ off) && decide (off < base + n * stride)
  if off = Reg.SCH_VC7_POLICE.addr then decide (255 ≤ Reg.SCH_VC7_POLICE.burst.of v)
  else if inArr (Reg.SCH_REQ_PROFILE.addr 0) 255 4 then decide (2 ≤ (Reg.SCH_REQ_PROFILE.burst 0).of v)
  else if inArr (Reg.SCH_PART_CIR.addr 0) 4096 16 then
    let q := (off - Reg.SCH_PART_CIR.addr 0) / 16
    let cir := s.fld (Reg.SCH_PART_CIR.cir q)
    let pir := s.fld (Reg.SCH_PART_PIR.pir q)
    let cbs := s.fld (Reg.SCH_PART_BURST.cbs q)
    let pbs := s.fld (Reg.SCH_PART_BURST.pbs q)
    match (off - Reg.SCH_PART_CIR.addr 0) % 16 / 4 with
    | 0 => pOk q ((Reg.SCH_PART_CIR.cir q).of v) pir cbs pbs
    | 1 => pOk q cir ((Reg.SCH_PART_PIR.pir q).of v) cbs pbs
    | 2 => pOk q cir pir ((Reg.SCH_PART_BURST.cbs q).of v) ((Reg.SCH_PART_BURST.pbs q).of v)
    | _ => true
  else true

/-- The registers of R185. -/
def isMeterReg (off : Nat) : Bool :=
  off == Reg.SCH_VC7_POLICE.addr ||
    (decide (Reg.SCH_REQ_PROFILE.addr 0 ≤ off) && decide (off < Reg.SCH_REQ_PROFILE.addr 255)) ||
    (decide (Reg.SCH_NODE_PROFILE.addr 0 ≤ off) && decide (off < Reg.SCH_NODE_PROFILE.addr 32768)) ||
    (decide (Reg.SCH_PART_CIR.addr 0 ≤ off) && decide (off < Reg.SCH_PART_CIR.addr 4096))

/-- A weight register's fields are all at least 1 (R180). -/
def weightOk (b : Bool) (v : W32) : Bool :=
  (List.range (if b then 3 else 4)).all fun i => decide (v.toNat / 256 ^ i % 256 ≠ 0)

end Sys2Proof.Machine
end

