-- ==== Sys2Proof/Machine/FwdCore.lean ====
section
/-!
DEFINITION. The tables of forwarding (chapter 6): the location catalogue (R134 to R141), the address index (R142 to R145)
and multicast trees (R147).
-/

namespace Sys2Proof.Machine

/-! ### The location catalogue -/

/-- The bucket of a node under a seed (R134). -/
def catBucket (seed n : Nat) : Nat := n * (Nat.lor seed 1) % 2 ^ 17 / 16

/-- Entries of the overflow (R139). -/
def overflowCount (c : SMap CatEntry) : Nat := (c.filter fun e => e.2.overflow).length

/-- Entries held in a bucket under a seed. -/
def bucketCount (seed b : Nat) (c : SMap CatEntry) : Nat :=
  (c.filter fun e => !e.2.overflow && catBucket seed e.1 = b).length

/-- Prefixes in the trie. -/
def State.trieCount (s : State) : Nat := (s.fwd.index.filter fun e => e.inTrie).length

/-- The overflow takes no further entry: it holds 1,024, or the trie has no place left (R139, R143). -/
def State.overflowFull (s : State) : Bool :=
  decide (1024 ≤ overflowCount s.fwd.catalogue) || decide (32768 ≤ s.trieCount + overflowCount s.fwd.catalogue)

def State.catSeed (s : State) : Nat := s.fld Reg.FWD_CAT_ACTIVE_SEED.seed

/-- Stores an entry of a node. -/
def State.putEntry (s : State) (n : Nat) (e : CatEntry) : State := { s with fwd.catalogue := s.fwd.catalogue.put n e }

/-- Inserts a node's first entry (R134, R139); answers whether there was room. -/
def State.catInsert (s : State) (n : Nat) (e : CatEntry) : State × Bool :=
  if bucketCount s.catSeed (catBucket s.catSeed n) s.fwd.catalogue < 8 then (s.putEntry n { e with overflow := false }, true)
  else if s.overflowFull then (s.raise Reg.FWD_INT_STATUS.cat_full, false)
  else
    let s' := s.putEntry n { e with overflow := true }
    if s.fwd.ovfRaised then (s', true)
    else (({ s' with fwd.ovfRaised := true }).raise Reg.FWD_INT_STATUS.rehash_req, true)

/-- announce of R136 for an accepted announcement that arrived on a port. -/
def State.announceNode (s : State) (n : Nat) (inc : BitVec 16) (p : Port) (withdraw : Bool) (downPort : Nat) : State :=
  let home := s.cable (n / 256)
  let target := if withdraw then home else p
  match s.fwd.catalogue.get n with
  | none => if withdraw then s else (s.catInsert n { port := target, incarnation := inc, hit := true }).1
  | some e =>
    let d := inc - e.incarnation
    if 32768 ≤ d.toNat then s.count Reg.FWD_CNT_ANN_STALE.value
    else if d ≠ 0 then
      s.putEntry n { e with port := target, incarnation := inc, frozen := false, hit := true, miss := false }
    else if target = e.port then s.putEntry n { e with hit := true, miss := false }
    else if withdraw ∧ p = e.port then s.putEntry n { e with port := home, hit := true, miss := false }
    else
      let s := s.putEntry n { e with frozen := true }
      let s := (s.setFld Reg.FWD_CONFLICT.node n).setFld Reg.FWD_CONFLICT.port p.toNat
      let s := (s.count Reg.FWD_CNT_CONFLICT.value).log 0x06 .catalogueConflict p.toNat [n, inc.toNat, downPort]
      s.raise Reg.FWD_INT_STATUS.conflict

/-- One entry at a sweep (R138): the entry kept, or none where it has aged. -/
def sweepEntry (e : CatEntry) : Option CatEntry :=
  if e.frozen then some e
  else if e.hit then some { e with hit := false, miss := false }
  else if !e.miss then some { e with miss := true }
  else none

/-- The catalogue rebuilt under a seed (R140): ascending nodes take free places of their buckets, the rest the
overflow. -/
def rebuild (seed : Nat) : SMap CatEntry → SMap CatEntry → SMap CatEntry
  | acc, [] => acc
  | acc, (n, e) :: c =>
    rebuild seed (acc ++ [(n, { e with overflow := decide (8 ≤ bucketCount seed (catBucket seed n) acc) })]) c

/-! ### The address index -/

/-- The prefix of length n of an address. -/
def prefixOf (a : W64) (n : Nat) : Nat := a.toNat / 2 ^ (64 - n)

/-- An entry matches an address. -/
def IdxEntry.matches (e : IdxEntry) (a : W64) : Bool := prefixOf a e.len.toNat = prefixOf e.addr e.len.toNat

/-- The length filter's bit for a length and an address (R143). -/
def State.lengthBit (s : State) (a : W64) (n : Nat) : Bool :=
  s.fwd.index.any fun e => e.len.toNat = n && prefixOf a (min n 16) = prefixOf e.addr (min n 16)

/-- The longest match over entries that a test picks. -/
def longest (es : List IdxEntry) : Option IdxEntry :=
  es.foldl (fun o e =>
    match o with
    | none => some e
    | some b => if b.len.toNat < e.len.toNat then some e else some b) none

/-- Hash probes of a lookup (R144): one per set map bit visited, from the longest, down to the trie's match or the
first probe that hits. -/
def State.idxProbes (s : State) (a : W64) : Nat :=
  let es := s.fwd.index.filter fun e => e.matches a
  let trie := ((longest (es.filter fun e => e.inTrie)).map fun e => e.len.toNat).getD 0
  let hash := ((longest (es.filter fun e => !e.inTrie)).map fun e => e.len.toNat).getD 0
  let low := if trie < hash then hash else trie + 1
  ((List.range 65).filter fun n => decide (low ≤ n) && decide (1 ≤ n) && s.lengthBit a n).length

/-- index_lookup of R144; no entry is a miss. -/
def State.idxLookup (s : State) (a : W64) (q : BitVec 12) : Option IdxEntry :=
  if !s.bit Reg.FWD_CTL.idx_en then none
  else
    match longest (s.fwd.index.filter fun e => e.matches a) with
    | some e => if e.partition = 0 ∨ e.partition = q then some e else none
    | none => none

/-- s of R145: the address bits below the prefix. -/
def IdxEntry.below (e : IdxEntry) (a : W64) : Nat := a.toNat % 2 ^ (64 - e.len.toNat)

/-- The coordinate address a NODE entry gives (R145), and the window offset of a SELF entry. -/
def IdxEntry.coord (e : IdxEntry) (a : W64) : W64 := BitVec.ofNat 64 (e.node.toNat * 2 ^ 46 + Nat.lor e.base.toNat (e.below a))
def IdxEntry.offset (e : IdxEntry) (a : W64) : Nat := Nat.lor e.base.toNat (e.below a)

def kindNode : BitVec 2 := 0
def kindSelf : BitVec 2 := 1
def kindTree : BitVec 2 := 2

/-- The bucket of a prefix (R143). -/
def idxBucket (seed : Nat) (e : IdxEntry) : Nat :=
  Nat.xor e.addr.toNat e.len.toNat * Nat.lor seed 1 % 2 ^ 64 / 2 ^ 49

/-- Places a set of prefixes, in order, in buckets of 8 or the trie (R143); none where they do not fit beside the
catalogue overflow. -/
def placeIndex (seed : Nat) (es : List IdxEntry) (overflow : Nat) : Option (List IdxEntry) :=
  let placed := es.foldl (fun acc e =>
    let b := idxBucket seed e
    let full := 8 ≤ (acc.filter fun x => !x.inTrie && idxBucket seed x = b).length
    acc ++ [{ e with inTrie := decide full }]) []
  if (placed.filter fun e => e.inTrie).length + overflow ≤ 32768 ∧ (placed.filter fun e => !e.inTrie).length ≤ 262144 then
    some placed
  else none

/-! ### Trees -/

def State.tree (s : State) (t : Nat) : Tree := s.fwd.trees.read { } t
def State.setTree (s : State) (t : Nat) (x : Tree) : State := { s with fwd.trees := s.fwd.trees.write { } t x }

/-- The tree a partition's frame may use (R147, R148). -/
def State.treeFor (s : State) (t : BitVec 16) (q : BitVec 12) : Option Tree :=
  let x := s.tree t.toNat
  if t ≠ 0xFFFF ∧ x.valid ∧ (x.partition = 0 ∨ x.partition = q) then some x else none

/-- The ports of a tree whose flag bit i is set (Table 6-7). -/
def Tree.flagged (x : Tree) (i : Nat) : BitVec 512 :=
  allPorts.foldl (fun m p => if x.flags.getLsbD (4 * p.toNat + i) then m ||| portBit p else m) 0

/-- The 84 words of a tree (Table 6-6). -/
def Tree.word (x : Tree) (i : Nat) : W32 :=
  let n (b : Bool) : Nat := if b then 1 else 0
  if i = 0 then
    BitVec.ofNat 32 (n x.valid + 2 * n x.bound + x.partition.toNat * 2 ^ 4 +
      (if x.bound then x.group.toNat else 0x3FFF) * 2 ^ 16)
  else if i = 1 then BitVec.ofNat 32 (maskPorts x.mask).length
  else if i < 4 then 0
  else if i < 20 then BitVec.ofNat 32 (x.mask.toNat / 2 ^ (32 * (i - 4)))
  else BitVec.ofNat 32 (x.flags.toNat / 2 ^ (32 * (i - 20)))

/-- The tree that 84 words spell. -/
def treeOf (w : Nat → W32) : Tree :=
  { valid := (w 0).getLsbD 0, bound := false, partition := BitVec.ofNat 12 ((w 0).toNat / 2 ^ 4), group := 0x3FFF,
    mask := (List.range 16).foldl (fun m i => m ||| (BitVec.setWidth 512 (w (4 + i)) <<< (32 * i))) 0,
    flags := (List.range 64).foldl (fun m i => m ||| (BitVec.setWidth 2048 (w (20 + i)) <<< (32 * i))) 0 }

end Sys2Proof.Machine
end

