-- ==== Sys2Proof/Machine/Canon.lean ====
section
/-!
DEFINITION. The active configuration (R345): the canonical form of its sections, the colophon and the local digest (R346),
and what a change of it leaves (R347).
-/

namespace Sys2Proof.Machine

/-! ### Images of programs within a section -/

/-- Bytes of a program image by its header (Table 13-7). -/
def progLength (b : List Byte) : Nat := 128 + 4 * numAt b 8 4 + numAt b 12 4 + 114

/-- The first images of a PROGRAMS section, and what follows them. -/
def progImages : Nat → List Byte → List (List Byte) × List Byte
  | 0, bs => ([], bs)
  | n + 1, bs =>
    let k := progLength bs
    let r := progImages n (bs.drop k)
    (sliceBytes bs 0 k :: r.1, r.2)

/-- The images of a PROGRAMS section, and the ids it unloads (Table 15-3). -/
def progsOf (bs : List Byte) : List (List Byte) × List Nat :=
  let r := progImages (min (numAt bs 0 4) 64) (bs.drop 4)
  (r.1, (List.range (numAt r.2 0 4)).map fun i => numAt r.2 (4 + 2 * i) 2)

/-! ### Which scope an entry belongs to -/

/-- The SHARED section of a code, as loaded (empty: none). -/
def State.sharedSection (s : State) (code : Nat) : List Byte := (s.cfg.sections.get (2 * code + 1)).getD []

/-- The keys that the SHARED section of a code holds. -/
def State.sharedKeys (s : State) (code : Nat) : List Nat :=
  let bs := s.sharedSection code
  match code with
  | 0x06 => (recordsOf 340 bs).map fun r => numAt r 0 4
  | 0x07 => (recordsOf 24 bs).map fun r => numAt r 0 4
  | 0x09 => (transitPerms bs).map fun e => e.1
  | 0x0A => (gateRecs bs.length bs).map fun r => r.port
  | 0x0D => (progsOf bs).1.map fun b => numAt b 4 2
  | _ => []

/-- An entry belongs to a scope: SHARED where the SHARED section holds its key, else LOCAL. -/
def State.inScope (s : State) (code scope key : Nat) : Bool := (s.sharedKeys code).contains key == decide (scope = 1)

/-! ### Canonical sections -/

/-- REGS entries of a scope. -/
def regsBytes (m : SMap W32) : List Byte := m.flatMap fun e => leBytes 4 e.1 ++ leBytes 4 e.2.toNat

/-- Unbound trees of a scope. -/
def State.treesBytes (s : State) (scope : Nat) : List Byte :=
  (s.fwd.trees.filter fun e => !e.2.bound && s.inScope 0x06 scope e.1).flatMap fun e =>
    leBytes 4 e.1 ++ (List.range 84).flatMap fun i => leBytes 4 (e.2.word i).toNat

/-- The regions that are installed, by index. -/
def State.regionsListed (s : State) : List Nat :=
  (s.regs.filter fun e => decide (Reg.STK_REGION_W0.addr 0 ≤ e.1) && decide (e.1 < Reg.STK_REGION_W0.addr 4096) &&
    decide (e.1 % 32 = Reg.STK_REGION_W0.addr 0 % 32) && e.2.getLsbD 0).map fun e => (e.1 - Reg.STK_REGION_W0.addr 0) / 32

/-- Regions of a scope: words 0 to 4, with the read-only bits of word 0 zero. -/
def State.regionsBytes (s : State) (scope : Nat) : List Byte :=
  (s.regionsListed.filter fun r => s.inScope 0x07 scope r).flatMap fun r =>
    leBytes 4 r ++ (List.range 5).flatMap fun w =>
      let v := s.reg (Reg.STK_REGION_W0.addr r + 4 * w)
      leBytes 4 (if w = 0 then (v &&& 0x3FFFFFF2).toNat else v.toNat)

/-- The bytes of a permutation, and of a calendar entry or a gate entry. -/
def State.permBytes (s : State) (i : Nat) : List Byte :=
  (List.range 8).flatMap fun w => leBytes 4 (s.reg (Reg.TRN_PERM.addr (8 * i + w))).toNat
def entriesBytes (n : Nat) (b : Bank) : List Byte :=
  (List.range b.len).flatMap fun i => leBytes n ((SMap.get b.ent i).getD 0).toNat

/-- The SHARED TRANSIT section holds the calendar. -/
def State.calShared (s : State) : Bool := decide (0 < numAt (s.sharedSection 0x09) 10 2)

/-- TRANSIT of a scope: its permutations, and the calendar of the active bank, or of the section until it fires. -/
def State.transitBytes (s : State) (scope : Nat) : List Byte :=
  let old := (s.cfg.sections.get (2 * 0x09 + scope)).getD []
  let ps := s.trn.committed.filter fun e => s.inScope 0x09 scope e.1
  let mine := s.calShared == decide (scope = 1)
  let live := s.calActive.on && mine
  let base := if live then s.calActive.base else transitBase old
  let n := if live then s.calActive.len else if s.calActive.on then 0 else (transitEntries old).length
  let es := if live then entriesBytes 32 s.calActive
    else if s.calActive.on then [] else (transitEntries old).flatMap fun e => leBytes 32 e.toNat
  leBytes 8 base ++ leBytes 2 ps.length ++ leBytes 2 n ++ leBytes 4 0 ++
    (ps.flatMap fun e => leBytes 4 e.1 ++ s.permBytes e.1) ++ es

/-- GATES of a scope, by port: active banks, or the section's lists until they fire. -/
def State.gatesBytes (s : State) (scope : Nat) : List Byte :=
  let old := gateRecs ((s.cfg.sections.get (2 * 0x0A + scope)).getD []).length
    ((s.cfg.sections.get (2 * 0x0A + scope)).getD [])
  (List.range 512).flatMap fun p =>
    let b := s.gateActive.read { } p
    let head (n base : Nat) : List Byte := leBytes 2 p ++ leBytes 2 n ++ leBytes 4 0 ++ leBytes 8 base
    if b.on then (if s.inScope 0x0A scope p then head b.len b.base ++ entriesBytes 8 b else [])
    else
      match old.find? fun r => r.port = p with
      | some r => head r.entries.length r.base ++ r.entries.flatMap fun e => leBytes 8 e.toNat
      | none => []

/-- The programs of a scope, by id, each as its id and the measurement of its image (R313). -/
def State.programsBytes (s : State) (scope : Nat) : List Byte :=
  let ps := (s.ory.progs.map fun e => e.2).filter fun p => s.inScope 0x0D scope p.id.toNat
  let byId : SMap (List Byte) := ps.foldl (fun m p => SMap.put m p.id.toNat p.meas) []
  leBytes 4 byId.length ++ byId.flatMap fun e => leBytes 2 e.1 ++ e.2

/-- The access table, as it stands, in the SHARED section where there is one, else in the LOCAL one (R277). -/
def State.accessBytes (s : State) : List Byte :=
  (List.range 256).flatMap fun n => (List.range 3).flatMap fun w => leBytes 4 (s.reg (Reg.MSF_ACCESS_BASE.addr n + 4 * w)).toNat

/-- The canonical form of a section that is active, of a code and scope (R345). -/
def State.canonical (s : State) (code scope : Nat) : Option (List Byte) :=
  let old := s.cfg.sections.get (2 * code + scope)
  let live (bs : List Byte) (empty : Nat) : Option (List Byte) :=
    if bs.length ≤ empty ∧ old.isNone then none else some bs
  match code with
  | 0x01 => live (regsBytes (if scope = 1 then s.cfg.sharedRegs else s.cfg.localRegs)) 0
  | 0x06 => live (s.treesBytes scope) 0
  | 0x07 => live (s.regionsBytes scope) 0
  | 0x08 =>
    let shared := (s.cfg.sections.get (2 * 0x08 + 1)).isSome
    if shared == decide (scope = 1) && (old.isSome || !allZero s.accessBytes) then some s.accessBytes else none
  | 0x09 => live (s.transitBytes scope) 16
  | 0x0A => live (s.gatesBytes scope) 0
  | 0x0B =>
    if old.isSome || (decide (scope = 0) && (s.cfg.sections.get (2 * 0x0B + 1)).isNone && s.trn.umbraMap ≠ 0) then
      some (leBytes 32 s.trn.umbraMap.toNat)
    else none
  | 0x0D => live (s.programsBytes scope) 4
  | _ => old

/-- The active sections of a scope in the order of their codes, each with its code and length (R346). -/
def State.scopeBytes (s : State) (scope : Nat) : List Byte :=
  (List.range 17).flatMap fun code =>
    match s.canonical code scope with
    | some c => leBytes 2 code ++ leBytes 4 c.length ++ c
    | none => []

/-- The firmware measurement (R387), as SEC_FW_MEASi holds it. -/
def State.fwMeas (s : State) : List Byte := (List.range 16).flatMap fun i => leBytes 4 (s.reg (Reg.SEC_FW_MEAS.addr i)).toNat

/-- digest of R346: the colophon for scope 1, the local digest for scope 0. -/
def State.digest (s : State) (scope : Nat) : List Byte :=
  Config.shake256 (leBytes 4 (s.reg Reg.CFG_DOMAIN.addr).toNat ++ s.fwMeas ++ s.scopeBytes scope) 32

/-! ### Changes -/

/-- The active configuration changed since `before`: the digests are recomputed (R346), and a change of the colophon
discards the pending amendment, whose base no longer matches (R347). -/
def State.reconfigured (s before : State) : State :=
  let shared := s.scopeBytes 1 ≠ before.scopeBytes 1
  if shared ∨ s.scopeBytes 0 ≠ before.scopeBytes 0 then
    let s := s.setFld Reg.CFG_STATUS.colophon_busy 1
    if shared then s.dropAmendment 13 .amendmentDiscarded else s
  else s

end Sys2Proof.Machine
end

