-- ==== Sys2Proof/Machine/Time.lean ====
section
/-!
DEFINITION. The meanings of the commands of chapter 2 but for the firing of activations: time frames, the exchange of
link delays, the SOURCE role, time-state entries and output pulses.
-/

namespace Sys2Proof.Machine

/-- What every meaning answers. -/
abbrev Outcome := Host.Outcome State Fault Refusal

/-! ### Time frames -/

def tfSync : BitVec 8 := 0x01
def tfPdelayReq : BitVec 8 := 0x02
def tfPdelayResp : BitVec 8 := 0x03

/-- Fields of the payload (Table 2-2). -/
def tfValue (f : Frame) : Nat := numAt f.payload 0 8
def tfSeq (f : Frame) : BitVec 16 := BitVec.ofNat 16 (numAt f.payload 8 2)
def tfState (f : Frame) : Nat := numAt f.payload 10 1

/-- A stamp in units of 2^-16 FT (R37). -/
def stamp16 (t : Stamp) : Int := (t.toNat : Int)

/-- A time frame of the device (Table 2-2). -/
def State.timeFrame (s : State) (op : BitVec 8) (value : Nat) (seq : BitVec 16) (st : Nat) (src : Nat) : Frame :=
  s.withOpenHeader
    { ftype := ftTime, vc := 0, snode := s.ownSnode, flags := flagSwSrc, opcode := op,
      payload := leBytes 8 value ++ leBytes 2 seq.toNat ++ leBytes 1 st ++ leBytes 1 0 ++ leBytes 4 src ++
        List.replicate 16 0 }

/-- Copies of an accepted TIME_SYNC of the active parent to the ports of the relay mask (R47): one for a port that is
DOWN or whose fence stops it is dropped and counted. -/
def State.relaySync (s : State) (p : Port) (f : Frame) (tRx : Stamp) : State :=
  if !s.bit Reg.EPH_CTL.relay_en then s
  else
    let corr := f.correction + s.delayIn p
    (allPorts.filter fun q => !(q == p) && s.bit (Reg.EPH_PORT_STAT.relay q.toNat)).foldl (fun s q =>
      let g : Frame := { f with snode := s.ownSnode, flags := flagSwSrc, crValid := false }
      if (s.link q).state = .down then (s.timeDrop q).raise Reg.EPH_INT_STATUS.relay_drop
      else s.sendVc0 q g (.relay (stamp16 tRx) corr)) s

/-- The rule of a received TIME_SYNC (R42, R45, R47, R48). -/
def State.takeSync (s : State) (p : Port) (f : Frame) (tRx : Stamp) : State :=
  if 1 < tfState f then s.timeDrop p
  else if !(s.time p).valid then (s.timeDrop p).raise Reg.EPH_INT_STATUS.relay_drop
  else
    let s := (s.setTime p { s.time p with lastSync := some s.ft }).refreshParent
    let isParent := s.eph.parent.map (·.1) = some p
    if !isParent then s.count (Reg.EPH_PORT_STAT.sync_other p.toNat)
    else
      let s := s.relaySync p f tRx
      let s := { s with eph.sourceHoldover := tfState f = 1 }
      if s.fld Reg.EPH_CTL.role ≠ 0 then s
      else
        let e := stamp16 tRx - ((tfValue f : Int) * (2 ^ 16 : Nat) + f.correction + s.delayIn p)
        (s.sample e (stamp16 tRx)).pmuEvent 0x01 0x01 0

def execTimeSync (p : Port) (f : Frame) (tRx : Stamp) (s : State) : Outcome :=
  if f.ftype = ftTime ∧ f.opcode = tfSync then .next (s.consume p f fun s => s.takeSync p f tRx) else .next s

/-- The answer to a PDELAY_REQ (R42): one-step, its correction the turnaround. -/
def State.answerPdelay (s : State) (p : Port) (f : Frame) (tRx : Stamp) : State :=
  s.sendVc0 p (s.timeFrame tfPdelayResp 0 (tfSeq f) 255 0) (.pdelayResp (stamp16 tRx))

def execPdelayReq (p : Port) (f : Frame) (tRx : Stamp) (s : State) : Outcome :=
  if f.ftype = ftTime ∧ f.opcode = tfPdelayReq then .next (s.consume p f fun s => s.answerPdelay p f tRx) else .next s

/-- The sample of a matching PDELAY_RESP (R42); any other response is none of an exchange. -/
def State.takePdelay (s : State) (p : Port) (f : Frame) (t4 : Int) : State :=
  let x := s.time p
  match x.req with
  | some (seq, some t1) =>
    if seq = tfSeq f ∧ t4 - t1 ≤ 64000 * 2 ^ 16 then
      let v := sar ((t4 - t1) - f.correction) 1
      let mean := if x.valid then x.mean + sar (v - x.mean) 3 else v
      (s.setTime p { x with mean := mean, valid := true, loss := 0, req := none }).refreshParent
    else s
  | _ => s

def execPdelayResp (p : Port) (f : Frame) (tRx : Stamp) (s : State) : Outcome :=
  if f.ftype = ftTime ∧ f.opcode = tfPdelayResp then .next (s.consume p f fun s => s.takePdelay p f (stamp16 tRx))
  else .next s

def execTimeFrameBadOpcode (p : Port) (f : Frame) (s : State) : Outcome :=
  if f.ftype = ftTime ∧ (f.opcode = 0 ∨ 3 < f.opcode.toNat) then .next (s.consume p f fun s => s.timeDrop p) else .next s

/-! ### Exchanges and intervals -/

/-- A PDELAY_REQ on a port (R42). -/
def State.startPdelay (s : State) (p : Port) : State :=
  let x := s.time p
  if (s.link p).state = .down then s
  else
    (s.setTime p { x with req := some (x.reqSeq, none), reqSeq := x.reqSeq + 1 }).sendVc0 p
      (s.timeFrame tfPdelayReq 0 x.reqSeq 255 0) .pdelayReq

def execPdelayExchangeStart (s : State) : Outcome :=
  if s.bit Reg.EPH_CTL.pdelay_en then .next (allPorts.foldl State.startPdelay s) else .next s

/-- A lost exchange (R42); the fourth in a row clears delay_valid. -/
def execPdelayRespLost (p : Port) (s : State) : Outcome :=
  let x := s.time p
  match x.req with
  | some (_, some t1) =>
    if s.ft16 < t1 + 64000 * 2 ^ 16 then .next s
    else
      let n := min (x.loss + 1) 15
      .next (s.setTime p { x with loss := n, valid := x.valid && decide (n < 4), req := none }).refreshParent
  | _ => .next s

/-- TIME_SYNC of the SOURCE role on every port that is OPEN (R44). -/
def execSyncIntervalExpiry (s : State) : Outcome :=
  if s.fld Reg.EPH_CTL.role = 1 ∧ s.eph.state ≠ .free ∧ s.eph.state ≠ .acquire then
    let f := s.timeFrame tfSync 0 s.eph.syncSeq (if s.eph.state = .locked then 0 else 1) (s.swAddr.toNat + 2 ^ 31)
    let s := { s with eph.syncSeq := s.eph.syncSeq + 1 }
    .next ((allPorts.filter fun p => s.fence p == 0).foldl (fun s p => s.sendVc0 p f .sync) s)
  else .next s

/-- A port has delivered no TIME_SYNC for three sync intervals: the parent is selected again (R45). -/
def execParentSyncLost (p : Port) (s : State) : Outcome :=
  match (s.time p).lastSync with
  | some t => if t + s.syncLimit < s.ft then .next s.refreshParent else .next s
  | none => .next s

/-- HOLDOVER (Table 2-4): adj is frozen at integ. -/
def State.enterHoldover (s : State) : State :=
  (({ s with eph.adj := s.eph.integ, eph.holdoverAt := s.ft }).setTimeState .holdover).raise
    Reg.EPH_INT_STATUS.holdover_entry

/-- No accepted sample for three sync intervals, in the FOLLOWER role (log 24: a source loses its samples by R46). -/
def execHoldoverEntry (s : State) : Outcome :=
  if s.eph.state = .locked ∧ s.fld Reg.EPH_CTL.role = 0 ∧ s.eph.lastSample + s.syncLimit ≤ s.ft then
    .next s.enterHoldover
  else .next s

def execExpiredEntry (s : State) : Outcome :=
  if s.eph.state = .holdover ∧ s.eph.holdoverAt + s.pair Reg.EPH_HOLDOVER_LIMIT_LO.value ≤ s.ft then
    .next (({ s with eph.lockCount := 0 }).setTimeState .expired |>.raise Reg.EPH_INT_STATUS.expired_entry)
  else .next s

/-! ### PPS_IN (R46) -/

/-- A rising edge in the SOURCE role: EPH_TOD_SET is loaded and the counter steps to it (slews where R50 permits no
step), or the edge is a sample. -/
def State.ppsSource (s : State) (c : Stamp) : State :=
  if s.eph.todSet then
    let t := s.pair Reg.EPH_TOD_SET_LO.value
    let s := { s with eph.todSet := false, eph.ppsExpected := some (t + second) }
    let s := s.setTimeState .acquire
    let e := stamp16 c - (t : Int) * (2 ^ 16 : Nat)
    if s.bit Reg.EPH_CTL.step_en && !s.eph.leftAcquire then
      ({ s with eph.offset := e, eph.lastSample := t }).stepTime e
    else s.sample e (stamp16 c)
  else
    match s.eph.ppsExpected with
    | none => s
    | some t =>
      let s := { s with eph.ppsExpected := some (t + second) }
      s.sample (stamp16 c - (t : Int) * (2 ^ 16 : Nat)) (stamp16 c)

/-- The capture of an edge, in every role (R56); it serves the servo in the SOURCE role only. -/
def execPpsInEdge (c : Stamp) (s : State) : Outcome :=
  let s := s.setPair Reg.EPH_PPSIN_STAMP_LO.value (c.toNat / 2 ^ 16)
  if s.fld Reg.EPH_CTL.role = 1 then .next (s.ppsSource c) else .next s

/-- The second without an edge is handled as a lost parent (R46): LOCKED becomes HOLDOVER (log 24). -/
def execPpsInMissing (s : State) : Outcome :=
  match s.eph.ppsExpected with
  | none => .next s
  | some t =>
    if s.fld Reg.EPH_CTL.role = 1 ∧ t + 16000 < s.ft then
      let s := ({ s with eph.ppsExpected := some (t + second) }).raise Reg.EPH_INT_STATUS.pps_in_missing
      if s.eph.state = .locked then .next s.enterHoldover else .next s
    else .next s

/-! ### Output pulses (R55, R56) -/

/-- The parameters written for a pulse: start, period, width. -/
def State.pulseParams (s : State) (n : Nat) : Nat × Nat × Nat :=
  (s.pair (Reg.EPH_PULSE_START_LO.value n), s.pair (Reg.EPH_PULSE_PERIOD_LO.value n), s.fld (Reg.EPH_PULSE_WIDTH.value n))

/-- A pulse's one-shot did not fire. -/
def State.pulseMiss (s : State) (n : Nat) : State :=
  ((s.setPulse n { s.pulse n with armed := false }).setFld (Reg.EPH_PULSE_CTL.missed n) 1).raise
    Reg.EPH_INT_STATUS.pulse_missed

/-- The first leading edge of a pulse after the current FT (R55, R56). -/
def nextLeading (start period now : Nat) : Nat :=
  if now ≤ start ∨ period = 0 then start else start + (now - start + period - 1) / period * period

/-- Arms a pulse, or refuses (R55, R56). -/
def State.armPulse (s : State) (n : Nat) : State :=
  let (start, period, width) := s.pulseParams n
  let ok := (period = 0 ∨ 16000 ≤ period) ∧ 16 ≤ width ∧ (period = 0 ∨ width < period)
  if !ok then (s.setPulse n { s.pulse n with armed := false }).setFld (Reg.EPH_PULSE_CTL.refused n) 1
  else if period = 0 ∧ start < s.ft then s.pulseMiss n
  else
    s.setPulse n { s.pulse n with
      armed := true, start := start, period := period, width := width, nextEdge := nextLeading start period s.ft }

/-- A write to EPH_PULSE_CTLn (Table 2-15): the polarity, the rw1c bits, and with enable 1 an arming; enable 0 disarms
(log 25). -/
def State.writePulseCtl (s : State) (n : Nat) (v : W32) : State :=
  let s := (s.setFld (Reg.EPH_PULSE_CTL.enable n) (v.toNat % 2)).setFld (Reg.EPH_PULSE_CTL.polarity n) (v.toNat / 2 % 2)
  let s := if v.getLsbD 3 then s.setFld (Reg.EPH_PULSE_CTL.missed n) 0 else s
  let s := if v.getLsbD 4 then s.setFld (Reg.EPH_PULSE_CTL.refused n) 0 else s
  if v.getLsbD 0 then s.armPulse n
  else (s.setPulse n { s.pulse n with armed := false }).drivePulse (BitVec.ofNat 2 n) false

def execPulseArm (n : BitVec 2) (value : W32) (s : State) : Outcome :=
  if value.getLsbD 0 then
    .next (s.regWrite (Reg.EPH_PULSE_CTL.addr n.toNat) value fun s => s.writePulseCtl n.toNat value)
  else .next s

/-- The leading edge of a pulse, in a state that drives the pins; elsewhere a periodic pulse passes its edge unseen. -/
def execPulseLeadingEdge (n : BitVec 2) (s : State) : Outcome :=
  let x := s.pulse n.toNat
  if x.armed ∧ !x.active ∧ x.nextEdge ≤ s.ft then
    if s.eph.state.drives then .next (s.drivePulse n true)
    else if x.period = 0 then .next s
    else .next (s.setPulse n.toNat { x with nextEdge := nextLeading x.start x.period s.ft })
  else .next s

/-- The trailing edge: a one-shot ends, and parameters written meanwhile take effect (R56). -/
def execPulseTrailingEdge (n : BitVec 2) (s : State) : Outcome :=
  let x := s.pulse n.toNat
  if x.armed ∧ x.active ∧ x.nextEdge + x.width ≤ s.ft then
    let s := s.drivePulse n false
    let (start, period, width) := s.pulseParams n.toNat
    let y := s.pulse n.toNat
    if x.period = 0 then .next (s.setPulse n.toNat { y with armed := false })
    else
      .next (s.setPulse n.toNat { y with
        start := start, period := period, width := width, nextEdge := nextLeading start period (s.ft + 1) })
  else .next s

/-- A one-shot's time passes while the pins are inactive (R56). -/
def execPulseMissed (n : BitVec 2) (s : State) : Outcome :=
  let x := s.pulse n.toNat
  if x.armed ∧ x.period = 0 ∧ !x.active ∧ x.nextEdge < s.ft ∧ !s.eph.state.drives then .next (s.pulseMiss n.toNat)
  else .next s

end Sys2Proof.Machine
end

