-- ==== Sys2Proof/Machine/Accession.lean ====
section
/-!
DEFINITION. The meanings of the commands of chapter 11: accession commands, leaky buckets, engines, regions, the zero fill
and the aperture. The end of a page decode has a file of its own.
-/

namespace Sys2Proof.Machine

/-! ### Accession commands (R261 to R263, R268) -/

/-- The answers of an accession command to its unit. -/
def asDone : Nat := 0
def asLaneLimit : Nat := 1
def asRefused : Nat := 2
def asMedia : Nat := 3
def asEngine : Nat := 4

/-- The DPA of a command's metadata, which it reads or merges into. -/
def State.accMeta (s : State) : AccCmd → Option Nat
  | .setA r l _ => some (s.metaDpa r l)
  | .add r l _ _ _ _ => some (s.metaDpa r l)
  | .merge r l _ _ _ _ => some (s.metaDpa r l)
  | .readLanes r l => some (s.metaDpa r l)
  | .readFmt r l => some (s.metaDpa r l)
  | _ => none

/-- The words a command writes without reading them, by the DPAs of its lines. -/
def State.accWrites (s : State) : AccCmd → List Nat
  | .clear r l n => (List.range n).flatMap fun i => [s.lineDpa r (l + i), s.metaDpa r (l + i)]
  | .writeLanes r l _ => [s.lineDpa r l]
  | _ => []

/-- A command names a line its region has, and the region takes commands. -/
def State.accUsable (s : State) : AccCmd → Bool
  | .clear r l n => s.regionUsable r l && decide (l + n ≤ s.regionLines r)
  | .setA r l _ => s.regionUsable r l
  | .add r l _ _ _ _ => s.regionUsable r l
  | .merge r l _ _ _ _ => s.regionUsable r l
  | .readLanes r l => s.regionUsable r l
  | .writeLanes r l _ => s.regionUsable r l
  | .readFmt r l => s.regionUsable r l
  | .atomic _ _ _ _ => true

/-- A command waits for the decode of a page it touches (R268); the first word that fails lies in its first range. -/
def State.accHold (s : State) (c : AccCmd) (io : ChannelIo) : Option State :=
  if !s.accUsable c then none
  else
    let rg := s.accRange c
    let first := if rg.2 = 0 then none else s.holdPage rg.1 rg.2 io (.command c)
    match first with
    | some s => some s
    | none =>
      match (s.accMeta c).bind fun d => s.holdPage d 64 ({ } : ChannelIo) (.command c) with
      | some s => some s
      | none => (s.accWrites c).findSome? fun d => s.holdWords d [] ({ } : ChannelIo) (.command c)

/-- The status and the bytes a command answers: clamps and saturations come with ADD, MERGE and READ_FMT (R262). -/
def accReply (c : AccCmd) : AccAns → Nat × List Byte
  | .laneLimit => (asLaneLimit, [])
  | .refused => (asRefused, [])
  | .done data clamps sats =>
    match c with
    | .add _ _ _ _ _ _ => (asDone, leBytes 4 clamps ++ leBytes 4 sats)
    | .merge _ _ _ _ _ _ => (asDone, leBytes 4 clamps ++ leBytes 4 sats)
    | .readFmt _ _ => (asDone, data ++ leBytes 4 clamps ++ leBytes 4 sats)
    | _ => (asDone, data)

/-- Performs a command and answers its unit; a step that the engine's two units could not agree on, with bypass_en 0, is
not performed. -/
def State.accPerform (s : State) (c : AccCmd) (io : ChannelIo) : State :=
  if !s.accUsable c then s.emit (.accession asRefused [])
  else
    let s := if (s.accRange c).2 = 0 then s else s.wordsCorrected (s.accRange c).1 io.corrected
    match s.engineStep (s.accEngine c) io.disagree with
    | (s, false) => s.emit (.accession asEngine [])
    | (s, true) =>
      let r := s.accession c
      let a := accReply c r.2
      r.1.emit (.accession a.1 a.2)

/-- An accession command of a unit reaches its engine. -/
def State.accCommand (s : State) (c : AccCmd) (io : ChannelIo) : State :=
  match s.accHold c io with
  | some s => s
  | none => s.accPerform c io

def execClear (r : BitVec 12) (line count : BitVec 30) (io : ChannelIo) (s : State) : Outcome :=
  .next (s.accCommand (.clear r.toNat line.toNat count.toNat) io)

def execSetA (r : BitVec 12) (line : BitVec 30) (a : List Int) (io : ChannelIo) (s : State) : Outcome :=
  .next (s.accCommand (.setA r.toNat line.toNat a) io)

def execAccessionAdd (r : BitVec 12) (line : BitVec 30) (part : BitVec 12) (fmt : BitVec 3) (data scales : List Byte)
    (io : ChannelIo) (s : State) : Outcome :=
  .next (s.accCommand (.add r.toNat line.toNat part fmt.toNat data scales) io)

def execMerge (r : BitVec 12) (line : BitVec 30) (part : BitVec 12) (fmt : BitVec 3) (data scales : List Byte)
    (io : ChannelIo) (s : State) : Outcome :=
  .next (s.accCommand (.merge r.toNat line.toNat part fmt.toNat data scales) io)

def execReadLanes (r : BitVec 12) (line : BitVec 30) (io : ChannelIo) (s : State) : Outcome :=
  .next (s.accCommand (.readLanes r.toNat line.toNat) io)

/-- WRITE_LANES writes every lane of the line. -/
def execWriteLanes (r : BitVec 12) (line : BitVec 30) (lanes : List W64) (io : ChannelIo) (s : State) : Outcome :=
  let full := (List.range (elemsPerLine (s.regionFmt r.toNat))).map fun i => lanes.getD i 0
  .next (s.accCommand (.writeLanes r.toNat line.toNat full) io)

def execReadFmt (r : BitVec 12) (line : BitVec 30) (io : ChannelIo) (s : State) : Outcome :=
  .next (s.accCommand (.readFmt r.toNat line.toNat) io)

/-- ATOMIC names the 8-byte word of a DPA; a DPA beyond the last stack names no memory (R252). -/
def execAccessionAtomic (dpa : BitVec 40) (sub : BitVec 8) (b c : W64) (io : ChannelIo) (s : State) : Outcome :=
  let d := dpa.toNat / 8 * 8
  if dpaEnd ≤ d then .fault .absentDpa else .next (s.accCommand (.atomic d sub b c) io)

/-! ### Leaky buckets and engines (R263, R270) -/

/-- A leak_period has passed: every level falls by 1. -/
def execLbLeak (s : State) : Outcome :=
  if s.bit Reg.STK_CTL.lb_en then
    .next ((List.range 384).foldl (fun s ch => s.setFld (Reg.STK_LB.level ch) (s.fld (Reg.STK_LB.level ch) - 1)) s)
  else .next s

/-- restore written to STK_ENGs_c returns the engine to NORMAL. -/
def execEngineRestore (st : BitVec 4) (c : BitVec 5) (value : W32) (s : State) : Outcome :=
  let ch := 32 * st.toNat + c.toNat
  if value.getLsbD 1 ∧ st.toNat < 12 then
    .next (s.regWrite (Reg.STK_ENG.addr ch) value fun s => s.setFld (Reg.STK_ENG.bypass ch) 0)
  else .next s

/-! ### Regions (R259, Table 11-14) -/

/-- The last byte of a region's footprint, and one past it, within the partition. -/
def State.regionEnd (s : State) (r : Nat) : Nat := s.regionBase r + regionFootprint (s.regionLines r) (s.regionFmt r)

/-- The region's range breaks R259: past the end of the partition, beyond 64 GiB, or over a valid region. -/
def State.regionRangeBad (s : State) (r : Nat) : Bool :=
  let size := match s.partOf 3 with
    | some n => s.partSize n
    | none => 0
  decide (size < s.regionEnd r) || decide (2 ^ 36 < regionFootprint (s.regionLines r) (s.regionFmt r)) ||
    s.regionsListed.any fun q => decide (s.regionBase q < s.regionEnd r) && decide (s.regionBase r < s.regionEnd q)

/-- The region's arithmetic words or its mode break R196 and R259. -/
def State.regionWordsBad (s : State) (r : Nat) : Bool :=
  !wordsOk (s.regionW0 r) (s.regionW1 r) || (s.regionRequest r && awNegotiated (s.regionW0 r))

/-- A region command ends with a status; a refusal raises region_refused. -/
def State.regionStatus (s : State) (st : Nat) : State :=
  let s := s.setFld Reg.STK_REGION_CMD.status st
  if 3 ≤ st then s.raise Reg.STK_INT_STATUS.region_refused else s

/-- A clearing of every line begins: clear_done is 0 until REGION_CLEAR_DONE. -/
def State.startClearing (s : State) (r : Nat) : State :=
  let s := s.setFld (Reg.STK_REGION_W0.clear_done r) 0
  { s with stk.clearing := s.stk.clearing ++ [r] }

/-- Installs region r from the words of its entry. -/
def State.regionInstall (s : State) (r : Nat) : State :=
  if s.regionValid r || s.regionRangeBad r then s.regionStatus 4
  else if s.regionWordsBad r then s.regionStatus 5
  else
    let t := s.setFld (Reg.STK_REGION_W0.valid r) 1
    ((t.setFld (Reg.STK_REGION_W0.busy r) 0).startClearing r).reconfigured s |>.regionStatus 2

/-- Removes region r; an absent one is gone already. -/
def State.regionRemove (s : State) (r : Nat) : State :=
  if s.regionBusy r || s.stk.clearing.contains r then s.regionStatus 3
  else
    let t := (s.setFld (Reg.STK_REGION_W0.valid r) 0).setFld (Reg.STK_REGION_W0.clear_done r) 0
    (t.reconfigured s).regionStatus 1

/-- Clears every line of region r; one that a collective holds or that is being cleared is busy. -/
def State.regionClearAll (s : State) (r : Nat) : State :=
  if !s.regionValid r then s.regionStatus 4
  else if s.regionBusy r || s.stk.clearing.contains r then s.regionStatus 3
  else (s.startClearing r).regionStatus 2

/-- A write to STK_REGION_CMD: op and region are stored, and go performs op (Table 11-14). -/
def State.writeRegionCmd (s : State) (v : W32) : State :=
  let s := s.storeFields Reg.STK_REGION_CMD.addr v
  let r := Reg.STK_REGION_CMD.region.of v
  if v.getLsbD 14 then
    match Reg.STK_REGION_CMD.op.of v with
    | 0 => s.regionInstall r
    | 1 => s.regionRemove r
    | 2 => s.regionClearAll r
    | _ => s
  else s

/-- A word of STK_REGION_CMD performs an op. -/
def regionOp (v : W32) (op : Nat) : Bool := v.getLsbD 14 && decide (Reg.STK_REGION_CMD.op.of v = op)

def execRegionInstall (value : W32) (s : State) : Outcome :=
  if regionOp value 0 then .next (s.regWrite Reg.STK_REGION_CMD.addr value fun s => s.writeRegionCmd value) else .next s

def execRegionRemove (value : W32) (s : State) : Outcome :=
  if regionOp value 1 then .next (s.regWrite Reg.STK_REGION_CMD.addr value fun s => s.writeRegionCmd value) else .next s

def execRegionClearAll (value : W32) (s : State) : Outcome :=
  if regionOp value 2 then .next (s.regWrite Reg.STK_REGION_CMD.addr value fun s => s.writeRegionCmd value) else .next s

/-- The clearing of a region ends: every line holds start values, and the region takes commands. -/
def State.clearEnds (s : State) (r : Nat) : State :=
  let s := clearLines r (s.regionLines r) 0 s
  let s := { s with stk.clearing := s.stk.clearing.filter fun x => x ≠ r }
  let s := s.setFld (Reg.STK_REGION_W0.clear_done r) 1
  if s.fld Reg.STK_REGION_CMD.status = 2 ∧ s.fld Reg.STK_REGION_CMD.region = r then s.regionStatus 1 else s

def execRegionClearDone (r : BitVec 12) (s : State) : Outcome :=
  if s.stk.clearing.contains r.toNat then .next (s.clearEnds r.toNat) else .next s

/-! ### Zero fill (R273) -/

/-- A DPA lies in the MIRROR or the ALMANAC partition. -/
def State.keptByFill (s : State) (dpa : Nat) : Bool :=
  [4, 5].any fun kind =>
    match s.partOf kind with
    | none => false
    | some n =>
      let a := dpa % stackBytes
      (maskStacks (s.partMask n)).contains (dpaStack dpa) && decide (s.partBase n ≤ a) &&
        decide (a < s.partBase n + s.partStride n)

/-- Every word outside the MIRROR and ALMANAC partitions holds zeros with valid codes. -/
def State.zeroMemory (s : State) : State :=
  { s with
    stk.mem := s.stk.mem.filter fun e => s.keptByFill e.1
    stk.badWords := s.stk.badWords.filter fun e => s.keptByFill (64 * e.1) }

/-- The fill ends; the regions of the folio are installed and cleared after it (Timeline 18-1), which REGION_CLEAR_DONE
ends. -/
def execZeroFillDone (s : State) : Outcome :=
  if s.bit Reg.STK_STATUS.fill_busy then
    let s := s.zeroMemory
    let s := (s.setFld Reg.STK_STATUS.fill_busy 0).setFld Reg.STK_STATUS.fill_done 1
    .next (({ s with stk.fillPending := false } : State).raise Reg.STK_INT_STATUS.fill_done)
  else .next s

/-! ### The aperture (R256, Table 11-9) -/

/-- The DPA that an aperture offset names. -/
def State.apertureDpa (s : State) (off : Nat) : Nat := s.fld Reg.STK_APERTURE_BASE.base * 2 ^ 24 + off

/-- An aperture read of memory that answers the bytes. -/
def State.apertureGo (s : State) (dpa n : Nat) (io : ChannelIo) : State :=
  let s := (s.wordsCorrected dpa io.corrected).countRead dpa n
  s.emit (.aperture (s.bytesAt dpa n))

/-- A read through STK_APERTURE: all-ones where it is disabled; it waits for a page decode as every access does. -/
def execApertureRead (r : Requester) (off : BitVec 24) (size : BitVec 4) (io : ChannelIo) (s : State) : Outcome :=
  let n := size.toNat
  if !s.answers Reg.STK_CTL.addr ∨ !s.bit Reg.STK_CTL.aperture_en then
    .next (s.emit (.aperture (List.replicate n 0xFF)))
  else
    let d := s.apertureDpa off.toNat
    if dpaEnd < d + n then .fault .absentDpa
    else
      match s.holdPage d n io (.aperture r off.toNat n) with
      | some s => .next s
      | none => .next (s.apertureGo d n io)

end Sys2Proof.Machine
end

