-- ==== Sys2Proof/Machine/ArcCore.lean ====
section
/-!
DEFINITION. Answers to Archivist commands and to MGMT frames (R351, R364, R365), background commands (R365), and the
managers (R352).
-/

namespace Sys2Proof.Machine

/-- The transports by number: 0 mailbox, 1 out-of-band, 2 fabric. -/
def tpKind : Transport → Nat
  | .mailbox => 0
  | .oob _ _ => 1
  | .fabric _ _ _ _ => 2

/-! ### MGMT frames (R351) -/

/-- Opcodes of MGMT frames (Table 15-6, R364). -/
def mgAmendFrag : BitVec 8 := 0x40
def mgAmendCancel : BitVec 8 := 0x41
def mgGroupRec : BitVec 8 := 0x42
def mgColophon : BitVec 8 := 0x43
def mgReply : BitVec 8 := 0x48
def mgArchCmd : BitVec 8 := 0x80
def mgArchRsp : BitVec 8 := 0x81

/-- The tag of a MGMT frame. -/
def mgTag (f : Frame) : BitVec 16 := f.w4.setWidth 16

/-- A MGMT answer leaves for a node or a spine (R18, R351). -/
def State.mgmtSend (s : State) (op : BitVec 8) (p : Port) (snode : Node) (swSrc : Bool) (tag : BitVec 16)
    (mstatus off total : Nat) (payload : List Byte) : State :=
  let s := s.draw
  let f : Frame := s.withOpenHeader
    { ftype := ftMgmt, vc := 1, dclass := swSrc, dnode := snode, snode := s.ownSnode, flags := flagSwSrc, opcode := op,
      w4 := BitVec.ofNat 32 (tag.toNat + mstatus % 256 * 2 ^ 16), w5 := BitVec.ofNat 32 off,
      w6 := BitVec.ofNat 32 total, payload := payload }
  let out := if swSrc then p else s.route snode
  s.originate (dieOf p) .plain [(out, f)]

/-- CFG_REPLY to a MGMT request. -/
def State.cfgReply (s : State) (p : Port) (f : Frame) (mstatus : Nat) (payload : List Byte := []) : State :=
  s.mgmtSend mgReply p f.snode f.swSrc (mgTag f) mstatus 0 payload.length payload

/-- A node number is in MANAGERS (R352). -/
def State.isManager (s : State) (snode : Node) (swSrc : Bool) : Bool :=
  !swSrc && (List.range 16).any fun n =>
    let w := s.reg (Reg.CFG_MANAGER.addr n)
    w.getLsbD 31 && decide (w.toNat % 2 ^ 17 = snode.toNat)

/-! ### Answers to commands -/

/-- The 4,096-byte pieces of an answer with their offsets. -/
def answerPieces : Nat → Nat → List Byte → List (Nat × List Byte)
  | 0, _, _ => []
  | n + 1, off, bs =>
    if bs.length ≤ 4096 then [(off, bs)] else (off, bs.take 4096) :: answerPieces n (off + 4096) (bs.drop 4096)

/-- The answer to a command: over the fabric ARCH_RSP frames, whose mstatus holds the return code. -/
def State.archReply (s : State) (tp : Transport) (opcode : BitVec 16) (code : Nat) (data : List Byte) : State :=
  match tp with
  | .fabric p snode swSrc tag =>
    (answerPieces (data.length / 4096 + 1) 0 data).foldl (fun s e =>
      s.mgmtSend mgArchRsp p snode swSrc tag code e.1 data.length e.2) s
  | _ => s.emit (.reply tp opcode code data)

/-- A background command is under way on a transport (R365). -/
def State.inBackground (s : State) (tp : Transport) : Bool := (s.arc.background.get (tpKind tp)).isSome

/-- Starts a background command: its transport is told at once. -/
def State.startBackground (s : State) (tp : Transport) (opcode : BitVec 16) : State :=
  { s with arc.background := s.arc.background.put (tpKind tp) { opcode := opcode, tp := tp } }.archReply tp opcode 1 []

/-- Ends a background command: its result is kept for Background Operation Status and sent; without a requester it goes to
the almanac (R369). -/
def State.endBackground (s : State) (tp : Transport) (opcode : BitVec 16) (code : Nat) (data : List Byte) : State :=
  match s.arc.background.get (tpKind tp) with
  | none => s
  | some b =>
    if b.opcode = opcode then
      let s := { s with
        arc.background := s.arc.background.del (tpKind tp)
        arc.lastBackground := s.arc.lastBackground.put (tpKind tp) (opcode, code, data) }
      let s := if b.orphan then s.log 0x00 .backgroundEnded opcode.toNat (code :: data.map BitVec.toNat)
        else s.archReply tp opcode code data
      s.raise Reg.GLB_INT_STATUS.bg_done
    else s

/-! ### Answers to group records (R219, R351) -/

def opGroupRecord : BitVec 16 := 0xC002

/-- The eight bytes of a reply: group, gen, status and cause. -/
def groupReplyBytes (rec : List Byte) (status cause : Nat) : List Byte :=
  leBytes 2 (numAt rec 0 2 % 2 ^ 14) ++ leBytes 1 (numAt rec 2 1) ++ leBytes 1 status ++ leBytes 1 cause ++ leBytes 3 0

/-- Answers a group record, if anyone waits for the answer. -/
def State.replyGroup (s : State) (rt : Option ReplyTo) (rec : List Byte) (status cause : Nat) : State :=
  let bs := groupReplyBytes rec status cause
  match rt with
  | none => s
  | some (.mgmt p snode swSrc tag) => s.mgmtSend mgReply p snode swSrc tag 0 0 bs.length bs
  | some (.command tp) => s.endBackground tp opGroupRecord 0 bs

end Sys2Proof.Machine
end

