-- ==== Sys2Proof/Machine/CollSeg.lean ====
section
/-!
DEFINITION. Segments (R221, R231 to R242) and their tiles: where a segment runs, its slots, adds, losses and RESENDs, the
exponent pass, the shadow audit (R329, R330), FINAL with its tokens (R308), and the results.
-/

namespace Sys2Proof.Machine

/-! ### Tiles and slots -/

/-- home_tile of R231. -/
def homeTile (g n : Nat) : Nat := Nat.xor (g * 0x85EBCA6B) (n * 0x9E3779B9) % 2 ^ 32 % 64

/-- A global tile through the spare map (R214). -/
def State.mapTile (s : State) (t : Nat) : Nat := if s.cnj.spareOf.get (tileDie t) = some t then 64 + tileDie t else t

/-- The tile on which a new segment of a global tile starts: its spare also while it is quarantined (R332). -/
def State.serving (s : State) (t : Nat) : Nat := if s.hlt.quarantined.contains t then 64 + tileDie t else s.mapTile t

/-- Slots a segment holds (R221). -/
def descSlots (d : List Byte) : Nat := ceilDiv (descSegLines d * laneBytes (awFmt (descW0 d))) 32768

/-- Slots of a tile that a group's segments hold, that segments of any group hold, and that audits hold. -/
def State.groupHeld (s : State) (g t : Nat) : Nat :=
  s.cnj.segs.foldl (fun n e => if e.1 / 2 ^ 40 = g ∧ e.2.tile = t then n + e.2.slots else n) 0
def State.tileHeld (s : State) (t : Nat) : Nat :=
  s.cnj.segs.foldl (fun n e => if e.2.tile = t then n + e.2.slots else n) 0
def State.auditHeld (s : State) (t : Nat) : Nat :=
  s.cnj.segs.foldl (fun n e =>
    match e.2.audit with
    | some a => if a.tile = t then n + e.2.slots else n
    | none => n) 0

/-- A segment of a collective can hold its slots within its group's reservation (R232). Path 1 and ALL_GATHER hold none. -/
def State.slotsFree (s : State) (g : Nat) (d : List Byte) (n : Nat) : Bool :=
  descPath d = 1 || descKind d = kindGather ||
    decide (s.groupHeld g (s.serving (homeTile g n)) + descSlots d ≤ (s.group g).tileSlots)

/-- A segment's tile is being moved: its contributions wait (R214). -/
def State.tileMoving (s : State) (g n : Nat) : Bool := s.cnj.moving.contains (homeTile g n)

/-! ### A segment's numbers -/

/-- A of a line (R198, R199), as it stands. -/
def Segment.aAt (x : Segment) (d : List Byte) (l : Nat) : List Int :=
  let w0 := descW0 d
  match x.a.get l with
  | some a => a
  | none =>
    if awNegotiated w0 then (List.range 8).map fun b => (((x.emax.read [] l).getD b 255 : Nat) : Int) - guardOf w0
    else List.replicate 8 (if awFmt w0 = 5 then 128 else awAfix w0)

/-- A of a line with its null positions (R199). -/
def Segment.aList (x : Segment) (d : List Byte) (l : Nat) : AList :=
  let a := x.aAt d l
  if awNegotiated (descW0 d) then
    (List.range 8).map fun b => if (x.emax.read [] l).getD b 255 = 255 then none else some (a.getD b 0)
  else a.map some

/-- Lanes and residues of a line. -/
def Segment.lanesAt (x : Segment) (d : List Byte) (l : Nat) : List W64 :=
  (x.lanes.get l).getD (startLanes (awOp (descW0 d)) (awFmt (descW0 d)))
def Segment.resAt (x : Segment) (d : List Byte) (l : Nat) : List Nat :=
  (x.res.get l).getD ((startLanes (awOp (descW0 d)) (awFmt (descW0 d))).map laneRes)

/-- The audit tile's lanes of a line. -/
def Audit.lanesAt (x : Audit) (d : List Byte) (l : Nat) : List W64 :=
  (x.lanes.get l).getD (startLanes (awOp (descW0 d)) (awFmt (descW0 d)))

/-- Members taken into a segment. -/
def Segment.total (x : Segment) : Nat := x.members.foldl (fun n e => n + e.2) 0 % 2 ^ 18

/-- Ports of the mask that R243 does not exclude. -/
def State.livePorts (s : State) (g : Nat) (c : Coll) : List Port := maskPorts ((s.group g).mask &&& ~~~c.excluded)

/-- The region line of a segment's line (R264). -/
def regionLine (d : List Byte) (n l : Nat) : Nat := n * descSegLines d + l

/-! ### RESEND (R124, R234) -/

/-- Runs of consecutive numbers in an ascending list. -/
def runsOf : List Nat → List (Nat × Nat)
  | [] => []
  | x :: xs =>
    match runsOf xs with
    | (y, n) :: rs => if y = x + 1 then (x, n + 1) :: rs else (x, 1) :: (y, n) :: rs
    | [] => [(x, 1)]

/-- Asks a port for lines of a segment again: one RESEND for each run of lines. -/
def State.sendResend (s : State) (g : Nat) (cseq : BitVec 16) (p : Port) (seg : Nat) (lines : List Nat) (cause : Nat)
    (exp : Bool) : State :=
  (runsOf lines).foldl (fun s r =>
    match s.coll g cseq with
    | none => s
    | some c =>
      let x : Resend := { port := p, segment := BitVec.ofNat 24 seg, firstLine := r.1, count := r.2, cause := cause,
                          missing := fullMap r.2 <<< r.1, exp := exp }
      let s := (s.setColl g cseq { c with resends := c.resends ++ [x] }).count Reg.CNJ_CNT_RESEND.value
      let f := s.collFrame ftCollCtl opResend (s.group g).partition g c.gen cseq seg r.1 c.sig (r.2 - 1 + cause * 256) []
      s.originate (dieOf p) .plain [(p, f)]) s

/-- Lines of a port have arrived: they are no longer missing. -/
def Coll.noteArrived (c : Coll) (p : Port) (seg : BitVec 24) (exp : Bool) (lines : BitVec 64) : Coll :=
  let rs := c.resends.map fun r =>
    if r.port = p ∧ r.segment = seg ∧ r.exp = exp then { r with missing := r.missing &&& ~~~lines } else r
  { c with resends := rs.filter fun r => r.missing ≠ 0 }

/-- Lines of a segment that a port has been asked for, by a test on the cause. -/
def Coll.asked (c : Coll) (p : Port) (seg : BitVec 24) (exp : Bool) (cause : Nat → Bool) : BitVec 64 :=
  c.resends.foldl (fun m r => if r.port = p ∧ r.segment = seg ∧ r.exp = exp ∧ cause r.cause then m ||| r.missing else m) 0

/-- Lines of a segment that a group defers for a port (R236). -/
def Group.deferred (x : Group) (cseq : BitVec 16) (p : Port) (seg : BitVec 24) : BitVec 64 :=
  x.deferrals.foldl (fun m e =>
    if e.port = p ∧ e.cseq = cseq ∧ e.segment = seg then m ||| (fullMap e.count <<< e.firstLine) else m) 0

/-- The set lines of a map, ascending. -/
def mapLines (m : BitVec 64) : List Nat := (List.range 64).filter fun i => m.getLsbD i

/-- Lines are lost (R234): a resent frame that loses lines asked for is a second loss; lines asked for already are not asked
for again. -/
def State.loseLines (s : State) (g : Nat) (cseq : BitVec 16) (p : Port) (seg : Nat) (lines : BitVec 64) (exp resent : Bool) :
    State :=
  match s.coll g cseq with
  | none => s
  | some c =>
    let loss := c.asked p (BitVec.ofNat 24 seg) exp (· = 0)
    if resent && (lines &&& loss) ≠ 0 then s.abortColl g cseq abLink 3 (portBit p) seg
    else s.sendResend g cseq p seg (mapLines (lines &&& ~~~loss)) 0 exp

/-! ### Start of a segment (R232, R264, R329) -/

/-- An accession command of a tile: it waits while its page is being decoded (R268). -/
def State.regionIssue (s : State) (c : AccCmd) : State :=
  let pg := s.accEngine c / 4096
  match s.stk.pages.get pg with
  | some (w, as) => { s with stk.pages := s.stk.pages.put pg (w, as ++ [.command c]) }
  | none => (s.accession c).1

/-- CLEAR of a segment's lines in its region. -/
def State.clearRegionLines (s : State) (d : List Byte) (n lines : Nat) : State :=
  (List.range lines).foldl (fun s l => s.regionIssue (.clear (descRegion d) (regionLine d n l) 1)) s

/-- SET_A of a segment's lines in its region. -/
def State.setRegionA (s : State) (d : List Byte) (n : Nat) (x : Segment) : State :=
  (List.range x.lines).foldl (fun s l => s.regionIssue (.setA (descRegion d) (regionLine d n l) (x.aAt d l))) s

/-- The audit of a segment that leaves IDLE on a tile, if it is selected and the reserve holds it (R329). -/
def State.pickAudit (s : State) (home t slots : Nat) : State × Option Audit :=
  let every := s.fld Reg.HLT_AUDIT_CFG.audit_interval
  let cnt := s.cnj.auditCount.read 0 t + 1
  if every = 0 ∨ cnt < every then ({ s with cnj.auditCount := s.cnj.auditCount.write 0 t cnt }, none)
  else
    let s := { s with cnj.auditCount := s.cnj.auditCount.write 0 t 0 }
    let at_ := s.mapTile ((home + 17) % 64)
    if !s.bit Reg.HLT_CTL.audit_en then (s, none)
    else if s.auditHeld at_ + slots ≤ s.fld Reg.HLT_AUDIT_CFG.audit_slots then (s, some { tile := at_ })
    else (s.count Reg.HLT_CNT_AUDIT_SKIP.value, none)

/-- A segment leaves IDLE (Table 10-6). -/
def State.startSeg (s : State) (g : Nat) (cseq : BitVec 16) (c : Coll) (n : Nat) : State :=
  let d := c.desc
  let lines := segLinesOf d n
  let st : SegState := if awNegotiated (descW0 d) then .exponent else .collect
  let home := homeTile g n
  if descKind d = kindGather then s.setSeg g cseq n { state := .collect, tile := home, lines := lines }
  else if descPath d = 1 then
    (s.clearRegionLines d n lines).setSeg g cseq n { state := st, tile := home, lines := lines }
  else
    let t := s.serving home
    let (s, audit) := s.pickAudit home t (descSlots d)
    s.setSeg g cseq n { state := st, tile := t, slots := descSlots d, lines := lines, audit := audit }

/-! ### Restart and second mismatch (R214, R269, R330) -/

/-- A segment restarts (R214): its handle advances, lanes and arrivals are cleared, the A already agreed stands, and RESEND
with cause RESTART goes out for every contribution accepted. -/
def State.restartSeg (s : State) (g : Nat) (cseq : BitVec 16) (n : Nat) (tile : Nat) (audit : Option Audit) : State :=
  match s.coll g cseq, s.seg g cseq n with
  | some c, some x =>
    let d := c.desc
    let y : Segment := { state := if x.state == .exponent then .exponent else .collect, tile := tile, slots := x.slots,
                         lines := x.lines, emax := if x.state == .exponent then [] else x.emax, audit := audit }
    let s := (s.bumpHandle g cseq n).setSeg g cseq n y
    let s := if descPath d = 1 then
        let s := s.clearRegionLines d n x.lines
        if awNegotiated (descW0 d) && y.state == .collect then s.setRegionA d n y else s
      else s
    if x.state == .exponent then
      (maskPorts x.expFrom).foldl (fun s p => s.sendResend g cseq p n (List.range x.lines) 2 true) s
    else x.arrived.foldl (fun s e => s.sendResend g cseq (BitVec.ofNat 9 e.1) n (mapLines e.2) 2 false) s
  | _, _ => s

/-- A second mismatch in a tile (R214): recorded, and albedo is asked to expel the tile. Answers whether the move was
granted; refused, the collective aborts. -/
def State.secondMismatch (s : State) (g : Nat) (cseq : BitVec 16) (n t line lane op : Nat) : State × Bool :=
  let s := s.log 0x0C .dataCorruption t [g, n, line, lane, op]
  let s := s.albedo 1 t 6
  if (s.elemAt 1 t).state = .expelling then (s, true)
  else (s.abortColl g cseq abArith 2 0 n, false)

/-! ### Results (R238, R149, R150) -/

/-- A result copy as it goes to a port (R149). -/
def State.copyFor (s : State) (f : Frame) (p : Port) : Frame :=
  { f with dnode := BitVec.ofNat 17 (s.leafOn p * 256), hops := f.hops + 1 }

/-- Sends a result frame to ports: copies for ports that are DOWN or fenced are discarded (R150), which may abort the
collective; then nothing is sent. -/
def State.replicate (s : State) (die g : Nat) (cseq : BitVec 16) (f : Frame) (ports : List Port) : State :=
  let down (p : Port) : Bool := (s.link p).state == .down
  let shut (p : Port) : Bool := fenceStops (s.fence p) f
  let good := (ports.filter fun p => !down p && !shut p).map fun p => (p, s.copyFor f p)
  let s' := (ports.filter fun p => down p || shut p).foldl (fun t p =>
    t.lose (if down p then .linkDown else .fenced) die p none .plain (s.copyFor f p)) s
  if (s'.coll g cseq).isNone then s'
  else (good.foldl (fun t e => t.pmuEvent 0x06 0x03 e.1.toNat) s').originateRaw die .plain good

/-- The ports that receive results: those of the bound tree that R243 does not exclude, or root_port for REDUCE; none where
the tree is not the group's (R148; log 34). -/
def State.resultPorts (s : State) (g : Nat) (c : Coll) : Option (List Port) :=
  let x := s.group g
  match s.treeFor x.tree x.partition with
  | none => none
  | some t =>
    if descKind c.desc = kindReduce then
      let r := BitVec.ofNat 9 (descRoot c.desc)
      some (if c.excluded.getLsbD r.toNat then [] else [r])
    else some (maskPorts (t.mask &&& ~~~c.excluded))

/-- Sends a result frame of a segment. -/
def State.sendResult (s : State) (g : Nat) (cseq : BitVec 16) (tile : Nat) (f : Frame) : State :=
  match s.coll g cseq with
  | none => s
  | some c =>
    match s.resultPorts g c with
    | none => s.abortColl g cseq abLink 2 (s.group g).mask
    | some ps => s.replicate (tileDie tile) g cseq f ps

def opResData : BitVec 8 := 0x01
def opExpResult : BitVec 8 := 0x02
def opGather : BitVec 8 := 0x03

/-- A RESULT frame of a collective. -/
def State.resultFrame (s : State) (op : BitVec 8) (g : Nat) (cseq : BitVec 16) (c : Coll) (seg first members : Nat)
    (flags : BitVec 8) (scales payload : List Byte) : Frame :=
  { s.collFrame ftResult op (s.group g).partition g c.gen cseq seg first c.sig members payload with
    flags := flagSwSrc ||| flags, sideband := !scales.isEmpty, scales := scales }

/-- The first line of a path-1 segment whose stored bytes are being decoded (some true), or are unreadable (some false). -/
def State.regionTrouble (s : State) (d : List Byte) (n lines : Nat) : Option (Bool × Nat) :=
  let r := descRegion d
  (List.range lines).findSome? fun l =>
    let a := s.lineDpa r (regionLine d n l)
    if (s.stk.pages.get (a / 4096)).isSome then some (true, a)
    else (s.badIn a (laneBytes (s.regionFmt r))).map fun w => (false, 64 * w)

/-- The result lines of a segment, with the state after its reads and the saturations: bytes and sidebands. -/
def State.resultLines (s : State) (d : List Byte) (n : Nat) (x : Segment) : State × List (List Byte × List Byte) × Nat :=
  (List.range x.lines).foldl (fun (acc : State × List (List Byte × List Byte) × Nat) l =>
    let (s, ls, sats) := acc
    if descPath d = 1 then
      match s.accession (.readFmt (descRegion d) (regionLine d n l)) with
      | (s, .done bs _ k) => (s, ls ++ [(bs.take 256, bs.drop 256)], sats + k)
      | (s, _) => (s, ls ++ [(List.replicate 256 0, [])], sats)
    else
      let (bs, sc, k) := resultLine (descW0 d) (descW1 d) (x.aAt d l) (x.valid.read 0 l) (x.lanesAt d l)
      (s, ls ++ [(bs, sc)], sats + k)) (s, [], 0)

/-- The first lane of a segment that its residue does not match (R213). -/
def Segment.badLane (x : Segment) (d : List Byte) : Option (Nat × Nat) :=
  (List.range x.lines).findSome? fun l =>
    (((x.lanesAt d l).zip (x.resAt d l)).findIdx? fun e => !(laneRes e.1 == e.2)).map fun i => (l, i)

/-- A segment leaves FINAL for EMIT: it forms its result lines and sends them (R203, R204, R238). A path-1 read that meets
a page being decoded waits for it; one that meets an unreadable word restarts the segment (Table 11-8). -/
def State.emitSeg (s : State) (g : Nat) (cseq : BitVec 16) (n : Nat) : State :=
  match s.coll g cseq, s.seg g cseq n with
  | some c, some x =>
    let d := c.desc
    match (if descPath d = 1 then s.regionTrouble d n x.lines else none) with
    | some (true, _) => s
    | some (false, a) => (s.mediaEvent a 3).restartSeg g cseq n x.tile x.audit
    | none =>
      match (if descPath d = 1 then none else x.badLane d) with
      | some (l, i) => (s.secondMismatch g cseq n x.tile l i (awOp (descW0 d))).1
      | none =>
        let (s, ls, sats) := s.resultLines d n x
        let s := s.setSeg g cseq n { x with state := .emit, audit := none }
        let s := s.setColl g cseq { c with sats := c.sats + sats }
        (List.range (ceilDiv x.lines 16)).foldl (fun s k =>
          let part := (ls.drop (16 * k)).take 16
          let last := if x.lines ≤ 16 * k + 16 then flagLast else 0
          s.sendResult g cseq x.tile
            (s.resultFrame opResData g cseq c n (16 * k) x.total last (part.flatMap (·.2)) (part.flatMap (·.1)))) s
  | _, _ => s

/-! ### FINAL: tokens and the audit (R308, R329, R330) -/

/-- A SEG_FINAL token (Table 13-6). -/
def State.segToken (s : State) (g : Nat) (cseq : BitVec 16) (c : Coll) (n first lines : Nat) (x : Segment) (slot : Nat) :
    Token :=
  let d := c.desc
  let w0 := descW0 d
  { thread := none, slot := slot
    w0 := BitVec.ofNat 64 (1 + (s.group g).partition.toNat * 2 ^ 4 + g * 2 ^ 16 + c.gen.toNat * 2 ^ 30 + cseq.toNat * 2 ^ 38)
    w1 := BitVec.ofNat 64 (n + first * 2 ^ 24 + lines * 2 ^ 31 + awOp w0 * 2 ^ 38 + awFmt w0 * 2 ^ 42 + descPath d * 2 ^ 45 +
      (s.cnj.handles.read 0 (segKey g cseq n)).toNat * 2 ^ 46)
    w2 := descW1 d ++ w0
    w3 := BitVec.ofNat 64 (descSegLines d + descSegs d * 2 ^ 8 + x.total * 2 ^ 32) }

/-- Tokens a core's queue holds at most (R306). -/
def tokenRoom : Nat := 256

/-- A SEG_FINAL token goes to a core's queue; for a full one its tile holds it (R308). -/
def State.queueToken (s : State) (core : Nat) (k : Token) : State :=
  let q := s.ory.tokens.read [] core
  let s := s.count Reg.ORY_CNT_TOKENS.value
  if q.length < tokenRoom && !s.ory.tileTokens.any (fun e => e.1 = core) then
    { s with ory.tokens := s.ory.tokens.write [] core (q ++ [k]) }
  else ({ s with ory.tileTokens := s.ory.tileTokens ++ [(core, k)] }).raise Reg.ORY_INT_STATUS.token_held

/-- The cores of a global tile that are in service (R297, R308). -/
def State.tileCores (s : State) (t : Nat) : List Nat := ((List.range 4).map (4 * t + ·)).filter s.coreIn

/-- A FINAL segment of a transform group wakes its program (R308), or its collective aborts with TRANSFORM (R308, R316,
Table 13-11). -/
def State.wakeProgram (s : State) (g : Nat) (cseq : BitVec 16) (c : Coll) (n : Nat) (x : Segment) : State :=
  let cores := s.tileCores (homeTile g n)
  match s.ory.progs.find? fun e => e.2.id == (s.group g).program with
  | none => s.abortColl g cseq abArith 4 0 n
  | some (slot, p) =>
    if cores.isEmpty || p.suspended || !s.bit Reg.ORY_CTL.orrery_en then s.abortColl g cseq abArith 4 0 n
    else
      let chunks := (List.range (ceilDiv x.lines p.chunkLines)).map fun i =>
        (i * p.chunkLines, min p.chunkLines (x.lines - i * p.chunkLines))
      let s := s.setSeg g cseq n { x with chunks := chunks }
      (List.range chunks.length).foldl (fun s i =>
        let k := chunks.getD i (0, 0)
        s.queueToken (cores.getD (i % cores.length) 0) (s.segToken g cseq c n k.1 k.2 x slot)) s

/-- What follows the comparison of FINAL: the program, or the results. -/
def State.afterAudit (s : State) (g : Nat) (cseq : BitVec 16) (n : Nat) : State :=
  match s.coll g cseq, s.seg g cseq n with
  | some c, some x =>
    let x := { x with audit := none }
    let s := s.setSeg g cseq n x
    if (s.group g).transformEn then s.wakeProgram g cseq c n x else s.emitSeg g cseq n
  | _, _ => s

/-- The digests of a segment and of its audit are equal: they cover lanes, A and valid bits (R329). -/
def digestsEqual (d : List Byte) (x : Segment) (a : Audit) : Bool :=
  (List.range x.lines).all fun l => x.lanesAt d l == a.lanesAt d l && x.valid.read 0 l == a.valid.read 0 l

/-- The comparison of FINAL (R329, R330): equal digests let the segment go on; different ones restart it with a forced
audit, and after that one abort the collective. -/
def State.compareAudit (s : State) (g : Nat) (cseq : BitVec 16) (n : Nat) (c : Coll) (x : Segment) (a : Audit) : State :=
  let s := s.count Reg.HLT_CNT_AUDIT.value
  if digestsEqual c.desc x a then s.afterAudit g cseq n
  else
    let s := (s.count Reg.HLT_CNT_AUDIT_MISMATCH.value).raise Reg.HLT_INT_STATUS.audit_mismatch
    let s := s.log 0x16 .auditMismatch x.tile [a.tile, g, n]
    if a.forced then s.abortColl g cseq abArith 2 0 n
    else
      s.restartSeg g cseq n x.tile (some
        { tile := s.mapTile ((homeTile g n + 34) % 64), forced := true, first := some (x.lanes, a.lanes, a.tile) })

/-- The last line of the last port has been added: FINAL (Table 10-6). An audit tile that is later is waited for. -/
def State.finalizeSeg (s : State) (g : Nat) (cseq : BitVec 16) (n : Nat) (auditLate : Bool) : State :=
  match s.coll g cseq, s.seg g cseq n with
  | some c, some x =>
    let x := { x with state := .final }
    let s := (s.bumpHandle g cseq n).setSeg g cseq n x
    match x.audit with
    | none => s.afterAudit g cseq n
    | some a =>
      if auditLate then s.setSeg g cseq n { x with audit := some { a with waitFrom := some s.ft } }
      else s.compareAudit g cseq n c x a
  | _, _ => s

/-- Every port that is awaited has had every line accepted (R232). -/
def State.segComplete (s : State) (g : Nat) (c : Coll) (x : Segment) : Bool := (s.livePorts g c).all x.hasAll

/-! ### One line (R200, R212, R214, R264) -/

/-- The line j of a frame, as a frame of one line. -/
def lineFrame (f : Frame) (j : Nat) : Frame :=
  { f with w5 := BitVec.ofNat 32 (f.segment.toNat + (f.firstLine.toNat + j) * 2 ^ 24)
           payload := sliceBytes f.payload (256 * j) 256
           scales := if f.sideband then sliceBytes f.scales (8 * j) 8 else [] }

/-- The sideband of a line with its blocks at null positions made null, and the elements that this counts as clamps (R199). -/
def nullBlocks (fmt : Nat) (a : AList) (scales : List Byte) : List Byte × Nat :=
  if isBlock fmt then
    ((List.range 8).map fun b => if a.getD b none = none then 0xFF else scales.getD b 0,
      ((List.range 8).filter fun b => a.getD b none = none ∧ scales.getD b 0 ≠ 0xFF).length * blockLen fmt)
  else (scales, 0)

/-- A line has been added: its bit, its port's members, the clamps, and the lines asked for. -/
def State.lineTaken (s : State) (g : Nat) (cseq : BitVec 16) (n : Nat) (x : Segment) (p : Port) (f : Frame) (clamps : Nat) :
    State :=
  match s.coll g cseq with
  | none => s
  | some c =>
    let bit := (1 : BitVec 64) <<< f.firstLine.toNat
    let c := { c with clamps := c.clamps + clamps }.noteArrived p f.segment false bit
    let x := { x with
      arrived := x.arrived.write 0 p.toNat (SMap.read 0 x.arrived p.toNat ||| bit)
      members := x.members.write 0 p.toNat f.members.toNat }
    ((s.setColl g cseq c).setSeg g cseq n x).pmuEvent 0x0C 0x01 x.tile

/-- The audit tile's add of a line the primary accepted (R329). -/
def Audit.take (a : Audit) (d : List Byte) (x : Segment) (l : Nat) (data scales : List Byte) (faults : List AddFault) :
    Audit :=
  let w0 := descW0 d
  let lanes := a.lanesAt d l
  let r := addLine (awOp w0) (awFmt w0) (awEin (descW1 d)) (x.aList d l)
    { lanes := lanes, res := lanes.map laneRes, valid := a.valid.read 0 l } data scales
    (faults.filter fun f => f.audit && f.line = l)
  { a with lanes := a.lanes.put l r.lanes, valid := a.valid.write 0 l r.valid }

/-- Adds a line into its tile. Answers whether its frame must wait for a move (R214). -/
def State.tileLine (s : State) (g : Nat) (cseq : BitVec 16) (n : Nat) (c : Coll) (x : Segment) (p : Port) (f : Frame)
    (faults : List AddFault) : State × Bool :=
  let d := c.desc
  let w0 := descW0 d
  let l := f.firstLine.toNat
  let r := addLine (awOp w0) (awFmt w0) (awEin (descW1 d)) (x.aList d l)
    { lanes := x.lanesAt d l, res := x.resAt d l, valid := x.valid.read 0 l } f.payload f.scales
    (faults.filter fun e => !e.audit && e.line = l)
  let s := if r.repeats = 0 then s else s.pmuEvent 0x0C 0x03 x.tile none r.repeats
  match r.mismatch with
  | some i => s.secondMismatch g cseq n x.tile l i (awOp w0)
  | none =>
    let x := { x with
      lanes := x.lanes.put l r.lanes, res := x.res.put l r.res, valid := x.valid.write 0 l r.valid
      audit := x.audit.map fun a => a.take d x l f.payload f.scales faults }
    (s.lineTaken g cseq n x p f r.clamps, false)

/-- Adds a line into its region (R264): an ADD or MERGE, which the page's decode may hold (R268). -/
def State.regionLineIn (s : State) (g : Nat) (cseq : BitVec 16) (n : Nat) (c : Coll) (x : Segment) (p : Port) (f : Frame)
    (io : ChannelIo) : State :=
  let d := c.desc
  let r := descRegion d
  let l := f.firstLine.toNat
  let rl := regionLine d n l
  let a := s.lineDpa r rl
  match s.holdPage a (laneBytes (s.regionFmt r)) io (.contrib p f) with
  | some s => s
  | none =>
    match (s.wordsCorrected a io.corrected).engineStep a io.disagree with
    | (s, false) => s.abortColl g cseq abArith 2 0 n
    | (s, true) =>
      let fmt := awFmt (descW0 d)
      let (sc, k) := nullBlocks fmt (x.aList d l) f.scales
      let part := (s.group g).partition
      let cmd : AccCmd := if isSum (awOp (descW0 d)) then .add r rl part fmt f.payload sc else .merge r rl part fmt f.payload sc
      match s.accession cmd with
      | (s, .done _ clamps _) => s.lineTaken g cseq n x p f (clamps + k)
      | (s, _) => s.abortColl g cseq abArith 3 0 n

/-- A DATA line of a port in COLLECT: the first copy is added, a later one discarded (R235). Answers whether its frame must
wait. -/
def State.takeLine (s : State) (p : Port) (f : Frame) (faults : List AddFault) (io : ChannelIo) : State × Bool :=
  let g := f.group.toNat
  let n := f.segment.toNat
  match s.coll g f.cseq, s.seg g f.cseq n with
  | some c, some x =>
    if !(x.state == .collect) || (SMap.read 0 x.arrived p.toNat).getLsbD f.firstLine.toNat then
      (s.count Reg.CNJ_CNT_DUP_DROP.value, false)
    else if descPath c.desc = 1 then (s.regionLineIn g f.cseq n c x p f io, false)
    else s.tileLine g f.cseq n c x p f faults
  | _, _ => (s, false)

/-- Lines of a frame in order; it stops where one must wait. -/
def takeLines (p : Port) (faults : List AddFault) (io : ChannelIo) : List Frame → State → State × Bool
  | [], s => (s, false)
  | f :: fs, s =>
    match s.takeLine p f faults io with
    | (s, true) => (s, true)
    | (s, false) => takeLines p faults { io with corrected := 0, failed := none, disagree := 0 } fs s

/-- Lines of a port's segment that the stack channel holds (R268). -/
def State.heldLines (s : State) (p : Port) (f : Frame) : BitVec 64 :=
  s.stk.pages.foldl (fun m e => e.2.2.foldl (fun m a =>
    match a with
    | .contrib q h =>
      if q = p ∧ h.group = f.group ∧ h.cseq = f.cseq ∧ h.segment = f.segment then m ||| ((1 : BitVec 64) <<< h.firstLine.toNat)
      else m
    | _ => m) m) 0

/-- What a port's last-flagged frame shows to be lost (R234): lines not accepted, not deferred, not asked for with another
cause and not held by a channel. -/
def State.lastSeen (s : State) (p : Port) (f : Frame) : State :=
  let g := f.group.toNat
  match s.coll g f.cseq, s.seg g f.cseq f.segment.toNat with
  | some c, some x =>
    if f.last && x.state == .collect then
      let missing := fullMap x.lines &&& ~~~(SMap.read 0 x.arrived p.toNat) &&& ~~~((s.group g).deferred f.cseq p f.segment) &&&
        ~~~(c.asked p f.segment false (· ≠ 0)) &&& ~~~(s.heldLines p f)
      if missing = 0 then s else s.loseLines g f.cseq p f.segment.toNat missing false f.resent
    else s
  | _, _ => s

/-- A segment whose last line is in becomes FINAL. -/
def State.tryFinal (s : State) (g : Nat) (cseq : BitVec 16) (n : Nat) (auditLate : Bool) : State :=
  match s.coll g cseq, s.seg g cseq n with
  | some c, some x =>
    if x.state == .collect && (descKind c.desc ≠ kindGather) && s.segComplete g c x then s.finalizeSeg g cseq n auditLate else s
  | _, _ => s

/-! ### The exponent pass (R199, R233) -/

/-- MAX of two exponents, 255 standing for none. -/
def expMax (a b : Nat) : Nat := if a = 255 then b else if b = 255 then a else max a b

/-- EXP from every port: A is fixed and EXP_RESULT goes to the mask. -/
def State.expDone (s : State) (g : Nat) (cseq : BitVec 16) (n : Nat) (c : Coll) (x : Segment) : State :=
  let x := { x with state := .collect }
  let s := s.setSeg g cseq n x
  let s := if descPath c.desc = 1 then s.setRegionA c.desc n x else s
  let bs := (List.range x.lines).flatMap fun l => (List.range 8).map fun b => BitVec.ofNat 8 ((x.emax.read [] l).getD b 255)
  let body := bs ++ List.replicate ((256 - bs.length % 256) % 256) 0xFF
  s.replicate (tileDie x.tile) g cseq (s.resultFrame opExpResult g cseq c n 0 x.total 0 [] body) (s.livePorts g c)

/-- The first EXP of a port is reduced into E_max. -/
def State.takeExp (s : State) (g : Nat) (cseq : BitVec 16) (n : Nat) (c : Coll) (x : Segment) (p : Port) (f : Frame) : State :=
  let emax := (List.range x.lines).foldl (fun m l =>
    let old := SMap.read [] m l
    SMap.write [] m l ((List.range 8).map fun b => expMax (old.getD b 255) (f.payload.getD (8 * l + b) 0xFF).toNat)) x.emax
  let x := { x with emax := emax, expFrom := x.expFrom ||| portBit p, members := x.members.write 0 p.toNat f.members.toNat }
  let c := c.noteArrived p f.segment true (fullMap 64)
  let s := (s.setColl g cseq c).setSeg g cseq n x
  if (s.livePorts g c).all fun q => x.expFrom.getLsbD q.toNat then s.expDone g cseq n c x else s

end Sys2Proof.Machine
end

