-- ==== Sys2Proof/Machine/CollFrame.lean ====
section
/-!
DEFINITION. What a received frame of a collective meets (R224 to R246): stale and late frames, the checks of Table 10-5, opening
and joining, contributions of each kind, frames that wait in the shelves (R228, R232, R236), and completion (R239).
-/

namespace Sys2Proof.Machine

/-! ### Stale frames and failed checks -/

/-- A stale frame, or one that a DRAINING slot turns away (R224): counted, and answered at most once a millisecond. -/
def State.staleFrame (s : State) (p : Port) (f : Frame) (code cause : Nat) : State :=
  let g := f.group.toNat
  let s := s.count Reg.CNJ_CNT_STALE_DROP.value
  let k := 16384 * p.toNat + g
  let due := match s.cnj.staleAt.get k with
    | none => true
    | some t => decide (t + 16000000 ≤ s.ft)
  if s.bit Reg.CNJ_CTL.stale_reply_en && due then
    let s := { s with cnj.staleAt := s.cnj.staleAt.put k s.ft }
    let r := s.collRecord g f.cseq { gen := f.gen } code cause 0xFFFFFF (if code = abStale then portBit p else 0)
    let a := s.collFrame ftCollCtl opAbort f.partition g f.gen f.cseq 0 0 0 0 r
    s.originate (dieOf p) .plain [(p, a)]
  else s

/-- How a cseq relates to a group's next_cseq (R228). -/
inductive CseqRel where
  | open_ | next | late | other
  deriving DecidableEq, Repr

def Group.rel (x : Group) (c : BitVec 16) : CseqRel :=
  if x.opened.contains c then .open_
  else if c = x.nextCseq then .next
  else if 1 ≤ (x.nextCseq - c).toNat ∧ (x.nextCseq - c).toNat ≤ 256 then .late
  else .other

def opBegin : BitVec 8 := 0x02
def opAbortReq : BitVec 8 := 0x05
def opData : BitVec 8 := 0x01
def opExp : BitVec 8 := 0x02

/-- The frame is a BEGIN. -/
def isBegin (f : Frame) : Bool := f.ftype == ftCollCtl && f.opcode == opBegin

/-- A check of Table 10-5 fails on the collective that the frame's cseq names: an open one aborts, next_cseq is opened as
already aborted. -/
def State.failColl (s : State) (f : Frame) (code cause : Nat) (ports : BitVec 512) : State :=
  let g := f.group.toNat
  if (s.group g).opened.contains f.cseq then s.abortColl g f.cseq code cause ports
  else s.openAborted g code cause ports (if isBegin f then f.payload else []) f.w7

/-- members agrees with the port's count (Table 10-5). -/
def Group.membersOk (x : Group) (p : Port) (m : Nat) : Bool :=
  let n := x.counts.read 0 p.toNat
  if x.fenceTolerant then decide (1 ≤ m) && decide (m ≤ n) else m == n

/-! ### Completion (R239) -/

/-- A collective completes: COMPLETE goes to every port of the mask that R243 does not exclude. -/
def State.completeColl (s : State) (g : Nat) (cseq : BitVec 16) : State :=
  match s.coll g cseq with
  | none => s
  | some c =>
    let x := s.group g
    let r := s.collRecord g cseq c 0 0 0xFFFFFF (c.excluded ||| c.unreached ||| c.ovfSources)
    let ps := s.livePorts g c
    let s := (s.count Reg.CNJ_CNT_COMPLETE.value).releaseRegion c
    let s := { s with cnj.colls := s.cnj.colls.del (collKey g cseq) }
    let s := s.setGroup g { x with opened := x.opened.filter (· ≠ cseq) }
    let f := s.collFrame ftCollCtl opComplete x.partition g c.gen cseq 0 0 c.sig 0 r
    ps.foldl (fun s p => s.originate (dieOf p) .plain [(p, f)]) s

/-- A segment is DONE: the timer restarts (R237), and the last one completes the collective. -/
def State.markDone (s : State) (g : Nat) (cseq : BitVec 16) (n : Nat) : State :=
  match s.coll g cseq with
  | none => s
  | some c =>
    let c := { c with done := c.done.put n true, timerFrom := s.ft }
    let s := s.setColl g cseq c
    if c.done.length = descSegs c.desc then s.completeColl g cseq else s

/-! ### ALL_TO_ALL (R241, R242) -/

/-- Whether a position lies in a list of intervals [lo, hi). -/
def covered (iv : List (Nat × Nat)) (pos : Nat) : Bool := iv.any fun e => decide (e.1 ≤ pos) && decide (pos < e.2)

/-- Adds an interval that meets none of the list, which is ascending; intervals that touch become one. -/
def addInterval : List (Nat × Nat) → Nat → Nat → List (Nat × Nat)
  | [], lo, hi => [(lo, hi)]
  | (a, b) :: rest, lo, hi =>
    if hi < a then (lo, hi) :: (a, b) :: rest
    else if hi = a then (lo, b) :: rest
    else if b < lo then (a, b) :: addInterval rest lo hi
    else if b = lo then addInterval rest a hi
    else (a, b) :: addInterval rest lo hi

/-- The gaps of an ascending list of intervals in [from, cap). -/
def gapsOf (cap : Nat) : List (Nat × Nat) → Nat → List (Nat × Nat)
  | [], at_ => if at_ < cap then [(at_, cap)] else []
  | (a, b) :: rest, at_ => if at_ < a then (at_, a) :: gapsOf cap rest b else gapsOf cap rest (max at_ b)

/-- Pieces of [lo, hi) of at most 16 lines that lie within one chunk. -/
def chunkPieces (segLines : Nat) : Nat → Nat → Nat → List (Nat × Nat)
  | 0, _, _ => []
  | n + 1, lo, hi =>
    if hi ≤ lo then []
    else
      let k := min (min 16 (hi - lo)) (segLines - lo % segLines)
      (lo, k) :: chunkPieces segLines n (lo + k) hi

/-- The key of a pair of ports. -/
def pairKey (src dst : Port) : Nat := 512 * src.toNat + dst.toNat

/-- Positions of a pair are delivered; a pair whose every position is, is done. -/
def Coll.deliver (c : Coll) (src dst : Port) (lo hi : Nat) : Coll :=
  let k := pairKey src dst
  let iv := addInterval (c.pairs.read [] k) lo hi
  { c with pairs := c.pairs.write [] k iv
           pairDone := if iv = [(0, descLines c.desc)] then c.pairDone.put k true else c.pairDone }

/-- Sends lines of a source to a destination, which receives nothing where R243 excludes it. -/
def State.sendPair (s : State) (g : Nat) (cseq : BitVec 16) (src dst : Port) (pos count : Nat) (flags : BitVec 8)
    (scales payload : List Byte) : State :=
  match s.coll g cseq with
  | none => s
  | some c =>
    if c.excluded.getLsbD dst.toNat then s
    else
      let sl := descSegLines c.desc
      let f := s.resultFrame opResData g cseq c (dst.toNat + pos / sl * 512) (pos % sl) (s.leafOn src) flags scales payload
      if count = 0 then s else s.replicate (dieOf dst) g cseq f [dst]

/-- Pads a gap of a pair with lines of zeros (R242). -/
def State.padGap (s : State) (g : Nat) (cseq : BitVec 16) (src dst : Port) (gap : Nat × Nat) : State :=
  match s.coll g cseq with
  | none => s
  | some c =>
    let block := isBlock (awFmt (descW0 c.desc))
    let s := s.setColl g cseq (c.deliver src dst gap.1 gap.2)
    (chunkPieces (descSegLines c.desc) (gap.2 - gap.1) gap.1 gap.2).foldl (fun s e =>
      s.sendPair g cseq src dst e.1 e.2 flagPad (if block then List.replicate (8 * e.2) 0 else [])
        (List.replicate (256 * e.2) 0)) s

/-- Pads what a source has not sent to a destination, but for lines that RESEND has asked for. -/
def State.padPair (s : State) (g : Nat) (cseq : BitVec 16) (src dst : Port) : State :=
  match s.coll g cseq with
  | none => s
  | some c =>
    let sl := descSegLines c.desc
    let awaited := c.resends.foldl (fun iv r =>
      if r.port = src ∧ r.segment.toNat % 512 = dst.toNat then
        (mapLines r.missing).foldl (fun iv l =>
          let pos := r.segment.toNat / 512 * sl + l
          if covered iv pos then iv else addInterval iv pos (pos + 1)) iv
      else iv) (c.pairs.read [] (pairKey src dst))
    (gapsOf (descLines c.desc) awaited 0).foldl (fun s gap => s.padGap g cseq src dst gap) s

/-- A contribution of an ALL_TO_ALL (R241). -/
def State.a2aIn (s : State) (p : Port) (f : Frame) (c : Coll) : State :=
  let g := f.group.toNat
  let sl := descSegLines c.desc
  let cap := descLines c.desc
  let dst : Port := BitVec.ofNat 9 f.segment.toNat
  let pos0 := f.segment.toNat / 512 * sl + f.firstLine.toNat
  let k := f.payload.length / 256
  if sl < f.firstLine.toNat + k ∨ (s.group g).mask.getLsbD dst.toNat = false then s.failColl f abSignature 1 (portBit p)
  else
    let inside := (List.range k).filter fun j => pos0 + j < cap
    let beyond := k - inside.length
    let old := c.pairs.read [] (pairKey p dst)
    let fresh := inside.filter fun j => !covered old (pos0 + j)
    let bits := fresh.foldl (fun m j => m ||| ((1 : BitVec 64) <<< (f.firstLine.toNat + j))) 0
    let c := if beyond = 0 then c else { c with overflow := c.overflow + beyond, ovfSources := c.ovfSources ||| portBit p }
    let c := (runsOf fresh).foldl (fun c r => c.deliver p dst (pos0 + r.1) (pos0 + r.1 + r.2)) c
    let s := s.setColl g f.cseq (c.noteArrived p f.segment false bits)
    let s := if beyond = 0 then s else s.count (Reg.CNJ_A2A_OVF.value p.toNat) beyond
    let s := s.count Reg.CNJ_CNT_DUP_DROP.value (inside.length - fresh.length)
    let s := (runsOf fresh).foldl (fun s r =>
      s.sendPair g f.cseq p dst (pos0 + r.1) r.2 (if f.last && r.1 + r.2 = k then flagLast else 0)
        (if f.sideband then sliceBytes f.scales (8 * r.1) (8 * r.2) else []) (sliceBytes f.payload (256 * r.1) (256 * r.2))) s
    if f.last then s.padPair g f.cseq p dst else s

/-! ### ALL_GATHER (R240) -/

/-- An ALL_GATHER segment begins with its first frame (R240). -/
def State.gatherSeg (s : State) (g : Nat) (cseq : BitVec 16) (c : Coll) (n : Nat) : State :=
  match s.seg g cseq n with
  | some _ => s
  | none => s.startSeg g cseq c n

/-- Relays a run of lines of a contribution, by first line and count in the frame (R240). -/
def State.relayRun (s : State) (f : Frame) (x : Segment) (r : Nat × Nat) : State :=
  let g := f.group.toNat
  match s.coll g f.cseq with
  | none => s
  | some c =>
    let first := f.firstLine.toNat + r.1
    let h := s.resultFrame opGather g f.cseq c f.segment.toNat first r.2 (if first + r.2 = x.lines then flagLast else 0)
      (if f.sideband then sliceBytes f.scales (8 * r.1) (8 * r.2) else []) (sliceBytes f.payload (256 * r.1) (256 * r.2))
    s.sendResult g f.cseq x.tile h

/-- A contribution of an ALL_GATHER: the port that sends a segment first owns it; its lines are relayed. -/
def State.gatherIn (s : State) (p : Port) (f : Frame) (c : Coll) : State :=
  let g := f.group.toNat
  let n := f.segment.toNat
  let k := f.payload.length / 256
  if (c.done.get n).isSome then s.count Reg.CNJ_CNT_DUP_DROP.value k
  else
    let s := s.gatherSeg g f.cseq c n
    match s.seg g f.cseq n with
    | none => s
    | some x =>
      let owner := x.owner.getD p
      if owner ≠ p then s.count Reg.CNJ_CNT_DUP_DROP.value k
      else
        let had := SMap.read 0 x.arrived p.toNat
        let fresh := (List.range k).filter fun j => !had.getLsbD (f.firstLine.toNat + j)
        let bits := fresh.foldl (fun m j => m ||| ((1 : BitVec 64) <<< (f.firstLine.toNat + j))) 0
        let x := { x with owner := some p, arrived := x.arrived.write 0 p.toNat (had ||| bits) }
        let s := (s.setColl g f.cseq (c.noteArrived p f.segment false bits)).setSeg g f.cseq n x
        let s := s.count Reg.CNJ_CNT_DUP_DROP.value (k - fresh.length)
        let s := (runsOf fresh).foldl (fun s r => s.relayRun f x r) s
        let s := s.lastSeen p f
        match s.seg g f.cseq n with
        | none => s
        | some x => if x.hasAll p then s.setSeg g f.cseq n { x with state := .emit } else s

/-! ### Contributions (Tables 10-5 and 10-6) -/

/-- What a contribution command carries beside its frame. -/
structure ContribIn where
  faults : List AddFault := []
  io : ChannelIo := { }
  auditLate : Bool := false
  /-- The frame may take its segment out of IDLE. -/
  start : Bool := false
  deriving DecidableEq, Repr

/-- A contribution to a segment in progress. Answers whether the frame must wait. -/
def State.segmentIn (s : State) (p : Port) (f : Frame) (c : Coll) (x : Segment) (w : ContribIn) : State × Bool :=
  let g := f.group.toNat
  let n := f.segment.toNat
  if f.opcode = opExp then
    if x.expFrom.getLsbD p.toNat then (s.count Reg.CNJ_CNT_DUP_DROP.value x.lines, false)
    else if x.state = .exponent then (s.takeExp g f.cseq n c x p f, false)
    else (s.failColl f abSignature 6 (portBit p), false)
  else if x.state = .exponent then (s.failColl f abSignature 6 (portBit p), false)
  else
    match takeLines p w.faults w.io ((List.range (f.payload.length / 256)).map (lineFrame f)) s with
    | (s, true) => (s, true)
    | (s, false) => ((s.lastSeen p f).tryFinal g f.cseq n w.auditLate, false)

/-- A contribution to an ALL_REDUCE or REDUCE segment. Answers whether the frame must wait. -/
def State.reduceIn (s : State) (p : Port) (f : Frame) (c : Coll) (w : ContribIn) : State × Bool :=
  let g := f.group.toNat
  let n := f.segment.toNat
  let moving := s.tileMoving g n && descPath c.desc = 0
  if (c.done.get n).isSome then
    (s.count Reg.CNJ_CNT_DUP_DROP.value (if f.opcode = opExp then segLinesOf c.desc n else f.payload.length / 256), false)
  else
    match s.seg g f.cseq n with
    | some x => if moving && (x.state == .exponent || x.state == .collect) then (s, true) else s.segmentIn p f c x w
    | none =>
      if moving || !w.start || !s.slotsFree g c.desc n then (s, true)
      else
        let s := s.startSeg g f.cseq c n
        match s.seg g f.cseq n with
        | none => (s, false)
        | some x => s.segmentIn p f c x w

/-- The lines a contribution names lie in its segment (Table 10-5). -/
def linesFit (d : List Byte) (f : Frame) : Bool :=
  let n := f.segment.toNat
  decide (n < descSegs d) &&
    (if f.opcode = opExp then
       f.firstLine == 0 && f.payload.length == 256 * ceilDiv (8 * segLinesOf d n) 256
     else decide (f.firstLine.toNat + f.payload.length / 256 ≤ segLinesOf d n))

/-- A CONTRIB of an open collective, from BEGIN received on (Table 10-5). Answers whether it must wait. -/
def State.contribIn (s : State) (p : Port) (f : Frame) (c : Coll) (w : ContribIn) : State × Bool :=
  let g := f.group.toNat
  let fail (cause : Nat) : State × Bool := (s.failColl f abSignature cause (portBit p), false)
  if !c.begins.any (fun b => b.1 == p) then fail 2
  else if f.w7 ≠ c.sig then
    (s.setColl g f.cseq { c with
      badSigs := c.badSigs ++ [(p, f.w7)]
      mismatchAt := match c.mismatchAt with
        | some t => some t
        | none => some s.ft }, false)
  else if !(s.group g).membersOk p f.members.toNat then fail 5
  else if f.sideband ≠ (f.opcode == opData && isBlock (awFmt (descW0 c.desc))) then fail 3
  else if descKind c.desc = kindA2a then
    if f.opcode = opExp then fail 6 else (s.a2aIn p f c, false)
  else if !linesFit c.desc f then fail 1
  else if descKind c.desc = kindGather then
    if f.opcode = opExp then fail 6 else (s.gatherIn p f c, false)
  else s.reduceIn p f c w

/-! ### Opening and joining (R226, R228, R230, R243, R264) -/

/-- A descriptor's region can serve the collective (R264). -/
def State.regionOk (s : State) (g : Nat) (d : List Byte) : Bool :=
  let r := descRegion d
  descPath d = 0 ||
    (decide (r < 4096) && s.regionValid r && s.regionClear r && !s.regionRequest r && decide ((s.regionGroup r).toNat = g) &&
      decide (descLines d ≤ s.regionLines r) && s.regionW0 r == descW0 d && s.regionW1 r == descW1 d && !s.regionBusy r)

/-- What keeps a collective from opening, the lowest code first (R239): code, cause and ports. -/
def State.openTrouble (s : State) (g : Nat) (f : Frame) : Option (Nat × Nat × BitVec 512) :=
  let x := s.group g
  let d := f.payload
  let ps := maskPorts x.mask
  let fenced := ps.filter fun p => s.fence p ≠ 0
  let down := ps.filter fun p => s.fence p = 0 && !s.isUp p
  if !x.fenceTolerant && !fenced.isEmpty then some (abFenced, 1, portsMask fenced)
  else if !x.fenceTolerant && !down.isEmpty then some (abLink, 1, portsMask down)
  else if !descOk d f.cseq || !s.regionOk g d then some (abArith, 1, 0)
  else if descKind d < 2 && descPath d = 0 && decide (x.tileSlots < descSlots d) then some (abResource, 1, 0)
  else none

/-- A collective opens with its first BEGIN (R228, R243). -/
def State.openColl (s : State) (p : Port) (f : Frame) : State :=
  let g := f.group.toNat
  let x := s.group g
  let d := f.payload
  if !x.membersOk p f.members.toNat then s.failColl f abSignature 5 (portBit p)
  else if f.sideband then s.failColl f abSignature 3 (portBit p)
  else
    match s.openTrouble g f with
    | some (code, cause, ports) =>
      s.openAborted g code cause ports d f.w7 (if code = abArith then [] else [(p, f.w7, f.members.toNat)])
    | none =>
      let out := (maskPorts x.mask).filter fun q => s.fence q ≠ 0 || !s.isUp q
      let c : Coll := { gen := x.gen, desc := d, sig := f.w7, begins := [(p, f.w7, f.members.toNat)], excluded := portsMask out,
                        timerFrom := s.ft }
      let s := s.setColl g f.cseq c
      let s := s.setGroup g { x with nextCseq := f.cseq + 1, opened := x.opened ++ [f.cseq] }
      let s := if descPath d = 1 then
          (s.setFld (Reg.STK_REGION_W0.busy (descRegion d)) 1).setFld (Reg.STK_REGION_W5.holder_cseq (descRegion d)) f.cseq.toNat
        else s
      let live := s.livePorts g c
      if live.isEmpty then s.completeColl g f.cseq
      else if descKind d = kindA2a then
        out.foldl (fun s src => live.foldl (fun s dst => s.padPair g f.cseq src dst) s) s
      else s

/-- A BEGIN for a collective that is open (R226, R230). -/
def State.joinColl (s : State) (p : Port) (f : Frame) (c : Coll) : State :=
  let g := f.group.toNat
  match c.begins.find? fun b => b.1 == p with
  | some b =>
    if b.2.1 = f.w7 then s.count Reg.CNJ_CNT_DUP_DROP.value else s.failColl f abSignature 1 (portBit p)
  | none =>
    let c := { c with begins := c.begins ++ [(p, f.w7, f.members.toNat)] }
    if f.w7 ≠ c.sig then
      s.setColl g f.cseq { c with mismatchAt := match c.mismatchAt with
        | some t => some t
        | none => some s.ft }
    else if !(s.group g).membersOk p f.members.toNat then s.failColl f abSignature 5 (portBit p)
    else if f.sideband then s.failColl f abSignature 3 (portBit p)
    else if !descOk f.payload f.cseq then s.failColl f abArith 1 0
    else s.setColl g f.cseq c

/-! ### A frame of a collective -/

/-- A frame out of order (R228). -/
def State.outOfOrder (s : State) (p : Port) (g : Nat) : State :=
  match (s.group g).opened with
  | o :: _ => s.abortColl g o abSignature 4 (portBit p)
  | [] => s.openAborted g abSignature 4 (portBit p) [] 0

/-- The cause REQUESTED of a code (Table 10-8). -/
def requestedCause (code : Nat) : Nat := if code = abFenced then 4 else 5

/-- A frame whose cseq is open or next, from the partition check on (Table 10-5). Answers whether it must wait. -/
def State.checkedIn (s : State) (p : Port) (f : Frame) (w : ContribIn) : State × Bool :=
  let x := s.group f.group.toNat
  if f.partition ≠ x.partition then (s.failColl f abPartition 0 (portBit p), false)
  else if !x.mask.getLsbD p.toNat then (s.failColl f abSignature 1 (portBit p), false)
  else if f.ftype = ftCollCtl ∧ f.opcode = opAbortReq then
    (s.failColl f f.abortCode (requestedCause f.abortCode) (portBit p), false)
  else
    match s.coll f.group.toNat f.cseq with
    | some c => if isBegin f then (s.joinColl p f c, false) else s.contribIn p f c w
    | none =>
      if x.cDepth ≤ x.opened.length then (s, true)
      else if isBegin f then (s.openColl p f, false)
      else (s.failColl f abSignature 2 (portBit p), false)

/-- A frame of a collective meets R224, R228 and Table 10-5. Answers whether it must wait in the shelves. -/
def State.collIn (s : State) (p : Port) (f : Frame) (w : ContribIn) : State × Bool :=
  let g := f.group.toNat
  let x := s.group g
  if x.state = .free ∨ f.gen ≠ x.gen then (s.staleFrame p f abStale 0, false)
  else
    match x.rel f.cseq with
    | .late => (s.count Reg.CNJ_CNT_LATE_DROP.value, false)
    | .open_ =>
      match s.coll g f.cseq with
      | some c =>
        if c.excluded.getLsbD p.toNat then (s.count Reg.CNJ_CNT_LATE_DROP.value, false) else s.checkedIn p f w
      | none => (s, false)
    | .next => if x.state = .draining then (s.staleFrame p f abResource 3, false) else s.checkedIn p f w
    | .other => if x.state = .draining then (s.staleFrame p f abResource 3, false) else (s.outOfOrder p g, false)

/-! ### Frames that wait -/

/-- One look at the held frames of a group, in order. -/
def settleOnce (g : Nat) : List HeldFrame → State → State
  | [], s => s
  | h :: hs, s =>
    if (s.group g).held.contains h then
      match s.collIn h.port h.frame { } with
      | (s, true) => settleOnce g hs s
      | (s, false) =>
        let x := s.group g
        settleOnce g hs ((s.setGroup g { x with held := x.held.filter (· ≠ h) }).freeBuf h.buf)
    else settleOnce g hs s

/-- Looks at a group's held frames until none goes on. -/
def settleMany (g : Nat) : Nat → State → State
  | 0, s => s
  | n + 1, s =>
    let t := settleOnce g (s.group g).held s
    if (t.group g).held.length < (s.group g).held.length then settleMany g n t else t

/-- Held frames of a group that may go on do so. A segment in IDLE takes its frames when SEGMENT_SLOTS_AVAILABLE says. -/
def State.settle (s : State) (g : Nat) : State := settleMany g (s.group g).held.length s

/-- Held frames of every group that may go on do so. -/
def State.settleAll (s : State) : State := s.cnj.groups.foldl (fun t e => t.settle e.1) s

/-- Cells that relayed lines of a group's ALL_GATHERs take in the shelves (R240). -/
def State.relayCells (s : State) (g : Nat) : Nat :=
  s.bufs.foldl (fun n e =>
    match e.2.dests with
    | d :: _ =>
      if d.frame.ftype = ftResult ∧ d.frame.opcode = opGather ∧ d.frame.group.toNat = g then n + e.2.cells else n
    | [] => n) 0

/-- Cells of a group's frames in the shelves (R236, Table 10-10). -/
def State.groupCells (s : State) (g : Nat) : Nat := heldCells (s.group g) + s.relayCells g

/-- The lines a contribution names. -/
def State.frameLines (s : State) (f : Frame) : Nat :=
  if f.ftype = ftCollCtl then 0
  else if f.opcode = opExp then
    match s.coll f.group.toNat f.cseq with
    | some c => segLinesOf c.desc f.segment.toNat
    | none => min 64 (f.payload.length / 8)
  else f.payload.length / 256

/-- A frame beyond its group's quota is discarded and its lines are deferred (R236). -/
def State.deferFrame (s : State) (p : Port) (f : Frame) : State :=
  let g := f.group.toNat
  let x := s.group g
  let s := (s.count Reg.CNJ_CNT_DEFERRED.value).raise Reg.CNJ_INT_STATUS.deferral
  let n := s.frameLines f
  if n = 0 then s
  else if 4096 ≤ x.deferrals.length then
    match x.opened with
    | o :: _ => s.abortColl g o abResource 2 0
    | [] => s
  else
    s.setGroup g { x with deferrals := x.deferrals ++
      [{ port := p, cseq := f.cseq, segment := f.segment, firstLine := f.firstLine.toNat, count := n }] }

/-- A frame waits in the shelves, or is deferred where its group's frames fill the quota (R236). -/
def State.holdFrame (s : State) (p : Port) (f : Frame) : State :=
  let g := f.group.toNat
  if (s.group g).quota ≤ s.groupCells g then (s.freeCells p f.vc f.cells).deferFrame p f
  else
    let (s, k) := s.park p f 0
    let x := s.group g
    s.setGroup g { x with held := x.held ++ [⟨k, p, f⟩] }

/-- An earlier frame of the same port that is held goes first (R226, R231). -/
def State.behindHeld (s : State) (p : Port) (f : Frame) : Bool :=
  f.ftype == ftContrib &&
    (s.group f.group.toNat).held.any fun h =>
      h.port == p && h.frame.gen == f.gen && h.frame.cseq == f.cseq && (isBegin h.frame || h.frame.segment == f.segment)

/-- A GATHER contribution that finds its group's quota full (R236, R240). -/
def State.relayFull (s : State) (f : Frame) : Bool :=
  let g := f.group.toNat
  f.ftype == ftContrib && decide ((s.group g).quota ≤ s.groupCells g) &&
    match s.coll g f.cseq with
    | some c => decide (descKind c.desc = kindGather)
    | none => false

/-! ### Lost frames (R234, Table 7-3) -/

/-- A data error is declared on a frame for a unit of a die (R163). -/
def State.dataError (s : State) (die : Nat) : State :=
  (s.count (Reg.CORE_CNT_DATA_ERROR.value die)).raise Reg.CORE_INT_STATUS.data_error

/-- The lines of a lost contribution that are still wanted. -/
def State.wantedLines (s : State) (p : Port) (f : Frame) (c : Coll) : BitVec 64 :=
  let g := f.group.toNat
  let n := f.segment.toNat
  let named := (List.range (f.payload.length / 256)).foldl (fun m j => m ||| ((1 : BitVec 64) <<< (f.firstLine.toNat + j))) 0
  if descKind c.desc = kindA2a then
    let sl := descSegLines c.desc
    let dst : Port := BitVec.ofNat 9 n
    (mapLines named).foldl (fun m l =>
      let pos := n / 512 * sl + l
      if pos < descLines c.desc ∧ covered (c.pairs.read [] (pairKey p dst)) pos = false then m ||| ((1 : BitVec 64) <<< l) else m) 0
  else if descSegs c.desc ≤ n ∨ (c.done.get n).isSome then 0
  else
    let all := fullMap (segLinesOf c.desc n)
    match s.seg g f.cseq n with
    | none => if f.opcode = opExp then all else named &&& all
    | some x =>
      if f.opcode = opExp then (if x.state = .exponent ∧ x.expFrom.getLsbD p.toNat = false then all else 0)
      else if descKind c.desc = kindGather ∧ (x.owner.getD p ≠ p) then 0
      else if x.state = .collect then named &&& all &&& ~~~(SMap.read 0 x.arrived p.toNat) &&& ~~~(s.heldLines p f)
      else 0

/-- A frame of a collective became a data error: a contribution to an open collective is asked for again; a BEGIN, an
ABORT_REQ or a frame of no open collective draws nothing. -/
def State.collLost (s : State) (p : Port) (f : Frame) : State :=
  let g := f.group.toNat
  let x := s.group g
  if f.ftype ≠ ftContrib ∨ x.state = .free ∨ f.gen ≠ x.gen ∨ x.mask.getLsbD p.toNat = false then s
  else
    match s.coll g f.cseq with
    | none => s
    | some c =>
      if c.excluded.getLsbD p.toNat then s
      else s.loseLines g f.cseq p f.segment.toNat (s.wantedLines p f c) (f.opcode == opExp) f.resent

/-! ### Arrival -/

/-- A frame of a collective is received on a port (R229 to R236). A CONTRIB meets Table 6-1 first. -/
def State.collArrive (s : State) (p : Port) (f : Frame) (ok : Bool) (w : ContribIn) : State :=
  match s.ingress p f with
  | (s, false) => s
  | (s, true) =>
    if f.ftype = ftContrib ∧ f.dclass = false then (s.freeCells p f.vc f.cells).dirDrop
    else if f.ftype = ftContrib ∧ s.mine f = false then (s.freeCells p f.vc f.cells).noPath p f
    else if !ok then ((s.freeCells p f.vc f.cells).dataError (dieOf p)).collLost p f
    else
      let g := f.group.toNat
      let s := s.settle g
      if s.behindHeld p f then s.holdFrame p f
      else if s.relayFull f then (s.freeCells p f.vc f.cells).deferFrame p f
      else
        match s.collIn p f { w with start := true } with
        | (s, true) => s.holdFrame p f
        | (s, false) => (s.freeCells p f.vc f.cells).settle g

end Sys2Proof.Machine
end

