-- ==== Sys2Proof/Machine/Coll.lean ====
section
/-!
DEFINITION. The meanings of the commands of chapter 10: group records, the frames of collectives, and what time and the tiles
bring about.
-/

namespace Sys2Proof.Machine

/-! ### Group records (R219 to R223) -/

/-- Queues a group record, or answers QUEUE_FULL (R222). A record of 8 bytes is a teardown. -/
def State.queueRecord (s : State) (rec : List Byte) (rt : Option ReplyTo) : State :=
  if 256 ≤ s.cnj.cfgq.length then
    let s := s.raise Reg.CNJ_INT_STATUS.cfgq_full
    let s := if rec.length = 8 then s
      else (s.count Reg.CNJ_CNT_ADMIT_REFUSED.value).raise Reg.CNJ_INT_STATUS.admit_refused
    s.replyGroup rt rec 5 7
  else { s with cnj.cfgq := s.cnj.cfgq ++ [⟨decide (rec.length = 8), rec, rt⟩] }

/-- The rule of a GROUP_REC frame (R351, R352). -/
def State.takeGroupRec (s : State) (p : Port) (f : Frame) : State :=
  if s.isManager f.snode f.swSrc then s.queueRecord f.payload (some (.mgmt p f.snode f.swSrc (mgTag f)))
  else s.cfgReply p f 11

def execGroupRec (p : Port) (f : Frame) (ok : Bool) (s : State) : Outcome :=
  if f.ftype = ftMgmt ∧ f.opcode = mgGroupRec ∧ f.dclass then
    .next (s.routed p f 0 (fun s k => if ok then (s.freeBuf k).takeGroupRec p f else (s.freeBuf k).dataError (dieOf p))
      fun s k => s.freeBuf k)
  else .next s

/-- The configuration queue may process a record (R222). -/
def State.cfgqDue (s : State) : Bool :=
  match s.cnj.cfgqAt with
  | none => true
  | some t => decide (t + s.fld Reg.CNJ_CFGQ_CFG.cfgq_interval * 160 ≤ s.ft)

/-- Takes the first record of a kind from the queue. -/
def takeRecord (teardown : Bool) : List CfgRecord → Option (CfgRecord × List CfgRecord)
  | [] => none
  | r :: rs =>
    if r.teardown = teardown then some (r, rs) else (takeRecord teardown rs).map fun e => (e.1, r :: e.2)

/-- Counts of an admission record by port. -/
def recCount (b : List Byte) (p : Nat) : Nat := numAt b (128 + 2 * p) 2

/-- The mask of an admission record. -/
def recMask (b : List Byte) : BitVec 512 := BitVec.ofNat 512 (numAt b 64 64)

/-- The fields of an admission record keep Table 10-1 (R220, RECORD). -/
def recordOk (b : List Byte) : Bool :=
  let m := recMask b
  decide (b.length = 1152) && decide (numAt b 0 2 < 2 ^ 14) && decide (numAt b 3 1 < 4) && decide (numAt b 4 2 < 2 ^ 12) &&
    decide (1 ≤ numAt b 8 4) && decide (numAt b 8 4 ≤ 60000000) && decide (numAt b 12 1 ≤ 128) &&
    decide (1 ≤ numAt b 13 1) && decide (numAt b 13 1 ≤ 4) && decide (256 ≤ numAt b 16 4) && decide (numAt b 16 4 ≤ 2 ^ 27) &&
    decide (20 ≤ numAt b 20 2) && allZero (sliceBytes b 22 42) &&
    ((List.range 512).all fun p =>
      if m.getLsbD p then decide (1 ≤ recCount b p) && decide (recCount b p ≤ 256) else recCount b p == 0) &&
    decide ((List.range 512).foldl (fun n p => n + recCount b p) 0 ≤ 131072)

/-- Slots of each tile, and spill cells, that groups reserve. -/
def State.slotsReserved (s : State) : Nat :=
  s.cnj.groups.foldl (fun n e => if e.2.state = .free then n else n + e.2.tileSlots) 0
def State.spillReserved (s : State) : Nat :=
  s.cnj.groups.foldl (fun n e => if e.2.state = .free then n else n + e.2.quota) 0

/-- A transform program of an id is loaded (R220, R313). -/
def State.programReady (s : State) (id : Nat) : Bool :=
  s.ory.progs.any fun e => e.2.id.toNat = id && e.2.transform && e.2.unloading.isNone

/-- The first check of Table 10-2 that an admission fails: status and cause. -/
def State.admitTrouble (s : State) (b : List Byte) : Option (Nat × Nat) :=
  let g := numAt b 0 2 % 2 ^ 14
  let x := s.group g
  let t := numAt b 6 2
  if x.state ≠ .free then some (5, 1)
  else if numAt b 2 1 ≠ (x.gen.toNat + 1) % 256 then some (8, 1)
  else if !recordOk b then some (5, 2)
  else if 128 < s.slotsReserved + s.fld Reg.HLT_AUDIT_CFG.audit_slots + numAt b 12 1 then some (5, 3)
  else if s.fld Reg.CNJ_SPILL_POOL.cells < s.spillReserved + numAt b 16 4 then some (5, 4)
  else if (s.tree t).valid || (s.tree t).bound || t == 0xFFFF then some (5, 5)
  else if numAt b 3 1 / 2 % 2 = 1 ∧ s.programReady (numAt b 14 2) = false then some (5, 6)
  else if numAt b 4 2 = 0 then some (9, 1)
  else none

/-- The report flag of every port (Table 6-7). -/
def allReport : BitVec 2048 := (List.range 512).foldl (fun m p => m ||| ((1 : BitVec 2048) <<< (4 * p))) 0

/-- The group of an admission record. -/
def groupOf (b : List Byte) : Group :=
  { state := .admitted, gen := BitVec.ofNat 8 (numAt b 2 1), fenceTolerant := numAt b 3 1 % 2 = 1,
    transformEn := numAt b 3 1 / 2 % 2 = 1, partition := BitVec.ofNat 12 (numAt b 4 2), tree := BitVec.ofNat 16 (numAt b 6 2),
    timeout := numAt b 8 4, tileSlots := numAt b 12 1, cDepth := numAt b 13 1, program := BitVec.ofNat 16 (numAt b 14 2),
    quota := numAt b 16 4, resendTimeout := numAt b 20 2, mask := recMask b,
    counts := (List.range 512).foldl (fun m p => SMap.write 0 m p (recCount b p)) [] }

/-- Processes an admission record (R220). -/
def State.admits (s : State) (b : List Byte) (rt : Option ReplyTo) : State :=
  match s.admitTrouble b with
  | some (status, cause) =>
    ((s.count Reg.CNJ_CNT_ADMIT_REFUSED.value).raise Reg.CNJ_INT_STATUS.admit_refused).replyGroup rt b status cause
  | none =>
    let g := numAt b 0 2
    let x := groupOf b
    let s := s.setTree x.tree.toNat
      { valid := true, bound := true, partition := x.partition, group := BitVec.ofNat 14 g, mask := x.mask, flags := allReport }
    ((s.setGroup g x).count Reg.CNJ_CNT_ADMIT.value).replyGroup rt b 0 0

def execCfgqAdmission (s : State) : Outcome :=
  if s.bit Reg.CNJ_CTL.admit_en && s.cfgqDue && (takeRecord true s.cnj.cfgq).isNone then
    match takeRecord false s.cnj.cfgq with
    | none => .next s
    | some (r, rest) => .next ({ s with cnj.cfgq := rest, cnj.cfgqAt := some s.ft }.admits r.bytes r.replyTo)
  else .next s

/-- Frames of a slot that enters DRAINING and wait for a collective to open meet R224 at once (R223). -/
def State.drainWaiting (s : State) (g : Nat) : State :=
  let x := s.group g
  let out := x.held.filter fun h => !x.opened.contains h.frame.cseq
  let s := s.freeHeld g fun h => !x.opened.contains h.frame.cseq
  out.foldl (fun s h => s.staleFrame h.port h.frame abResource 3) s

/-- Processes a teardown record (R223). -/
def State.teardown (s : State) (b : List Byte) (rt : Option ReplyTo) : State :=
  let g := numAt b 0 2 % 2 ^ 14
  let x := s.group g
  if numAt b 2 1 ≠ x.gen.toNat then s.replyGroup rt b 8 1
  else if x.state = .free then s.replyGroup rt b 0 8
  else
    let s := s.setGroup g { x with state := .draining, replyTo := x.replyTo ++ rt.toList }
    let s := s.drainWaiting g
    if numAt b 3 1 / 4 % 2 = 1 then x.opened.foldl (fun s c => s.abortColl g c abResource 3 0) s else s

def execCfgqTeardown (s : State) : Outcome :=
  if s.cfgqDue then
    match takeRecord true s.cnj.cfgq with
    | none => .next s
    | some (r, rest) => .next ({ s with cnj.cfgq := rest, cnj.cfgqAt := some s.ft }.teardown r.bytes r.replyTo)
  else .next s

/-- A DRAINING slot holds nothing any more (R223). -/
def State.drained (s : State) (g : Nat) : Bool :=
  let x := s.group g
  x.state == .draining && x.opened.isEmpty && x.held.isEmpty && decide (s.relayCells g = 0) &&
    !(s.cnj.segs.any fun e => e.1 / 2 ^ 40 = g) && x.deferrals.isEmpty

/-- A drained slot is FREE; what it was bound to is cleared, and the DRAINED replies go out. -/
def State.freeGroup (s : State) (g : Nat) : State :=
  let x := s.group g
  let s := s.setTree x.tree.toNat { }
  let s := s.setGroup g { gen := x.gen }
  let s := (s.count Reg.CNJ_CNT_TEARDOWN.value).raise Reg.CNJ_INT_STATUS.drained
  x.replyTo.foldl (fun s rt => s.replyGroup (some rt) (leBytes 2 g ++ [x.gen]) 0 8) s

def execGroupDrained (g : BitVec 14) (s : State) : Outcome :=
  .next (if s.drained g.toNat then s.freeGroup g.toNat else s)

/-! ### Frames -/

def execCollBegin (p : Port) (f : Frame) (ok : Bool) (s : State) : Outcome :=
  if isBegin f then .next (s.collArrive p f ok { }) else .next s

def execContribData (p : Port) (f : Frame) (ok : Bool) (faults : List AddFault) (io : ChannelIo) (auditLate : Bool)
    (s : State) : Outcome :=
  if f.ftype = ftContrib ∧ f.opcode = opData then
    .next (s.collArrive p f ok { faults := faults, io := io, auditLate := auditLate })
  else .next s

def execExp (p : Port) (f : Frame) (ok : Bool) (s : State) : Outcome :=
  if f.ftype = ftContrib ∧ f.opcode = opExp then .next (s.collArrive p f ok { }) else .next s

def execAbortReq (p : Port) (f : Frame) (ok : Bool) (s : State) : Outcome :=
  if f.ftype = ftCollCtl ∧ f.opcode = opAbortReq then .next (s.collArrive p f ok { }) else .next s

/-! ### Segments -/

/-- A segment in IDLE whose frames wait takes its slots and starts on them (R232). -/
def execSegmentSlotsAvailable (g : BitVec 14) (cseq : BitVec 16) (seg : BitVec 24) (s : State) : Outcome :=
  let gn := g.toNat
  let waits := (s.group gn).held.any fun h => h.frame.ftype == ftContrib && h.frame.cseq == cseq && h.frame.segment == seg
  match s.coll gn cseq, s.seg gn cseq seg.toNat with
  | some c, none =>
    if waits && (c.done.get seg.toNat).isNone && !s.tileMoving gn seg.toNat && s.slotsFree gn c.desc seg.toNat then
      .next ((s.startSeg gn cseq c seg.toNat).settle gn)
    else .next s
  | _, _ => .next s

/-- A result copy of a segment is still to be sent: a frame that a test picks. -/
def State.copiesLeft (s : State) (test : Frame → Bool) : Bool :=
  (s.bufs.any fun e => e.2.dests.any fun d => test d.frame) || s.originWait.any fun w => w.copies.any fun e => test e.2

/-- A RESULT frame of a collective. -/
def resultOf (g : BitVec 14) (cseq : BitVec 16) (f : Frame) : Bool :=
  f.ftype == ftResult && f.opcode ≠ opExpResult && f.group == g && f.cseq == cseq

/-- A chunk of an ALL_TO_ALL is done for every pair: its positions are delivered. -/
def State.chunkDone (s : State) (g : Nat) (c : Coll) (n : Nat) : Bool :=
  let lo := n * descSegLines c.desc
  let hi := lo + segLinesOf c.desc n
  let live := s.livePorts g c
  (maskPorts (s.group g).mask).all fun a => live.all fun b =>
    (c.pairs.read [] (pairKey a b)).any fun e => decide (e.1 ≤ lo) && decide (hi ≤ e.2)

def execSegmentDone (g : BitVec 14) (cseq : BitVec 16) (seg : BitVec 24) (s : State) : Outcome :=
  let gn := g.toNat
  let n := seg.toNat
  match s.coll gn cseq with
  | none => .next s
  | some c =>
    if descKind c.desc = kindA2a then
      if n < descSegs c.desc && (c.done.get n).isNone && s.chunkDone gn c n &&
          !s.copiesLeft (fun f => resultOf g cseq f && decide (f.segment.toNat / 512 = n)) then
        .next ((s.markDone gn cseq n).settle gn)
      else .next s
    else
      match s.seg gn cseq n with
      | none => .next s
      | some x =>
        if x.state = .emit && !s.copiesLeft (fun f => resultOf g cseq f && f.segment == seg) then
          .next ((((s.delSeg gn cseq n).pmuEvent 0x0C 0x02 x.tile).markDone gn cseq n).settle gn)
        else .next s

/-! ### Signatures and timers -/

/-- The reference signature (R230): the one most ports carried; a tie goes to the opening signature, else to the one whose
first BEGIN came first. -/
def referenceSig (c : Coll) : W32 :=
  let tally (v : W32) : Nat := (c.begins.filter fun b => b.2.1 == v).length
  let top := c.begins.foldl (fun m b => max m (tally b.2.1)) 0
  if tally c.sig = top then c.sig
  else ((c.begins.find? fun b => tally b.2.1 = top).map fun b => b.2.1).getD c.sig

/-- The ports whose signature differs from the reference. -/
def minority (c : Coll) : BitVec 512 :=
  let r := referenceSig c
  portsMask (((c.begins.filter fun b => b.2.1 ≠ r).map (·.1)) ++ ((c.badSigs.filter fun b => b.2 ≠ r).map (·.1)))

def execSignatureCollectEnd (g : BitVec 14) (cseq : BitVec 16) (s : State) : Outcome :=
  match s.coll g.toNat cseq with
  | none => .next s
  | some c =>
    match c.mismatchAt with
    | none => .next s
    | some t =>
      if t + 1600000 ≤ s.ft || (s.livePorts g.toNat c).all fun p => c.begins.any fun b => b.1 == p then
        .next ((s.abortColl g.toNat cseq abSignature 1 (minority c)).settle g.toNat)
      else .next s

def execResendTimeout (g : BitVec 14) (cseq : BitVec 16) (s : State) : Outcome :=
  match s.coll g.toNat cseq with
  | none => .next s
  | some c =>
    let wait := (s.group g.toNat).resendTimeout * 1600
    let late := c.resends.filter fun r => r.cause = 0 && (match r.left with
      | some t => decide (t + wait ≤ s.ft)
      | none => false)
    match late with
    | [] => .next s
    | r :: _ => .next ((s.abortColl g.toNat cseq abLink 4 (portsMask (late.map (·.port))) r.segment.toNat).settle g.toNat)

/-- Sends the RESEND of a deferral (R236). -/
def State.resendDeferred (s : State) (g : Nat) (e : Deferral) : State :=
  let x := s.group g
  let f (sig : W32) : Frame := s.collFrame ftCollCtl opResend x.partition g x.gen e.cseq e.segment.toNat e.firstLine sig
    (e.count - 1 + 256) []
  let s' := s.count Reg.CNJ_CNT_RESEND.value
  match s.coll g e.cseq with
  | none => s'.originate (dieOf e.port) .plain [(e.port, f 0)]
  | some c =>
    let r : Resend := { port := e.port, segment := e.segment, firstLine := e.firstLine, count := e.count, cause := 1,
                        missing := fullMap e.count <<< e.firstLine }
    (s'.setColl g e.cseq { c with resends := c.resends ++ [r] }).originate (dieOf e.port) .plain [(e.port, f c.sig)]

def execDeferralResend (g : BitVec 14) (s : State) : Outcome :=
  let x := s.group g.toNat
  if x.deferrals ≠ [] ∧ 2 * s.groupCells g.toNat < x.quota then
    .next (x.deferrals.foldl (fun s e => s.resendDeferred g.toNat e) (s.setGroup g.toNat { x with deferrals := [] }))
  else .next s

def execCollectiveTimeout (g : BitVec 14) (cseq : BitVec 16) (s : State) : Outcome :=
  match s.coll g.toNat cseq with
  | none => .next s
  | some c =>
    if c.timerFrom + (s.group g.toNat).timeout * 16000 ≤ s.ft then
      let ps := (s.livePorts g.toNat c).filter fun p => s.awaitsPort g.toNat cseq c p
      .next ((s.abortColl g.toNat cseq abTimeout 0 (portsMask ps)).settle g.toNat)
    else .next s

/-! ### Tile moves (R214) -/

/-- An audit as it starts over. -/
def Audit.again (a : Audit) : Audit := { tile := a.tile, forced := a.forced, first := a.first }

/-- A segment whose tile is moved: emitted sums are copied under the read check, others restart. -/
def State.moveSeg (s : State) (g : Nat) (cseq : BitVec 16) (n t spare : Nat) (x : Segment) : State :=
  if x.state = .emit then
    match s.coll g cseq with
    | none => s
    | some c =>
      match x.badLane c.desc with
      | some (l, i) => (s.secondMismatch g cseq n t l i (awOp (descW0 c.desc))).1
      | none => s.setSeg g cseq n { x with tile := spare }
  else s.restartSeg g cseq n spare (x.audit.map Audit.again)

/-- An audit on a tile is abandoned as late (R329, R330). -/
def State.abandonAudit (s : State) (g : Nat) (cseq : BitVec 16) (n : Nat) (x : Segment) : State :=
  let s := (s.setSeg g cseq n { x with audit := none }).count Reg.HLT_CNT_AUDIT_LATE.value
  if x.state = .final && ((x.audit.bind Audit.waitFrom).isSome) then s.afterAudit g cseq n else s

/-- S_d takes the place of a global tile (R214). -/
def State.moveTile (s : State) (t : Nat) : State :=
  let spare := 64 + tileDie t
  let s := { s with cnj.spareOf := s.cnj.spareOf.put (tileDie t) t, cnj.moving := s.cnj.moving.filter (· ≠ t) }
  let s := s.cnj.segs.foldl (fun s e =>
    let g := e.1 / 2 ^ 40
    let cseq := BitVec.ofNat 16 (e.1 / 2 ^ 24)
    let n := e.1 % 2 ^ 24
    match s.seg g cseq n with
    | none => s
    | some x =>
      if x.slots ≠ 0 && x.tile = t then s.moveSeg g cseq n t spare x
      else if (x.audit.map Audit.tile) = some t then s.abandonAudit g cseq n x
      else s) s
  let s := (s.actionDone 1 t).raise Reg.CNJ_INT_STATUS.tile_moved
  s.settleAll

/-! ### Tile resets (R401, Table 18-3) -/

/-- A segment is lost with a tile: its slots lie there, or its tokens are with the tile's cores. -/
def segOnTile (t : Nat) (k : Nat) (x : Segment) : Bool :=
  (x.slots ≠ 0 && x.tile = t) || (!x.chunks.isEmpty && homeTile (k / 2 ^ 40) (k % 2 ^ 24) = t)

/-- The four cores of a tile are cleared: their threads restart, their slices are cleared, and queued tokens are gone. -/
def State.clearCores (s : State) (t : Nat) : State :=
  let mine (c : Nat) : Bool := c / 4 = t
  { s with
    ory.threads := s.ory.threads.filter fun e => !mine (thrCore e.1)
    ory.scratch := s.ory.scratch.filter fun e => !mine (e.1 / 2 ^ 18)
    ory.tokens := s.ory.tokens.filter fun e => !mine e.1
    ory.tileTokens := s.ory.tileTokens.filter fun e => !mine e.1
    ory.timers := s.ory.timers.filter fun x => !mine (thrCore x.thread)
    ory.watchdogs := s.ory.watchdogs.del t }

/-- A tile is reset (R401): collectives with a segment there that is not DONE abort with RESET, cause TILE; audits on it are
abandoned as late; its cores are cleared. During a move it waits; within a larger reset it is absorbed (R404). -/
def State.tileReset (s : State) (t : Nat) : State :=
  if s.pwr.resetting then s
  else if s.cnj.moving.contains t then { s with cnj.resetWait := s.cnj.resetWait ++ [t] }
  else
    let lost := (s.cnj.segs.filter fun e => segOnTile t e.1 e.2).map fun e => e.1 / 2 ^ 24
    let s := lost.eraseDups.foldl (fun s k => s.abortColl (k / 65536) (BitVec.ofNat 16 k) abReset 2 0) s
    let s := s.cnj.segs.foldl (fun s e =>
      if (e.2.audit.map Audit.tile) = some t then
        s.abandonAudit (e.1 / 2 ^ 40) (BitVec.ofNat 16 (e.1 / 2 ^ 24)) (e.1 % 2 ^ 24) e.2
      else s) s
    (s.clearCores t).settleAll

/-- The move of a tile ends, and a reset of it that waited follows. -/
def State.moveEnds (s : State) (t : Nat) : State :=
  let s := s.moveTile t
  if s.cnj.resetWait.contains t then
    ({ s with cnj.resetWait := s.cnj.resetWait.filter (· ≠ t) }).tileReset t
  else s

def execTileMoveComplete (t : BitVec 6) (s : State) : Outcome :=
  .next (if s.cnj.moving.contains t.toNat then s.moveEnds t.toNat else s)

end Sys2Proof.Machine
end

