-- ==== Sys2Proof/Machine/MemCore.lean ====
section
/-!
DEFINITION. The memory endpoint (chapter 12): the form of a request and its checks (R274, R443), the access table (R277),
performing a request (R276 to R280), the replay filter (R286), and combining (R287 to R291).
-/

namespace Sys2Proof.Machine

/-! ### The form of a request (R274, Table 12-1) -/

def nkWindow : Nat := 1
def nkIndex : Nat := 2
def nkForm : Nat := 3
def nkTree : Nat := 4
def nkAccess : Nat := 5
def nkMedia : Nat := 6
def nkRegion : Nat := 7
def nkLaneLimit : Nat := 8
def nkArith : Nat := 9

/-- The sub-fields of REDUCE_INTO's mem_mod. -/
def redOp (f : Frame) : Nat := f.memMod.toNat % 16
def redFmt (f : Frame) : Nat := f.memMod.toNat / 16 % 8
def redRegion (f : Frame) : Bool := f.opcode == reqReduce && f.memMod.getLsbD 7

/-- The region and the line a region target names (R279). -/
def redLine (f : Frame) : Nat × Nat := (f.address.toNat / 2 ^ 30 % 4096, f.address.toNat % 2 ^ 30)

/-- Bytes a LOAD asks for. -/
def loadSize (f : Frame) : Nat := (f.memMod.toNat % 32 + 1) * 8

/-- Bytes a request touches at its address: all of a reduction's target in the window (R279). -/
def reqBytes (f : Frame) : Nat :=
  if f.opcode = reqLoad then loadSize f
  else if f.opcode = reqAtomic then 8
  else if f.opcode = reqReduce then (if 5 < redFmt f then 256 else laneBytes (redFmt f))
  else f.payload.length

/-- A request has the form R274 asks for. A region target's line is named by its address, so no bytes cross a line
(log 37). -/
def reqForm (f : Frame) : Bool :=
  let n := f.payload.length
  let a := f.address.toNat
  let mm := f.memMod.toNat
  let plain := !f.sideband && f.scales.isEmpty
  let inLine (k : Nat) : Bool := decide (a % 8 = 0) && decide (a % 256 + k ≤ 256)
  match f.opcode.toNat with
  | 1 => plain && decide (n = 0) && decide (mm < 32) && inLine (loadSize f)
  | 2 => plain && decide (8 ≤ n) && decide (n % 8 = 0) && decide (mm = 0) && inLine n
  | 3 => plain && decide (8 ≤ n) && decide (n % 8 = 0) && decide (mm = 0) && inLine n
  | 4 => plain && decide (mm < 7) && decide (n = if mm = 2 then 16 else 8) && inLine 8
  | 5 =>
    (if isBlock (redFmt f) then f.sideband && decide (f.scales.length = 8) else plain) && decide (n = 256) &&
      decide (a % 8 = 0) &&
      (if redRegion f then decide (a / 2 ^ 42 = 0) else 5 < redFmt f || decide (a % laneBytes (redFmt f) = 0))
  | 6 => plain && decide (n = 0) && decide (mm = 0)
  | _ => false

/-! ### The checks of R443 -/

/-- What becomes of a request to this spine's memory. -/
inductive MemWay where
  /-- Rewritten for a node and forwarded (R145). -/
  | node (f : Frame)
  | nack (reason : Nat)
  | tree (t : Tree)
  /-- Performed, at the DPA of its first byte. -/
  | perform (dpa : Nat)
  | fence
  deriving DecidableEq, Repr

/-- The access table refuses a request at a window offset (R277). -/
def State.accessDenied (s : State) (o : Nat) (q : BitVec 12) (write : Bool) : Bool :=
  !s.bit Reg.MSF_CTL.access_en ||
    match (List.range 256).find? fun n => s.bit (Reg.MSF_ACCESS_CTL.valid n) &&
        decide (s.fld (Reg.MSF_ACCESS_BASE.base n) * 2 ^ 21 ≤ o) &&
        decide (o < (s.fld (Reg.MSF_ACCESS_BASE.base n) + s.fld (Reg.MSF_ACCESS_SIZE.size n)) * 2 ^ 21) with
    | none => true
    | some n =>
      (s.fld (Reg.MSF_ACCESS_CTL.partition n) ≠ 0 && s.fld (Reg.MSF_ACCESS_CTL.partition n) ≠ q.toNat) ||
        (write && !s.bit (Reg.MSF_ACCESS_CTL.write n))

/-- A window reduction's op, format and A are accepted (R279, R196). -/
def redWindowOk (f : Frame) : Bool :=
  let op := redOp f
  opFmtOk op (redFmt f) && (isSum op || decide (3 ≤ op ∧ op ≤ 5)) &&
    !(decide (op = 0) && decide (redFmt f < 5) && decide (f.status.toNat = 255))

/-- A region takes a REDUCE_INTO (R264, R279). -/
def State.redRegionOk (s : State) (f : Frame) : Bool :=
  let (r, l) := redLine f
  s.regionUsable r l && s.regionRequest r && s.regionPart r == f.partition &&
    decide (awOp (s.regionW0 r) = redOp f) && decide (s.regionFmt r = redFmt f)

/-- A request that is performed in the window at an offset, after the checks before it (R443, steps 2 to 5). -/
def State.inWindow (s : State) (f : Frame) (o : Nat) : MemWay :=
  if s.windowSize < o + reqBytes f then .nack nkWindow
  else if f.opcode = reqMcast then .nack nkTree
  else if f.opcode = reqReduce ∧ !redWindowOk f then .nack nkArith
  else if s.accessDenied o f.partition (f.opcode ≠ reqLoad) then .nack nkAccess
  else .perform (s.windowDpa o)

/-- The checks of a request to this spine's memory, in the order of R443. A request that a NODE entry matches is passed
on without a check of its form, as pass-through requests are (R274; log 38). -/
def State.memWay (s : State) (f : Frame) : MemWay :=
  let a := f.address
  let hit := if a.getLsbD 63 && f.opcode ≠ reqFence && !redRegion f then s.idxLookup a f.partition else none
  let toNode : Option IdxEntry := match hit with
    | some e => if e.kind = kindNode ∧ f.opcode ≠ reqMcast then some e else none
    | none => none
  match toNode with
  | some e =>
    let c := e.coord a
    .node { f with dclass := false, dnode := e.node, w4 := c.setWidth 32, w5 := (c >>> 32).setWidth 32 }
  | none =>
    if !reqForm f then .nack nkForm
    else if f.opcode = reqFence then .fence
    else if redRegion f then
      if !opFmtOk (redOp f) (redFmt f) then .nack nkArith
      else if !s.redRegionOk f then .nack nkRegion
      else .perform (s.lineDpa (redLine f).1 (redLine f).2)
    else if a.getLsbD 63 then
      match hit with
      | none => .nack nkIndex
      | some e =>
        if e.kind = kindSelf then s.inWindow f (e.offset a)
        else if e.kind = kindTree ∧ f.opcode = reqMcast then
          match s.treeFor e.tree f.partition with
          | some t => .tree t
          | none => .nack nkTree
        else .nack nkTree
    else if a.toNat / 2 ^ 46 ≠ 0 then .nack nkWindow
    else s.inWindow f a.toNat

/-- A lookup of the index is made for the request: its probes are counted, and a miss that is answered (Table 6-9). -/
def State.countLookup (s : State) (die : Nat) (f : Frame) : State :=
  if f.address.getLsbD 63 && f.opcode ≠ reqFence && !redRegion f && s.bit Reg.FWD_CTL.idx_en then
    s.pmuEvent 0x06 0x02 die none (s.idxProbes f.address)
  else s

/-! ### The replay filter (R286) -/

/-- The units of filter_window are 160,000 FT. -/
def State.filterWindow (s : State) : Nat := s.fld Reg.MSF_FILTER_CFG.filter_window * 160000

/-- Two requests have one source and seq. -/
def FilterRec.sameSeq (r : FilterRec) (die : Nat) (f : Frame) : Bool :=
  r.die.toNat = die && r.swSrc == f.swSrc && r.snode == f.snode && r.seq == f.seq

/-- A request repeats another: source, seq, opcode and address. -/
def sameRequest (a b : Frame) : Bool :=
  a.swSrc == b.swSrc && a.snode == b.snode && a.seq == b.seq && a.opcode == b.opcode && a.address == b.address

/-- The opcodes the filter keeps. -/
def filtered (f : Frame) : Bool := f.opcode == reqAtomic || f.opcode == reqReduce

/-- The record of a source and seq that has not expired. -/
def State.filterRec (s : State) (die : Nat) (f : Frame) : Option FilterRec :=
  s.msf.filters.find? fun r => r.sameSeq die f && decide (s.ft < r.at_ + s.filterWindow)

/-- A request answered from a record (R286). -/
def State.filterHit (s : State) (die : Nat) (q : MemReq) (r : FilterRec) : State :=
  (s.count Reg.MSF_CNT_FILTER_HIT.value).answer die q r.ansOp (Nat.lor r.status 8) r.payload

/-- Records an answer: it replaces a record of its source and seq; in a full filter the oldest record makes room. Repeats
that waited for the answer get it. -/
def State.filterPut (s : State) (die : Nat) (q : MemReq) (op : BitVec 8) (status : Nat) (payload : List Byte) : State :=
  if !s.bit Reg.MSF_CTL.filter_en || !filtered q.frame then s
  else
    let f := q.frame
    let r : FilterRec :=
      { die := BitVec.ofNat 2 die, swSrc := f.swSrc, snode := f.snode, seq := f.seq, opcode := f.opcode,
        addr := f.address, ansOp := op, status := status, payload := payload, at_ := s.ft }
    let rest := s.msf.filters.filter fun x => !x.sameSeq die f
    let full := 65536 ≤ (rest.filter fun x => x.die.toNat = die).length
    let rest := if full then
        match rest.find? fun x => x.die.toNat = die with
        | some o => rest.erase o
        | none => rest
      else rest
    let s := { s with msf.filters := rest ++ [r] }
    let s := if full then (s.count Reg.MSF_CNT_FILTER_EVICT.value).raise Reg.MSF_INT_STATUS.filter_evict else s
    let mine (e : BitVec 2 × MemReq) : Bool := e.1.toNat = die && sameRequest e.2.frame f
    let ws := s.msf.repeats.filter mine
    ws.foldl (fun s e => s.filterHit die e.2 r) { s with msf.repeats := s.msf.repeats.filter fun e => !mine e }

/-! ### Answers -/

/-- A NACK to a request, and to the repeats of it that waited (R286; log 39). -/
def State.refuseReq (s : State) (die : Nat) (q : MemReq) (reason : Nat) : State :=
  let mine (e : BitVec 2 × MemReq) : Bool := e.1.toNat = die && sameRequest e.2.frame q.frame && filtered q.frame
  let ws := s.msf.repeats.filter mine
  ws.foldl (fun s e => s.nack die e.2 reason)
    (({ s with msf.repeats := s.msf.repeats.filter fun e => !mine e }).nack die q reason)

def State.refuseAll (s : State) (die : Nat) (qs : List MemReq) (reason : Nat) : State :=
  qs.foldl (fun s q => s.refuseReq die q reason) s

/-- A write goes to a stack channel; it is answered when the channel accepts it (R276). -/
def State.queueAck (s : State) (ch : Nat) (a : WriteAck) : State :=
  { s with msf.writes := s.msf.writes.write [] ch (s.msf.writes.read [] ch ++ [a]) }

/-- The answer of a flushed or single request that its channel will accept. -/
def ackOf (die : Nat) (qs : List MemReq) (status : Nat) : WriteAck :=
  match qs with
  | [q] => .one q status
  | _ => .set (BitVec.ofNat 2 die) qs status

/-! ### Performing (R276, R278 to R280) -/

/-- One lane of a window reduction: the lane after the contributions, the clamps of their conversions, and whether the
lane clamped (R279, R280). -/
def redLane (op fmt a : Nat) (lines : List (List Byte × List Byte)) (v : W64) (i : Nat) : W64 × Nat × Bool :=
  if isSum op then
    let al : AList := List.replicate 8 (some (a : Int))
    let qs := lines.map fun e => sumQ fmt a al e.1 e.2 i
    let t := v.toInt + qs.foldl (fun n q => n + q.1.getD 0) 0
    let top : Int := 2 ^ 63 - 1
    let w := clampInt t (-top) top
    (intLane w, (qs.filter fun q => q.2).length, !(w == t))
  else (lines.foldl (fun v e => (stepLane op fmt a 0 (List.replicate i 0 ++ [v]) e.1 e.2 i).getD v) v, 0, false)

/-- REDUCE_INTO a window target: the channel's one read-modify-write (R279). -/
def State.redWindow (s : State) (die : Nat) (qs : List MemReq) (q : MemReq) : State :=
  let f := q.frame
  let fmt := redFmt f
  let bs := s.bytesAt q.dpa (laneBytes fmt)
  let lines := qs.map fun x => (x.frame.payload, x.frame.scales)
  let ls := (List.range (elemsPerLine fmt)).map fun i =>
    redLane (redOp f) fmt f.status.toNat lines (BitVec.ofNat 64 (numAt bs (8 * i) 8)) i
  let sats := (ls.filter fun x => x.2.2).length
  let status := (if ls.any fun x => decide (0 < x.2.1) then 1 else 0) + (if 0 < sats then 2 else 0)
  let s := (s.countRead q.dpa (laneBytes fmt)).storeMem q.dpa (ls.flatMap fun x => leBytes 8 x.1.toNat)
  let s := if 0 < sats then (s.count Reg.MSF_CNT_SAT.value sats).raise Reg.MSF_INT_STATUS.lane_sat else s
  let s := (s.count Reg.MSF_CNT_REDUCE.value qs.length).pmuEvent 0x12 0x01 die none qs.length
  let s := s.queueAck (dpaChannel q.dpa) (ackOf die qs status)
  qs.foldl (fun s x => s.filterPut die x rspAck status []) s

/-- Reductions into a region line that its engine performed or refused; a merged one refused for LANE_LIMIT is performed
constituent by constituent (R288). -/
def State.redRegionOne (s : State) (die r l : Nat) (q : MemReq) : State :=
  match s.accAdd r l [(q.frame.payload, q.frame.scales)] with
  | (s, .done _ clamps _) =>
    let status := if 0 < clamps then 1 else 0
    let s := (s.count Reg.MSF_CNT_REDUCE.value).pmuEvent 0x12 0x01 die
    (s.queueAck (dpaChannel q.dpa) (.one q status)).filterPut die q rspAck status []
  | (s, .laneLimit) => s.refuseReq die q nkLaneLimit
  | (s, .refused) => s.refuseReq die q nkRegion

def State.redRegionAll (s : State) (die : Nat) (qs : List MemReq) (q : MemReq) (disagree : Nat) : State :=
  let (r, l) := redLine q.frame
  if !s.redRegionOk q.frame then s.refuseAll die qs nkRegion
  else
    match s.engineStep q.dpa disagree with
    | (s, false) => s.draw.refuseAll die qs (Config.freeRefusal s.fresh).toNat
    | (s, true) =>
      match qs with
      | [q] => s.redRegionOne die r l q
      | _ =>
        match s.accAdd r l (qs.map fun x => (x.frame.payload, x.frame.scales)) with
        | (s, .done _ clamps _) =>
          let status := if 0 < clamps then 1 else 0
          let s := (s.count Reg.MSF_CNT_REDUCE.value qs.length).pmuEvent 0x12 0x01 die none qs.length
          let s := s.queueAck (dpaChannel q.dpa) (ackOf die qs status)
          qs.foldl (fun s x => s.filterPut die x rspAck status []) s
        | (s, _) => qs.foldl (fun s x => s.redRegionOne die r l x) s

/-- STOREs to one line, in arrival order (R288). -/
def State.doStores (s : State) (die : Nat) (qs : List MemReq) (q : MemReq) : State :=
  let s := qs.foldl (fun s x => s.storeMem x.dpa x.frame.payload) s
  let s := (s.count Reg.MSF_CNT_STORE.value qs.length).pmuEvent 0x12 0x01 die none qs.length
  s.queueAck (dpaChannel q.dpa) (ackOf die qs 0)

/-- Performs requests as one operation: one request, or the constituents of a flush (R289). -/
def State.doReqs (s : State) (die : Nat) (qs : List MemReq) (disagree : Nat) : State :=
  match qs with
  | [] => s
  | q :: _ =>
    let f := q.frame
    if f.opcode = reqLoad then
      let s := ((s.countRead q.dpa (loadSize f)).count Reg.MSF_CNT_LOAD.value).pmuEvent 0x12 0x01 die
      s.answer die q rspData 0 (s.bytesAt q.dpa (loadSize f))
    else if f.opcode = reqStore then s.doStores die qs q
    else if f.opcode = reqAtomic then
      match s.engineStep q.dpa disagree with
      | (s, false) => s.draw.refuseReq die q (Config.freeRefusal s.fresh).toNat
      | (s, true) =>
        let b := BitVec.ofNat 64 (numAt f.payload 0 8)
        let b2 := BitVec.ofNat 64 (numAt f.payload 8 8)
        let cas := f.memMod = 2
        match s.accession (.atomic q.dpa f.memMod (if cas then b2 else b) (if cas then b else 0)) with
        | (s, .done old _ _) =>
          let s := (s.count Reg.MSF_CNT_ATOMIC.value).pmuEvent 0x12 0x01 die
          (s.answer die q rspData 0 old).filterPut die q rspData 0 old
        | (s, _) => s.refuseReq die q nkForm
    else if redRegion f then s.redRegionAll die qs q disagree
    else s.redWindow die qs q

/-- The words requests read (R265, R267). -/
def State.reqReads (qs : List MemReq) : List Nat :=
  match qs with
  | [] => []
  | q :: _ =>
    let f := q.frame
    if f.opcode = reqStore then
      let ws := qs.flatMap fun x => partWords x.dpa x.frame.payload.length
      ws.filter fun w => !qs.any fun x => (wholeWords x.dpa x.frame.payload.length).contains w
    else touchedWords q.dpa (reqBytes f)

/-- Requests reach their stack channel: they are performed, or wait for the decode of their page (R267, R268). -/
def State.issueReqs (s : State) (die : Nat) (qs : List MemReq) (a : Access) (io : ChannelIo) : State :=
  match qs with
  | [] => s
  | q :: _ =>
    let ws := State.reqReads qs
    match s.holdWords q.dpa ws io a with
    | some s => s
    | none => (if ws.isEmpty then s else s.wordsCorrected q.dpa io.corrected).doReqs die qs io.disagree

/-- Requests that meet an uncorrectable word (Table 11-8). -/
def State.failReqs (s : State) (die : Nat) (qs : List MemReq) : State := s.refuseAll die qs nkMedia

/-! ### Combining (R287 to R291) -/

/-- The range of a request (R287): its die, whether it passes through and to which node, its first address and length, and
the x its counter is taken from. -/
structure CombAt where
  die : Nat
  thru : Bool
  dnode : Node
  lo : Nat
  len : Nat
  x : Nat
  deriving DecidableEq, Repr

/-- The counter of R287. -/
def combIndex (x : Nat) : Nat := x * 0x9E3779B97F4A7C15 % 2 ^ 64 / 2 ^ 50

/-- The range of a request to own memory. -/
def ownRange (q : MemReq) : CombAt :=
  let d := dpaDie q.dpa
  if q.frame.opcode = reqReduce then ⟨d, false, 0, q.dpa, reqBytes q.frame, q.dpa / 256⟩
  else ⟨d, false, 0, q.dpa / 256 * 256, 256, q.dpa / 256⟩

/-- The range of a pass-through request. A region target of the endpoint is a range of its own (log 36). -/
def thruRange (die : Nat) (f : Frame) : CombAt :=
  let a := f.address.toNat
  let x := Nat.xor (a / 256) (f.dnode.toNat * 2 ^ 40) % 2 ^ 64
  if redRegion f then ⟨die, true, f.dnode, 2 ^ 64 + 2 ^ 13 * a, 1, x⟩
  else if f.opcode = reqReduce then ⟨die, true, f.dnode, a, reqBytes f, x⟩
  else ⟨die, true, f.dnode, a / 256 * 256, 256, x⟩

/-- An entry's range overlaps a range, or equals it. -/
def Comb.overlaps (c : Comb) (a : CombAt) : Bool :=
  c.die.toNat = a.die && c.thru == a.thru && c.dnode == a.dnode && decide (c.lo < a.lo + a.len) && decide (a.lo < c.lo + c.len)
def Comb.equals (c : Comb) (a : CombAt) : Bool := c.overlaps a && c.lo = a.lo && c.len = a.len

/-- The bytes STOREs write within their line, as one run. -/
def storeRun (qs : List MemReq) : Nat × Nat :=
  qs.foldl (fun (r : Nat × Nat) q =>
    let lo := q.frame.address.toNat % 256
    let hi := lo + q.frame.payload.length
    if r.2 = 0 then (lo, hi) else (min r.1 lo, max r.2 hi)) (0, 0)

/-- An arrival merges with what an entry holds (Table 12-6). A pass-through STORE must leave its bytes one run, since no
request writes bytes apart (log 36). -/
def Comb.takes (c : Comb) (f : Frame) : Bool :=
  match c.qs with
  | [] => true
  | q :: _ =>
    q.frame.opcode == f.opcode &&
      (if f.opcode = reqStore then
        !c.thru ||
          (let (lo, hi) := storeRun c.qs
           let a := f.address.toNat % 256
           decide (a ≤ hi) && decide (lo ≤ a + f.payload.length))
      else q.frame.memMod == f.memMod && q.frame.address == f.address &&
        (redOp f ≠ opSum || 5 ≤ redFmt f || redRegion f || q.frame.status == f.status))

/-- Units of Table 12-12. -/
def State.mergeWindow (s : State) : Nat := max 1 (s.fld Reg.MSF_COMBINE_CFG.merge_window) * 160
def State.idleClose (s : State) : Nat := max 1 (s.fld Reg.MSF_COMBINE_CFG2.idle_close) * 1600
def State.maxMerge (s : State) : Nat :=
  let v := s.fld Reg.MSF_COMBINE_CFG2.max_merge
  if 2 ≤ v ∧ v ≤ 4096 then v else 4096

def State.setComb (s : State) (c : Comb) : State :=
  { s with msf.combs := s.msf.combs.map fun x => if x.id = c.id then c else x }

/-- The payload and sideband of a merged pass-through request: the merged bytes of STOREs, the combined bits of AND, OR and
XOR, a single constituent's own line, and otherwise the free line of log 36. -/
def mergedPayload (qs : List MemReq) : List Byte × List Byte :=
  match qs with
  | [] => ([], [])
  | [q] => (q.frame.payload, q.frame.scales)
  | q :: rest =>
    let f := q.frame
    if f.opcode = reqStore then
      let (lo, hi) := storeRun qs
      let m := qs.foldl (fun m x => writeBytes m (x.frame.address.toNat % 256) x.frame.payload) []
      ((List.range (hi - lo)).map fun i => SMap.read 0 m (lo + i), [])
    else if 3 ≤ redOp f ∧ redOp f ≤ 5 then
      let g (a b : Byte) : Byte := if redOp f = opAnd then a &&& b else if redOp f = opOr then a ||| b else a ^^^ b
      (rest.foldl (fun bs x => (bs.zip x.frame.payload).map fun e => g e.1 e.2) f.payload, f.scales)
    else
      let bs := Config.freeMergedLine (qs.map fun x => x.frame.payload ++ x.frame.scales)
      (sliceBytes bs 0 256, if isBlock (redFmt f) then sliceBytes bs 256 8 else [])

/-- The merged request itself (R291): from the device's own counter, to the endpoint. -/
def State.sendMerged (s : State) (c : Comb) : State :=
  match c.qs with
  | [] => s
  | q :: _ =>
    let f := q.frame
    let (pl, sc) := mergedPayload c.qs
    let a := if f.opcode = reqStore then BitVec.ofNat 64 (c.lo + (storeRun c.qs).1) else f.address
    let (s, seq) := s.takeSeq
    let r : ThruReq := { seq := seq, opcode := f.opcode, at_ := s.ft, die := c.die, qs := c.qs }
    let s := { s with msf.thrus := s.msf.thrus ++ [r] }
    s.originate c.die.toNat .plain
      [(s.route c.dnode,
        { f with dclass := false, dnode := c.dnode, hops := 0, snode := s.ownSnode, flags := flagSwSrc, seq := seq, epoch := 0,
                 w4 := a.setWidth 32, w5 := (a >>> 32).setWidth 32, payload := pl, scales := sc })]

/-- Flushes an entry (R289): what it holds is performed as one operation, or sent on. -/
def State.flushComb (s : State) (c : Comb) (io : ChannelIo) : State :=
  match c.qs with
  | [] => s
  | qs =>
    let s := (s.setComb { c with qs := [] }).count Reg.MSF_CNT_FLUSH.value
    let s := (s.count Reg.MSF_CNT_MERGED.value qs.length).pmuEvent 0x12 0x02 c.die.toNat none qs.length
    if c.thru then s.sendMerged c else s.issueReqs c.die.toNat qs (.flush c.die qs) io

/-- Entries of a die. -/
def State.combCountOf (s : State) (die : Nat) : Nat := (s.msf.combs.filter fun c => c.die.toNat = die).length

/-- Adds a constituent to an open entry; one that is full flushes (R289). -/
def State.combAdd (s : State) (id : Nat) (q : MemReq) : State :=
  match s.msf.combs.find? fun c => c.id = id with
  | none => s
  | some c =>
    let c := { c with qs := c.qs ++ [q], first := if c.qs.isEmpty then s.ft else c.first, lastAt := s.ft }
    let s := s.setComb c
    if s.maxMerge ≤ c.qs.length then s.flushComb c ({ } : ChannelIo) else s

/-- An arrival meets the combining entries (R287, R288). Answers whether an entry has taken it. -/
def State.offer (s : State) (a : CombAt) (q : MemReq) (enabled : Bool) : State × Bool :=
  let f := q.frame
  let hit := (s.msf.combs.filter fun c => c.overlaps a).map (·.id)
  let s := { s with msf.combs := s.msf.combs.map fun c => if c.overlaps a then { c with lastAt := s.ft } else c }
  let flushIf (s : State) (pick : Comb → Bool) : State :=
    hit.foldl (fun s id =>
      match s.msf.combs.find? fun c => c.id = id with
      | some c => if pick c then s.flushComb c ({ } : ChannelIo) else s
      | none => s) s
  if !enabled || !(f.opcode == reqStore || f.opcode == reqReduce) then (flushIf s fun _ => true, false)
  else
    let k := 16384 * a.die + combIndex a.x
    let n := s.msf.combCount.read 0 k + 1
    let s := { s with msf.combCount := s.msf.combCount.write 0 k n }
    let s := flushIf s fun c => !c.equals a || !c.takes f
    match s.msf.combs.find? fun c => c.equals a with
    | some c => (s.combAdd c.id q, true)
    | none =>
      if !hit.isEmpty || decide (n ≤ s.fld Reg.MSF_COMBINE_CFG.trigger_count) then (s, false)
      else if 4096 ≤ s.combCountOf a.die then
        ((s.count Reg.MSF_CNT_COMB_FULL.value).raise Reg.MSF_INT_STATUS.comb_full, false)
      else
        let c : Comb :=
          { id := s.msf.serial, die := BitVec.ofNat 2 a.die, thru := a.thru, dnode := a.dnode, lo := a.lo, len := a.len,
            first := s.ft, lastAt := s.ft }
        let s := { s with msf.serial := s.msf.serial + 1, msf.combs := s.msf.combs ++ [c] }
        let hw := Reg.MSF_COMB_STAT.high_water a.die
        let s := s.setFld hw (max (s.fld hw) (s.combCountOf a.die))
        (s.combAdd c.id q, true)

/-! ### Fences (R283) -/

/-- Requests to this spine's memory that have not been answered. -/
def State.unanswered (s : State) : List MemReq :=
  (s.msf.writes.flatMap fun e => e.2.flatMap fun a =>
    match a with
    | .one q _ => [q]
    | .set _ qs _ => qs
    | .thread _ _ => []) ++
  ((s.msf.combs.filter fun c => !c.thru).flatMap fun c => c.qs) ++
  (s.stk.pages.flatMap fun e => e.2.2.flatMap fun a =>
    match a with
    | .request q => [q]
    | .flush _ qs => qs
    | _ => []) ++
  ((s.msf.mcasts.filter fun e => e.2.thread.isNone).map fun e => e.2.req) ++ (s.msf.repeats.map fun e => e.2) ++ s.msf.fences

/-- Two requests have one source and came in on one port. -/
def sameSource (a b : MemReq) : Bool :=
  a.port == b.port && a.frame.snode == b.frame.snode && a.frame.swSrc == b.frame.swSrc

/-- Every earlier request of a FENCE's source on its port has been answered. -/
def State.fenceReady (s : State) (q : MemReq) : Bool :=
  !s.unanswered.any fun x => sameSource x q && decide (x.serial < q.serial)

/-- The ACK of a FENCE. -/
def State.answerFence (s : State) (q : MemReq) : State :=
  (({ s with msf.fences := s.msf.fences.filter fun x => x.serial ≠ q.serial }).count Reg.MSF_CNT_FENCE.value).answer
    (dieOf q.port) q rspAck 0 []

/-- A FENCE arrives: it flushes the entries of the line it names, and is answered at once where nothing is outstanding. -/
def State.fenceIn (s : State) (q : MemReq) : State :=
  let o := q.frame.address.toNat
  let s := if o < s.windowSize then (s.offer (ownRange { q with dpa := s.windowDpa o }) q false).1 else s
  if s.fenceReady q then s.answerFence q else { s with msf.fences := s.msf.fences ++ [q] }

/-! ### Multicast stores (R281, R149, R150) -/

/-- A buffer belongs to a STORE_MCAST operation. -/
def State.ownMcast (s : State) (k op : Nat) : State :=
  match s.bufs.get k with
  | some b => { s with bufs := s.bufs.put k { b with owner := .mcast op } }
  | none => s

/-- The copy of a STORE_MCAST for a port (R149): attached to the buffer, or lost at once where the port cannot take it. -/
def State.mcastCopy (s : State) (k op : Nat) (f : Frame) (p : Port) : State :=
  let copy : Frame :=
    { f with ftype := ftMcast, vc := 5, dclass := false, dnode := BitVec.ofNat 17 (s.leafOn p * 256), hops := f.hops + 1 }
  if (s.link p).state == .down || fenceStops (s.fence p) copy then s.copyLost op p
  else (s.attach k p copy).pmuEvent 0x06 0x03 p.toNat

/-- A buffer without destinations is free. -/
def State.dropEmpty (s : State) (k : Nat) : State :=
  match s.bufs.get k with
  | some b => if b.dests.isEmpty then s.freeBuf k else s
  | none => s

/-- Replicates a STORE_MCAST from its own buffer. -/
def State.mcastIn (s : State) (k : Nat) (q : MemReq) (t : Tree) : State :=
  let f := q.frame
  let op := q.serial
  let s := s.count Reg.MSF_CNT_MCAST.value
  let s := { s with msf.mcasts := s.msf.mcasts.put op { req := q, report := t.flagged 0, mirror := t.flagged 1 } }
  let s := s.ownMcast k op
  ((maskPorts t.mask).foldl (fun s p => s.mcastCopy k op f p) s).dropEmpty k

/-- Every copy of a STORE_MCAST has been sent or discarded. -/
def State.mcastFinal (s : State) (op : Nat) : Bool :=
  !(s.bufs.any fun e => e.2.owner == .mcast op) && !s.originWait.any fun w => w.owner == .mcast op

/-! ### Arrival (R282, R285) -/

/-- A pass-through request, whose frame waits in a buffer, meets the combining stage of its egress die and goes on. -/
def State.thruIn (s : State) (k : Nat) (p : Port) (f : Frame) : State :=
  let die := dieOf (s.route f.dnode)
  let q : MemReq := { serial := 0, port := p, frame := f }
  if !reqForm f then s.forwardBuf k p f
  else
    match s.offer (thruRange die f) q (s.bit Reg.MSF_CTL.combine_thru_en) with
    | (s, true) => s.freeBuf k
    | (s, false) => s.forwardBuf k p f

/-- A request in hand that a new one repeats (R286). -/
def State.inHand (s : State) (die : Nat) (f : Frame) : Bool :=
  s.unanswered.any fun x => sameRequest x.frame f && filtered f && dpaDie x.dpa = die

/-- A request that is performed reaches its home die: the replay filter, the combining stage, the stack channel. -/
def State.ownIn (s : State) (q : MemReq) (io : ChannelIo) : State :=
  let f := q.frame
  let die := dpaDie q.dpa
  let on := s.bit Reg.MSF_CTL.filter_en && filtered f
  let old := if on then s.filterRec die f else none
  let repeated := match old with
    | some r => r.opcode == f.opcode && r.addr == f.address
    | none => false
  match old, repeated with
  | some r, true => s.filterHit die q r
  | _, _ =>
    let s := if old.isSome then s.count Reg.MSF_CNT_SEQ_REUSE.value else s
    if on && s.inHand die f then { s with msf.repeats := s.msf.repeats ++ [(BitVec.ofNat 2 die, q)] }
    else
      match s.offer (ownRange q) q (s.bit Reg.MSF_CTL.combine_en) with
      | (s, true) => s
      | (s, false) => s.issueReqs die [q] (.request q) io

/-- A MEM_REQ that has left its meter (R188): it passes through, or its outcome at this spine's memory. -/
def State.memIn (s : State) (h : Hold) : State :=
  let f := h.frame
  let p := h.port
  if !f.dclass then s.thruIn h.buf p f
  else
    let s := s.countLookup (dieOf p) f
    match s.memWay f with
    | .node f' => s.thruIn h.buf p f'
    | w =>
      if !h.ok then
        (((s.freeBuf h.buf).dataError (dieOf p)).count (Reg.LNK_CNT_PATHFAIL.value p.toNat)).pathFailTo (dieOf p) f p pfDataError
      else
        let q : MemReq := { serial := s.msf.serial, port := p, frame := f }
        let s := { s with msf.serial := s.msf.serial + 1 }
        match w with
        | .tree t => s.mcastIn h.buf q t
        | .nack r =>
          let s := if r = nkIndex then s.count Reg.FWD_CNT_IDX_MISS.value else s
          (s.freeBuf h.buf).nack (dieOf p) q r
        | .fence => (s.freeBuf h.buf).fenceIn q
        | .perform dpa => (s.freeBuf h.buf).ownIn { q with dpa := dpa } h.io
        | .node _ => s

/-- What a frame does that its meter lets go. -/
def State.meterGo (s : State) (h : Hold) : State :=
  if h.frame.ftype = ftBulk then s.forwardBuf h.buf h.port h.frame else s.memIn h

end Sys2Proof.Machine
end

