-- ==== Sys2Proof/Machine/OryDecode.lean ====
section
/-!
DEFINITION. The words of the orrery's instructions (R302, R303): their fields, and the instruction a word is. A word that
is none faults with ILLEGAL.
-/

namespace Sys2Proof.Machine

/-- The instructions of Table 13-3. -/
inductive OryOp where
  | add | sub | and | or | xor | shl | shr | sra | slt | sltu | min | max | mul | mulh | srr | popc
  | addi | andi | ori | xori | shli | shri | srai | slti | const | consth | amo | time | self | setfar
  | beq | bne | blt | bge | bltu | bgeu | jmp | jal | jr
  | ld | lw | lh | lbu | st | stw | sth | vld | vst | vgather | vscatter
  | vadd | vsub | vand | vor | vxor | vmin | vmax | vshl | vsra | vmul | vmulq | vsrr | vclamp
  | vclt | vceq | vcle | vsel | vred | vbcast | vget | vput | mset | mget | popm | mnot | vsort
  | wait | release | post | fence | halt | fault | timer
  deriving DecidableEq, Repr

/-! ### Fields (Table 13-2) -/

def fOp (w : W32) : Nat := w.toNat / 2 ^ 26
def fD (w : W32) : BitVec 5 := (w >>> 21).setWidth 5
def fA (w : W32) : BitVec 5 := (w >>> 16).setWidth 5
def fB (w : W32) : BitVec 5 := (w >>> 11).setWidth 5
def fFn (w : W32) : Nat := w.toNat % 2 ^ 11
def fImm (w : W32) : Nat := w.toNat % 2 ^ 16
def fSimm (w : W32) : Int := signed 16 (w.toNat % 2 ^ 16)
def fOff (w : W32) : Int := signed 26 (w.toNat % 2 ^ 26)
/-- m_en and sb of a vector instruction, and its immediate. -/
def fMen (w : W32) : Bool := w.getLsbD 10
def fSb (w : W32) : Bool := w.getLsbD 9
def fImm6 (w : W32) : Nat := w.toNat % 64

/-- A field names a vector register. -/
def isVec (r : BitVec 5) : Bool := decide (r.toNat < 8)

/-- The vector and broadcast forms of a three-operand vector instruction: fn[8:6] zero, and fn[5:0] where no immediate
stands there. -/
def vecForm (w : W32) (imm : Bool) : Bool :=
  isVec (fD w) && isVec (fA w) && (fSb w || isVec (fB w)) && decide (fFn w / 64 % 8 = 0) && (imm || decide (fImm6 w = 0))

/-- The instructions of op 0x01 by fn. -/
def aluOf (fn : Nat) : Option OryOp :=
  match fn with
  | 0 => some .add
  | 1 => some .sub
  | 2 => some .and
  | 3 => some .or
  | 4 => some .xor
  | 5 => some .shl
  | 6 => some .shr
  | 7 => some .sra
  | 8 => some .slt
  | 9 => some .sltu
  | 10 => some .min
  | 11 => some .max
  | 12 => some .mul
  | 13 => some .mulh
  | 14 => some .srr
  | 15 => some .popc
  | _ => none

/-- An instruction if its remaining fields are as they must be. -/
def given (c : Bool) (o : OryOp) : Option OryOp := if c then some o else none

/-- The instruction of a word. -/
def oryOp (w : W32) : Option OryOp :=
  let d0 := fD w == 0
  let a0 := fA w == 0
  let b0 := fB w == 0
  let fn0 := decide (fFn w = 0)
  let vd := isVec (fD w)
  let va := isVec (fA w)
  let vb := isVec (fB w)
  match fOp w with
  | 0x01 => match aluOf (fFn w) with
    | some .popc => given b0 .popc
    | o => o
  | 0x02 => some .addi
  | 0x03 => some .andi
  | 0x04 => some .ori
  | 0x05 => some .xori
  | 0x06 => given (decide (fImm w < 64)) .shli
  | 0x07 => given (decide (fImm w < 64)) .shri
  | 0x08 => given (decide (fImm w < 64)) .srai
  | 0x09 => some .slti
  | 0x0A => given (a0 && b0 && fn0) .const
  | 0x0B => given (a0 && b0 && fn0) .consth
  | 0x0C => given (decide (fFn w < 7)) .amo
  | 0x0D => given (a0 && b0 && fn0) .time
  | 0x0E => given (a0 && b0 && fn0) .self
  | 0x0F => given (decide (fImm w < 8)) .setfar
  | 0x10 => some .beq
  | 0x11 => some .bne
  | 0x12 => some .blt
  | 0x13 => some .bge
  | 0x14 => some .bltu
  | 0x15 => some .bgeu
  | 0x16 => some .jmp
  | 0x17 => given a0 .jal
  | 0x18 => given (d0 && b0 && fn0) .jr
  | 0x19 => some .ld
  | 0x1A => some .lw
  | 0x1B => some .lh
  | 0x1C => some .lbu
  | 0x1D => some .st
  | 0x1E => some .stw
  | 0x1F => some .sth
  | 0x20 => given vd .vld
  | 0x21 => given vd .vst
  | 0x22 => given (vd && vb && decide (fFn w % 1024 = 0)) .vgather
  | 0x23 => given (vd && vb && decide (fFn w % 1024 = 0)) .vscatter
  | 0x24 => given (vecForm w false) .vadd
  | 0x25 => given (vecForm w false) .vsub
  | 0x26 => given (vecForm w false) .vand
  | 0x27 => given (vecForm w false) .vor
  | 0x28 => given (vecForm w false) .vxor
  | 0x29 => given (vecForm w false) .vmin
  | 0x2A => given (vecForm w false) .vmax
  | 0x2B => given (vecForm w false) .vshl
  | 0x2C => given (vecForm w false) .vsra
  | 0x2D => given (vecForm w false) .vmul
  | 0x2E => given (vecForm w true) .vmulq
  | 0x2F => given (vecForm w false) .vsrr
  | 0x30 => given (vecForm w false) .vclamp
  | 0x31 => given (vecForm w false && d0 && !fMen w) .vclt
  | 0x32 => given (vecForm w false && d0 && !fMen w) .vceq
  | 0x33 => given (vecForm w false && d0 && !fMen w) .vcle
  | 0x34 => given (vd && va && vb && fn0) .vsel
  | 0x35 => given (va && b0 && decide (fFn w % 1024 < 3)) .vred
  | 0x36 => given (vd && b0 && fn0) .vbcast
  | 0x37 => given (va && b0 && decide (fFn w < 16)) .vget
  | 0x38 => given (vd && b0 && decide (fFn w < 16)) .vput
  | 0x39 =>
    match fFn w with
    | 0 => given (d0 && b0) .mset
    | 1 => given (a0 && b0) .mget
    | 2 => given (a0 && b0) .popm
    | 3 => given (d0 && a0 && b0) .mnot
    | _ => none
  | 0x3A => given (vd && va && vb && fn0) .vsort
  | 0x3C => given (decide ((fD w).toNat ≤ 28) && a0 && b0 && fn0) .wait
  | 0x3D => given (b0 && fn0) .release
  | 0x3E => given fn0 .post
  | 0x3F =>
    match fFn w with
    | 0 => given (d0 && a0 && b0) .fence
    | 1 => given (d0 && a0 && b0) .halt
    | 2 => given (d0 && a0) .fault
    | 3 => given d0 .timer
    | _ => none
  | _ => none

/-- The instruction at a word index of a program: none where the program ends before it, or before the second word of
CONST and CONSTH. -/
def Prog.opAt (p : Prog) (pc : Nat) : Option (OryOp × W32 × W32) :=
  match p.code[pc]? with
  | none => none
  | some w =>
    match oryOp w with
    | none => none
    | some o =>
      if o = .const ∨ o = .consth then (p.code[pc + 1]?).map fun k => (o, w, k) else some (o, w, 0)

/-! ### Issue (R296, R315, R316) -/

/-- A thread may issue: its program runs, its core is in service, and it waits for nothing. -/
def State.threadReady (s : State) (t : Nat) : Bool :=
  let x := s.thread t
  s.bit Reg.ORY_CTL.orrery_en && s.coreIn (thrCore t) &&
    (match s.thrProg t with
     | some p => !p.suspended
     | none => false) &&
    x.waiting.isNone && x.blocked.isNone && !x.fencing && !x.halted && !x.stopped && !x.pageHeld

/-- A thread has used up its budget: one more instruction would exceed it (R315). -/
def Prog.overBudget (p : Prog) (x : Thread) : Bool := p.budget ≠ 0 && decide (p.budget * 1024 ≤ x.count)

/-- Issues the instruction at a thread's pc, if it is the one named: its meaning gets the program, the word and the word
after it. -/
def State.issue (s : State) (t : Nat) (o : OryOp) (go : Prog → W32 → W32 → State) : State :=
  if !s.threadReady t then s
  else
    match s.thrProg t with
    | none => s
    | some p =>
      match p.opAt (s.thread t).pc with
      | none => s
      | some (m, w, k) =>
        if m ≠ o then s
        else if p.overBudget (s.thread t) then s.faultThread t faultBudget
        else go p w k

end Sys2Proof.Machine
end

