-- ==== Sys2Proof/Machine/OryAlu.lean ====
section
/-!
DEFINITION. The scalar, branch and vector instructions of the orrery (R303).
-/

namespace Sys2Proof.Machine

/-! ### Values -/

/-- sat64 (R303). -/
def sat64 (x : Int) : Int := clampInt x (-(2 ^ 63 - 1)) (2 ^ 63 - 1)

/-- sat64(shift_round(x, n)), for any 64-bit n: beyond these bounds the result no longer changes. -/
def srr (x n : Int) : W64 := intLane (sat64 (shiftRound x (clampInt n (-130) 200)))

/-- The number of ones. -/
def popcount {w : Nat} (v : BitVec w) : Nat := ((List.range w).filter fun i => v.getLsbD i).length

/-- The signed minimum and maximum. -/
def smin (a b : W64) : W64 := if b.slt a then b else a
def smax (a b : W64) : W64 := if a.slt b then b else a

/-- A truth value as a register's. -/
def boolWord (b : Bool) : W64 := if b then 1 else 0

/-- Shifts by the low six bits. -/
def shl6 (a b : W64) : W64 := a <<< (b.toNat % 64)
def shr6 (a b : W64) : W64 := a >>> (b.toNat % 64)
def sra6 (a b : W64) : W64 := a.sshiftRight (b.toNat % 64)

/-! ### Scalar instructions -/

/-- A scalar T-format instruction: d = f a b. -/
def State.scalarT (s : State) (t : Nat) (o : OryOp) (f : W64 → W64 → W64) : State :=
  s.issue t o fun _ w _ =>
    let x := s.thread t
    s.setThread t ((x.put (fD w) (f (x.get (fA w)) (x.get (fB w)))).step)

/-- A scalar I-format instruction: d = f a imm16. -/
def State.scalarI (s : State) (t : Nat) (o : OryOp) (f : W64 → W32 → W64) : State :=
  s.issue t o fun _ w _ =>
    let x := s.thread t
    s.setThread t ((x.put (fD w) (f (x.get (fA w)) w)).step)

def execOAdd (t : BitVec 14) (s : State) : Outcome := .next (s.scalarT t.toNat .add fun a b => a + b)
def execOSub (t : BitVec 14) (s : State) : Outcome := .next (s.scalarT t.toNat .sub fun a b => a - b)
def execOAnd (t : BitVec 14) (s : State) : Outcome := .next (s.scalarT t.toNat .and fun a b => a &&& b)
def execOOr (t : BitVec 14) (s : State) : Outcome := .next (s.scalarT t.toNat .or fun a b => a ||| b)
def execOXor (t : BitVec 14) (s : State) : Outcome := .next (s.scalarT t.toNat .xor fun a b => a ^^^ b)
def execOShl (t : BitVec 14) (s : State) : Outcome := .next (s.scalarT t.toNat .shl shl6)
def execOShr (t : BitVec 14) (s : State) : Outcome := .next (s.scalarT t.toNat .shr shr6)
def execOSra (t : BitVec 14) (s : State) : Outcome := .next (s.scalarT t.toNat .sra sra6)
def execOSlt (t : BitVec 14) (s : State) : Outcome := .next (s.scalarT t.toNat .slt fun a b => boolWord (a.slt b))
def execOSltu (t : BitVec 14) (s : State) : Outcome := .next (s.scalarT t.toNat .sltu fun a b => boolWord (a.ult b))
def execOMin (t : BitVec 14) (s : State) : Outcome := .next (s.scalarT t.toNat .min smin)
def execOMax (t : BitVec 14) (s : State) : Outcome := .next (s.scalarT t.toNat .max smax)
def execOMul (t : BitVec 14) (s : State) : Outcome := .next (s.scalarT t.toNat .mul fun a b => a * b)
def execOMulh (t : BitVec 14) (s : State) : Outcome :=
  .next (s.scalarT t.toNat .mulh fun a b => BitVec.ofInt 64 (a.toInt * b.toInt / 2 ^ 64))
def execOSrr (t : BitVec 14) (s : State) : Outcome := .next (s.scalarT t.toNat .srr fun a b => srr a.toInt b.toInt)
def execOPopc (t : BitVec 14) (s : State) : Outcome :=
  .next (s.scalarT t.toNat .popc fun a _ => BitVec.ofNat 64 (popcount a))

def execOAddi (t : BitVec 14) (s : State) : Outcome :=
  .next (s.scalarI t.toNat .addi fun a w => a + BitVec.ofInt 64 (fSimm w))
def execOAndi (t : BitVec 14) (s : State) : Outcome :=
  .next (s.scalarI t.toNat .andi fun a w => a &&& BitVec.ofNat 64 (fImm w))
def execOOri (t : BitVec 14) (s : State) : Outcome :=
  .next (s.scalarI t.toNat .ori fun a w => a ||| BitVec.ofNat 64 (fImm w))
def execOXori (t : BitVec 14) (s : State) : Outcome :=
  .next (s.scalarI t.toNat .xori fun a w => a ^^^ BitVec.ofNat 64 (fImm w))
def execOShli (t : BitVec 14) (s : State) : Outcome := .next (s.scalarI t.toNat .shli fun a w => a <<< fImm6 w)
def execOShri (t : BitVec 14) (s : State) : Outcome := .next (s.scalarI t.toNat .shri fun a w => a >>> fImm6 w)
def execOSrai (t : BitVec 14) (s : State) : Outcome := .next (s.scalarI t.toNat .srai fun a w => a.sshiftRight (fImm6 w))
def execOSlti (t : BitVec 14) (s : State) : Outcome :=
  .next (s.scalarI t.toNat .slti fun a w => boolWord (decide (a.toInt < fSimm w)))

def execOConst (t : BitVec 14) (s : State) : Outcome :=
  .next (s.issue t.toNat .const fun _ w k =>
    s.setThread t.toNat (((s.thread t.toNat).put (fD w) (BitVec.ofInt 64 k.toInt)).step 2))

def execOConsth (t : BitVec 14) (s : State) : Outcome :=
  .next (s.issue t.toNat .consth fun _ w k =>
    let x := s.thread t.toNat
    s.setThread t.toNat ((x.put (fD w) (k ++ (x.get (fD w)).setWidth 32)).step 2))

def execOTime (t : BitVec 14) (s : State) : Outcome :=
  .next (s.scalarT t.toNat .time fun _ _ => BitVec.ofNat 64 s.ft)

def execOSelf (t : BitVec 14) (s : State) : Outcome :=
  .next (s.scalarT t.toNat .self fun _ _ => BitVec.ofNat 64 t.toNat)

def execOSetfar (t : BitVec 14) (s : State) : Outcome :=
  .next (s.issue t.toNat .setfar fun _ w _ =>
    let x := s.thread t.toNat
    s.setThread t.toNat ({ x with far := x.far.set (fImm w) (x.get (fA w)) }.step))

/-! ### Branches -/

/-- Goes on at a word index, after the registers of `x`; a target outside the program faults with ILLEGAL (R302). -/
def State.branchTo (s : State) (t : Nat) (p : Prog) (x : Thread) (target : Int) : State :=
  if 0 ≤ target ∧ target < (p.code.length : Int) then s.setThread t (x.goto target.toNat) else s.faultThread t faultIllegal

/-- A conditional branch: fields a and b in [25:21] and [20:16]. -/
def State.branchIf (s : State) (t : Nat) (o : OryOp) (c : W64 → W64 → Bool) : State :=
  s.issue t o fun p w _ =>
    let x := s.thread t
    if c (x.get (fD w)) (x.get (fA w)) then s.branchTo t p x (x.pc + 1 + fSimm w) else s.setThread t x.step

def execOBeq (t : BitVec 14) (s : State) : Outcome := .next (s.branchIf t.toNat .beq fun a b => a == b)
def execOBne (t : BitVec 14) (s : State) : Outcome := .next (s.branchIf t.toNat .bne fun a b => a != b)
def execOBlt (t : BitVec 14) (s : State) : Outcome := .next (s.branchIf t.toNat .blt fun a b => a.slt b)
def execOBge (t : BitVec 14) (s : State) : Outcome := .next (s.branchIf t.toNat .bge fun a b => !a.slt b)
def execOBltu (t : BitVec 14) (s : State) : Outcome := .next (s.branchIf t.toNat .bltu fun a b => a.ult b)
def execOBgeu (t : BitVec 14) (s : State) : Outcome := .next (s.branchIf t.toNat .bgeu fun a b => !a.ult b)

def execOJmp (t : BitVec 14) (s : State) : Outcome :=
  .next (s.issue t.toNat .jmp fun p w _ =>
    let x := s.thread t.toNat
    s.branchTo t.toNat p x (x.pc + 1 + fOff w))

def execOJal (t : BitVec 14) (s : State) : Outcome :=
  .next (s.issue t.toNat .jal fun p w _ =>
    let x := s.thread t.toNat
    s.branchTo t.toNat p (x.put (fD w) (BitVec.ofNat 64 (x.pc + 1))) (x.pc + 1 + fSimm w))

def execOJr (t : BitVec 14) (s : State) : Outcome :=
  .next (s.issue t.toNat .jr fun p w _ =>
    let x := s.thread t.toNat
    s.branchTo t.toNat p x (x.get (fA w)).toNat)

/-! ### Vector instructions -/

/-- The lanes a vector instruction writes: with m_en, those whose bit of m is set. -/
def activeLanes (men : Bool) (m : BitVec 16) : List Nat := (List.range 16).filter fun i => !men || m.getLsbD i

/-- Counts the lane operations of a vector instruction (Table 19-1). -/
def State.laneOps (s : State) (t n : Nat) : State := s.pmuEvent 0x14 0x01 (thrCore t) none n

/-- The second operand: a vector register, or a scalar one in every lane. -/
def Thread.vecB (x : Thread) (w : W32) (i : Nat) : W64 := if fSb w then x.get (fB w) else x.vget (fB w) i

/-- Writes lanes of a vector register. -/
def Thread.vputs (x : Thread) (v : BitVec 5) (ls : List (Nat × W64)) : Thread := ls.foldl (fun y e => y.vput v e.1 e.2) x

/-- A lane-by-lane instruction. -/
def State.vector (s : State) (t : Nat) (o : OryOp) (f : W32 → W64 → W64 → W64) : State :=
  s.issue t o fun _ w _ =>
    let x := s.thread t
    let ls := activeLanes (fMen w) x.mask
    let x' := x.vputs (fD w) (ls.map fun i => (i, f w (x.vget (fA w) i) (x.vecB w i)))
    (s.laneOps t ls.length).setThread t x'.step

def execOVadd (t : BitVec 14) (s : State) : Outcome := .next (s.vector t.toNat .vadd fun _ a b => a + b)
def execOVsub (t : BitVec 14) (s : State) : Outcome := .next (s.vector t.toNat .vsub fun _ a b => a - b)
def execOVand (t : BitVec 14) (s : State) : Outcome := .next (s.vector t.toNat .vand fun _ a b => a &&& b)
def execOVor (t : BitVec 14) (s : State) : Outcome := .next (s.vector t.toNat .vor fun _ a b => a ||| b)
def execOVxor (t : BitVec 14) (s : State) : Outcome := .next (s.vector t.toNat .vxor fun _ a b => a ^^^ b)
def execOVmin (t : BitVec 14) (s : State) : Outcome := .next (s.vector t.toNat .vmin fun _ a b => smin a b)
def execOVmax (t : BitVec 14) (s : State) : Outcome := .next (s.vector t.toNat .vmax fun _ a b => smax a b)
def execOVshl (t : BitVec 14) (s : State) : Outcome := .next (s.vector t.toNat .vshl fun _ a b => shl6 a b)
def execOVsra (t : BitVec 14) (s : State) : Outcome := .next (s.vector t.toNat .vsra fun _ a b => sra6 a b)
def execOVmul (t : BitVec 14) (s : State) : Outcome := .next (s.vector t.toNat .vmul fun _ a b => a * b)
def execOVmulq (t : BitVec 14) (s : State) : Outcome :=
  .next (s.vector t.toNat .vmulq fun w a b => srr (a.toInt * b.toInt) (fImm6 w))
def execOVsrr (t : BitVec 14) (s : State) : Outcome :=
  .next (s.vector t.toNat .vsrr fun _ a b => srr a.toInt b.toInt)

/-- VCLAMP of a lane: with u = max(b, 0), clamp(a, -u, u). -/
def vclampLane (a b : W64) : W64 :=
  let u := if b.toInt < 0 then 0 else b.toInt
  intLane (clampInt a.toInt (-u) u)

def execOVclamp (t : BitVec 14) (s : State) : Outcome :=
  .next (s.issue t.toNat .vclamp fun _ w _ =>
    let x := s.thread t.toNat
    let ls := activeLanes (fMen w) x.mask
    let new := ls.map fun i => (i, vclampLane (x.vget (fA w) i) (x.vecB w i))
    let m := new.foldl (fun (m : BitVec 16) e => if e.2 = x.vget (fA w) e.1 then m else m ||| ((1 : BitVec 16) <<< e.1)) 0
    (s.laneOps t.toNat ls.length).setThread t.toNat { x.vputs (fD w) new with mask := m }.step)

/-- A comparison into the mask. -/
def State.vcompare (s : State) (t : Nat) (o : OryOp) (c : W64 → W64 → Bool) : State :=
  s.issue t o fun _ w _ =>
    let x := s.thread t
    let m := (List.range 16).foldl (fun (m : BitVec 16) i =>
      if c (x.vget (fA w) i) (x.vecB w i) then m ||| ((1 : BitVec 16) <<< i) else m) 0
    (s.laneOps t 16).setThread t { x with mask := m }.step

def execOVclt (t : BitVec 14) (s : State) : Outcome := .next (s.vcompare t.toNat .vclt fun a b => a.slt b)
def execOVceq (t : BitVec 14) (s : State) : Outcome := .next (s.vcompare t.toNat .vceq fun a b => a == b)
def execOVcle (t : BitVec 14) (s : State) : Outcome := .next (s.vcompare t.toNat .vcle fun a b => !b.slt a)

def execOVsel (t : BitVec 14) (s : State) : Outcome :=
  .next (s.issue t.toNat .vsel fun _ w _ =>
    let x := s.thread t.toNat
    let new := (List.range 16).map fun i => (i, if x.mask.getLsbD i then x.vget (fA w) i else x.vget (fB w) i)
    (s.laneOps t.toNat 16).setThread t.toNat (x.vputs (fD w) new).step)

/-- VRED over lanes: sum, minimum or maximum. -/
def vred (fn : Nat) (ls : List W64) : W64 :=
  match fn with
  | 0 => ls.foldl (fun a b => a + b) 0
  | 1 => ls.foldl smin 0x7FFFFFFFFFFFFFFF
  | _ => ls.foldl smax 0x8000000000000000

def execOVred (t : BitVec 14) (s : State) : Outcome :=
  .next (s.issue t.toNat .vred fun _ w _ =>
    let x := s.thread t.toNat
    let ls := activeLanes (fMen w) x.mask
    (s.laneOps t.toNat ls.length).setThread t.toNat (x.put (fD w) (vred (fFn w % 4) (ls.map (x.vget (fA w))))).step)

def execOVbcast (t : BitVec 14) (s : State) : Outcome :=
  .next (s.issue t.toNat .vbcast fun _ w _ =>
    let x := s.thread t.toNat
    (s.laneOps t.toNat 16).setThread t.toNat (x.vset (fD w) (List.replicate 16 (x.get (fA w)))).step)

def execOVget (t : BitVec 14) (s : State) : Outcome :=
  .next (s.issue t.toNat .vget fun _ w _ =>
    let x := s.thread t.toNat
    s.setThread t.toNat (x.put (fD w) (x.vget (fA w) (fFn w % 16))).step)

def execOVput (t : BitVec 14) (s : State) : Outcome :=
  .next (s.issue t.toNat .vput fun _ w _ =>
    let x := s.thread t.toNat
    s.setThread t.toNat (x.vput (fD w) (fFn w % 16) (x.get (fA w))).step)

def execOMset (t : BitVec 14) (s : State) : Outcome :=
  .next (s.issue t.toNat .mset fun _ w _ =>
    let x := s.thread t.toNat
    s.setThread t.toNat { x with mask := (x.get (fA w)).setWidth 16 }.step)

def execOMget (t : BitVec 14) (s : State) : Outcome :=
  .next (s.issue t.toNat .mget fun _ w _ =>
    let x := s.thread t.toNat
    s.setThread t.toNat (x.put (fD w) (x.mask.setWidth 64)).step)

def execOPopm (t : BitVec 14) (s : State) : Outcome :=
  .next (s.issue t.toNat .popm fun _ w _ =>
    let x := s.thread t.toNat
    s.setThread t.toNat (x.put (fD w) (BitVec.ofNat 64 (popcount x.mask))).step)

def execOMnot (t : BitVec 14) (s : State) : Outcome :=
  .next (s.issue t.toNat .mnot fun _ _ _ =>
    let x := s.thread t.toNat
    s.setThread t.toNat { x with mask := ~~~x.mask }.step)

/-- Inserts a pair after those whose key is not greater. -/
def insertPair : W64 × W64 → List (W64 × W64) → List (W64 × W64)
  | e, [] => [e]
  | e, h :: r => if e.1.slt h.1 then e :: h :: r else h :: insertPair e r

def execOVsort (t : BitVec 14) (s : State) : Outcome :=
  .next (s.issue t.toNat .vsort fun _ w _ =>
    let x := s.thread t.toNat
    let es := ((x.vlanes (fA w)).zip (x.vlanes (fB w))).foldl (fun l e => insertPair e l) []
    let x' := (x.vset (fD w) (es.map (·.1))).vset (fB w) (es.map (·.2))
    (s.laneOps t.toNat 16).setThread t.toNat x'.step)

/-- A word that is no instruction, or none at all, faults with ILLEGAL (R302). -/
def State.illegal (s : State) (t : Nat) : State :=
  if !s.threadReady t then s
  else
    match s.thrProg t with
    | none => s
    | some p =>
      match p.opAt (s.thread t).pc with
      | some _ => s
      | none => s.faultThread t faultIllegal

def execIllegalInstruction (t : BitVec 14) (s : State) : Outcome := .next (s.illegal t.toNat)

/-- BUDGET_EXCEEDED: the next instruction of a thread would exceed its program's budget (R315). -/
def State.budgetFault (s : State) (t : Nat) : State :=
  match s.thrProg t with
  | none => s
  | some p => if s.threadReady t && p.overBudget (s.thread t) then s.faultThread t faultBudget else s

def execBudgetExceeded (t : BitVec 14) (s : State) : Outcome := .next (s.budgetFault t.toNat)

end Sys2Proof.Machine
end

