-- ==== Sys2Proof/Machine/OryMem.lean ====
section
/-!
DEFINITION. The address space of a thread and its memory instructions (R298 to R301, R304, R309).
-/

namespace Sys2Proof.Machine

/-- One access of a memory instruction: the first lane or byte it fills, its address, its bytes, and what it stores. -/
structure Acc where
  lane : Nat
  addr : W64
  n : Nat
  data : List Byte := []
  deriving DecidableEq, Repr

/-- Where an access goes. -/
inductive Place where
  | scratch (core o : Nat)
  | data (o : Nat)
  | sram (tile o : Nat)
  /-- Line j of the segment view, and of the A view, at a byte. -/
  | lanes (j o : Nat)
  | exps (j o : Nat)
  | region (r o : Nat)
  /-- Stack memory: the pieces by DPA and length; `self` where it is a fabric request of the window. -/
  | stack (ps : List (Nat × Nat)) (self : Bool)
  | node (dn : Node) (wire : W64)
  | tree (x : Tree) (wire : W64)
  /-- A request that is answered NACK. -/
  | nacked
  deriving DecidableEq, Repr

/-! ### Addresses (R298, Table 13-1) -/

/-- The wire-form address of a FAR address. -/
def Thread.wire (x : Thread) (a : W64) : W64 :=
  x.far.getD (a.toNat / 2 ^ 59 % 8) 0 + BitVec.ofNat 64 (a.toNat % 2 ^ 59)

/-- An address lies in FAR space. -/
def isFar (a : W64) : Bool := a.toNat / 2 ^ 62 = 2

/-- A request of a thread (R300). -/
def State.farFrame (s : State) (x : Thread) (op : BitVec 8) (dn : Node) (a : W64) (mm : Nat) (payload : List Byte)
    (seq : BitVec 24) : Frame :=
  { ftype := ftMemReq, vc := 2, dnode := dn, snode := s.ownSnode, flags := flagSwSrc, partition := x.partition,
    opcode := op, seq := seq, epoch := x.epoch, w4 := a.setWidth 32, w5 := (a >>> 32).setWidth 32,
    w6 := BitVec.ofNat 32 mm, payload := payload }

/-- A range of the window, or of DPAs, cut at page boundaries. -/
def cutPages (dpa : Nat → Nat) (o n : Nat) : List (Nat × Nat) :=
  let k := min n (4096 - o % 4096)
  if k = n then [(dpa o, n)] else [(dpa o, k), (dpa (o + k), n - k)]

/-- Where a FAR access goes (R300); none: it faults with ADDR. The LOAD of fewer than 8 bytes asks for the 8 that hold
them. -/
def State.farPlace (s : State) (x : Thread) (op : BitVec 8) (mm : Nat) (a : W64) (n : Nat) (payload : List Byte) : Option Place :=
  let wire := x.wire a
  if x.partition = 0 then none
  else if !wire.getLsbD 63 then some (.node (BitVec.ofNat 17 (wire.toNat / 2 ^ 46)) wire)
  else
    match s.idxLookup wire x.partition with
    | none => some .nacked
    | some e =>
      if e.kind = kindNode then some (.node e.node (e.coord wire))
      else if e.kind = kindTree then
        if op = reqStore then
          match s.treeFor e.tree x.partition with
          | some t => some (.tree t wire)
          | none => some .nacked
        else none
      else
        let o := e.offset wire
        let f := s.farFrame x op 0 (BitVec.ofNat 64 (o - (if op = reqLoad ∧ n < 8 then o % 8 else 0))) mm payload 0
        if !reqForm f then some .nacked
        else
          match s.inWindow f f.address.toNat with
          | .perform _ => some (.stack (cutPages s.windowDpa o n) true)
          | _ => some .nacked

/-- The chunk whose lines a thread may access: its token is a SEG_FINAL token, not yet released by it. -/
def Thread.lineHeld (x : Thread) (j : Nat) : Bool :=
  match x.chunk with
  | none => false
  | some k => decide (w1First k.w1 ≤ j) && decide (j < w1First k.w1 + w1Lines k.w1)

def tokLaneBytes (x : Thread) : Nat :=
  match x.chunk with
  | none => 1
  | some k => laneBytes (k.w1.toNat / 2 ^ 42 % 8)

/-- A range of a region view that lies within one line's lanes, or one line's metadata; stores reach lanes only (R299). -/
def State.regionRange (s : State) (r o n : Nat) (write : Bool) : Bool :=
  let lb := laneBytes (s.regionFmt r)
  let m := regionM (s.regionLines r) (s.regionFmt r)
  (decide (o + n ≤ s.regionLines r * lb) && decide (o / lb = (o + n - 1) / lb)) ||
    (!write && decide (m ≤ o) && decide (o + n ≤ m + 64 * s.regionLines r) && decide ((o - m) / 64 = (o + n - 1 - m) / 64))

/-- Where an access goes; none: it faults with ADDR. -/
def State.oryPlace (s : State) (t : Nat) (x : Thread) (p : Prog) (op : BitVec 8) (mm : Nat) (acc : Acc) (write : Bool) :
    Option Place :=
  let v := acc.addr.toNat
  let n := acc.n
  let when_ (c : Bool) (pl : Place) : Option Place := if c then some pl else none
  if isFar acc.addr then s.farPlace x op mm acc.addr n acc.data
  else if v / 2 ^ 62 ≠ 0 then none
  else
    match v / 2 ^ 48 % 2 ^ 14 with
    | 0 =>
      if v < 0x80000000 then when_ (decide (v + n ≤ p.scratchKib * 1024)) (.scratch (thrCore t) (p.scratch + v))
      else if v < 0x100000000 then
        let o := v - 0x80000000
        when_ (!write && decide (o + n ≤ p.data.length)) (.data o)
      else if v < 0x200000000 then
        let o := v - 0x100000000
        when_ (p.privileged && decide (o / 0x40000 < 256) && decide (o % 0x40000 + n ≤ 0x40000))
          (.scratch (o / 0x40000) (o % 0x40000))
      else if v < 0x300000000 then
        let o := v - 0x200000000
        when_ (p.privileged && !write && decide (o / 0x400000 < 68) && decide (o % 0x400000 + n ≤ 0x400000))
          (.sram (o / 0x400000) (o % 0x400000))
      else if v < 0x380000000 then
        let o := v - 0x300000000
        let lb := tokLaneBytes x
        when_ (x.lineHeld (o / lb) && decide (o % lb + n ≤ lb)) (.lanes (o / lb) (o % lb))
      else if v < 0x400000000 then
        let o := v - 0x380000000
        when_ (x.lineHeld (o / 16) && decide (o % 16 + n ≤ 16)) (.exps (o / 16) (o % 16))
      else none
    | 1 =>
      let r := v / 2 ^ 36 % 4096
      let o := v % 2 ^ 36
      when_ (s.regionUsable r 0 && (p.privileged || s.regionPart r == x.partition) && s.regionRange r o n write) (.region r o)
    | 2 =>
      let o := v % 2 ^ 48
      when_ (p.privileged && decide (o + n ≤ dpaEnd)) (.stack (cutPages id o n) false)
    | 3 =>
      let o := v % 2 ^ 48
      when_ (p.privileged && decide (o + n ≤ s.windowSize)) (.stack (cutPages s.windowDpa o n) false)
    | _ => none

/-! ### The segment and region views (R299, R309) -/

/-- The group, cseq and segment of the chunk a thread holds, with its descriptor and segment while its handle is
current. -/
def State.chunkSeg (s : State) (x : Thread) : Option (Nat × BitVec 16 × Nat × Coll × Segment) :=
  match x.chunk with
  | none => none
  | some k =>
    if !s.tokCurrent k then none
    else
      match s.coll (tokGroup k) (tokCseq k), s.seg (tokGroup k) (tokCseq k) (w1Segment k.w1) with
      | some c, some g => some (tokGroup k, tokCseq k, w1Segment k.w1, c, g)
      | _, _ => none

/-- The region line behind a place, if there is one. -/
def State.placeLine (s : State) (x : Thread) : Place → Option (Nat × Nat)
  | .region r o =>
    let m := regionM (s.regionLines r) (s.regionFmt r)
    some (r, if o < m then o / laneBytes (s.regionFmt r) else (o - m) / 64)
  | .lanes j _ => (s.chunkSeg x).bind fun (_, _, n, c, _) =>
      if descPath c.desc = 1 then some (descRegion c.desc, regionLine c.desc n j) else none
  | .exps j _ => (s.chunkSeg x).bind fun (_, _, n, c, _) =>
      if descPath c.desc = 1 then some (descRegion c.desc, regionLine c.desc n j) else none
  | _ => none

/-- What an access reads of stack memory before it is performed: DPAs with the words read there (R267). -/
def State.placeReads (s : State) (x : Thread) (pl : Place) (n : Nat) (write : Bool) : List (Nat × List Nat) :=
  match pl, s.placeLine x pl with
  | .stack ps _, _ => ps.map fun e => (e.1, if write then partWords e.1 e.2 else touchedWords e.1 e.2)
  | .exps _ _, some (r, l) => [(s.metaDpa r l, touchedWords (s.metaDpa r l) 64)]
  | _, some (r, l) =>
    let lb := laneBytes (s.regionFmt r)
    let d := s.lineDpa r l
    [(d, if write && n = lb then [] else touchedWords d lb)]
  | _, none => []

/-- Replaces bytes at a place in a list. -/
def patch (bs : List Byte) (o : Nat) (new : List Byte) : List Byte := bs.take o ++ new ++ bs.drop (o + new.length)

/-- The bytes of lanes, and back. -/
def laneList (ls : List W64) : List Byte := ls.flatMap fun v => leBytes 8 v.toNat
def bytesLanes (bs : List Byte) : List W64 := (List.range (bs.length / 8)).map fun i => BitVec.ofNat 64 (numAt bs (8 * i) 8)

/-- An access with a stale handle (R309). -/
def State.staleAccess (s : State) : State := s.count Reg.ORY_CNT_STALE.value

/-- The bytes READ_LANES gives of a region line, and the 64 of its metadata. -/
def State.regionRead (s : State) (r l : Nat) : State × List Byte × List Byte :=
  let lb := laneBytes (s.regionFmt r)
  match s.accession (.readLanes r l) with
  | (s, .done bs _ _) => (s, bs.take lb, bs.drop lb)
  | (s, _) => (s, [], [])

/-- A load of path-0 lanes checks each against its residue (R309). -/
def State.viewLoad (s : State) (x : Thread) (j o n : Nat) : State × List Byte :=
  match s.chunkSeg x with
  | none => (s.staleAccess, List.replicate n 0)
  | some (g, cseq, k, c, seg) =>
    let d := c.desc
    if descPath d = 1 then
      let (s, bs, _) := s.regionRead (descRegion d) (regionLine d k j)
      (s, sliceBytes bs o n)
    else
      let ls := seg.lanesAt d j
      let rs := seg.resAt d j
      match (List.range elemsLimit).find? fun i => decide (o / 8 ≤ i) && decide (i ≤ (o + n - 1) / 8) &&
          !(laneRes (ls.getD i 0) == rs.getD i 0) with
      | some i => ((s.bumpHandle g cseq k).secondMismatch g cseq k seg.tile j i (awOp (descW0 d)) |>.1, List.replicate n 0)
      | none => (s, sliceBytes (laneList ls) o n)
where
  /-- Lanes a line has at most. -/
  elemsLimit : Nat := 512

/-- A load of accumulator exponents. -/
def State.expsLoad (s : State) (x : Thread) (j o n : Nat) : State × List Byte :=
  match s.chunkSeg x with
  | none => (s.staleAccess, List.replicate n 0)
  | some (_, _, k, c, seg) =>
    let d := c.desc
    if descPath d = 1 then
      let (s, _, ms) := s.regionRead (descRegion d) (regionLine d k j)
      (s, sliceBytes ms o n)
    else (s, sliceBytes ((seg.aAt d j).flatMap fun a => leBytes 2 (wrap 16 a)) o n)

/-- The bytes a place holds, with the state after the read. -/
def State.placeLoad (s : State) (x : Thread) (p : Prog) (pl : Place) (n : Nat) : State × List Byte :=
  match pl with
  | .scratch c o => (s, (List.range n).map fun i => s.ory.scratch.read 0 (2 ^ 18 * c + o + i))
  | .data o => (s, sliceBytes p.data o n)
  | .sram k o => (s.draw, (List.range n).map fun i => Config.freeTileSram s.fresh k (o + i))
  | .lanes j o => s.viewLoad x j o n
  | .exps j o => s.expsLoad x j o n
  | .region r o =>
    let m := regionM (s.regionLines r) (s.regionFmt r)
    if o < m then
      let lb := laneBytes (s.regionFmt r)
      let (s, bs, _) := s.regionRead r (o / lb)
      (s, sliceBytes bs (o % lb) n)
    else
      let (s, _, ms) := s.regionRead r ((o - m) / 64)
      (s, sliceBytes ms ((o - m) % 64) n)
  | .stack ps _ => ps.foldl (fun (acc : State × List Byte) e => (acc.1.countRead e.1 e.2, acc.2 ++ acc.1.bytesAt e.1 e.2)) (s, [])
  | _ => (s, [])

/-- Stores lanes of a region line in part (R299). -/
def State.regionWrite (s : State) (r l o : Nat) (bs : List Byte) : State :=
  if bs.length = laneBytes (s.regionFmt r) then (s.accession (.writeLanes r l (bytesLanes bs))).1
  else
    let (s, old, _) := s.regionRead r l
    (s.accession (.writeLanes r l (bytesLanes (patch old o bs)))).1

/-- A store to the segment view: the residues of the lanes written are formed anew (R309). -/
def State.viewStore (s : State) (x : Thread) (j o : Nat) (bs : List Byte) : State :=
  match s.chunkSeg x with
  | none => s.staleAccess
  | some (g, cseq, k, c, seg) =>
    let d := c.desc
    if descPath d = 1 then s.regionWrite (descRegion d) (regionLine d k j) o bs
    else
      let ls := bytesLanes (patch (laneList (seg.lanesAt d j)) o bs)
      let rs := (List.range ls.length).map fun i =>
        if o / 8 ≤ i ∧ i ≤ (o + bs.length - 1) / 8 then laneRes (ls.getD i 0) else (seg.resAt d j).getD i 0
      s.setSeg g cseq k { seg with lanes := seg.lanes.put j ls, res := seg.res.put j rs }

/-- The exponents that bytes hold. -/
def expValues (bs : List Byte) : List Int := (List.range (bs.length / 2)).map fun i => signed 16 (numAt bs (2 * i) 2)

/-- A store to the A view. -/
def State.expsStore (s : State) (x : Thread) (j o : Nat) (bs : List Byte) : State :=
  match s.chunkSeg x with
  | none => s.staleAccess
  | some (g, cseq, k, c, seg) =>
    let d := c.desc
    if descPath d = 1 then
      let r := descRegion d
      let l := regionLine d k j
      let (s, _, ms) := s.regionRead r l
      (s.accession (.setA r l (expValues (patch (ms.take 16) o bs)))).1
    else
      let old := (seg.aAt d j).flatMap fun a => leBytes 2 (wrap 16 a)
      s.setSeg g cseq k { seg with a := seg.a.put j (expValues (patch old o bs)) }

/-- Stores bytes at a place. -/
def State.placeStore (s : State) (x : Thread) (pl : Place) (bs : List Byte) : State :=
  match pl with
  | .scratch c o => { s with ory.scratch := writeBytes s.ory.scratch (2 ^ 18 * c + o) bs }
  | .lanes j o => s.viewStore x j o bs
  | .exps j o => s.expsStore x j o bs
  | .region r o =>
    let lb := laneBytes (s.regionFmt r)
    s.regionWrite r (o / lb) (o % lb) bs
  | .stack ps _ => (ps.foldl (fun (acc : State × List Byte) e =>
      (acc.1.storeMem e.1 (acc.2.take e.2), acc.2.drop e.2)) (s, bs)).1
  | _ => s

/-! ### Waiting for a page, and the engine (R268, R263) -/

/-- A fabric request of the window lets overlapping combining entries flush first (R288). -/
def State.flushSelf (s : State) (pl : Place) : State :=
  match pl with
  | .stack ps true =>
    ps.foldl (fun s e =>
      let q : MemReq := { serial := s.msf.serial, port := 0, frame := { opcode := reqLoad }, dpa := e.1 }
      (s.offer (ownRange q) q false).1) s
  | _ => s

/-- The thread's instruction waits for a page that is being decoded. -/
def State.placeHold (s : State) (t : Nat) (reads : List (Nat × List Nat)) (io : ChannelIo) : Option State :=
  (reads.findSome? fun e => s.holdWords e.1 e.2 io (.thread t)).map fun s =>
    s.setThread t { s.thread t with pageHeld := true }

/-- The engine steps of the region lines an instruction reaches; the collective of a path-1 view aborts, and another
thread faults, where a step cannot be performed. Answers whether the instruction goes on. -/
def State.placeEngine (s : State) (t : Nat) (x : Thread) (pls : List Place) (io : ChannelIo) : State × Bool :=
  match pls.findSome? fun pl => (s.placeLine x pl).map fun rl => (pl, s.lineDpa rl.1 rl.2) with
  | none => (s, true)
  | some (pl, d) =>
    match (s.wordsCorrected d io.corrected).engineStep d io.disagree with
    | (s, true) => (s, true)
    | (s, false) =>
      match pl, s.chunkSeg x with
      | .region _ _, _ => (s.draw.faultThread t (Config.freeRefusal s.fresh).toNat, false)
      | _, some (g, cseq, n, _, _) => (s.abortColl g cseq abArith 2 0 n, false)
      | _, none => (s, true)

/-! ### Instructions -/

/-- An address is aligned for an access (R304). -/
def aligned (a : W64) (n : Nat) : Bool := a.toNat % (if 8 < n then 8 else n) = 0

/-- The die whose unit serves a thread. -/
def thrDie (t : Nat) : Nat := thrCore t / 64

/-- Places of accesses: the first that faults, with its code. -/
def State.places (s : State) (t : Nat) (x : Thread) (p : Prog) (op : BitVec 8) (mm : Acc → Nat) (accs : List Acc) (write : Bool) :
    Except (Nat × W64) (List (Acc × Place)) :=
  match accs.find? fun a => !aligned a.addr a.n with
  | some a => .error (faultAlign, a.addr)
  | none =>
    let ps := accs.map fun a => (a, s.oryPlace t x p op (mm a) a write)
    match ps.find? fun e => e.2.isNone with
    | some e => .error (faultAddr, e.1.addr)
    | none => .ok (ps.map fun e => (e.1, e.2.getD .nacked))

/-- Sends a thread's request to a node (R300). -/
def State.sendFar (s : State) (t : Nat) (f : Frame) : State := s.originate (thrDie t) .plain [(s.route f.dnode, f)]

/-- The address and size of the LOAD for a FAR access, and where its bytes lie in the answer. -/
def farLoad (wire : W64) (n : Nat) : W64 × Nat × Nat :=
  let k := wire.toNat % 8
  if n < 8 ∧ k + n ≤ 8 then (wire - BitVec.ofNat 64 k, 8, k) else (wire, n, 0)

/-- mem_mod of a LOAD. -/
def loadMod (n : Nat) : Nat := (n - 1) / 8 % 32

/-- Puts loaded bytes into a scalar or into vector lanes. -/
def Thread.fill (x : Thread) (dest : BitVec 5) (vec : Bool) (sign : Bool) (lane : Nat) (bs : List Byte) : Thread :=
  if vec then
    (List.range (bs.length / 8)).foldl (fun y i => y.vput dest (lane + i) (BitVec.ofNat 64 (numAt bs (8 * i) 8))) x
  else x.put dest (loadValue bs.length sign (leNat bs))

/-- One access of a load: a request for another node joins those to send, and any other place fills its lane. -/
def loadOne (p : Prog) (dest : BitVec 5) (vec sign : Bool) (acc : State × Thread × List (Await × Frame)) (e : Acc × Place) :
    State × Thread × List (Await × Frame) :=
  let (s, x, far) := acc
  match e.2 with
  | .node dn wire =>
    let (s, seq) := s.takeSeq
    let (w, n, k) := farLoad wire e.1.n
    (s, x, far ++ [({ seq := seq, lane := if vec then e.1.lane else k, addr := e.1.addr },
      s.farFrame x reqLoad dn w (loadMod n) [] seq)])
  | pl =>
    let (s, bs) := s.placeLoad x p pl e.1.n
    (s, x.fill dest vec sign e.1.lane bs, far)

/-- Loads (R299 to R301, R304): local accesses are performed at once, requests to nodes block the thread. -/
def State.oryLoad (s : State) (t : Nat) (p : Prog) (dest : BitVec 5) (vec : Bool) (bytes : Nat) (sign : Bool) (accs : List Acc)
    (io : ChannelIo) : State :=
  let x := s.thread t
  match s.places t x p reqLoad (fun a => loadMod a.n) accs false with
  | .error (c, a) => s.faultThread t c a
  | .ok ps =>
    match ps.find? fun e => e.2 == .nacked with
    | some e => s.faultThread t faultNack e.1.addr
    | none =>
      let s := ps.foldl (fun s e => s.flushSelf e.2) s
      match s.placeHold t (ps.flatMap fun e => s.placeReads x e.2 e.1.n false) io with
      | some s => s
      | none =>
        match s.placeEngine t x (ps.map (·.2)) io with
        | (s, false) => s
        | (s, true) =>
          let (s, x, far) := ps.foldl (loadOne p dest vec sign) (s, x, [])
          match far with
          | [] => s.setThread t x.step
          | _ =>
            let s := s.setThread t { x with
              blocked := some { dest := dest, vector := vec, bytes := bytes, sign := sign, awaits := far.map (·.1) } }
            far.foldl (fun s e => s.sendFar t e.2) s

/-- A store's place is one whose stores are posted (R301). -/
def State.isPosted (s : State) (x : Thread) (pl : Place) : Bool :=
  match pl with
  | .stack _ _ => true
  | .region _ _ => true
  | .node _ _ => true
  | .tree _ _ => true
  | .nacked => true
  | _ => (s.placeLine x pl).isSome

/-- Replicates a thread's multicast store (R300, R281). -/
def State.mcastFar (s : State) (t : Nat) (f : Frame) (x : Tree) : State :=
  let op := s.msf.serial
  let s := (({ s with msf.serial := op + 1 }).count Reg.MSF_CNT_MCAST.value)
  let m : McastOp :=
    { req := { serial := op, port := 0, frame := f }, thread := some (t, f.seq.toNat), report := x.flagged 0,
      mirror := x.flagged 1 }
  let s := { s with msf.mcasts := s.msf.mcasts.put op m }
  let copy (p : Port) : Frame :=
    { f with ftype := ftMcast, vc := 5, dclass := false, dnode := BitVec.ofNat 17 (s.leafOn p * 256), hops := 1, opcode := reqMcast }
  let shut (p : Port) : Bool := (s.link p).state == .down || fenceStops (s.fence p) (copy p)
  let ps := maskPorts x.mask
  let s := (ps.filter shut).foldl (fun s p => s.copyLost op p) s
  ((ps.filter fun p => !shut p).foldl (fun s p => s.pmuEvent 0x06 0x03 p.toNat) s).originateRaw (thrDie t) (.mcast op)
    ((ps.filter fun p => !shut p).map fun p => (p, copy p))

/-- One posted store is performed or sent. -/
def State.storeOne (s : State) (t : Nat) (x : Thread) (e : Acc × Place) : State :=
  let post (s : State) (id : Nat) : State :=
    let y := s.thread t
    s.setThread t { y with posted := y.posted ++ [(id, e.1.addr)] }
  match e.2 with
  | .node dn wire =>
    let (s, seq) := s.takeSeq
    (post s seq.toNat).sendFar t (s.farFrame x reqStore dn wire 0 e.1.data seq)
  | .tree tr wire =>
    let (s, seq) := s.takeSeq
    (post s seq.toNat).mcastFar t (s.farFrame x reqStore 0 wire 0 e.1.data seq) tr
  | .nacked =>
    let (s, seq) := s.takeSeq
    (post s seq.toNat).postedDone t seq.toNat (some faultNack)
  | pl =>
    let stale := (match pl with
      | .lanes _ _ => (s.chunkSeg x).isNone
      | .exps _ _ => (s.chunkSeg x).isNone
      | _ => false)
    if s.isPosted x pl && !stale then
      let d := match pl, s.placeLine x pl with
        | .stack ((d, _) :: _) _, _ => d
        | _, some (r, l) => s.lineDpa r l
        | _, none => 0
      let id := 2 ^ 24 + s.msf.serial
      let s := { s with msf.serial := s.msf.serial + 1 }
      ((post s id).placeStore x pl e.1.data).queueAck (dpaChannel d) (.thread t id)
    else s.placeStore x pl e.1.data

/-- Stores (R299 to R301, R304, R309): those to the device's own fast memories complete, others are posted, at most 16 at a
time. -/
def State.oryStore (s : State) (t : Nat) (p : Prog) (accs : List Acc) (io : ChannelIo) : State :=
  let x := s.thread t
  match s.places t x p reqStore (fun _ => 0) accs true with
  | .error (c, a) => s.faultThread t c a
  | .ok ps =>
    let badA := ps.find? fun e =>
      match e.2 with
      | .exps _ _ => (expValues e.1.data).any fun v => decide (v < -64 ∨ 254 < v)
      | _ => false
    match badA with
    | some e => s.faultThread t faultARange e.1.addr
    | none =>
      if 16 < x.posted.length + (ps.filter fun e => s.isPosted x e.2).length then s
      else
        let s := ps.foldl (fun s e => s.flushSelf e.2) s
        match s.placeHold t (ps.flatMap fun e => s.placeReads x e.2 e.1.n true) io with
        | some s => s
        | none =>
          match s.placeEngine t x (ps.map (·.2)) io with
          | (s, false) => s
          | (s, true) => ps.foldl (fun s e => s.storeOne t x e) (s.setThread t x.step)

/-- The places an AMO may reach (R304). -/
def amoPlace (pl : Place) : Bool :=
  match pl with
  | .scratch _ _ => true
  | .region _ _ => true
  | .stack _ _ => true
  | .node _ _ => true
  | .nacked => true
  | _ => false

/-- AMO: an atomic on 8 bytes (R303, R304). -/
def State.oryAmo (s : State) (t : Nat) (p : Prog) (w : W32) (io : ChannelIo) : State :=
  let x := s.thread t
  let sub := BitVec.ofNat 8 (fFn w)
  let b := x.get (fB w)
  let c := x.get (fD w)
  let payload := if sub = 2 then leBytes 8 c.toNat ++ leBytes 8 b.toNat else leBytes 8 b.toNat
  let a : Acc := { lane := 0, addr := x.get (fA w), n := 8, data := payload }
  match s.places t x p reqAtomic (fun _ => sub.toNat) [a] true with
  | .error (f, v) => s.faultThread t f v
  | .ok ps =>
    match ps with
    | [(_, pl)] =>
      if !amoPlace pl then s.faultThread t faultAddr a.addr
      else
        let s := s.flushSelf pl
        match s.placeHold t (s.placeReads x pl 8 false) io with
        | some s => s
        | none =>
          match s.placeEngine t x [pl] io with
          | (s, false) => s
          | (s, true) =>
            let done (s : State) (old : W64) : State := s.setThread t (x.put (fD w) old).step
            let atDpa (s : State) (d : Nat) : State :=
              match s.accession (.atomic d sub b c) with
              | (s, .done old _ _) => done s (BitVec.ofNat 64 (leNat old))
              | (s, _) => s
            match pl with
            | .node dn wire =>
              let (s, seq) := s.takeSeq
              let s := s.setThread t { x with
                blocked := some { dest := fD w, vector := false, bytes := 8, sign := false,
                                  awaits := [{ seq := seq, lane := 0, addr := a.addr }] } }
              s.sendFar t (s.farFrame x reqAtomic dn wire sub.toNat payload seq)
            | .nacked => s.faultThread t faultNack a.addr
            | .stack ((d, _) :: _) _ =>
              match s.engineStep d (if (s.placeLine x pl).isSome then 0 else io.disagree) with
              | (s, true) => atDpa (s.wordsCorrected d io.corrected) d
              | (s, false) => s.draw.faultThread t (Config.freeRefusal s.fresh).toNat a.addr
            | .region r o => atDpa s (s.regionDpa r o)
            | pl =>
              let (s, bs) := s.placeLoad x p pl 8
              let old := BitVec.ofNat 64 (leNat bs)
              match atomicNew sub old b c with
              | some v => done (s.placeStore x pl (leBytes 8 v.toNat)) old
              | none => s
    | _ => s

/-! ### The meanings -/

/-- The address of an I-format access. -/
def Thread.iAddr (x : Thread) (w : W32) : W64 := x.get (fA w) + BitVec.ofInt 64 (fSimm w)

/-- A scalar load of so many bytes. -/
def State.scalarLoad (s : State) (t : Nat) (o : OryOp) (n : Nat) (sign : Bool) (io : ChannelIo) : State :=
  s.issue t o fun p w _ =>
    s.oryLoad t p (fD w) false n sign [{ lane := 0, addr := (s.thread t).iAddr w, n := n }] io

/-- A scalar store of so many bytes. -/
def State.scalarStore (s : State) (t : Nat) (o : OryOp) (n : Nat) (io : ChannelIo) : State :=
  s.issue t o fun p w _ =>
    let x := s.thread t
    s.oryStore t p [{ lane := 0, addr := x.iAddr w, n := n, data := leBytes n (x.get (fD w)).toNat }] io

def execOLd (t : BitVec 14) (io : ChannelIo) (s : State) : Outcome := .next (s.scalarLoad t.toNat .ld 8 false io)
def execOLw (t : BitVec 14) (io : ChannelIo) (s : State) : Outcome := .next (s.scalarLoad t.toNat .lw 4 true io)
def execOLh (t : BitVec 14) (io : ChannelIo) (s : State) : Outcome := .next (s.scalarLoad t.toNat .lh 2 true io)
def execOLbu (t : BitVec 14) (io : ChannelIo) (s : State) : Outcome := .next (s.scalarLoad t.toNat .lbu 1 false io)
def execOSt (t : BitVec 14) (io : ChannelIo) (s : State) : Outcome := .next (s.scalarStore t.toNat .st 8 io)
def execOStw (t : BitVec 14) (io : ChannelIo) (s : State) : Outcome := .next (s.scalarStore t.toNat .stw 4 io)
def execOSth (t : BitVec 14) (io : ChannelIo) (s : State) : Outcome := .next (s.scalarStore t.toNat .sth 2 io)

/-- The accesses of a contiguous vector access: a FAR one that crosses a 256-byte line is two requests (R274). -/
def Thread.vecAccs (x : Thread) (a : W64) (data : List Byte) : List Acc :=
  let k := 256 - (x.wire a).toNat % 256
  if isFar a && decide (k < 128) && decide (k % 8 = 0) then
    [{ lane := 0, addr := a, n := k, data := data.take k },
     { lane := k / 8, addr := a + BitVec.ofNat 64 k, n := 128 - k, data := data.drop k }]
  else [{ lane := 0, addr := a, n := 128, data := data }]

def execOVld (t : BitVec 14) (io : ChannelIo) (s : State) : Outcome :=
  .next (s.issue t.toNat .vld fun p w _ =>
    let x := s.thread t.toNat
    s.oryLoad t.toNat p (fD w) true 8 false (x.vecAccs (x.iAddr w) []) io)

def execOVst (t : BitVec 14) (io : ChannelIo) (s : State) : Outcome :=
  .next (s.issue t.toNat .vst fun p w _ =>
    let x := s.thread t.toNat
    s.oryStore t.toNat p (x.vecAccs (x.iAddr w) (laneList (x.vlanes (fD w)))) io)

/-- The accesses of a gather or scatter, one per active lane in ascending order. -/
def Thread.laneAccs (x : Thread) (w : W32) : List Acc :=
  (activeLanes (fMen w) x.mask).map fun i =>
    { lane := i, addr := x.get (fA w) + x.vget (fB w) i, n := 8, data := leBytes 8 (x.vget (fD w) i).toNat }

def execOVgather (t : BitVec 14) (io : ChannelIo) (s : State) : Outcome :=
  .next (s.issue t.toNat .vgather fun p w _ =>
    s.oryLoad t.toNat p (fD w) true 8 false ((s.thread t.toNat).laneAccs w) io)

def execOVscatter (t : BitVec 14) (io : ChannelIo) (s : State) : Outcome :=
  .next (s.issue t.toNat .vscatter fun p w _ => s.oryStore t.toNat p ((s.thread t.toNat).laneAccs w) io)

def execOAmo (t : BitVec 14) (io : ChannelIo) (s : State) : Outcome :=
  .next (s.issue t.toNat .amo fun p w _ => s.oryAmo t.toNat p w io)

end Sys2Proof.Machine
end

