-- ==== Sys2Proof/Machine/OryTok.lean ====
section
/-!
DEFINITION. Tokens, chunks and the end of a thread's run (R306 to R310, R315), timers, and programs that are suspended,
resumed or unloaded (R314, R316).
-/

namespace Sys2Proof.Machine

/-! ### Chunks (R310) -/

/-- Releases a chunk that is held under a current handle; the segment's last one lets it emit. -/
def State.releaseChunk (s : State) (k : Token) : State :=
  let g := tokGroup k
  let cseq := tokCseq k
  let n := w1Segment k.w1
  match s.seg g cseq n with
  | none => s
  | some x =>
    let rest := x.chunks.filter fun c => c.1 ≠ w1First k.w1
    let s := s.setSeg g cseq n { x with chunks := rest }
    if rest.isEmpty then s.emitSeg g cseq n else s

/-- A thread gives up the chunk it holds (R310): counted where it was current. -/
def State.implicitRelease (s : State) (t : Nat) : State :=
  let x := s.thread t
  match x.chunk with
  | none => s
  | some k =>
    let s := s.setThread t { x with chunk := none }
    if s.chunkHeld k then (s.count Reg.ORY_CNT_IMPLICIT.value).releaseChunk k else s

/-- RELEASE with token word 1 (R310): the state and the status. -/
def State.releaseBy (s : State) (t : Nat) (w1 : W64) : State × W64 :=
  let x := s.thread t
  match x.chunk with
  | none => (s.staleAccess, 1)
  | some k =>
    if k.w1 == w1 && s.chunkHeld k then
      let s := s.setThread t { x with chunk := none }
      ((s.count Reg.ORY_CNT_RELEASE.value).releaseChunk k, 0)
    else (s.staleAccess, 1)

/-- A failed posted store faults its thread at FENCE, WAIT and RELEASE (R315). -/
def State.storeFault (s : State) (t : Nat) (go : State → State) : State :=
  match (s.thread t).badStore with
  | some (c, a) => s.faultThread t c a
  | none => go s

/-! ### Programs that leave (R314) -/

/-- Threads of a program on the cores that are in service. -/
def State.progThreads (s : State) (p : Prog) : List Nat :=
  ((List.range 256).filter s.coreIn).flatMap fun c => p.idx.map fun i => 64 * c + i

/-- A program's threads, tokens, timers, store space and slices are freed; its slot is empty. -/
def State.dropProgram (s : State) (slot : Nat) (p : Prog) : State :=
  let mine (t : Nat) : Bool := p.idx.contains (thrIndex t)
  let keep (k : Token) : Bool :=
    match k.thread with
    | some t => !mine t
    | none => k.slot ≠ slot
  { s with
    ory.progs := s.ory.progs.del slot
    ory.threads := s.ory.threads.filter fun e => !mine e.1
    ory.scratch := s.ory.scratch.filter fun e =>
      !(decide (p.scratch ≤ e.1 % 2 ^ 18) && decide (e.1 % 2 ^ 18 < p.scratch + 1024 * p.scratchKib))
    ory.tokens := s.ory.tokens.filterMap fun e =>
      match e.2.filter keep with
      | [] => none
      | ks => some (e.1, ks)
    ory.tileTokens := s.ory.tileTokens.filter fun e => keep e.2
    ory.timers := s.ory.timers.filter fun x => !mine x.thread }

def opProgramUnload : BitVec 16 := 0xC005

/-- An operation of ORY_PROG_CMD ends with a status (Table 13-12, Table 13-13). -/
def State.progEnd (s : State) (status : Nat) : State :=
  ((s.setFld Reg.ORY_PROG_CMD.busy 0).setFld Reg.ORY_PROG_CMD.status status).raise Reg.ORY_INT_STATUS.load_done

/-- An unload ends once every thread of the program has stopped. -/
def State.tryUnload (s : State) (slot : Nat) (force : Bool) : State :=
  match s.ory.progs.get slot with
  | none => s
  | some p =>
    match p.unloading with
    | none => s
    | some _ =>
      if force || (s.progThreads p).all (fun t => (s.thread t).stopped) then
        let s := (s.dropProgram slot p).reconfigured s
        let s := if p.unloadCmd then s.progEnd 1 else s
        match p.unloadTo with
        | some tp => s.archReply tp opProgramUnload 0 [1]
        | none => s
      else s

/-- A thread that reaches WAIT or HALT under an unload stops (R314). -/
def State.stopUnloading (s : State) (t : Nat) : State :=
  match s.thrSlot t with
  | none => s
  | some n =>
    match s.ory.progs.get n with
    | none => s
    | some p =>
      if p.unloading.isSome then (s.setThread t { s.thread t with stopped := true }).tryUnload n false else s

/-! ### WAIT and tokens (R306) -/

def execOWait (t : BitVec 14) (s : State) : Outcome :=
  .next (s.issue t.toNat .wait fun _ w _ =>
    s.storeFault t.toNat fun s =>
      let s := s.implicitRelease t.toNat
      (s.setThread t.toNat { s.thread t.toNat with waiting := some (fD w) }).stopUnloading t.toNat)

/-- A token is one a thread may take. -/
def State.tokenFor (s : State) (t : Nat) (k : Token) : Bool :=
  match k.thread with
  | some u => decide (u = t)
  | none => s.thrSlot t == some k.slot

/-- A waiting thread takes a token: its words go into four registers, and the instruction after WAIT is next. -/
def Thread.take (x : Thread) (d : BitVec 5) (k : Token) : Thread :=
  let y := (((x.put d k.w0).put (d + 1) k.w1).put (d + 2) k.w2).put (d + 3) k.w3
  { y with
    pc := x.pc + 1, waiting := none, count := 0
    partition := if tokKind k = 3 then x.partition else BitVec.ofNat 12 (k.w0.toNat / 2 ^ 4)
    chunk := if tokKind k = 1 then some k else none }

/-- A thread in WAIT takes the oldest token that names it or its program. -/
def State.takeToken (s : State) (t : Nat) : State :=
  let x := s.thread t
  match x.waiting with
  | none => s
  | some d =>
    let ready := s.bit Reg.ORY_CTL.orrery_en && s.coreIn (thrCore t) && !x.stopped &&
      (match s.thrProg t with
       | some p => !p.suspended
       | none => false)
    let q := s.ory.tokens.read [] (thrCore t)
    match q.findIdx? (s.tokenFor t), ready with
    | some i, true =>
      let k := q.getD i ⟨none, 0, 0, 0, 0, 0⟩
      let s := { s with ory.tokens := s.ory.tokens.write [] (thrCore t) (q.eraseIdx i) }
      (s.pmuEvent 0x14 0x02 (thrCore t)).setThread t (x.take d k)
    | _, _ => s

def execOWaitWake (t : BitVec 14) (s : State) : Outcome := .next (s.takeToken t.toNat)

/-- A token a tile holds moves to its core's queue when there is room (R308). -/
def State.queueRoom (s : State) (c : Nat) : State :=
  let q := s.ory.tokens.read [] c
  match s.ory.tileTokens.findIdx? fun e => decide (e.1 = c) with
  | none => s
  | some i =>
    if q.length < tokenRoom then
      match s.ory.tileTokens[i]? with
      | some e => { s with ory.tokens := s.ory.tokens.write [] c (q ++ [e.2]), ory.tileTokens := s.ory.tileTokens.eraseIdx i }
      | none => s
    else s

def execTokenQueueRoom (c : BitVec 8) (s : State) : Outcome := .next (s.queueRoom c.toNat)

/-! ### RELEASE, POST, FENCE, HALT, FAULT, TIMER -/

def execORelease (t : BitVec 14) (s : State) : Outcome :=
  .next (s.issue t.toNat .release fun _ w _ =>
    s.storeFault t.toNat fun s =>
      let (s, d) := s.releaseBy t.toNat ((s.thread t.toNat).get (fA w))
      s.setThread t.toNat ((s.thread t.toNat).put (fD w) d).step)

/-- POST (R307): the state and the status. -/
def State.postToken (s : State) (t : Nat) (target payload : W64) : State × W64 :=
  let a := target.toNat
  let all := decide (a / 2 ^ 14 % 2 = 1)
  let u := a % 2 ^ 14
  let core := if all then a / 2 ^ 6 % 256 else thrCore u
  let slot := s.thrSlot t
  if !s.coreIn core || (!all && s.thrSlot u != slot) then (s, 2)
  else
    let q := s.ory.tokens.read [] core
    if tokenRoom ≤ q.length then (s.count Reg.ORY_CNT_POST_FULL.value, 1)
    else
      let k : Token :=
        { thread := if all then none else some u, slot := slot.getD 0,
          w0 := BitVec.ofNat 64 (2 + (s.thread t).partition.toNat * 2 ^ 4), w1 := 0, w2 := payload, w3 := BitVec.ofNat 64 t }
      ({ s with ory.tokens := s.ory.tokens.write [] core (q ++ [k]) }, 0)

def execOPost (t : BitVec 14) (s : State) : Outcome :=
  .next (s.issue t.toNat .post fun _ w _ =>
    let x := s.thread t.toNat
    let (s, d) := s.postToken t.toNat (x.get (fA w)) (x.get (fB w))
    s.setThread t.toNat (x.put (fD w) d).step)

def execOFence (t : BitVec 14) (s : State) : Outcome :=
  .next (s.issue t.toNat .fence fun _ _ _ =>
    s.storeFault t.toNat fun s =>
      let x := s.thread t.toNat
      let x := { x with epoch := x.epoch + 1 }
      if x.posted.isEmpty then s.setThread t.toNat x.step else s.setThread t.toNat { x with fencing := true })

def execOHalt (t : BitVec 14) (s : State) : Outcome :=
  .next (s.issue t.toNat .halt fun _ _ _ =>
    let s := s.implicitRelease t.toNat
    (s.setThread t.toNat { s.thread t.toNat with halted := true }.step).stopUnloading t.toNat)

def execOFault (t : BitVec 14) (s : State) : Outcome :=
  .next (s.issue t.toNat .fault fun _ w _ => s.faultThread t.toNat faultExplicit 0 (fB w).toNat)

/-- Sets a timer (R307): a thread's ninth replaces its oldest. -/
def State.setTimer (s : State) (t : Nat) (due payload : W64) : State :=
  let ts := s.ory.timers
  let ts := if 8 ≤ (ts.filter fun x => x.thread = t).length then
      match ts.find? fun x => x.thread = t with
      | some o => ts.erase o
      | none => ts
    else ts
  { s with ory.timers := ts ++ [{ thread := t, due := due.toNat, payload := payload }] }

def execOTimer (t : BitVec 14) (s : State) : Outcome :=
  .next (s.issue t.toNat .timer fun _ w _ =>
    let x := s.thread t.toNat
    (s.setTimer t.toNat (x.get (fA w)) (x.get (fB w))).setThread t.toNat x.step)

/-- The oldest due timer of a thread fires, once its core's queue has a place (R307). -/
def State.fireTimer (s : State) (t : Nat) : State :=
  let q := s.ory.tokens.read [] (thrCore t)
  match s.ory.timers.find? fun x => x.thread = t && decide (x.due ≤ s.ft) with
  | none => s
  | some x =>
    if tokenRoom ≤ q.length || !s.coreIn (thrCore t) then s
    else
      let k : Token :=
        { thread := some t, slot := (s.thrSlot t).getD 0, w0 := BitVec.ofNat 64 (3 + (s.thread t).partition.toNat * 2 ^ 4),
          w1 := 0, w2 := x.payload, w3 := 0 }
      { s with ory.timers := s.ory.timers.erase x, ory.tokens := s.ory.tokens.write [] (thrCore t) (q ++ [k]) }

def execTimerTokenFire (t : BitVec 14) (s : State) : Outcome := .next (s.fireTimer t.toNat)

/-! ### Suspension, resumption, unloading -/

/-- A program that faulted more than fault_limit times within 1 s is suspended (R316). -/
def State.suspend (s : State) (n : Nat) : State :=
  match s.ory.progs.get n with
  | none => s
  | some p =>
    let lim := s.fld Reg.ORY_CTL.fault_limit
    let recent := (p.faults.filter fun f => decide (s.ft < f + 16000000000)).length
    if lim ≠ 0 ∧ lim < recent ∧ !p.suspended then
      ({ s with ory.progs := s.ory.progs.put n { p with suspended := true } }).raise Reg.ORY_INT_STATUS.prog_suspended
    else s

def execProgramSuspend (n : BitVec 6) (s : State) : Outcome := .next (s.suspend n.toNat)

/-- The slot of a program by its id. -/
def State.progSlot (s : State) (id : Nat) : Option (Nat × Prog) := s.ory.progs.find? fun e => e.2.id.toNat = id

/-- Resumes a program: its threads restart as at load. -/
def State.resume (s : State) (id : Nat) : State :=
  match s.progSlot id with
  | none => s.progEnd 4
  | some (n, p) =>
    let mine (t : Nat) : Bool := p.idx.contains (thrIndex t)
    ({ s with
      ory.progs := s.ory.progs.put n { p with suspended := false, faults := [] }
      ory.threads := s.ory.threads.filter fun e => !mine e.1 }).progEnd 1

/-- A group that is ADMITTED or DRAINING names a program. -/
def State.progBound (s : State) (id : BitVec 16) : Bool :=
  s.cnj.groups.any fun e =>
    (match e.2.state with
     | .free => false
     | _ => true) && e.2.transformEn && e.2.program == id

/-- Begins an unload (R314), by ORY_PROG_CMD, by a transport's command or by an amendment; answers the status that refuses
it, or none. -/
def State.beginUnload (s : State) (id : Nat) (cmd : Bool) (rt : Option Transport) : State × Option Nat :=
  match s.progSlot id with
  | none => (s, some 4)
  | some (n, p) =>
    if s.progBound p.id then (s, some 8)
    else
      let s := { s with ory.progs := s.ory.progs.put n { p with unloading := some s.ft, unloadCmd := cmd, unloadTo := rt } }
      let stop := fun (e : Nat × Thread) =>
        if (s.thrSlot e.1 == some n) && (e.2.waiting.isSome || e.2.halted) then (e.1, { e.2 with stopped := true }) else e
      let s := { s with ory.threads := s.ory.threads.map stop }
      ((if cmd then s.setFld Reg.ORY_PROG_CMD.busy 1 else s).tryUnload n false, none)

/-- ORY_PROG_CMD written with go for an op: nothing while another is in progress. -/
def State.progCmd (s : State) (v : W32) (op : Nat) (go : State → State) : State :=
  if Reg.ORY_PROG_CMD.op.of v = op ∧ v.getLsbD 18 then
    s.regWrite Reg.ORY_PROG_CMD.addr v fun s =>
      if s.bit Reg.ORY_PROG_CMD.busy then s else go (s.storeFields Reg.ORY_PROG_CMD.addr v)
  else s

def execOryProgUnload (value : W32) (s : State) : Outcome :=
  .next (s.progCmd value 1 fun s =>
    match s.beginUnload (value.toNat % 2 ^ 16) true none with
    | (s, some c) => s.progEnd c
    | (s, none) => s)

def execUnloadForceStop (s : State) : Outcome :=
  match s.ory.progs.find? fun e => (match e.2.unloading with
      | some f => decide (f + 16000000 ≤ s.ft)
      | none => false) with
  | some (n, _) => .next (s.tryUnload n true)
  | none => .next s

def execOryProgResume (value : W32) (s : State) : Outcome :=
  .next (s.progCmd value 2 fun s => s.resume (value.toNat % 2 ^ 16))

end Sys2Proof.Machine
end

