-- ==== Sys2Proof/Machine/Gates.lean ====
section
/-!
DEFINITION. Gates as they are and as they will be (R93, R182, R183): the banks in force at a time, the transit overlay, and
whether a frame fits.
-/

namespace Sys2Proof.Machine

/-- The gate list of a port that a pending amendment carries. -/
def amendGates (a : Amendment) (p : Nat) : Option GateRec :=
  ((imgSectionsOf a.image 0x0A).flatMap fun bs => gateRecs bs.length bs).find? fun r => r.port = p

/-- The gate list that a pending activation of a port brings: its amendment's, or the shadow bank (R58). -/
def State.pendingGates (s : State) (p : Nat) : Bank :=
  let t := (s.act (objGate p)).tAct
  match s.cfg.pendingAmend.bind fun a => amendGates a p with
  | some r => bankOf t r.entries
  | none => { s.gateShadow.read { } p with on := true, base := t, len := s.fld (Reg.SCH_GATE_LEN.shadow p) + 1 }

/-- The calendar that a pending activation brings. -/
def State.pendingCal (s : State) : Bank :=
  let t := (s.act objCal).tAct
  match s.cfg.pendingAmend.bind fun a => calSection a.image with
  | some bs => bankOf t (transitEntries bs)
  | none => { s.calShadow with on := true, base := t, len := s.fld Reg.TRN_CAL_LEN.shadow + 1 }

/-- The gate list, and the calendar, in force at a time. -/
def State.gatesAt (s : State) (p t : Nat) : Bank :=
  let a := s.act (objGate p)
  if a.pending ∧ a.tAct ≤ t then s.pendingGates p else s.gateActive.read { } p
def State.calAt (s : State) (t : Nat) : Bank :=
  let a := s.act objCal
  if a.pending ∧ a.tAct ≤ t then s.pendingCal else s.calActive

/-- The FT at which the entry of a bank that holds at a time began. -/
def Bank.startAt (b : Bank) (t : Nat) : Nat :=
  if b.cycle = 0 then t
  else
    let x := (((t : Int) - (b.base : Int)) % (b.cycle : Int)).toNat
    t - (x - ((sums 0 b.durs).foldl (fun m v => if v ≤ x then v else m) 0))

/-- The list gate of a VC at a time (R182). -/
def State.listGate (s : State) (p : Nat) (v : Nat) (t : Nat) : Bool :=
  let b := s.gatesAt p t
  v = 0 || !s.bit (Reg.SCH_GATE_CTL.gate_en p) || !b.on ||
    ((SMap.get b.ent (b.entryAt t)).getD 0).getLsbD (32 + v)

/-- The calendar runs at a time. -/
def State.calRuns (s : State) (t : Nat) : Bool :=
  let a := s.act objCal
  s.bit Reg.TRN_CTL.transit_en && (s.trn.calRunning || (a.pending && decide (a.tAct ≤ t) && s.eph.state.runsCalendar))

/-- The fibres of a duty suspended at a time (R99, R100). -/
def State.suspAt (s : State) (k : BitVec 4) (t : Nat) : BitVec 32 :=
  match s.trn.notices.find? fun n => n.duty == k && decide (n.tFrom ≤ t) with
  | some n => n.mask
  | none => s.trn.suspMask.read 0 k.toNat

/-- A port is a circuit destination at a time (R90). -/
def State.destAt (s : State) (p : Port) (t : Nat) : Bool :=
  let b := s.calAt t
  let k := dutyOf p
  s.calRuns t && b.on &&
    (s.entryCircuits ((SMap.get b.ent (b.entryAt t)).getD 0) k.toNat).any fun c =>
      c.2 = engineOf p && !(s.suspAt k t).getLsbD c.1 && !(s.suspAt k t).getLsbD c.2

/-- The transit overlay lets a port begin frames at a time (R93, R183): closed in its destination slots, and to 512 FT
after them. -/
def State.overlayOpen (s : State) (p : Port) (t : Nat) : Bool :=
  let te := (s.calAt t).startAt t
  !s.destAt p t && !(decide (t < te + 512) && decide (0 < te) && s.destAt p (te - 1))

/-- The effective gate of a VC at a time (R183). -/
def State.effectiveGate (s : State) (p : Port) (v t : Nat) : Bool := v = 0 || (s.listGate p.toNat v t && s.overlayOpen p t)

/-- The entry boundaries of a bank within (t, stop). -/
def boundariesIn (b : Bank) : Nat → Nat → Nat → List Nat
  | 0, _, _ => []
  | n + 1, t, stop =>
    let x := b.nextBoundary (t + 1)
    if b.cycle = 0 ∨ stop ≤ x then [] else x :: boundariesIn b n x stop

/-- The times within (t, stop) at which a gate of a port may close. -/
def State.edgesIn (s : State) (p : Port) (t stop : Nat) : List Nat :=
  let n := (stop - t) / 512 + 2
  let acts := ([objGate p.toNat, objCal].map s.act).filter fun a => a.pending && decide (t < a.tAct) && decide (a.tAct < stop)
  let ns := (s.trn.notices.map Notice.tFrom).filter fun x => decide (t < x) && decide (x < stop)
  let of (now later : Bank) (k : Nat) : List Nat :=
    let a := s.act k
    boundariesIn now n t (if a.pending then min stop a.tAct else stop) ++
      (if a.pending then boundariesIn later n (max t a.tAct) stop else [])
  acts.map Act.tAct ++ ns ++ of (s.gateActive.read { } p.toNat) (s.pendingGates p.toNat) (objGate p.toNat) ++
    of s.calActive s.pendingCal objCal

/-- The end of the codeword that holds the last byte of a frame begun at a time, in hundredths of an FT (R183): codewords
are 409.6 FT and 640 bytes, positions are 8 bytes apart. Where no burst preamble has fixed the stream its phase is a
free value (log 30). -/
def State.codewordEnd (s : State) (p : Port) (bytes t : Nat) : Nat :=
  let l := s.link p
  let o := match l.cwFrom with
    | some c => 100 * c
    | none => (Config.freeCodewordPhase p.toNat l.trainAt).toNat % 40960
  let pos := 8 * ((100 * t - o + 511) / 512)
  o + ((pos + bytes - 1) / 640 + 1) * 40960

/-- A frame of a VC may begin on a port at a time, as far as its gate is concerned (R183). -/
def State.gateFits (s : State) (p : Port) (v bytes t : Nat) : Bool :=
  let e := s.codewordEnd p bytes t
  s.effectiveGate p v t &&
    (s.edgesIn p t (e / 100 + 1)).all fun x => decide (e ≤ 100 * x) || s.effectiveGate p v x

end Sys2Proof.Machine
end

