-- ==== Sys2Proof/Machine/Link.lean ====
section
/-!
DEFINITION. The meanings of the commands of chapter 5: training, credits, acknowledgement and retry, ports that go DOWN,
fences, grants and port resets.
-/

namespace Sys2Proof.Machine

/-! ### Sending -/

/-- The electrical transmitter of a port is free to send: not DOWN, dark, latched, held or given to a circuit (R32, R68,
R90, R93, R104). -/
def State.canSend (s : State) (p : Port) : Bool :=
  let l := s.link p
  !(l.state == .down) && !s.trn.dark && !s.latched (engineOf p) && l.held.isNone && !s.isDest p &&
    !s.trn.quiet.getLsbD p.toNat

/-- Replays every frame from an lseq on (R116), at once or when the transmitter may send. -/
def State.replayFrom (s : State) (p : Port) (n : BitVec 15) : State :=
  let l := s.link p
  let old := l.replay.takeWhile fun r => !(r.frame.lseq == n)
  let fs := l.replay.dropWhile fun r => !(r.frame.lseq == n)
  if fs.isEmpty then s
  else if !s.canSend p then s.setLink p { l with replayDue := some n }
  else
    let s := s.setLink p { l with
      replay := old ++ fs.map fun r => { r with count := r.count + 1 }
      replayDue := none, ackAt := s.ft, ackDue := none }
    let s := fs.foldl (fun s r =>
      let s := s.emit (.frame p { r.frame with ackLseq := l.ackVal })
      if r.stomped then s.emit (.stomp p r.frame.lseq) else s) s
    (s.count (Reg.LNK_CNT_REPLAY.value p.toNat)).pmuEvent 0x04 0x06 p.toNat none fs.length

/-- ack_timeout and ack_delay in FT (Table 5-17). -/
def State.ackTimeout (s : State) (p : Port) : Nat := s.fld (Reg.LNK_RETRY_CFG.ack_timeout p.toNat) * 1600
def State.ackDelay (s : State) (p : Port) : Nat := s.fld (Reg.LNK_RETRY_CFG.ack_delay p.toNat) * 128

/-- A LINK_CTL frame of an opcode arrives, and its rule runs if the link takes it in. -/
def State.linkCtlIn (s : State) (p : Port) (f : Frame) (op : BitVec 8) (rule : State → State) : State :=
  if f.ftype = ftLinkCtl ∧ f.opcode = op then s.consume p f rule else s

/-! ### Training -/

/-- HELLO: recorded; in TRAINING it counts toward UP (R113). -/
def State.takeHello (s : State) (p : Port) (f : Frame) : State :=
  let s := (s.setReg (Reg.LNK_PEER_ID.addr p.toNat) f.w4).setReg (Reg.LNK_PEER_PORT.addr p.toNat) f.w5
  let s := s.setFld (Reg.LNK_STATUS.peer_valid p.toNat) 1
  let l := s.link p
  if l.state = .training then (s.setLink p { l with helloRx := true }).tryUp p else s

def execHello (p : Port) (f : Frame) (s : State) : Outcome := .next (s.linkCtlIn p f opHello fun s => s.takeHello p f)

/-- The device's HELLO (Table 5-7). -/
def State.helloFrame (s : State) (p : Port) : Frame :=
  s.linkCtl opHello (BitVec.ofNat 32 (s.swAddr.toNat + 2 ^ 31)) (BitVec.ofNat 32 p.toNat)
    (BitVec.ofNat 32 ((dutyOf p).toNat + 16 * (s.carrier p).getD 31)) 1

def execHelloInterval (p : Port) (s : State) : Outcome :=
  let l := s.link p
  if l.state = .down then .next s
  else .next (((s.setLink p { l with helloTx := true }).sendVc0 p (s.helloFrame p)).tryUp p)

/-- CREDIT: the partner's eight limits (R120). A CREDIT without its 32 bytes carries none (log 26). -/
def State.takeCredit (s : State) (p : Port) (f : Frame) : State :=
  if f.payload.length ≠ 32 then s
  else
    let s := creditVcs.foldl (fun s v => s.takeLimit p (BitVec.ofNat 3 v) (BitVec.ofNat 24 (numAt f.payload (4 * v) 3))) s
    let l := s.link p
    if l.state = .training then (s.setLink p { l with creditRx := true }).tryUp p else s

def execCredit (p : Port) (f : Frame) (s : State) : Outcome := .next (s.linkCtlIn p f opCredit fun s => s.takeCredit p f)

/-- The device's CREDIT frame: the limits become published (R120, R121). -/
def execCreditPublish (p : Port) (s : State) : Outcome :=
  let l := s.link p
  if l.state = .down ∨ (l.creditTx ∧ l.pub = l.lim ∧ s.ft < l.creditAt + 160000) then .next s
  else
    let body := (List.range 8).flatMap fun v => leBytes 4 (l.lim.read 0 v).toNat
    let s := s.setLink p { l with pub := l.lim, creditTx := true, creditAt := s.ft }
    .next ((s.sendVc0 p (s.linkCtl opCredit 0 0 0 0 body)).tryUp p)

def execTrainingStart (p : Port) (s : State) : Outcome :=
  let l := s.link p
  if l.state ≠ .down then .next s
  else
    let s := s.setLink p { l with aligned := true }
    if l.failAt.isNone && s.canTrain p then .next (s.startTraining p) else .next s

def execTrainTimeout (p : Port) (s : State) : Outcome :=
  let l := s.link p
  if l.state = .training ∧ l.trainAt + s.fld (Reg.LNK_CTL.train_timeout p.toNat) * 1600000 ≤ s.ft then
    .next (s.linkDown p 1)
  else .next s

/-- 1 ms after a training failure (R113). -/
def execTrainRetry (p : Port) (s : State) : Outcome :=
  let l := s.link p
  match l.state, l.failAt with
  | .down, some t =>
    if s.ft < t + 16000000 then .next s
    else
      let s := s.setLink p { l with failAt := none }
      if l.aligned && s.canTrain p then .next (s.startTraining p) else .next s
  | _, _ => .next s

/-! ### Acknowledgement and retry -/

/-- ACK carries its acknowledgement in the header, which receiving it has taken (R114). -/
def execAck (p : Port) (f : Frame) (s : State) : Outcome := .next (s.linkCtlIn p f opAck id)

def execAckDelayExpiry (p : Port) (s : State) : Outcome :=
  let l := s.link p
  match l.ackDue with
  | none => .next s
  | some t =>
    if t + s.ackDelay p ≤ s.ft then
      .next ((s.setLink p { l with ackDue := none }).sendVc0 p (s.linkCtl opAck 0 0 0 0))
    else .next s

def execRetryReq (p : Port) (f : Frame) (s : State) : Outcome :=
  .next (s.linkCtlIn p f opRetryReq fun s => s.replayFrom p (f.w4.setWidth 15))

/-- A hop error of a cause of Table 5-7. -/
def execHopError (p : Port) (cause : BitVec 8) (s : State) : Outcome :=
  if (s.link p).state = .down ∨ !s.hears p ∨ cause = 0 ∨ 4 < cause.toNat then .next s
  else
    let s := if cause = 1 then s.count (Reg.LNK_CNT_HDR_ERR.value p.toNat) else s
    .next (s.hopErr p cause.toNat)

def execRetryReqTimeout (p : Port) (s : State) : Outcome :=
  match (s.link p).retryAt with
  | none => .next s
  | some t => if t + s.ackTimeout p ≤ s.ft then .next (s.sendRetryReq p 5) else .next s

def execAckTimeout (p : Port) (s : State) : Outcome :=
  let l := s.link p
  match l.replay with
  | [] => .next s
  | r :: _ => if l.ackAt + s.ackTimeout p ≤ s.ft then .next (s.replayFrom p r.frame.lseq) else .next s

def execRetryExhausted (p : Port) (s : State) : Outcome :=
  if (s.link p).replay.any fun r => decide (s.fld (Reg.LNK_RETRY_CFG.retry_limit p.toNat) < r.count) then
    .next (s.linkDown p 2)
  else .next s

/-- The opcodes of Table 5-7. -/
def linkOps : List (BitVec 8) := [0x01, 0x02, 0x03, 0x04, 0x10, 0x11, 0x12, 0x13, 0x14, 0x15, 0x20, 0x21]

def execLinkCtlBadOpcode (p : Port) (f : Frame) (s : State) : Outcome :=
  if f.ftype = ftLinkCtl ∧ !linkOps.contains f.opcode then
    .next (s.consume p f fun s =>
      (s.count (Reg.LNK_CNT_MALFORMED.value p.toNat)).raise (Reg.LNK_INT_STATUS.malformed p.toNat))
  else .next s

/-- A malformed frame (R112). -/
def execMalformedFrame (p : Port) (f : Frame) (s : State) : Outcome :=
  if f.malformed then .next (s.ingress p f).1 else .next s

/-- A stomped frame: discarded and counted; it consumes its lseq and its credits (R117). -/
def execStompedFrame (p : Port) (f : Frame) (s : State) : Outcome :=
  match s.linkIn p f with
  | (s, false) => .next s
  | (s, true) => .next ((s.count (Reg.LNK_CNT_STOMP.value p.toNat)).passCells p f.vc f.cells)

/-- An uncorrectable codeword is counted outside the spans of R118. -/
def execUncorrectableCodeword (p : Port) (s : State) : Outcome :=
  if (s.link p).state = .down ∨ s.rxExempt p then .next s
  else .next (s.count (Reg.LNK_CNT_FEC_UNCORR.value p.toNat))

/-! ### Down, fences, grants and resets -/

/-- FEC alignment lost for more than 1 us outside the spans of R118; a port held for lock loss is R68's. -/
def execAlignLost (p : Port) (s : State) : Outcome :=
  if s.rxExempt p ∨ (s.link p).held.isSome then .next s else .next (s.linkDown p 3)

/-- A write to LNK_CTL (Table 5-13): port_en cleared takes the port DOWN, and port_reset resets it (R113, R129). -/
def State.writeLnkCtl (s : State) (p : Port) (v : W32) : State :=
  let s := s.storeFields (Reg.LNK_CTL.addr p.toNat) v
  let s := if v.getLsbD 0 then s else s.linkDown p 5
  if v.getLsbD 1 then
    let s := s.linkDown p 5
    let l := s.link p
    let s := s.setLink p { l with cause := 5, failAt := none, deficit := [] }
    let x := s.time p
    ((s.setTime p { x with valid := false, loss := 0 }).refreshParent).refreshTransit
  else s

def execPortEnClear (p : Port) (value : W32) (s : State) : Outcome :=
  if value.getLsbD 0 then .next s
  else .next (s.regWrite (Reg.LNK_CTL.addr p.toNat) value fun s => s.writeLnkCtl p value)

def execPortReset (p : Port) (value : W32) (s : State) : Outcome :=
  if value.getLsbD 1 then .next (s.regWrite (Reg.LNK_CTL.addr p.toNat) value fun s => s.writeLnkCtl p value)
  else .next s

/-- The fence state of a port changes (R128): collectives (R244), the time parent (R45) and circuits follow. -/
def State.setFence (s : State) (p : Port) (n : Nat) : State :=
  let old := s.fence p
  if n = 3 ∨ n = old then s
  else
    let s := (s.setFld (Reg.LNK_FENCE.state p.toNat) n).raise (Reg.LNK_INT_STATUS.fence_change p.toNat)
    let s := if old = 0 then s.collPortLost p true else s
    s.refreshParent.refreshTransit

def execLnkFenceWrite (p : Port) (value : W32) (s : State) : Outcome :=
  if value.toNat % 4 = 3 then .next s
  else .next (s.regWrite (Reg.LNK_FENCE.addr p.toNat) value fun s => s.setFence p (value.toNat % 4))

/-- The least grant of a VC (R122). -/
def grantMin (v : Nat) : Nat := [0, 17, 2, 2, 17, 1, 255, 255].getD v 0

/-- G_d of R167, with one grant replaced. -/
def State.grantSum (s : State) (d : Nat) (p : Port) (v g : Nat) : Nat :=
  (List.range 128).foldl (fun n i =>
    creditVcs.foldl (fun n w =>
      n + (if 128 * d + i = p.toNat ∧ w = v then g else s.fld (Reg.LNK_CREDIT_GRANT.grant (128 * d + i) w))) n) 0

/-- A grant may be written: at least its minimum, and the die's P4 buffers cover its grants (R122, R167). -/
def State.grantOk (s : State) (p : Port) (v g : Nat) : Bool :=
  decide (grantMin v ≤ g) && decide (s.grantSum (dieOf p) p v g ≤ s.poolCount (dieOf p) 4)

def execLnkCreditGrantWrite (p : Port) (vc : BitVec 3) (value : W32) (s : State) : Outcome :=
  let off := Reg.LNK_CREDIT_GRANT.addr p.toNat vc.toNat
  if !s.answers off then .next s
  else if s.grantOk p vc.toNat (value.toNat % 2 ^ 24) then
    .next (s.regWrite off value fun s => s.storeFields off value)
  else .next (s.regAccess off)

end Sys2Proof.Machine
end

