-- ==== Sys2Proof/Machine/Optics.lean ====
section
/-!
DEFINITION. The meanings of the commands of chapter 3: heaters and the crosstalk matrix, locks, power trending, cut-overs
and calibration.
-/

namespace Sys2Proof.Machine

/-! ### Heaters and the matrix (R65, R66) -/

/-- An entry of the active, or the shadow, matrix: int16, two to a register (Table 3-5). -/
def State.xtActive (s : State) (f e : Nat) : Int :=
  signed 16 ((s.reg (Reg.OPT_XT_ACTIVE.addr f (e / 2))).toNat / 2 ^ (16 * (e % 2)))
def State.xtShadow (s : State) (f e : Nat) : Int :=
  signed 16 ((s.reg (Reg.OPT_XT_SHADOW.addr f (e / 2))).toNat / 2 ^ (16 * (e % 2)))

/-- Sets an entry of the active matrix. -/
def State.setXt (s : State) (f e : Nat) (v : Int) : State :=
  s.setFld ⟨Reg.OPT_XT_ACTIVE.addr f (e / 2), 16 * (e % 2), 16⟩ (wrap 16 v)

/-- x / 2^15 rounded to the nearest integer, halves to even (R65). -/
def roundHalfEven15 (x : Int) : Int :=
  let q := x / 32768
  let r := x % 32768
  if r < 16384 then q else if 16384 < r then q + 1 else if q % 2 = 0 then q else q + 1

/-- A new matrix becomes active at a heater update: the shadow after a swap, else a refreshed one (R66). -/
def State.takeMatrix (s : State) (f : Nat) : State :=
  let en := s.engine f
  if en.swapPending then
    let s := (List.range 648).foldl (fun s m => s.setReg (Reg.OPT_XT_ACTIVE.addr f m) (s.reg (Reg.OPT_XT_SHADOW.addr f m))) s
    (s.setEngine f { en with swapPending := false, xtNext := none }).setFld (Reg.OPT_XT_CTL.identified f) 0
  else
    match en.xtNext with
    | some m => (m.foldl (fun s e => s.setXt f e.1 e.2) s).setEngine f { en with xtNext := none }
    | none => s

/-- A heater's demand (R65): lock-loop output, feed-forward term and pilot dither. A held loop keeps its demand; loops that
do not run keep their output. -/
def State.demand (s : State) (f h : Nat) (x : HeaterInput) : Int × Int :=
  let old := s.heater f h
  if s.bit (Reg.OPT_HEATER.hold f h) then (old.loopOut, old.demand)
  else
    let lp := if s.bit (Reg.OPT_CTL.lock_en f) then x.loop else old.loopOut
    (lp, lp + (if s.bit (Reg.OPT_CTL.ff_en f) then x.feedForward else 0) + x.dither)

/-- Whether a ring is locked after an update, with its run lengths (R67). -/
def State.ringLock (s : State) (f : Nat) (old : Heater) (det : Nat) : Heater :=
  let inRun := if det ≤ s.fld (Reg.OPT_LOCK_CFG.lock_window f) then min (old.inRun + 1) 100 else 0
  let outRun := if s.fld (Reg.OPT_LOCK_CFG.lost_window f) < det then min (old.outRun + 1) 15 else 0
  let locked := if old.locked then !(decide (0 < outRun) && decide (s.fld (Reg.OPT_LOCK_CFG.lost_run f) ≤ outRun))
    else decide (100 ≤ inRun)
  { old with inRun := inRun, outRun := outRun, locked := locked }

/-- One update of every heater of an engine. -/
def State.heaterUpdate (s : State) (f : Nat) (inputs : List HeaterInput) : State :=
  let s := s.takeMatrix f
  let x (h : Nat) : HeaterInput := inputs.getD h { loop := 0, feedForward := 0, dither := 0, detuning := 0 }
  let ds := (List.range 36).map fun h => s.demand f h (x h)
  let s := (List.range 36).foldl (fun (s : State) i =>
    let (lp, d) := ds.getD i (0, 0)
    let acc := (List.range 36).foldl (fun a j => a + s.xtActive f (36 * i + j) * (ds.getD j (0, 0)).2) 0
    let h := d + roundHalfEven15 acc
    let drive := clampInt h 0 65535
    let y := s.ringLock f (s.heater f i) (x i).detuning
    s.setHeater f i { y with loopOut := lp, demand := d, drive := drive.toNat, headroomOut := decide (drive ≠ h) }) s
  if (List.range 36).any fun h => (s.heater f h).headroomOut then s.raise (Reg.OPT_INT_STATUS.headroom_out f) else s

/-- The substrate sensors as they were read (R71). -/
def State.substrate (s : State) (f : Nat) (temps : List Int) : State :=
  (List.range 4).foldl (fun s n => s.setFld (Reg.OPT_TEMP.temp f n) (wrap 32 (temps.getD n 0))) s

def execHeaterUpdate (f : BitVec 5) (inputs : List HeaterInput) (temps : List Int) (s : State) : Outcome :=
  if (s.engine f.toNat).calState = 0 then .next s else .next ((s.substrate f.toNat temps).heaterUpdate f.toNat inputs)

/-- The end of a refresh period (R66). -/
def execXtRefreshPeriodEnd (f : BitVec 5) (residuals : List Int) (s : State) : Outcome :=
  let f := f.toNat
  if !s.bit (Reg.OPT_CTL.xt_refresh_en f) ∨ (s.engine f).calState = 0 then .next s
  else
    let mu := s.fld (Reg.OPT_XT_CTL.mu_shift f)
    let es := (List.range 1296).filter fun e => e / 36 ≠ e % 36
    let new (e : Nat) : Int := s.xtActive f e - clampInt (sar (residuals.getD e 0) mu) (-32) 32
    let changed : SMap Int := (es.map fun e => (e, clampInt (new e) (-8192) 8192)).filter fun e => e.2 ≠ s.xtActive f e.1
    let clamps := (es.filter fun e => clampInt (new e) (-8192) 8192 ≠ new e).length
    let s := s.setEngine f { s.engine f with xtNext := some changed }
    if clamps = 0 then .next s
    else .next ((s.count (Reg.OPT_XT_CTL.clamp_count f) clamps).raise (Reg.OPT_INT_STATUS.xt_clamp f))

/-- A write to OPT_XT_CTL (Table 3-11): with swap the shadow becomes active at the next update, unless its diagonal is
not zero (R65). -/
def State.writeXtCtl (s : State) (f : Nat) (v : W32) : State :=
  let s := s.storeFields (Reg.OPT_XT_CTL.addr f) v
  if v.getLsbD 16 && (List.range 36).all fun i => decide (s.xtShadow f (37 * i) = 0) then
    s.setEngine f { s.engine f with swapPending := true }
  else s

def execXtSwap (f : BitVec 5) (value : W32) (s : State) : Outcome :=
  if value.getLsbD 16 then
    .next (s.regWrite (Reg.OPT_XT_CTL.addr f.toNat) value fun s => s.writeXtCtl f.toNat value)
  else .next s

/-! ### Lock loss (R68, R69) -/

/-- Both rings of a line are locked (R67), and its comb line is not low (R63). -/
def State.lineGood (s : State) (f n : Nat) : Bool :=
  (s.heater f n).locked && (s.heater f (n + 18)).locked && !(s.line f n).laserLow

/-- A cut-over in progress that a line belongs to, before t_switch. -/
def State.cutoverUses (s : State) (f n : Nat) : Bool :=
  match (s.engine f).cutover with
  | some c => !c.marked && (c.source = n || c.target = n)
  | none => false

def State.lockLost (s : State) (f n : Nat) : State :=
  let l := s.line f n
  let s := s.setLine f n { l with locked := false }
  let s := match l.duty with
    | some k =>
      let p := portOf f k
      let x := s.link p
      let s := s.raise (Reg.OPT_INT_STATUS.lock_lost f)
      if x.state = LinkState.down ∨ x.held.isSome then s else s.setLink p { x with held := some s.ft }
    | none => s
  let s := if s.cutoverUses f n then s.abortCutover f 2 else s
  s.refreshTransit

def execLineLockLost (f n : BitVec 5) (s : State) : Outcome :=
  if n.toNat < 18 ∧ (s.line f.toNat n.toNat).locked ∧ !s.lineGood f.toNat n.toNat then .next (s.lockLost f.toNat n.toNat)
  else .next s

def State.lockRegained (s : State) (f n : Nat) : State :=
  let l := s.line f n
  let s := s.setLine f n { l with locked := true }
  let s := match l.duty with
    | some k =>
      let p := portOf f k
      let x := s.link p
      if x.held.isSome then (s.setLink p { x with held := none }).raise (Reg.OPT_INT_STATUS.lock_regained f) else s
    | none => s
  s.refreshTransit.retryGroup f

def execLineLockRegained (f n : BitVec 5) (s : State) : Outcome :=
  if n.toNat < 18 ∧ !(s.line f.toNat n.toNat).locked ∧ s.lineGood f.toNat n.toNat then
    .next (s.lockRegained f.toNat n.toNat)
  else .next s

/-- hold_limit has passed (R69); 0 holds without limit. -/
def execLaneHoldLimit (p : Port) (s : State) : Outcome :=
  let lim := s.fld (Reg.OPT_LOCK_CFG.hold_limit (engineOf p))
  match (s.link p).held with
  | none => .next s
  | some t =>
    if lim = 0 ∨ s.ft < t + lim * 1600000 then .next s
    else .next ((s.raise (Reg.OPT_INT_STATUS.lane_down (engineOf p))).linkDown p 4)

/-! ### Power trending (R73 to R76) -/

/-- The commissioned level of a line and direction (0 transmit, 1 receive): the register's, unless it reads 0x8000, then
the one the device took (R74). -/
def State.p0Of (s : State) (f n dir : Nat) : Option Int :=
  let w := (s.reg (Reg.OPT_LINE_P0.addr f n)).toNat / 2 ^ (16 * dir) % 2 ^ 16
  if w ≠ 0x8000 then some (signed 16 w)
  else (s.line f n).p0.map fun p => if dir = 0 then p.1 else p.2

/-- A waiting or running cut-over already serves a duty. -/
def State.moving (s : State) (f : Nat) (k : BitVec 4) : Bool :=
  let en := s.engine f
  en.waiting.any (fun t => t.duty == k) || (match en.cutover with
    | some c => c.duty == k
    | none => false)

/-- Adds a trigger of a cut-over, unless the duty is being moved or waits for its retry. -/
def State.trigger (s : State) (f : Nat) (t : MoveTrigger) : State :=
  if s.moving f t.duty then s
  else s.setEngine f { s.engine f with waiting := (s.engine f).waiting ++ [t] }

/-- The fade rules of Table 3-2 on a line with a duty. -/
def State.fadeRules (s : State) (f n : Nat) (k : BitVec 4) (r : PowerReading) (pTx pRx : Int) : State :=
  let l := s.line f n
  let adv : Int := s.fld (Reg.OPT_FADE_CFG.advisory_db f)
  let cut : Int := s.fld (Reg.OPT_FADE_CFG.cutover_db f)
  let fast : Int := s.fld (Reg.OPT_FADE_CFG.fast_db f)
  let trend : Int := s.fld (Reg.OPT_FADE_CFG.trend_db f)
  let slow (avg ago : Int) : Bool := decide (avg ≤ -cut) && decide (avg + trend ≤ ago)
  let start := slow (r.avg10Tx - pTx) (r.agoTx - pTx) || slow (r.avg10Rx - pRx) (r.agoRx - pRx) ||
    decide (r.fastTx - pTx ≤ -fast) || decide (r.fastRx - pRx ≤ -fast)
  let advisory := decide (l.avgTx ≤ -adv) || decide (l.avgRx ≤ -adv)
  let back := decide (-adv + 25 < l.avgTx) && decide (-adv + 25 < l.avgRx)
  match l.fade with
  | .normal =>
    let s := if advisory then (s.setLine f n { l with fade := .advisory }).raise (Reg.OPT_INT_STATUS.fade_advisory f) else s
    if start ∧ l.retryFrom.isNone then s.trigger f ⟨k, none, .fade⟩ else s
  | .advisory =>
    let s := if back then s.setLine f n { l with fade := .normal } else s
    if start ∧ l.retryFrom.isNone then s.trigger f ⟨k, none, .fade⟩ else s
  | .noSpare => if back then s.setLine f n { l with fade := .normal, aborts := 0 } else s
  | _ => s

/-- Keeps laser_low of a comb line on the four engines of its input (R63). -/
def State.laserLow (s : State) (f n : Nat) : State :=
  let es := (List.range 4).map (4 * (f / 4) + ·)
  let low := es.all fun e => (s.line e n).combLow
  es.foldl (fun s e =>
    let l := s.line e n
    if l.laserLow = low then s
    else
      let s := s.setLine e n { l with laserLow := low }
      if low then s.raise (Reg.OPT_INT_STATUS.laser_low e) else s) s

/-- One power sample of a line (R73 to R76). -/
def State.powerSample (s : State) (f n : Nat) (r : PowerReading) : State :=
  let l := s.line f n
  let none? := (s.p0Of f n 0).isNone || (s.p0Of f n 1).isNone
  let s := s.setLine f n { l with
    tx := r.tx, rx := r.rx, combLow := r.combLow
    p0 := if none? then some (r.avg10Tx, r.avg10Rx) else l.p0
    provisional := l.provisional || none? }
  let pTx := (s.p0Of f n 0).getD 0
  let pRx := (s.p0Of f n 1).getD 0
  let s := s.setLine f n { s.line f n with avgTx := r.avg10Tx - pTx, avgRx := r.avg10Rx - pRx }
  let s := if r.margin < 350 ∧ l.duty.isSome ∧ !l.marginLow then
      (s.setLine f n { s.line f n with marginLow := true }).raise (Reg.OPT_INT_STATUS.margin_low f)
    else s
  let s := s.laserLow f n
  match l.duty with
  | some k => if s.bit (Reg.OPT_CTL.fade_en f) then s.fadeRules f n k r pTx pRx else s
  | none => s

def execLinePowerSample (f n : BitVec 5) (r : PowerReading) (s : State) : Outcome :=
  if n.toNat < 18 ∧ (s.engine f.toNat).calState = 2 then .next (s.powerSample f.toNat n.toNat r).refreshTransit else .next s

/-! ### Cut-overs (R77 to R83) -/

def execLaneMoveReq (p : Port) (f : Frame) (s : State) : Outcome :=
  .next (s.linkCtlIn p f opLaneMoveReq fun s =>
    if f.laneDuty = dutyOf p then s.trigger (engineOf p) ⟨dutyOf p, none, .leaf⟩ else s)

/-- A port is a source or a destination at a time (R90). -/
def State.slotAt (s : State) (p : Port) (t : Nat) : Bool :=
  let b := s.calAt t
  let k := dutyOf p
  s.calRuns t && b.on &&
    (s.entryCircuits ((SMap.get b.ent (b.entryAt t)).getD 0) k.toNat).any fun c =>
      (c.1 = engineOf p || c.2 = engineOf p) && !(s.suspAt k t).getLsbD c.1 && !(s.suspAt k t).getLsbD c.2

/-- Port p is in no transit slot throughout [t, t + n). -/
def State.electricalFor (s : State) (p : Port) (t n : Nat) : Bool :=
  !s.slotAt p t && (s.edgesIn p t (t + n)).all fun x => !s.slotAt p x

/-- t_switch of R79: the first FT from start + 24,000,000 on with 32,000 FT of electrical time. Were the port never free
for so long it is start + 24,000,000 (log 32). -/
def State.switchTime (s : State) (p : Port) : Nat :=
  let t0 := s.ft + 24000000
  let cands := t0 :: (boundariesIn s.calActive (2 * s.calActive.len + 64) t0 (t0 + 2 * s.calActive.cycle + 64) ++
    boundariesIn s.pendingCal (2 * s.pendingCal.len + 64) t0 (t0 + 2 * s.pendingCal.cycle + 64))
  let ok := cands.filter fun t => s.electricalFor p t 32000
  match ok with
  | [] => t0
  | t :: ts => ts.foldl min t

/-- A trigger that no spare or line serves (R78, R83). -/
def State.noTarget (s : State) (f source : Nat) (t : MoveTrigger) : State :=
  match t.cause with
  | .fade =>
    (s.setLine f source { s.line f source with fade := .noSpare }).raise (Reg.OPT_INT_STATUS.no_spare f)
  | .manual => s.setFld (Reg.OPT_LANE_MOVE.result f) 3
  | .albedo => s.actionAborted 0 (18 * f + source)
  | _ => s

/-- The line a trigger moves its duty to, if it is ready. -/
def State.targetOf (s : State) (f : Nat) (t : MoveTrigger) : Option Nat :=
  match t.target with
  | none => s.spareLine f
  | some n =>
    let l := s.line f n
    if n < 16 then (if l.duty.isNone && l.locked && !l.marginLow then some n else none)
    else match t.cause with
      | .standin => if l.duty.isNone && l.usable && l.locked && l.fade != .failed then some n else none
      | _ => if s.spareReady f n then some n else none

/-- Begins a cut-over (R77, R79): LANE_MOVE, and the port's transit line moves with t_switch (R80). -/
def State.beginCutover (s : State) (f source target : Nat) (t : MoveTrigger) : State :=
  let p := portOf f t.duty
  let ts := s.switchTime p
  let s := s.setEngine f { s.engine f with
    cutover := some { duty := t.duty, source := source, target := target, cause := t.cause, start := s.ft, tSwitch := ts } }
  let s := s.setLine f source { s.line f source with fade := .cutover }
  let s := s.raise (Reg.OPT_INT_STATUS.cutover_start f)
  let s := s.sendVc0 p (s.linkCtl opLaneMove (BitVec.ofNat 32 (t.duty.toNat + source * 2 ^ 4 + target * 2 ^ 9))
    (BitVec.ofNat 32 ts) (BitVec.ofNat 32 (ts / 2 ^ 32)) 0)
  if (s.link p).state = .down then s.abortCutover f 3 else (s.setTransitLine p target).refreshTransit (some ts)

def execCutoverStart (f : BitVec 5) (s : State) : Outcome :=
  let f := f.toNat
  let en := s.engine f
  match en.cutover, en.waiting with
  | none, t :: ts =>
    let s := s.setEngine f { en with waiting := ts }
    match s.carrier (portOf f t.duty) with
    | none => .next s
    | some c =>
      match s.targetOf f t with
      | some n => if n = c then .next s else .next (s.beginCutover f c n t)
      | none => .next (s.noTarget f c t)
  | _, _ => .next s

/-- The cut-over of a port's duty, as a lane message names it. -/
def State.cutoverFor (s : State) (p : Port) (f : Frame) : Option CutOver :=
  match (s.engine (engineOf p)).cutover with
  | some c => if c.duty = dutyOf p ∧ f.laneDuty = c.duty then some c else none
  | none => none

/-- Changes the cut-over of an engine. -/
def State.setCutover (s : State) (f : Nat) (c : CutOver) : State := s.setEngine f { s.engine f with cutover := some c }

def execLaneAck (p : Port) (f : Frame) (s : State) : Outcome :=
  .next (s.linkCtlIn p f opLaneAck fun s =>
    match s.cutoverFor p f with
    | some c => if f.laneTo = c.target then s.setCutover (engineOf p) { c with acked := true } else s
    | none => s)

def execLaneReady (p : Port) (f : Frame) (s : State) : Outcome :=
  .next (s.linkCtlIn p f opLaneReady fun s =>
    match s.cutoverFor p f with
    | some c => if f.laneTo = c.target then s.setCutover (engineOf p) { c with leafReady := true } else s
    | none => s)

def execSpareReceiverAligned (f : BitVec 5) (s : State) : Outcome :=
  match (s.engine f.toNat).cutover with
  | none => .next s
  | some c =>
    if c.ownReady then .next s
    else
      let p := portOf f.toNat c.duty
      .next ((s.setCutover f.toNat { c with ownReady := true }).sendVc0 p
        (s.linkCtl opLaneReady (BitVec.ofNat 32 (c.duty.toNat + c.target * 2 ^ 9)) 0 0 0))

def execLaneReadyDeadline (f : BitVec 5) (s : State) : Outcome :=
  match (s.engine f.toNat).cutover with
  | none => .next s
  | some c =>
    if !c.marked ∧ !(c.leafReady ∧ c.ownReady) ∧ c.tSwitch ≤ s.ft + 1600000 then .next (s.abortCutover f.toNat 1)
    else .next s

/-- t_switch passes (R77, R79): LANE_MARK goes out on both lines and the port is carried by the new line. -/
def execTSwitch (f : BitVec 5) (cwCount : BitVec 10) (s : State) : Outcome :=
  let e := f.toNat
  match (s.engine e).cutover with
  | none => .next s
  | some c =>
    if c.marked ∨ !c.leafReady ∨ !c.ownReady ∨ s.ft < c.tSwitch then .next s
    else
      let p := portOf e c.duty
      let s := s.sendVc0 p (s.linkCtl opLaneMark (BitVec.ofNat 32 (c.duty.toNat + cwCount.toNat * 2 ^ 16)) 0 0 0)
      let s := s.setLine e c.source { s.line e c.source with duty := none }
      let s := s.setLine e c.target { s.line e c.target with duty := some c.duty, fade := .normal }
      .next (s.setCutover e { c with marked := true }).refreshTransit

def execLaneMark (p : Port) (f : Frame) (s : State) : Outcome :=
  .next (s.linkCtlIn p f opLaneMark fun s =>
    match s.cutoverFor p f with
    | some c => s.setCutover (engineOf p) { c with markRx := true }
    | none => s)

/-- A spare plane stands in no longer once no engine carries its duty there (R101). -/
def State.endStandin (s : State) (m : Nat) : State :=
  match (s.plane m).standinFor with
  | some k =>
    if (List.range 32).any fun f => (s.line f m).duty == some k then s
    else s.setPlane m { s.plane m with standinFor := none }
  | none => s

/-- The old line is released 100 us after t_switch and the cut-over is complete (R77, Timeline 3-1). A spare that a
restore frees is ready again (R83). -/
def execOldLineRelease (f : BitVec 5) (s : State) : Outcome :=
  let e := f.toNat
  match (s.engine e).cutover with
  | none => .next s
  | some c =>
    if !c.marked ∨ s.ft < c.tSwitch + 1600000 then .next s
    else
      let s := s.setEngine e { s.engine e with cutover := none }
      let s := s.setLine e c.source { s.line e c.source with
        fade := if 16 ≤ c.source ∧ c.target < 16 then .idle else .moved, aborts := 0, retryFrom := none }
      let s := (s.raise (Reg.OPT_INT_STATUS.cutover_done e)).endStandin c.source
      match c.cause with
      | .manual => .next (s.setFld (Reg.OPT_LANE_MOVE.result e) 2)
      | .albedo =>
        .next ((s.setLine e c.source { s.line e c.source with fade := .failed }).actionDone 0 (18 * e + c.source))
      | _ => .next (s.retryGroup e)

def execLaneAbort (p : Port) (f : Frame) (s : State) : Outcome :=
  .next (s.linkCtlIn p f opLaneAbort fun s =>
    match s.cutoverFor p f with
    | some c => if c.marked then s else s.abortCutover (engineOf p) 5
    | none => s)

def execCutoverRetry (f n : BitVec 5) (fadeHolds : Bool) (s : State) : Outcome :=
  let l := s.line f.toNat n.toNat
  match l.retryFrom, l.duty with
  | some t, some k =>
    if s.ft < t + 16000000000 then .next s
    else
      let s := s.setLine f.toNat n.toNat { l with retryFrom := none }
      if fadeHolds ∧ l.fade ≠ .noSpare then .next (s.trigger f.toNat ⟨k, none, .fade⟩) else .next s
  | _, _ => .next s

/-- A write to OPT_LANE_MOVE (R83, Table 3-12): with go, a move to the named spare, or with restore back to line k. -/
def State.writeLaneMove (s : State) (f : Nat) (v : W32) : State :=
  let s := s.storeFields (Reg.OPT_LANE_MOVE.addr f) v
  if !v.getLsbD 6 then s
  else
    let k := BitVec.ofNat 4 v.toNat
    let n := if v.getLsbD 5 then k.toNat else if v.getLsbD 4 then 17 else 16
    let t : MoveTrigger := ⟨k, some n, .manual⟩
    match s.carrier (portOf f k), s.targetOf f t with
    | some _, some _ =>
      if s.moving f k then s.setFld (Reg.OPT_LANE_MOVE.result f) 3
      else (s.trigger f t).setFld (Reg.OPT_LANE_MOVE.result f) 1
    | _, _ => s.setFld (Reg.OPT_LANE_MOVE.result f) 3

def execOptLaneMoveGo (f : BitVec 5) (value : W32) (s : State) : Outcome :=
  if value.getLsbD 6 ∧ !value.getLsbD 5 then
    .next (s.regWrite (Reg.OPT_LANE_MOVE.addr f.toNat) value fun s => s.writeLaneMove f.toNat value)
  else .next s

def execOptLaneRestore (f : BitVec 5) (value : W32) (s : State) : Outcome :=
  if value.getLsbD 6 ∧ value.getLsbD 5 then
    .next (s.regWrite (Reg.OPT_LANE_MOVE.addr f.toNat) value fun s => s.writeLaneMove f.toNat value)
  else .next s

/-! ### Calibration (R84, R85, R105) -/

/-- Latch f is released (R105): a snap-and-release cycle is complete (R102). -/
def State.releaseLatch (s : State) (f : Nat) : State :=
  if s.latched f then
    (s.setFld ⟨Reg.TRN_UMBRA_STAT.addr, f, 1⟩ 0).count (Reg.TRN_LATCH_CYCLES.value f)
  else s

/-- The matrix the folio holds for an engine (Table 15-3). -/
def State.folioMatrix (s : State) (f : Nat) : Bool :=
  [SMap.read [] s.cfg.sections 24, SMap.read [] s.cfg.sections 25].any fun bs =>
    (recordsOf 2596 bs).any fun r => numAt r 0 4 = f

/-- What a line is after calibration. -/
def calLine (r : CalResult) (n : Nat) : Line :=
  let ok := r.laserOk && r.locked.getLsbD n && r.locked.getLsbD (n + 18)
  let inside := r.inWindow.getLsbD n && r.inWindow.getLsbD (n + 18)
  { duty := if ok ∧ n < 16 then some (BitVec.ofNat 4 n) else none
    fade := if !ok then .failed else if n < 16 then .normal else .idle
    usable := ok, locked := ok, combLow := r.combLow.getLsbD n
    marginLow := ok && (!inside || r.lowMargin.getLsbD n) }

/-- Active lines that did not lock: their duties go to spares (R85), or their ports stay down. -/
def State.placeDuties (s : State) (f : Nat) : State :=
  (List.range 16).foldl (fun s n =>
    if (s.line f n).usable then s
    else
      match s.spareLine f with
      | some m => s.setLine f m { s.line f m with duty := some (BitVec.ofNat 4 n), fade := .normal }
      | none => s.raise (Reg.OPT_INT_STATUS.cal_fail f)) s

/-- Some port of an engine has a line. -/
def State.anyDuty (s : State) (f : Nat) : Bool := (List.range 18).any fun n => (s.line f n).duty.isSome

/-- Calibration of an engine ends: its lines, duties and matrix, and its ports are offered to training. -/
def State.calDone (s : State) (f : Nat) (r : CalResult) : State :=
  let s := (List.range 36).foldl (fun s h =>
    let ok := r.locked.getLsbD h
    s.setHeater f h { s.heater f h with locked := ok, inRun := if ok then 100 else 0, outRun := 0 }) s
  let s := (List.range 18).foldl (fun s n =>
    s.setLine f n (match (s.elemAt 0 (18 * f + n)).state with
      | .expelled => { calLine r n with duty := none, usable := false, fade := .failed }
      | .excluded => { calLine r n with duty := none, usable := false, fade := .failed }
      | _ => calLine r n)) s
  let s := if (List.range 18).any fun n => (s.line f n).marginLow then s.raise (Reg.OPT_INT_STATUS.margin_low f) else s
  let s := (List.range 18).foldl (fun s n => s.laserLow f n) s
  let s := s.placeDuties f
  let s := if s.folioMatrix f then s
    else ((r.matrix.filter fun e => e.1 < 1296 && e.1 / 36 ≠ e.1 % 36).foldl (fun s e => s.setXt f e.1 e.2) s).setFld
      (Reg.OPT_XT_CTL.identified f) 1
  let ready := s.anyDuty f
  let s := s.setEngine f { s.engine f with calState := if ready then 2 else 3, laserOk := r.laserOk, identified := !s.folioMatrix f }
  let s := if ready ∧ s.mayRelease ∧ (!s.bit Reg.TRN_UMBRA_CTL.hold_at_start ∨ s.trn.releasePending) then
      { s.releaseLatch f with trn.dark := false }
    else s
  (s.refreshTransit).retryGroup f

def execCalibrationDone (f : BitVec 5) (r : CalResult) (s : State) : Outcome :=
  if (s.engine f.toNat).calState = 1 then .next (s.calDone f.toNat r) else .next s

/-- A line that a repeated search locks (R84): usable again, and its duty returns where no line carries it. -/
def State.recalLine (s : State) (f n : Nat) : State :=
  let l := s.line f n
  if l.usable ∨ !((s.heater f n).locked && (s.heater f (n + 18)).locked) then s
  else
    let free := decide (n < 16) && (s.carrier (portOf f (BitVec.ofNat 4 n))).isNone
    s.setLine f n { l with
      usable := true, locked := !l.laserLow
      duty := if free then some (BitVec.ofNat 4 n) else none
      fade := if free then .normal else if n < 16 then .moved else .idle }

/-- A write to OPT_CTL (Table 3-6), with the rings that a repeated search locks. -/
def State.writeOptCtl (s : State) (f : Nat) (v : W32) (locks : BitVec 36) : State :=
  let s := s.storeFields (Reg.OPT_CTL.addr f) v
  if !v.getLsbD 8 ∨ (s.engine f).calState < 2 then s
  else
    let s := (List.range 36).foldl (fun s h =>
      if locks.getLsbD h && !(s.heater f h).locked then
        s.setHeater f h { s.heater f h with locked := true, inRun := 100, outRun := 0 }
      else s) s
    let s := (List.range 18).foldl (fun s n => s.recalLine f n) s
    let s := if s.anyDuty f then s.setEngine f { s.engine f with calState := 2 } else s
    s.refreshTransit

def execOptRecal (f : BitVec 5) (value : W32) (locks : BitVec 36) (s : State) : Outcome :=
  if value.getLsbD 8 then
    .next (s.regWrite (Reg.OPT_CTL.addr f.toNat) value fun s => s.writeOptCtl f.toNat value locks)
  else .next s

end Sys2Proof.Machine
end

