-- ==== Sys2Proof/Machine/Forward.lean ====
section
/-!
DEFINITION. The meanings of the commands of chapter 6.
-/

namespace Sys2Proof.Machine

/-! ### The catalogue -/

def opAnnounce : BitVec 8 := 0x30

/-- The rule of an ANNOUNCE for this spine (R135, R136). -/
def State.takeAnnounce (s : State) (p : Port) (f : Frame) : State :=
  if !s.bit Reg.FWD_CTL.learn_en then s
  else if numAt f.payload 0 4 % 2 ^ 17 ≠ f.snode.toNat ∨ numAt f.payload 8 2 % 512 ≠ s.leafOn p then
    (s.count Reg.FWD_CNT_ANN_REJECT.value).raise Reg.FWD_INT_STATUS.ann_reject
  else
    (s.count Reg.FWD_CNT_ANN_ACCEPT.value).announceNode f.snode.toNat (BitVec.ofNat 16 (numAt f.payload 4 2)) p
      (decide (numAt f.payload 6 1 % 2 = 1)) (numAt f.payload 10 1)

def execAnnounce (p : Port) (f : Frame) (s : State) : Outcome :=
  if f.ftype = ftMgmt ∧ f.opcode = opAnnounce ∧ f.dclass then
    .next (s.routed p f (BitVec.ofInt 80 s.ft16) (fun s k => (s.freeBuf k).takeAnnounce p f) fun s k => s.freeBuf k)
  else .next s

def execCatalogueSweep (s : State) : Outcome :=
  if s.bit Reg.FWD_CTL.age_en then
    let kept := s.fwd.catalogue.filterMap fun e => (sweepEntry e.2).map fun x => (e.1, x)
    .next (({ s with fwd.catalogue := kept }).count Reg.FWD_CNT_AGED.value (s.fwd.catalogue.length - kept.length))
  else .next s

/-- A write to FWD_CAT_REHASH: go starts a rehash, unless one is in progress (R140). -/
def State.writeRehash (s : State) (v : W32) : State :=
  if v.getLsbD 0 ∧ s.fwd.rehash.isNone then
    { s with fwd.rehash := some (BitVec.ofNat 17 (s.fld Reg.FWD_CAT_SEED.seed)) }
  else s

def execCatRehashGo (value : W32) (s : State) : Outcome :=
  if value.getLsbD 0 then .next (s.regWrite Reg.FWD_CAT_REHASH.addr value fun s => s.writeRehash value) else .next s

/-- The end of a rehash (R140). -/
def execCatRehashDone (s : State) : Outcome :=
  match s.fwd.rehash with
  | none => .next s
  | some seed =>
    let c := rebuild seed.toNat [] s.fwd.catalogue
    let left := overflowCount c
    let s := { s with fwd.rehash := none }
    if 1024 < left ∨ 32768 < s.trieCount + left then
      .next ((s.setFld Reg.FWD_CAT_REHASH.result 3).raise Reg.FWD_INT_STATUS.rehash_done)
    else
      let s := ({ s with fwd.catalogue := c, fwd.ovfRaised := false }).setFld Reg.FWD_CAT_ACTIVE_SEED.seed seed.toNat
      let s := (s.setFld Reg.FWD_CAT_REHASH.result (if left = 0 then 1 else 2)).setFld
        Reg.FWD_CAT_REHASH.left_in_overflow left
      .next (s.raise Reg.FWD_INT_STATUS.rehash_done)

/-- The operations of FWD_CAT_CMD on a node (R141), with the status they leave: 1 done, 2 no entry, 3 refused. -/
def State.catQuery (s : State) (n : Nat) : State × Nat :=
  match s.fwd.catalogue.get n with
  | none => (s.setReg Reg.FWD_CAT_RESULT.addr 0, 2)
  | some e =>
    let b (x : Bool) : Nat := if x then 1 else 0
    (s.setReg Reg.FWD_CAT_RESULT.addr (BitVec.ofNat 32 (e.port.toNat + 2 ^ 9 + b e.frozen * 2 ^ 10 + b e.hit * 2 ^ 11 +
      b e.miss * 2 ^ 12 + b e.overflow * 2 ^ 13 + e.incarnation.toNat * 2 ^ 16)), 1)

def State.catInstall (s : State) (n : Nat) : State × Nat :=
  let p := BitVec.ofNat 9 (s.fld Reg.FWD_CAT_ARG.port)
  let inc := BitVec.ofNat 16 (s.fld Reg.FWD_CAT_ARG.incarnation)
  match s.fwd.catalogue.get n with
  | some e => (s.putEntry n { e with port := p, incarnation := inc, frozen := false, hit := true }, 1)
  | none =>
    match s.catInsert n { port := p, incarnation := inc, hit := true } with
    | (s, true) => (s, 1)
    | (s, false) => (s, 3)

def State.catRemove (s : State) (n : Nat) : State × Nat :=
  match s.fwd.catalogue.get n with
  | none => (s, 2)
  | some _ => ({ s with fwd.catalogue := s.fwd.catalogue.del n }, 1)

def State.catUnfreeze (s : State) (n : Nat) : State × Nat :=
  match s.fwd.catalogue.get n with
  | none => (s, 2)
  | some e => (s.putEntry n { e with frozen := false }, 1)

/-- A write to FWD_CAT_CMD with go (Table 6-14): the fields, the operation, and its status. -/
def State.writeCatCmd (s : State) (v : W32) (op : State → Nat → State × Nat) : State :=
  let s := s.storeFields Reg.FWD_CAT_CMD.addr v
  let (s, st) := op s (v.toNat % 2 ^ 17)
  s.setFld Reg.FWD_CAT_CMD.status st

/-- The op a word of FWD_CAT_CMD names, where its go bit is set. -/
def catOp (v : W32) : Option Nat := if v.getLsbD 19 then some (v.toNat / 2 ^ 17 % 4) else none

def execCatQuery (value : W32) (s : State) : Outcome :=
  if catOp value = some 0 then
    .next (s.regWrite Reg.FWD_CAT_CMD.addr value fun s => s.writeCatCmd value State.catQuery)
  else .next s

def execCatInstall (value : W32) (s : State) : Outcome :=
  if catOp value = some 1 then
    .next (s.regWrite Reg.FWD_CAT_CMD.addr value fun s => s.writeCatCmd value State.catInstall)
  else .next s

def execCatRemove (value : W32) (s : State) : Outcome :=
  if catOp value = some 2 then
    .next (s.regWrite Reg.FWD_CAT_CMD.addr value fun s => s.writeCatCmd value State.catRemove)
  else .next s

def execCatUnfreeze (value : W32) (s : State) : Outcome :=
  if catOp value = some 3 then
    .next (s.regWrite Reg.FWD_CAT_CMD.addr value fun s => s.writeCatCmd value State.catUnfreeze)
  else .next s

/-! ### The index and the trees -/

/-- FWD_IDX_QUERY_CTL with go: resolves the address for a partition (R144, R145). -/
def State.idxQuery (s : State) (v : W32) : State :=
  let s := (s.storeFields Reg.FWD_IDX_QUERY_CTL.addr v).setFld Reg.FWD_IDX_QUERY_CTL.done 1
  let a := BitVec.ofNat 64 (s.pair Reg.FWD_IDX_QUERY_LO.value)
  match s.idxLookup a (BitVec.ofNat 12 v.toNat) with
  | none => (s.setReg Reg.FWD_IDX_QUERY_RESULT.addr 0).setPair Reg.FWD_IDX_QUERY_OUT_LO.value 0
  | some e =>
    let out := if e.kind = kindNode then (e.coord a).toNat else if e.kind = kindSelf then e.offset a else e.tree.toNat
    (s.setReg Reg.FWD_IDX_QUERY_RESULT.addr (BitVec.ofNat 32 (e.len.toNat + e.kind.toNat * 2 ^ 7 + 2 ^ 9 +
      (if e.inTrie then 2 ^ 10 else 0)))).setPair Reg.FWD_IDX_QUERY_OUT_LO.value out

def execIdxQueryGo (value : W32) (s : State) : Outcome :=
  if value.getLsbD 12 then .next (s.regWrite Reg.FWD_IDX_QUERY_CTL.addr value fun s => s.idxQuery value) else .next s

/-- A refused tree commit. -/
def State.mcRefuse (s : State) (r : Nat) : State :=
  (s.setFld Reg.FWD_MC_COMMIT.result r).raise Reg.FWD_INT_STATUS.mc_refused

/-- FWD_MC_COMMIT with commit (R147). -/
def State.commitTree (s : State) (v : W32) : State :=
  let s := s.storeFields Reg.FWD_MC_COMMIT.addr v
  let t := v.toNat % 2 ^ 16
  let w (i : Nat) : W32 := s.reg (Reg.FWD_MC_STAGE.addr i)
  if t = 0xFFFF then s.mcRefuse 2
  else if (w 0).getLsbD 1 || (s.tree t).bound then s.mcRefuse 3
  else ((s.setTree t (treeOf w)).reconfigured s).setFld Reg.FWD_MC_COMMIT.result 1

/-- FWD_MC_COMMIT with load: the tree's words are copied to the stage. -/
def State.loadTree (s : State) (v : W32) : State :=
  let s := s.storeFields Reg.FWD_MC_COMMIT.addr v
  let t := v.toNat % 2 ^ 16
  if t = 0xFFFF then s.setFld Reg.FWD_MC_COMMIT.result 2
  else
    let x := s.tree t
    let s := (List.range 84).foldl (fun s i => s.setReg (Reg.FWD_MC_STAGE.addr i) (x.word i)) s
    s.setFld Reg.FWD_MC_COMMIT.result 1

def execMcCommit (value : W32) (s : State) : Outcome :=
  if value.getLsbD 16 then .next (s.regWrite Reg.FWD_MC_COMMIT.addr value fun s => s.commitTree value) else .next s

def execMcLoad (value : W32) (s : State) : Outcome :=
  if value.getLsbD 17 ∧ !value.getLsbD 16 then
    .next (s.regWrite Reg.FWD_MC_COMMIT.addr value fun s => s.loadTree value)
  else .next s

/-! ### Frames routed by coordinates -/

def execBulk (p : Port) (f : Frame) (tIn : Stamp) (s : State) : Outcome :=
  if f.ftype = ftBulk then
    .next (s.routed p f tIn (fun s k => (s.freeBuf k).dirDrop) fun s k =>
      s.meterIn { port := p, frame := f, stamp := tIn, buf := k } fun s h => s.forwardBuf h.buf h.port h.frame)
  else .next s

/-- The VC7 policer (R190): a frame that conforms goes on, another is dropped. -/
def State.police (s : State) (p : Port) (f : Frame) (k : Nat) : State :=
  let c := 256 * f.cells
  let t := s.vc7Tokens p.toNat
  if !s.bit Reg.SCH_CTL.vc7_police_en then s.forwardBuf k p f
  else if c ≤ t then ({ s with sch.vc7Tok := s.sch.vc7Tok.put p.toNat (t - c) }).forwardBuf k p f
  else (s.freeBuf k).count (Reg.SCH_CNT_VC7_DROP.value p.toNat)

def execBestEffort (p : Port) (f : Frame) (tIn : Stamp) (s : State) : Outcome :=
  if f.ftype = ftBestEffort then
    .next (s.routed p f tIn (fun s k => (s.freeBuf k).dirDrop) fun s k => s.police p f k)
  else .next s

def execMgmtForward (p : Port) (f : Frame) (tIn : Stamp) (s : State) : Outcome :=
  if f.ftype = ftMgmt ∧ !f.dclass then
    .next (s.routed p f tIn (fun s k => s.freeBuf k) fun s k => s.forwardBuf k p f)
  else .next s

def execResultFromLeaf (p : Port) (f : Frame) (s : State) : Outcome :=
  if f.ftype = ftResult ∨ f.ftype = ftMcast then
    .next (s.routed p f (BitVec.ofInt 80 s.ft16) (fun s k => (s.freeBuf k).dirDrop) fun s k => (s.freeBuf k).dirDrop)
  else .next s

end Sys2Proof.Machine
end

