-- ==== Sys2Proof/Machine/Lattice.lean ====
section
/-!
DEFINITION. Lattice parity (R161): 256-bit words with a row and a column parity.
-/

namespace Sys2Proof.Machine

/-- The parity of a number's low n bits. -/
def parityOf (n v : Nat) : Bool := ((List.range n).filter fun i => v / 2 ^ i % 2 = 1).length % 2 = 1

/-- Row r, and column j, of a word as 16 bits. -/
def latticeRow (w : BitVec 256) (r : Nat) : Nat := w.toNat / 2 ^ (16 * r) % 2 ^ 16
def latticeCol (w : BitVec 256) (j : Nat) : Nat :=
  (List.range 16).foldl (fun v r => v + (if w.getLsbD (16 * r + j) then 2 ^ r else 0)) 0

/-- The rows and the columns whose stored parity differs. -/
def rowSyndrome (w : BitVec 256) (rp : BitVec 16) : List Nat :=
  (List.range 16).filter fun r => parityOf 16 (latticeRow w r) != rp.getLsbD r
def colSyndrome (w : BitVec 256) (cp : BitVec 16) : List Nat :=
  (List.range 16).filter fun j => parityOf 16 (latticeCol w j) != cp.getLsbD j

/-- The outcomes of a check. -/
inductive LatticeOutcome where
  | ok | corrected | uncorrectable
  deriving DecidableEq, Repr

/-- lattice_check of R161. -/
def latticeCheck (w : BitVec 256) (rp cp : BitVec 16) : BitVec 256 × LatticeOutcome :=
  match rowSyndrome w rp, colSyndrome w cp with
  | [], [] => (w, .ok)
  | [r], [c] => (w ^^^ ((1 : BitVec 256) <<< (16 * r + c)), .corrected)
  | [_], [] => (w, .corrected)
  | [], [_] => (w, .corrected)
  | _, _ => (w, .uncorrectable)

end Sys2Proof.Machine
end

