-- ==== Sys2Proof/Machine/Switch.lean ====
section
/-!
DEFINITION. The meanings of the commands of chapter 7: cells at egress ports, credit withholding, the auditor, spill,
mirror rings and waiting originated frames.
-/

namespace Sys2Proof.Machine

/-! ### Cells -/

/-- The destination of a buffer at a port. -/
def State.destOf (s : State) (k : Nat) (p : Port) : Option (Buf × Dest) :=
  match s.bufs.get k with
  | none => none
  | some b => (b.dests.find? fun d => d.port == p).map fun d => (b, d)

/-- Changes the destination of a buffer at a port. -/
def State.setDest (s : State) (k : Nat) (p : Port) (x : Dest) : State :=
  match s.bufs.get k with
  | none => s
  | some b => { s with bufs := s.bufs.put k { b with dests := b.dests.map fun d => if d.port == p then x else d } }

/-- A frame begun cut-through whose last cell arrives is verified there (R163). -/
def State.settleDest (s : State) (k : Nat) (p : Port) : State :=
  match s.destOf k p with
  | none => s
  | some (b, d) => if d.begun && decide (b.cells ≤ d.got.length) then s.dropDest k p else s

/-- A good cell arrives at an egress port (R158, R163). -/
def State.goodCell (s : State) (k : Nat) (p : Port) (i : Nat) : State :=
  match s.destOf k p with
  | none => s
  | some (b, d) =>
    if b.cells ≤ i ∨ d.got.contains i then s
    else
      let s := s.setDest k p { d with got := d.got ++ [i] }
      (s.takeCells (flowSrc k b) p d.frame.vc [d.rseq + BitVec.ofNat 24 i]).settleDest k p

/-- A cell is pulled again, while its limit allows (R159). -/
def State.pullAgain (s : State) (k : Nat) (p : Port) (i : Nat) : State :=
  match s.destOf k p with
  | none => s
  | some (b, d) =>
    let n := d.retries.read 0 i
    if b.cells ≤ i ∨ d.got.contains i ∨ s.fld Reg.CORE_RESEQ_CFG.cell_retry_limit ≤ n then s
    else
      let s := s.setDest k p { d with retries := d.retries.write 0 i (n + 1) }
      (s.count (Reg.CORE_CNT_REPULL.value (dieOf p))).pmuEvent 0x08 0x03 (dieOf p)

/-- A rejected free (R170, R171): counted, recorded and raised; causes 0 DOUBLE, 1 NOT_OWNER, 2 AFTER_RECLAIM. -/
def State.rejectFree (s : State) (k cause : Nat) : State :=
  let d := bufDie k
  let s := if cause = 1 then s.count (Reg.CORE_CNT_OWNER_REJECT.value d) else s.count (Reg.CORE_CNT_DOUBLE_FREE.value d)
  let s := (s.setFld (Reg.CORE_FREE_ERR.buffer d) (bufIndex k)).setFld (Reg.CORE_FREE_ERR.pool d) (bufPool k)
  let s := (s.setFld (Reg.CORE_FREE_ERR.cause d) cause).setFld (Reg.CORE_FREE_ERR.unit d) 0
  (s.log 0x08 .bufferFree d [bufPool k, bufIndex k, 0, cause]).raise Reg.CORE_INT_STATUS.double_free

/-- An SRAM word read on a cell's way (R161, R162, Table 7-2): corrected words are counted; an uncorrectable one has the
outcome of its memory. -/
def State.sramCell (s : State) (k : Nat) (p : Port) (i : Nat) (m : SramMem) (w : BitVec 256) (rp cp : BitVec 16) : State :=
  let d := match m with
    | .ingressBuffer => bufDie k
    | _ => dieOf p
  match (latticeCheck w rp cp).2 with
  | .ok => s.goodCell k p i
  | .corrected => (s.count (Reg.CORE_CNT_LAT_CORR.value d)).goodCell k p i
  | .uncorrectable =>
    let s := (s.count (Reg.CORE_CNT_LAT_UNCORR.value d)).log 0x08 .latticeWord d
    let s := s.raise Reg.CORE_INT_STATUS.lat_uncorr
    match m with
    | .ingressBuffer => s.loseDest .dataError k p
    | .reseqWindow => s.pullAgain k p i
    | .replayStore => s.loseDest .dataError k p
    | .configTable => s.goodCell k p i
    | .catalogue n => ({ s with fwd.catalogue := s.fwd.catalogue.del n.toNat }).goodCell k p i

/-- A key names a buffer of the pools. -/
def State.bufExists (s : State) (k : Nat) : Bool :=
  decide (bufDie k < 4) && decide (bufPool k < 5) && decide (bufIndex k < s.poolCount (bufDie k) (bufPool k))

/-- A cell reaches an egress port. A destination that the buffer does not have frees what is not its own: a double free
where the buffer is free, else a free by a unit that is no owner (R170, R171; log 29). -/
def execCellArrival (buf : Nat) (port : Port) (cell : BitVec 8) (check : CellCheck) (s : State) : Outcome :=
  match s.bufs.get buf with
  | none =>
    if s.bufExists buf then
      .next (s.rejectFree buf (if (s.core (bufDie buf)).reclaimed.contains buf then 2 else 0))
    else .next s
  | some b =>
    if !b.dests.any fun d => d.port == port then .next (s.rejectFree buf 1)
    else
      match check with
      | .good => .next (s.goodCell buf port cell.toNat)
      | .ccrcFail => .next ((s.count (Reg.CORE_CNT_CCRC_FAIL.value (dieOf port))).pullAgain buf port cell.toNat)
      | .sram m w rp cp => .next (s.sramCell buf port cell.toNat m w rp cp)

/-- A later cell of the flow has arrived, and the missing one is pulled again (R159). -/
def execReseqTimeout (buf : Nat) (port : Port) (cell : BitVec 8) (s : State) : Outcome :=
  match s.destOf buf port with
  | none => .next s
  | some (b, d) =>
    let fl := s.flows.read { } (flowKey (flowSrc buf b) port d.frame.vc)
    if fl.ahead.isEmpty then .next s else .next (s.pullAgain buf port cell.toNat)

/-- The last pull of a cell has failed: the frame is a data error (R159, R163). -/
def execCellRetryExhausted (buf : Nat) (port : Port) (cell : BitVec 8) (s : State) : Outcome :=
  match s.destOf buf port with
  | none => .next s
  | some (b, d) =>
    if cell.toNat < b.cells ∧ !d.got.contains cell.toNat ∧
        s.fld Reg.CORE_RESEQ_CFG.cell_retry_limit ≤ d.retries.read 0 cell.toNat then
      .next (s.loseDest .dataError buf port)
    else .next s

/-- The frame that a port began from a buffer ends stomped: its replay entry is marked, as the newest of its frame. -/
def State.stompBegun (s : State) (p : Port) (f : Frame) : State :=
  let l := s.link p
  match l.replay.reverse.find? fun r => !r.stomped && r.frame.seq == f.seq && r.frame.ftype == f.ftype && r.frame.payload == f.payload with
  | none => s
  | some r =>
    (s.setLink p { l with replay := l.replay.map fun x =>
        if x.frame.lseq == r.frame.lseq then { x with stomped := true } else x }).emit (.stomp p r.frame.lseq)

/-- A cell of a begun frame is missing when the encoder needs it (R160): the frame ends stomped and is sent again as a
new frame. -/
def execEgressUnderrun (buf : Nat) (port : Port) (s : State) : Outcome :=
  match s.destOf buf port with
  | none => .next s
  | some (b, d) =>
    if d.begun ∧ d.got.length < b.cells then
      let s := s.stompBegun port d.frame
      let s := s.setDest buf port { d with begun := false, ready := true }
      let qk := port.toNat * 8 + d.frame.vc.toNat
      let s := { s with queues := s.queues.write [] qk (buf :: s.queues.read [] qk) }
      .next (s.count (Reg.CORE_CNT_UNDERRUN.value (dieOf port)))
    else .next s

/-- The received frame a buffer holds: as its destinations or its hold entry keep it. -/
def State.bufFrame (s : State) (k : Nat) (b : Buf) : Option Frame :=
  match b.dests with
  | d :: _ => some d.frame
  | [] => ((s.holdOf (bufDie k)).find? fun h => h.buf = k).map Hold.frame

/-- The trailer of the frame last received on a port fails after dispatch (R115, R117, R164): begun copies end stomped,
the others are discarded uncounted, the buffer is released, its lseq and credits count as not yet received, and its
retry is asked for. -/
def State.trailerFail (s : State) (p : Port) (k : Nat) (b : Buf) (f : Frame) : State :=
  let s := (b.dests.filter fun d => d.begun).foldl (fun s d => s.stompBegun d.port d.frame) s
  let s := s.setHold (bufDie k) ((s.holdOf (bufDie k)).filter fun h => h.buf ≠ k)
  let l := s.link p
  let v := f.vc.toNat
  let s := if b.dests.isEmpty then s.freeBuf k else b.dests.foldl (fun s d => s.dropDest k d.port) s
  let s := s.setLink p { s.link p with
    rxLseq := f.lseq, ackVal := f.lseq - 1
    arrived := l.arrived.write 0 v (l.arrived.read 0 v - BitVec.ofNat 24 b.cells)
    lim := l.lim, withheldCells := l.withheldCells }
  s.hopErr p 3

def execTrailerFailAfterDispatch (p : Port) (buf : Nat) (s : State) : Outcome :=
  match s.bufs.get buf with
  | none => .next s
  | some b =>
    match s.bufFrame buf b with
    | none => .next s
    | some f =>
      if b.inPort = some p ∧ f.isSequenced ∧ (s.link p).rxLseq = f.lseq + 1 then .next (s.trailerFail p buf b f) else .next s

/-! ### Withholding (R169) -/

/-- The weight of a VC in effect. -/
def State.vcWeight (s : State) (v : Nat) : Nat :=
  match v with
  | 1 => s.schFld Reg.SCH_VC_WEIGHT_A.w1
  | 2 => s.schFld Reg.SCH_VC_WEIGHT_A.w2
  | 3 => s.schFld Reg.SCH_VC_WEIGHT_A.w3
  | 4 => s.schFld Reg.SCH_VC_WEIGHT_A.w4
  | 5 => s.schFld Reg.SCH_VC_WEIGHT_B.w5
  | 6 => s.schFld Reg.SCH_VC_WEIGHT_B.w6
  | _ => s.schFld Reg.SCH_VC_WEIGHT_B.w7

/-- VC2 to VC7 by ascending weight, ties by lower number first. -/
def State.withholdOrder (s : State) : List Nat :=
  ([2, 3, 4, 5, 6, 7].foldl (fun xs v => insertRanked (v, s.vcWeight v) xs) []).map (·.1)

/-- The occupancy of R169. -/
def State.dieOcc (s : State) (d : Nat) : Nat :=
  (List.range 5).foldl (fun m i => max m (s.poolOcc d i)) (s.landingOcc d)

/-- withheld of R169. -/
def State.withheldSet (s : State) (occ : Nat) (prev : List (BitVec 3)) : List (BitVec 3) :=
  let start := s.fld Reg.CORE_WITHHOLD_CFG.wh_start
  let step := s.fld Reg.CORE_WITHHOLD_CFG.wh_step
  let full := s.fld Reg.CORE_WITHHOLD_CFG.wh_full
  let hyst := s.fld Reg.CORE_WITHHOLD_CFG.wh_hyst
  let hit (v t : Nat) : Bool := decide (t ≤ occ) || (prev.contains (BitVec.ofNat 3 v) && decide (t ≤ occ + hyst))
  ([1, 2, 3, 4, 5, 6, 7].filter fun v =>
    if v = 1 then hit 1 full
    else match s.withholdOrder.findIdx? (· = v) with
      | some i => hit v (start + i * step)
      | none => false).map (BitVec.ofNat 3)

/-- Cells freed on a port while a VC was withheld are added to its limit (R169). -/
def State.giveBack (s : State) (p : Port) (v : BitVec 3) : State :=
  let l := s.link p
  let c := l.withheldCells.read 0 v.toNat
  if c = 0 then s
  else s.setLink p { l with
    withheldCells := l.withheldCells.write 0 v.toNat 0
    lim := l.lim.write 0 v.toNat (l.lim.read 0 v.toNat + c) }

def execWithholdEvaluate (die : BitVec 2) (s : State) : Outcome :=
  let d := die.toNat
  let occ := s.dieOcc d
  let c := s.core d
  let new := if s.bit Reg.CORE_CTL.withhold_en then s.withheldSet occ c.withheld else []
  let gone := c.withheld.filter fun v => !new.contains v
  let entered := new.any fun v => !c.withheld.contains v
  let warned := decide (750 ≤ occ)
  let s := s.setCore d { c with withheld := new, warned := warned }
  let s := (allPorts.filter fun p => dieOf p = d).foldl (fun s p => gone.foldl (fun s v => s.giveBack p v) s) s
  let s := if entered then s.raise Reg.CORE_INT_STATUS.withhold else s
  .next (if warned && !c.warned then s.raise Reg.CORE_INT_STATUS.pool_warn else s)

/-! ### The auditor (R172) -/

/-- A buffer is referenced: by a destination, a hold area or a group's held frames. -/
def State.referenced (s : State) (k : Nat) (b : Buf) : Bool :=
  !b.dests.isEmpty || s.sch.hold.any (fun e => e.2.any fun h => h.buf = k) ||
    s.cnj.groups.any fun e => e.2.held.any fun h => h.buf = k

/-- What the auditor does with one finding. -/
def State.auditOne (s : State) (d : Nat) : AuditFinding → State
  | .freeUnlisted pool index =>
    let k := bufKey d pool.toNat index.toNat
    if s.bufExists k ∧ (s.bufs.get k).isNone then
      (s.log 0x08 .bufferRepaired d [pool.toNat, index.toNat, 0]).raise Reg.CORE_INT_STATUS.leak
    else s
  | .allocatedListed pool index =>
    let k := bufKey d pool.toNat index.toNat
    if (s.bufs.get k).isSome then
      (s.log 0x08 .bufferRepaired d [pool.toNat, index.toNat, 1]).raise Reg.CORE_INT_STATUS.leak
    else s
  | .unreferenced pool index =>
    let k := bufKey d pool.toNat index.toNat
    match s.bufs.get k with
    | none => s
    | some b =>
      if s.referenced k b then s
      else
        match b.unref with
        | none => { s with bufs := s.bufs.put k { b with unref := some s.ft } }
        | some t =>
          let s := (s.freeBuf k).count (Reg.CORE_CNT_LEAK.value d)
          let s := s.setCore d { s.core d with reclaimed := (s.core d).reclaimed ++ [k] }
          (s.log 0x08 .bufferReclaimed d [pool.toNat, index.toNat, t, s.ft]).raise Reg.CORE_INT_STATUS.leak

/-- A finding names a buffer as unreferenced. -/
def findingNames (d k : Nat) : AuditFinding → Bool
  | .unreferenced pool index => bufKey d pool.toNat index.toNat = k
  | _ => false

def execBufferAudit (die : BitVec 2) (findings : List AuditFinding) (s : State) : Outcome :=
  if s.bit Reg.CORE_CTL.audit_en then
    let d := die.toNat
    let seen := s.bufs.map fun e =>
      if bufDie e.1 = d && !findings.any (fun x => findingNames d e.1 x) then (e.1, { e.2 with unref := none }) else e
    .next (findings.foldl (fun s x => s.auditOne d x) { s with bufs := seen })
  else .next s

/-! ### Spill and mirrors -/

def execSpillDelayExpiry (buf : Nat) (s : State) : Outcome :=
  match s.bufs.get buf with
  | none => .next s
  | some b =>
    if 0 < b.landed ∧ b.landedAt + s.fld Reg.CORE_SPILL_CFG.spill_delay * 160 ≤ s.ft then .next (s.spillBuf buf)
    else .next s

/-- The spill writes of the running millisecond against spill_warn: 0.1 TB/s over 1 ms are 10^8 bytes (R174). -/
def execSpillRateCheck (die : BitVec 2) (s : State) : Outcome :=
  let c := s.core die.toNat
  let s' := s.setCore die.toNat { c with spillMs := 0 }
  if s.fld Reg.CORE_SPILL_CFG.spill_warn * 100000000 < c.spillMs * 256 then
    .next (s'.raise Reg.CORE_INT_STATUS.spill_heavy)
  else .next s'

/-- A write to CORE_MIR_CTLn (Table 7-14): an enable whose base lies outside the mirror partition is refused. -/
def State.writeMirCtl (s : State) (n : Nat) (v : W32) : State :=
  let s := s.storeFields (Reg.CORE_MIR_CTL.addr n) v
  if !v.getLsbD 0 then s
  else if s.ringFits (s.pair (Reg.CORE_MIR_BASE_LO.value n)) then s.setFld (Reg.CORE_MIR_CTL.refused n) 0
  else
    ((s.setFld (Reg.CORE_MIR_CTL.enable n) 0).setFld (Reg.CORE_MIR_CTL.refused n) 1).raise
      Reg.CORE_INT_STATUS.mirror_refused

def execMirrorEnable (n : BitVec 2) (value : W32) (s : State) : Outcome :=
  if value.getLsbD 0 then
    .next (s.regWrite (Reg.CORE_MIR_CTL.addr n.toNat) value fun s => s.writeMirCtl n.toNat value)
  else .next s

/-! ### Waiting originated frames (R168) -/

/-- Originated frames that wait take buffers in order, each die's first one first. -/
def pumpOrigin : List OriginWait → List OriginWait → State → State
  | kept, [], s => { s with originWait := kept }
  | kept, w :: ws, s =>
    if kept.any fun k => k.die == w.die then pumpOrigin (kept ++ [w]) ws s
    else
      match w.copies with
      | [] => pumpOrigin kept ws s
      | (_, f) :: _ =>
        match s.place w.die.toNat none f.vc 0 f.cells w.owner w.copies with
        | some s => pumpOrigin kept ws s
        | none => pumpOrigin (kept ++ [w]) ws s

def execOriginBufferAvailable (s : State) : Outcome := .next (pumpOrigin [] s.originWait s)

end Sys2Proof.Machine
end

