-- ==== Sys2Proof/Machine/Sched.lean ====
section
/-!
DEFINITION. The meanings of the commands of chapter 8 but for the refill tick: the egress arbiter, gate lists and meter
writes.
-/

namespace Sys2Proof.Machine

/-! ### Sending a frame -/

/-- Sets the correction of a time frame (R39). -/
def withCorrection (f : Frame) (c : Int) : Frame :=
  { f with w4 := BitVec.ofNat 32 (wrap 64 c), w5 := BitVec.ofNat 32 (wrap 64 c / 2 ^ 32) }

/-- The frame of a VC0 entry as it leaves, with its transmit stamp (R39, R42, R47). -/
def fillTx (x : Tx) (tOut : Stamp) : Frame :=
  let t := stamp16 tOut
  match x.fill with
  | .plain => x.frame
  | .sync => { x.frame with payload := leBytes 8 (tOut.toNat / 2 ^ 16) ++ x.frame.payload.drop 8 }
  | .relay tIn corr => withCorrection x.frame (corr + (t - tIn))
  | .pdelayReq => x.frame
  | .pdelayResp tIn => withCorrection x.frame (t - tIn)

/-- Puts a frame on the wire of a port (R114): the acknowledgement, and for a sequenced frame its number and its place in
the replay buffer. -/
def State.transmit (s : State) (p : Port) (f : Frame) (inPort : Option Port) (o : Owner) (die : Nat) : State × Frame :=
  let l := s.link p
  let seqd := f.isSequenced
  let g : Frame := { f with
    sequenced := seqd, lseq := if seqd then l.txLseq else 0, ackLseq := l.ackVal, crValid := false, crVc := 0, crLimit := 0 }
  let l := { l with ackDue := none }
  let l := if seqd then { l with
      txLseq := l.txLseq + 1
      replay := l.replay ++ [{ frame := g, count := 0, inPort := inPort, owner := o, die := die }]
      ackAt := if l.replay.isEmpty then s.ft else l.ackAt } else l
  let s := ((s.setLink p l).emit (.frame p g)).resendLeft p g
  ((s.pmuEvent 0x04 0x02 p.toNat (some f.vc.toNat)).pmuEvent 0x04 0x04 p.toNat (some f.vc.toNat) f.cells, g)

/-- A frame with 4,096 unacknowledged before it must wait unless it is unsequenced (R114). -/
def State.windowOpen (s : State) (p : Port) (f : Frame) : Bool := !f.isSequenced || decide ((s.link p).replay.length < 4096)

/-- VC0 frames that the port's fence stops as they come to be sent are discarded (Table 5-11). -/
def purgeVc0 (p : Port) : Nat → State → State
  | 0, s => s
  | n + 1, s =>
    match (s.link p).vc0 with
    | [] => s
    | x :: xs =>
      if fenceStops (s.fence p) x.frame then
        purgeVc0 p n ((s.setLink p { s.link p with vc0 := xs }).count (Reg.LNK_CNT_FENCE_DROP.value p.toNat))
      else s

/-- The first VC0 frame that may leave: with the window full, the first unsequenced one. -/
def State.vc0Pick (s : State) (p : Port) : Option (Tx × List Tx) :=
  let q := (s.link p).vc0
  match q.findIdx? fun x => s.windowOpen p x.frame with
  | none => none
  | some i => (q[i]?).map fun x => (x, q.eraseIdx i)

/-- Sends a VC0 frame. The stamp of a PDELAY_REQ is its t1. -/
def State.sendTx (s : State) (p : Port) (x : Tx) (rest : List Tx) (tOut : Stamp) : State :=
  let s := s.setLink p { s.link p with vc0 := rest }
  let s := match x.fill with
    | .pdelayReq =>
      let t := s.time p
      match t.req with
      | some (q, none) => s.setTime p { t with req := some (q, some (stamp16 tOut)) }
      | _ => s
    | _ => s
  let (s, g) := s.transmit p (fillTx x tOut) none .plain (dieOf p)
  s.mirror true p g tOut 0 (dieOf p)

/-! ### The arbiter (R178, R179) -/

/-- The queue of a VC of a port. -/
def State.queue (s : State) (p : Port) (v : Nat) : List Nat := s.queues.read [] (p.toNat * 8 + v)

/-- Head frames that the port's fence stops as they come to be sent are discarded (R128, R150). -/
def purgeQueue (p : Port) (v : Nat) : Nat → State → State
  | 0, s => s
  | n + 1, s =>
    match s.queue p v with
    | [] => s
    | k :: _ =>
      match s.destOf k p with
      | some (_, d) => if fenceStops (s.fence p) d.frame then purgeQueue p v n (s.loseDest .fenced k p) else s
      | none => s

/-- The head frame of a VC. -/
def State.headFrame (s : State) (p : Port) (v : Nat) : Option (Nat × Frame) :=
  match s.queue p v with
  | [] => none
  | k :: _ => (s.destOf k p).map fun x => (k, x.2.frame)

/-- A VC from 1 to 7 is eligible (R178). -/
def State.eligibleVc (s : State) (p : Port) (v t : Nat) : Bool :=
  match s.headFrame p v with
  | none => false
  | some (_, f) =>
    let l := s.link p
    s.windowOpen p f && decide (f.cells ≤ creditLeft (l.plim.read 0 v) (l.sent.read 0 v)) && s.gateFits p v f.bytes t

/-- The VC after one, cyclically. -/
def nextVc (v : Nat) : Nat := if v = 7 then 1 else v + 1

/-- The round of R179 from the pointer, with the eligible VCs and costs of the heads: the deficits, the pointer and the VC
chosen. -/
def arbitrate (elig : Nat → Bool) (empty : Nat → Bool) (cost w : Nat → Nat) (q : Nat) :
    Nat → SMap Int → Nat → SMap Int × Nat × Option Nat
  | 0, d, v => (d, v, none)
  | n + 1, d, v =>
    let x := d.read 0 v
    if elig v && decide (0 < x) then (d.write 0 v (x - cost v), v, some v)
    else
      let d := if elig v then d.write 0 v (x + (w v * q : Nat))
        else if !empty v then d.write 0 v (min x (w v * q : Nat))
        else d
      arbitrate elig empty cost w q n d (nextVc v)

/-- Copies whose header a tree flag mirrors (R175): of a STORE_MCAST's tree, or of a group's bound tree. -/
def State.treeMirrors (s : State) (p : Port) (f : Frame) (o : Owner) : Bool :=
  match o with
  | .mcast op =>
    match s.msf.mcasts.get op with
    | some m => m.mirror.getLsbD p.toNat
    | none => false
  | _ =>
    f.ftype == ftResult && ((s.tree (s.group f.group.toNat).tree.toNat).flagged 1).getLsbD p.toNat

/-- Begins the head frame of a VC: its credits are spent, its cells that have come are taken, and a frame whose cells are
all there is verified at this port (R160, R163). -/
def State.sendHead (s : State) (p : Port) (v : Nat) (tOut : Stamp) : State :=
  match s.queue p v with
  | [] => s
  | k :: rest =>
    match s.destOf k p with
    | none => s
    | some (b, d) =>
      let (s, g) := s.transmit p d.frame b.inPort b.owner (bufDie k)
      let l := s.link p
      let s := s.setLink p { l with sent := l.sent.write 0 v (l.sent.read 0 v + BitVec.ofNat 24 d.frame.cells) }
      let s := s.mirror true p g tOut (bufPool k) (bufDie k)
      let s := if s.treeMirrors p d.frame b.owner then s.mirrorTree p g tOut (bufPool k) (bufDie k) else s
      let s := { s with sch.starved := s.sch.starved.del (p.toNat * 8 + v) }
      if b.cells ≤ d.got.length then s.dropDest k p
      else
        let s := { s with queues := s.queues.write [] (p.toNat * 8 + v) rest }
        s.setDest k p { d with begun := true }

/-- The transmitter's choice among VC1 to VC7 (R179). -/
def State.serveVcs (s : State) (p : Port) (tOut : Stamp) : State :=
  let t := tOut.toNat / 2 ^ 16
  let s := creditVcs.foldl (fun s v => purgeQueue p v (s.queue p v).length s) s
  let l := s.link p
  let empty (v : Nat) : Bool := (s.queue p v).isEmpty
  let d := creditVcs.foldl (fun d v => if empty v then SMap.write 0 d v 0 else d) l.deficit
  let es := creditVcs.filter fun v => s.eligibleVc p v t
  if es.isEmpty then s.setLink p { l with deficit := d }
  else
    let low := es.foldl (fun m v => max m (-(SMap.read 0 d v)).toNat) 0
    let cost (v : Nat) : Nat := ((s.headFrame p v).map fun x => x.2.cells).getD 0
    let (d, nx, c) := arbitrate es.contains empty cost s.vcWeight (s.fld Reg.SCH_ARB_CFG.quantum) (7 * (low + 3)) d l.next.toNat
    let s := s.setLink p { l with deficit := d, next := BitVec.ofNat 3 nx }
    match c with
    | some v => s.sendHead p v tOut
    | none => s

/-- The transmitter of a port is free (R178): a replay that waits goes first, then VC0, then the deficit rule. In TRAINING
only VC0 is sent. -/
def execEgressArbitrate (p : Port) (tOut : Stamp) (s : State) : Outcome :=
  if !s.canSend p then .next s
  else
    match (s.link p).replayDue with
    | some n => .next (s.replayFrom p n)
    | none =>
      let s := purgeVc0 p (s.link p).vc0.length s
      match s.vc0Pick p with
      | some (x, rest) => .next (s.sendTx p x rest tOut)
      | none => if s.isUp p then .next (s.serveVcs p tOut) else .next s

/-! ### Weights and meters -/

/-- A refused weight, profile or partition write (Table 8-4). -/
def State.meterRefuse (s : State) : State := s.raise Reg.SCH_INT_STATUS.meter_refused

/-- A write to a weight register (R180): a weight of 0 is refused; another word takes effect at the next tick. -/
def State.writeWeights (s : State) (b : Bool) (v : W32) : State :=
  let off := if b then Reg.SCH_VC_WEIGHT_B.addr else Reg.SCH_VC_WEIGHT_A.addr
  if !s.answers off then s
  else if !weightOk b v then s.meterRefuse
  else s.regWrite off v fun s => s.schWrite off v

def execVcWeightWrite (b : Bool) (value : W32) (s : State) : Outcome := .next (s.writeWeights b value)

/-- A write to a meter register (R185). -/
def State.writeMeter (s : State) (off : Nat) (v : W32) : State :=
  if !s.answers off then s
  else if !s.meterOk off v then s.meterRefuse
  else s.regWrite off v fun s => s.schWrite off v

def execMeterConfigWrite (off : BitVec 29) (value : W32) (s : State) : Outcome :=
  if isMeterReg off.toNat && off.toNat % 4 == 0 then .next (s.writeMeter off.toNat value) else .next s

/-! ### Gate lists -/

/-- Word 1 of a shadow entry is written (R182): the entry is stored, or discarded for its duration. -/
def State.storeGateEntry (s : State) (p e : Nat) (v : W32) : State :=
  if s.shadowLocked (objGate p) then s.regAccess (Reg.SCH_GATE_SHADOW.addr p (2 * e + 1)) else
  let s := s.storeFields (Reg.SCH_GATE_SHADOW.addr p (2 * e + 1)) v
  let d := (s.reg (Reg.SCH_GATE_SHADOW.addr p (2 * e))).toNat
  let b := s.gateShadow.read { } p
  if d < 512 then
    let s := { s with gateShadow := s.gateShadow.write { } p { b with ent := b.ent.del e } }
    (s.setFld (Reg.SCH_GATE_ACT_STATUS.err_entry p) e).raise Reg.SCH_INT_STATUS.gate_shadow_err
  else
    let b := { b with ent := b.ent.put e (BitVec.ofNat 256 (d + v.toNat % 2 ^ 8 * 2 ^ 32)) }
    { s with gateShadow := s.gateShadow.write { } p b }

def execGateShadowEntryStore (p : Port) (e : BitVec 8) (value : W32) (s : State) : Outcome :=
  let off := Reg.SCH_GATE_SHADOW.addr p.toNat (2 * e.toNat + 1)
  .next (s.regWrite off value fun s => s.storeGateEntry p.toNat e.toNat value)

/-- A pending amendment carries an object (R350). -/
def State.carried (s : State) (k : Nat) : Bool :=
  match s.cfg.pendingAmend with
  | some a => (imgObjects a.image).contains k
  | none => false

/-- A software arming of a cyclic object (R57): refused with REFUSED_BUSY while an amendment carries it (R350). -/
def State.armSoft (s : State) (k tAct : Nat) (active shadow : Bank) (len : Nat) : State × Bool :=
  if s.carried k then
    ((s.setAct k { s.act k with reason := arBusy }).raise Reg.EPH_INT_STATUS.act_refused, false)
  else s.arm k tAct (some (active, shadow, len))

/-- A software cancel: an object that an amendment carries is cancelled only with it (R350; log 31). -/
def State.cancelSoft (s : State) (k : Nat) : State :=
  if s.carried k then (s.setAct k { s.act k with reason := arBusy }).raise Reg.EPH_INT_STATUS.act_refused
  else (s.cancel k).1

/-- A write to SCH_GATE_ACT_STATUS (Table 8-8). -/
def State.writeGateAct (s : State) (p : Nat) (v : W32) : State :=
  let s := if v.getLsbD 7 then s.cancelSoft (objGate p) else s
  if v.getLsbD 6 then
    let t := s.pair (Reg.SCH_GATE_ACT_LO.value p)
    match s.armSoft (objGate p) t (s.gateActive.read { } p) (s.gateShadow.read { } p) (s.fld (Reg.SCH_GATE_LEN.shadow p) + 1) with
    | (s, true) => s
    | (s, false) => s.raise Reg.SCH_INT_STATUS.gate_act_refused
  else s

def execSchGateArm (p : Port) (value : W32) (s : State) : Outcome :=
  if value.getLsbD 6 then
    .next (s.regWrite (Reg.SCH_GATE_ACT_STATUS.addr p.toNat) value fun s => s.writeGateAct p.toNat value)
  else .next s

def execSchGateCancel (p : Port) (value : W32) (s : State) : Outcome :=
  if value.getLsbD 7 then
    .next (s.regWrite (Reg.SCH_GATE_ACT_STATUS.addr p.toNat) value fun s => s.writeGateAct p.toNat value)
  else .next s

/-- SCH_GATE_STATE now (Table 8-2): effective gates, list gates and active entry. -/
def State.gateState (s : State) (p : Port) : W32 :=
  let b := s.gatesAt p.toNat s.ft
  let bits (g : Nat → Bool) : Nat := (List.range 8).foldl (fun n v => if g v then n + 2 ^ v else n) 0
  BitVec.ofNat 32 (bits (fun v => s.effectiveGate p v s.ft) + bits (fun v => s.listGate p.toNat v s.ft) * 2 ^ 8 +
    (if b.on then b.entryAt s.ft else 0) * 2 ^ 16)

/-- A gate list enters its next entry (R182): the gates are those of the entry. -/
def execGateEntryBoundary (p : Port) (s : State) : Outcome :=
  .next (s.setReg (Reg.SCH_GATE_STATE.addr p.toNat) (s.gateState p))

/-- The head frame of a VC has been held by its gate beyond starve_limit (R184): raised once for that frame. -/
def execGateStarve (p : Port) (vc : BitVec 3) (waited : BitVec 64) (s : State) : Outcome :=
  let lim := s.fld Reg.SCH_ARB_CFG.starve_limit
  match s.headFrame p vc.toNat with
  | none => .next s
  | some (k, _) =>
    let key := p.toNat * 8 + vc.toNat
    if lim = 0 ∨ vc = 0 ∨ waited.toNat ≤ lim * 1600000 ∨ s.sch.starved.get key = some k then .next s
    else
      let s := { s with sch.starved := s.sch.starved.put key k }
      let s := (s.setFld Reg.SCH_STARVE.port p.toNat).setFld Reg.SCH_STARVE.vc vc.toNat
      .next (s.raise Reg.SCH_INT_STATUS.gate_starve)

end Sys2Proof.Machine
end

