-- ==== Sys2Proof/Machine/Transit.lean ====
section
/-!
DEFINITION. The meanings of the commands of chapter 4: permutations, the calendar, Benes elements and planes, suspension
and the umbra latches.
-/

namespace Sys2Proof.Machine

/-! ### The permutation store (R89) -/

/-- A calendar entry names a permutation. -/
def entryNames (e : BitVec 256) (i : Nat) : Bool := (List.range 16).any fun k => entryPerm e k = i

/-- The active or the shadow calendar refers to a permutation. -/
def State.permUsed (s : State) (i : Nat) : Bool :=
  (s.calActive.on && s.calActive.ent.any fun e => entryNames e.2 i) || s.calShadow.ent.any fun e => entryNames e.2 i

/-- A permutation is committed; the empty one always is. -/
def State.permCommitted (s : State) (i : Nat) : Bool := i = 0 || (s.trn.committed.get i).isSome

/-- A write to a word of a permutation: discarded with perm_busy where a calendar refers to it, and on the fixed one. -/
def State.writePerm (s : State) (i w : Nat) (v : W32) : State :=
  if i = 0 then s
  else if s.permUsed i then s.raise Reg.TRN_INT_STATUS.perm_busy
  else ({ s.storeFields (Reg.TRN_PERM.addr (8 * i + w)) v with trn.committed := s.trn.committed.del i }).reconfigured s

def execPermWordWrite (i : BitVec 12) (w : BitVec 3) (value : W32) (s : State) : Outcome :=
  .next (s.regWrite (Reg.TRN_PERM.addr (8 * i.toNat + w.toNat)) value fun s => s.writePerm i.toNat w.toNat value)

/-- The checks at commit: no two valid inputs name one output, and none its own fibre. -/
def State.permOk (s : State) (i : Nat) : Bool :=
  (List.range 32).all fun f =>
    match s.permDest i f with
    | none => true
    | some g => g ≠ f && (List.range 32).all fun h => h = f || s.permDest i h ≠ some g

/-- A write to TRN_PERM_COMMIT with commit (Table 4-11); one that a calendar refers to is in use. -/
def State.commitPerm (s : State) (v : W32) : State :=
  let s := s.storeFields Reg.TRN_PERM_COMMIT.addr v
  let i := v.toNat % 4096
  if s.permUsed i ∧ i ≠ 0 then s.setFld Reg.TRN_PERM_COMMIT.result 3
  else if s.permOk i then
    (({ s with trn.committed := if i = 0 then s.trn.committed else s.trn.committed.put i true }).reconfigured s).setFld
      Reg.TRN_PERM_COMMIT.result 1
  else s.setFld Reg.TRN_PERM_COMMIT.result 2

def execPermCommit (value : W32) (s : State) : Outcome :=
  if value.getLsbD 12 then .next (s.regWrite Reg.TRN_PERM_COMMIT.addr value fun s => s.commitPerm value) else .next s

/-! ### The calendar (R91 to R93) -/

/-- A shadow entry is discarded, with its cause (Table 4-10). -/
def State.shadowErr (s : State) (e cause : Nat) : State :=
  let s := { s with calShadow.ent := s.calShadow.ent.del e }
  let s := (s.setFld Reg.TRN_CAL_ACT_STATUS.err_entry e).setFld Reg.TRN_CAL_ACT_STATUS.err_cause cause
  s.raise Reg.TRN_INT_STATUS.shadow_err

/-- Word 7 of a shadow entry is written: the entry is checked and stored (R91). -/
def State.storeCalEntry (s : State) (e : Nat) (v : W32) : State :=
  if s.shadowLocked objCal then s.regAccess (Reg.TRN_CAL_SHADOW.addr (8 * e + 7)) else
  let s := s.storeFields (Reg.TRN_CAL_SHADOW.addr (8 * e + 7)) v
  let x : BitVec 256 := (List.range 8).foldl (fun n w =>
    n ||| (BitVec.setWidth 256 (s.reg (Reg.TRN_CAL_SHADOW.addr (8 * e + w))) <<< (32 * w))) 0
  if entryDur x < 1600 then s.shadowErr e 1
  else if !(List.range 16).all fun k => s.permCommitted (entryPerm x k) then s.shadowErr e 2
  else { s with calShadow.ent := s.calShadow.ent.put e x }

def execCalShadowEntryStore (e : BitVec 12) (value : W32) (s : State) : Outcome :=
  .next (s.regWrite (Reg.TRN_CAL_SHADOW.addr (8 * e.toNat + 7)) value fun s => s.storeCalEntry e.toNat value)

/-- A write to TRN_CAL_ACT_STATUS (Table 4-10). -/
def State.writeCalAct (s : State) (v : W32) : State :=
  let s := if v.getLsbD 7 then s.cancelSoft objCal else s
  if v.getLsbD 6 then
    (s.armSoft objCal (s.pair Reg.TRN_CAL_ACT_LO.value) s.calActive s.calShadow (s.fld Reg.TRN_CAL_LEN.shadow + 1)).1
  else s

def execTrnCalArm (value : W32) (s : State) : Outcome :=
  if value.getLsbD 6 then .next (s.regWrite Reg.TRN_CAL_ACT_STATUS.addr value fun s => s.writeCalAct value) else .next s

def execTrnCalCancel (value : W32) (s : State) : Outcome :=
  if value.getLsbD 7 then .next (s.regWrite Reg.TRN_CAL_ACT_STATUS.addr value fun s => s.writeCalAct value) else .next s

/-- The ports whose circuits changed return to electrical at T_e: transmitters of former destinations resume with a burst
preamble, receivers of former sources lock again (R93, R118). -/
def State.returnPorts (s : State) (te : Nat) (dest source : BitVec 512) : State :=
  let back := dest &&& ~~~(maskOf s.isDest)
  let s := { s with trn.boundaryAt := te, trn.quiet := back, trn.rxBack := source &&& ~~~(maskOf s.isSource) }
  (maskPorts back).foldl (fun s p => s.setLink p { s.link p with cwFrom := some (te + 512) }) s

/-- An entry boundary of the active calendar (R92, R93): its entry is in force; a suspended calendar resumes here. -/
def execCalEntryBoundary (s : State) : Outcome :=
  let te := s.calActive.startAt s.ft
  if !s.calActive.on ∨ !s.eph.state.runsCalendar ∨ (s.trn.calRunning ∧ te = s.trn.boundaryAt) then .next s
  else
    let dest := maskOf s.isDest
    let source := maskOf s.isSource
    .next (({ s with trn.calRunning := true, trn.calEntry := s.calActive.entryAt s.ft }).returnPorts te dest source)

def execTransitElectricalResume (s : State) : Outcome :=
  if s.trn.boundaryAt + 128 ≤ s.ft then .next { s with trn.quiet := 0 } else .next s

/-! ### Elements and planes (R97, R98, R101) -/

def execElementBiasUpdate (c : BitVec 5) (e : BitVec 8) (leakage bias : Int) (s : State) : Outcome :=
  if !s.bit Reg.TRN_CTL.elem_lock_en ∨ 18 ≤ c.toNat ∨ 144 ≤ e.toNat then .next s
  else
    let x := s.elem c.toNat e.toNat
    .next (s.setElem c.toNat e.toNat { x with
      bias := bias
      lowRun := if leakage ≤ -2500 then min (x.lowRun + 1) 100 else 0
      highRun := if -1800 < leakage then min (x.highRun + 1) 8 else 0 })

def execElementLockLost (c : BitVec 5) (e : BitVec 8) (s : State) : Outcome :=
  let x := s.elem c.toNat e.toNat
  if c.toNat < 18 ∧ e.toNat < 144 ∧ x.locked ∧ 8 ≤ x.highRun then
    .next (s.setElem c.toNat e.toNat { x with locked := false, unlockedAt := s.ft }).refreshTransit
  else .next s

def execElementLocked (c : BitVec 5) (e : BitVec 8) (s : State) : Outcome :=
  let x := s.elem c.toNat e.toNat
  if c.toNat < 18 ∧ e.toNat < 144 ∧ !x.locked ∧ 100 ≤ x.lowRun then
    .next (s.setElem c.toNat e.toNat { x with locked := true }).refreshTransit
  else .next s

/-- The engines that carry ports. -/
def State.liveEngines (s : State) : List Nat := (List.range 32).filter fun f => (s.engine f).calState = 2

/-- Spare plane m qualifies to stand in for duty k: line m is free and ready, or carries the duty, on every engine (R101). -/
def State.standinOk (s : State) (k : BitVec 4) (m : Nat) : Bool :=
  (s.plane m).standinFor.isNone && !(s.plane m).failed &&
    s.liveEngines.all fun f => s.spareReady f m || (s.line f m).duty == some k

/-- A duty plane has FAILED (R101): a spare plane stands in, and its engines cut over. -/
def State.standIn (s : State) (k : BitVec 4) : State :=
  match [16, 17].find? fun m => s.standinOk k m with
  | none => s.raise Reg.TRN_INT_STATUS.standin_none
  | some m =>
    let s := s.liveEngines.foldl (fun s f =>
      match s.carrier (portOf f k) with
      | some n => if n < 16 then s.trigger f ⟨k, some m, .standin⟩ else s
      | none => s) s
    (s.setPlane m { s.plane m with standinFor := some k }).raise Reg.TRN_INT_STATUS.standin_start

/-- An element has stayed unlocked for elem_hold_limit (R98). -/
def execPlaneFailed (c : BitVec 5) (e : BitVec 8) (s : State) : Outcome :=
  let x := s.elem c.toNat e.toNat
  let y := s.plane c.toNat
  let lim := s.fld Reg.TRN_ELEM_CFG.elem_hold_limit
  if 18 ≤ c.toNat ∨ 144 ≤ e.toNat ∨ x.locked ∨ lim = 0 ∨ y.failed ∨ y.state = .idle ∨ s.ft < x.unlockedAt + lim * 1600000 then
    .next s
  else
    let s := (s.setPlane c.toNat { y with failed := true }).raise Reg.TRN_INT_STATUS.plane_failed
    let s := if s.bit Reg.TRN_CTL.standin_en ∧ c.toNat < 16 then s.standIn (BitVec.ofNat 4 c.toNat) else s
    .next s.refreshTransit

/-- A FAILED plane's element finds its lock again; the plane stays FAILED until a recal (R98). -/
def execElementLockRetry (c : BitVec 5) (e : BitVec 8) (found : Bool) (s : State) : Outcome :=
  let x := s.elem c.toNat e.toNat
  if c.toNat < 18 ∧ e.toNat < 144 ∧ (s.plane c.toNat).failed ∧ !x.locked ∧ found then
    .next (s.setElem c.toNat e.toNat { x with locked := true, lowRun := 100, highRun := 0 }).refreshTransit
  else .next s

/-- A write to TRN_CTL (Table 4-7), with the elements that a repeated search locks. -/
def State.writeTrnCtl (s : State) (v : W32) (found : BitVec 144) : State :=
  let s := s.storeFields Reg.TRN_CTL.addr v
  let c := v.toNat / 2 ^ 8 % 32
  if !v.getLsbD 13 ∨ 18 ≤ c then s.refreshTransit
  else
    let s := (List.range 144).foldl (fun s e =>
      if found.getLsbD e && !(s.elem c e).locked then
        s.setElem c e { s.elem c e with locked := true, lowRun := 100, highRun := 0 }
      else s) s
    let s := if s.elemsLocked c then s.setPlane c { s.plane c with failed := false } else s
    s.refreshTransit

def execTrnRecal (value : W32) (found : BitVec 144) (s : State) : Outcome :=
  if value.getLsbD 13 then .next (s.regWrite Reg.TRN_CTL.addr value fun s => s.writeTrnCtl value found) else .next s

/-! ### Suspension and resumption (R99, R100) -/

/-- Due notices act on the suspended fibres, and the notices that have acted in full are done. -/
def State.applyNotices (s : State) (act : BitVec 32 → BitVec 32 → BitVec 32) : State :=
  let dest := maskOf s.isDest
  let source := maskOf s.isSource
  let due := s.trn.notices.filter fun n => decide (n.tFrom ≤ s.ft)
  let m := due.foldl (fun m n => SMap.write 0 m n.duty.toNat (act (SMap.read 0 m n.duty.toNat) n.mask)) s.trn.suspMask
  let left := s.trn.notices.filter fun n => decide (s.ft < n.tFrom) || SMap.read 0 m n.duty.toNat != n.mask
  if due.isEmpty then s
  else ({ s with trn.suspMask := m, trn.notices := left }).returnPorts (s.calActive.startAt s.ft) dest source

/-- t_from of a suspension: its circuits' ports are electrical in every entry. -/
def execTransitSuspendTFrom (s : State) : Outcome := .next (s.applyNotices fun old mask => old ||| mask)

/-- t_from of a resumption: the circuits run. -/
def execTransitResumeTFrom (s : State) : Outcome := .next (s.applyNotices fun old mask => old &&& mask)

/-! ### Umbra latches (R102 to R105) -/

/-- Every latch snaps, and the device transmits nothing from then on (R104). -/
def State.snapAll (s : State) : State :=
  { s.setReg Reg.TRN_UMBRA_STAT.addr 0xFFFFFFFF with trn.dark := true, trn.releasePending := false }

/-- A write of release (R105): the latches of engines in calibration are released at its end. -/
def State.releaseAll (s : State) : State :=
  let cal := (List.range 32).filter fun f => (s.engine f).calState = 1
  if !s.mayRelease then s
  else
  let s := ((List.range 32).filter fun f => !cal.contains f).foldl (fun s f => s.releaseLatch f) s
  { s with trn.dark := false, trn.releasePending := !cal.isEmpty }

/-- A write to TRN_UMBRA_CTL (Table 4-13). -/
def State.writeUmbraCtl (s : State) (v : W32) : State :=
  let s := s.storeFields Reg.TRN_UMBRA_CTL.addr v
  let s := if v.getLsbD 0 then s.snapAll else s
  if v.getLsbD 1 then s.releaseAll else s

def execUmbraSnap (value : W32) (s : State) : Outcome :=
  if value.getLsbD 0 then .next (s.regWrite Reg.TRN_UMBRA_CTL.addr value fun s => s.writeUmbraCtl value) else .next s

def execUmbraRelease (value : W32) (s : State) : Outcome :=
  if value.getLsbD 1 then .next (s.regWrite Reg.TRN_UMBRA_CTL.addr value fun s => s.writeUmbraCtl value) else .next s

/-- Byte f of a map, and whether its pairing is mutual (R103, Table 4-5). -/
def mapByte (m : BitVec 256) (f : Nat) : Nat := m.toNat / 2 ^ (8 * f) % 256
def umbraMutual (m : BitVec 256) : Bool :=
  (List.range 32).all fun f =>
    let b := mapByte m f
    b < 128 || (decide (b % 32 ≠ f) && decide (128 ≤ mapByte m (b % 32)) && decide (mapByte m (b % 32) % 32 = f))

/-- The map the registers hold. -/
def State.umbraRegs (s : State) : BitVec 256 :=
  (List.range 8).foldl (fun m n => m ||| (BitVec.setWidth 256 (s.reg (Reg.TRN_UMBRA_MAP.addr n)) <<< (32 * n))) 0

/-- A map becomes active: it is written into the latches' cells (R103). -/
def State.startMapWrite (s : State) (m : BitVec 256) : State := { s with trn.umbraWrite := some m }

/-- A write to TRN_UMBRA_MAPn: the map becomes active once the whole of it is mutual (log 33). -/
def State.writeUmbraMap (s : State) (n : Nat) (v : W32) : State :=
  let s := s.storeFields (Reg.TRN_UMBRA_MAP.addr n) v
  if umbraMutual s.umbraRegs then s.startMapWrite s.umbraRegs else s

def execUmbraMapWriteDone (s : State) : Outcome :=
  match s.trn.umbraWrite with
  | none => .next s
  | some m => .next (({ s with trn.umbraMap := m, trn.umbraWrite := none }).reconfigured s)

end Sys2Proof.Machine
end

