-- ==== Sys2Proof/Machine/Albedo.lean ====
section
/-!
DEFINITION. The meanings of the commands of chapter 14: albedo, the shadow audit's wait, the governors and the thermal
actions; and the issue watchdog (R321, R401).
-/

namespace Sys2Proof.Machine

/-! ### Scores (R321, R322) -/

def execAlbedoInput (cls : BitVec 3) (idx : BitVec 10) (i : BitVec 5) (s : State) : Outcome :=
  .next (s.albedo cls.toNat idx.toNat i.toNat)

/-- A multiple of recover_period: every score below 1023 rises, unless albedo_en is 0. -/
def State.recoverScores (s : State) : State :=
  if !s.bit Reg.HLT_CTL.albedo_en then s
  else
    s.hlt.elems.foldl (fun s e =>
      let x := s.elemAt (e.1 / 1024) (e.1 % 1024)
      if x.score < 1023 then
        s.setScore (e.1 / 1024) (e.1 % 1024) (min 1023 (x.score + s.fld Reg.HLT_RECOVER.step))
      else s) s

def execScoreRecovery (s : State) : Outcome := .next s.recoverScores

/-- A ready thread has not issued for 16,384 cycles: input 9 of its core; the third within 1 s on a tile's cores resets
the tile (R401). -/
def State.watchdog (s : State) (t : Nat) : State :=
  let c := thrCore t
  let tile := c / 4
  let s := s.albedo 2 c 9
  let ws := ((s.ory.watchdogs.read [] tile).filter fun f => decide (s.ft < f + second)) ++ [s.ft]
  if 3 ≤ ws.length then ({ s with ory.watchdogs := s.ory.watchdogs.write [] tile [] }).tileReset tile
  else { s with ory.watchdogs := s.ory.watchdogs.write [] tile ws }

def execIssueWatchdog (t : BitVec 14) (s : State) : Outcome :=
  if s.threadReady t.toNat then .next (s.watchdog t.toNat) else .next s

/-! ### Budgets and the breaker (R324, R325, R328) -/

/-- A refill period of a spare group has passed: it gains a token, and its degraded elements are retried. -/
def State.refillGroup (s : State) (g : Nat) : State :=
  let c := groupClass g
  let period := s.fld (Reg.HLT_BUDGET_CFG.refill c) * 60 * second
  if 100 < g ∨ period = 0 ∨ s.ft < s.hlt.refillAt.read 0 g + period then s
  else
    let s := { s with hlt.refillAt := s.hlt.refillAt.write 0 g s.ft }
    if s.groupTokens g < s.fld (Reg.HLT_BUDGET_CFG.burst c) then
      (s.setFld (Reg.HLT_BUDGET_TOK.tokens g) (s.groupTokens g + 1)).retryGroup g
    else s

def execBudgetRefill (g : BitVec 7) (s : State) : Outcome := .next (s.refillGroup g.toNat)

/-- Every group retries. -/
def State.retryAll (s : State) : State := (List.range 101).foldl (fun s g => s.retryGroup g) s

/-- clear written to HLT_BREAKER: it unfreezes, the window is emptied, and the degraded elements of every group are
retried. -/
def State.clearBreaker (s : State) : State :=
  let s := s.setReg Reg.HLT_BREAKER.addr 0
  ({ s with hlt.grants := [] } : State).retryAll

def execBreakerClear (value : W32) (s : State) : Outcome :=
  if value.getLsbD 1 then .next (s.regWrite Reg.HLT_BREAKER.addr value fun s => s.clearBreaker) else .next s

/-! ### Expulsion actions (Table 14-1, R317) -/

/-- The threads of loaded programs on a core. -/
def State.coreThreads (s : State) (c : Nat) : List Nat :=
  s.ory.progs.flatMap fun e => e.2.idx.map fun i => 64 * c + i

/-- A thread that a core was running faults with ILLEGAL as the core leaves service (R317). -/
def State.stopThread (s : State) (t : Nat) : State :=
  let x := s.thread t
  if x.waiting.isNone && !x.halted && !x.stopped then s.faultThread t faultIllegal else s

/-- A token joins a core's queue, or waits for the tile where the queue is full. -/
def State.moveToken (s : State) (d : Nat) (k : Token) : State :=
  let q := s.ory.tokens.read [] d
  if q.length < tokenRoom then { s with ory.tokens := s.ory.tokens.write [] d (q ++ [k]) }
  else { s with ory.tileTokens := s.ory.tileTokens ++ [(d, k)] }

/-- Tokens move to cores in turn. -/
def State.moveTokens (s : State) (others : List Nat) (move : List Token) : State :=
  if others.isEmpty then s
  else (move.zipIdx).foldl (fun s e => s.moveToken (others.getD (e.2 % others.length) 0) e.1) s

/-- A core leaves service (R317): the threads it was running fault with ILLEGAL, tokens for a program move to the tile's
other cores in turn, and it runs no thread. -/
def State.coreLeaves (s : State) (c : Nat) : State :=
  let s := (s.coreThreads c).foldl (fun s t => s.stopThread t) s
  let s := s.setFld (Reg.ORY_CORE.in_service c) 0
  let ks := s.ory.tokens.read [] c ++ (s.ory.tileTokens.filter fun e => e.1 = c).map (·.2)
  let s := { s with
    ory.threads := s.ory.threads.filter fun e => thrCore e.1 ≠ c
    ory.timers := s.ory.timers.filter fun x => thrCore x.thread ≠ c
    ory.tokens := s.ory.tokens.del c
    ory.tileTokens := s.ory.tileTokens.filter fun e => e.1 ≠ c }
  let s := s.moveTokens (s.tileCores (c / 4)) (ks.filter fun k => k.thread.isNone)
  let s := s.raise Reg.ORY_INT_STATUS.core_out
  s.ory.progs.foldl (fun s e => s.tryUnload e.1 false) s

/-- The action of an EXPELLING element ends. A lane with a duty ends with its cut-over (R80). -/
def State.expelDone (s : State) (cls idx : Nat) : State :=
  match cls with
  | 0 =>
    if (s.line (idx / 18) (idx % 18)).duty.isSome then s
    else (s.setLine (idx / 18) (idx % 18) { s.line (idx / 18) (idx % 18) with fade := .failed }).actionDone 0 idx
  | 1 => if s.cnj.moving.contains idx then s.moveEnds idx else s
  | 2 => (s.coreLeaves idx).actionDone 2 idx
  | 5 =>
    (s.setFence (BitVec.ofNat 9 idx) (if s.bit Reg.HLT_CTL.link_isolate then 2 else 1)).actionDone 5 idx
  | _ => s

def execExpulsionComplete (cls : BitVec 3) (idx : BitVec 10) (s : State) : Outcome :=
  let e := s.elemAt cls.toNat idx.toNat
  if e.state = .expelling ∧ e.started then .next (s.expelDone cls.toNat idx.toNat) else .next s

/-! ### HLT_ELEM_CMD (R327, Table 14-12) -/

/-- The selected element, if there is one. -/
def State.selected (s : State) : Option (Nat × Nat) :=
  let c := s.fld Reg.HLT_ELEM_SEL.class
  let i := s.fld Reg.HLT_ELEM_SEL.index
  if i < elemCount c then some (c, i) else none

def State.elemStatus (s : State) (st : Nat) : State := s.setFld Reg.HLT_ELEM_CMD.status st

/-- The restored element is SUSPECT with the score suspect; its group has a spare again. -/
def State.restored (s : State) (cls idx : Nat) : State :=
  let s := s.setElemAt cls idx { s.elemAt cls idx with
    score := s.fld Reg.HLT_THRESH.suspect, state := .suspect, holdReason := 0, started := false }
  let s := s.elemStatus 1
  match elemGroup cls idx with
  | some g => s.retryGroup g
  | none => s

/-- Undoes the action of an EXPELLED element, or is refused by it. -/
def State.restoreElem (s : State) (cls idx : Nat) : State :=
  match cls with
  | 0 =>
    let f := idx / 18
    let n := idx % 18
    let idle := s.setLine f n { s.line f n with fade := if n < 16 then .moved else .idle }
    if 16 ≤ n then idle.restored 0 idx
    else
      let k := BitVec.ofNat 4 n
      let t : MoveTrigger := ⟨k, some n, .manual⟩
      match s.carrier (portOf f k), idle.targetOf f t with
      | some _, some _ => if s.moving f k then s.elemStatus 5 else (idle.trigger f t).restored 0 idx
      | _, _ => s.elemStatus 5
  | 1 =>
    let d := tileDie idx
    if 0 < s.tileHeld (64 + d) then s.elemStatus 5
    else (({ s with cnj.spareOf := s.cnj.spareOf.del d }).tileReset idx).restored 1 idx
  | 2 => (s.setFld (Reg.ORY_CORE.in_service idx) 1).restored 2 idx
  | 5 => (s.setFence (BitVec.ofNat 9 idx) 0).restored 5 idx
  | _ => s.elemStatus 3

/-- Expels an element on command: it needs an available spare, and takes no token. -/
def State.expelElem (s : State) (cls idx : Nat) : State :=
  let go (s : State) : State :=
    match elemGroup cls idx with
    | none => s.elemStatus 4
    | some g =>
      if !s.spareAvailable cls idx then s.elemStatus 4
      else
        let e := s.elemAt cls idx
        ((s.setElemAt cls idx { e with state := .expelling, started := false, holdReason := 0, manual := true }).elemStatus
          2).nextAction g
  match (s.elemAt cls idx).state with
  | .expelling => s.elemStatus 3
  | .expelled => s.elemStatus 3
  | .excluded => s.elemStatus 3
  | _ => go s

/-- A write to HLT_ELEM_CMD. -/
def State.writeElemCmd (s : State) (v : W32) : State :=
  let s := s.storeFields Reg.HLT_ELEM_CMD.addr v
  if !v.getLsbD 2 then s
  else
    match s.selected with
    | none => s.elemStatus 3
    | some (c, i) =>
      match v.toNat % 4 with
      | 0 => (s.setScore c i 1023).elemStatus 1
      | 1 => if (s.elemAt c i).state = .expelled then s.restoreElem c i else s.elemStatus 3
      | 2 => s.expelElem c i
      | _ => s

/-- A word of HLT_ELEM_CMD performs an op. -/
def elemOp (v : W32) (op : Nat) : Bool := v.getLsbD 2 && decide (v.toNat % 4 = op)

def execElemScoreReset (value : W32) (s : State) : Outcome :=
  if elemOp value 0 then .next (s.regWrite Reg.HLT_ELEM_CMD.addr value fun s => s.writeElemCmd value) else .next s

def execElemRestore (value : W32) (s : State) : Outcome :=
  if elemOp value 1 then .next (s.regWrite Reg.HLT_ELEM_CMD.addr value fun s => s.writeElemCmd value) else .next s

def execElemExpel (value : W32) (s : State) : Outcome :=
  if elemOp value 2 then .next (s.regWrite Reg.HLT_ELEM_CMD.addr value fun s => s.writeElemCmd value) else .next s

/-! ### The shadow audit (R329) -/

/-- audit_wait has passed since the primary's FINAL: the comparison is abandoned and the primary goes on. -/
def execAuditWaitExpiry (g : BitVec 14) (cseq : BitVec 16) (seg : BitVec 24) (s : State) : Outcome :=
  match s.seg g.toNat cseq seg.toNat with
  | none => .next s
  | some x =>
    match x.audit.bind Audit.waitFrom with
    | some t =>
      if t + max 1 (s.fld Reg.HLT_AUDIT_CFG.audit_wait) * 160 ≤ s.ft then
        .next ((s.abandonAudit g.toNat cseq seg.toNat x).settle g.toNat)
      else .next s
    | none => .next s

/-! ### Power (R333 to R335) -/

/-- The governed domains in their order (R334), by their domain number, with the field of HLT_THROTTLE and its maximum. -/
def governed : List (Nat × Fld × Nat) :=
  [(3, Reg.HLT_THROTTLE.orrery, 56), (4, Reg.HLT_THROTTLE.accession, 48), (2, Reg.HLT_THROTTLE.tiles, 48)]

/-- The average of the last 8 samples. -/
def average (xs : List Nat) : Nat := (xs.foldl (· + ·) 0) / xs.length

/-- Averages of domain n and of the package. -/
def State.domAvg (s : State) (n : Nat) : Nat := average (s.hlt.power.map fun e => e.1.getD n 0)
def State.pkgAvg (s : State) : Nat := average (s.hlt.power.map fun e => e.2)

/-- Keeps an average and its peak in a power register. -/
def State.showPower (s : State) (avg peak : Fld) (v : Nat) : State :=
  let w := min v 2047
  (s.setFld avg w).setFld peak (max (s.fld peak) w)

/-- Every throttle at its maximum (R336). -/
def State.throttleMax (s : State) : State := governed.foldl (fun s g => s.setFld g.2.1 g.2.2) s

/-- Raises a throttle by 4, to its maximum. -/
def State.throttleUp (s : State) (g : Nat × Fld × Nat) : State := s.setFld g.2.1 (min (s.fld g.2.1 + 4) g.2.2)

/-- govern of R334. tj_throttle_hit holds for every governed domain while a die has it (R336). -/
def State.govern (s : State) : State :=
  let hit := !s.hlt.tjHit.isEmpty
  let s := governed.foldl (fun s g =>
    if s.fld (Reg.HLT_DOM_CAP.cap g.1) < s.domAvg g.1 || hit then s.throttleUp g else s) s
  let limit := s.fld Reg.HLT_PWR_CFG.pkg_limit
  if limit < s.pkgAvg then
    match governed.find? fun g => decide (s.fld g.2.1 < g.2.2) with
    | some g => s.throttleUp g
    | none => { s with hlt.critRun := s.hlt.critRun + 1 }
  else
    let s := { s with hlt.critRun := 0 }
    if s.pkgAvg + s.fld Reg.HLT_PWR_CFG.pkg_hyst < limit then
      match governed.reverse.find? fun g => decide (0 < s.fld g.2.1) &&
          decide (s.domAvg g.1 + s.fld Reg.HLT_PWR_CFG.dom_hyst < s.fld (Reg.HLT_DOM_CAP.cap g.1)) && !hit with
      | some g => s.setFld g.2.1 (s.fld g.2.1 - 1)
      | none => s
    else s

/-- One sample of the domains and the package, and the governor's run (R333 to R335). -/
def State.governorRun (s : State) (dom : List Nat) (pkg : Nat) (used : List Nat) : State :=
  let s := if governed.any fun g => decide (0 < s.fld g.2.1) then s.count Reg.HLT_CNT_THROTTLE_US.value else s
  let s := { s with hlt.power := ((List.range 6).map (fun n => dom.getD n 0), pkg) :: s.hlt.power.take 7 }
  let s := s.showPower Reg.HLT_PKG_PWR.avg Reg.HLT_PKG_PWR.peak s.pkgAvg
  let s : State := (List.range 6).foldl (fun s n => s.showPower (Reg.HLT_DOM_PWR.avg n) (Reg.HLT_DOM_PWR.peak n) (s.domAvg n)) s
  let above := (List.range 6).any (fun (n : Nat) => decide (s.fld (Reg.HLT_DOM_CAP.cap n) < s.domAvg n)) ||
    decide (s.fld Reg.HLT_PWR_CFG.pkg_limit < s.pkgAvg)
  let s := if above then s.raise Reg.HLT_INT_STATUS.power_over else s
  let s := s.govern
  let s := if s.hlt.critHold then s.throttleMax else s
  { s with hlt.ceilings := (List.range 16).foldl (fun m k => SMap.write 0 m k (min 640 (used.getD k 0 + 64))) s.hlt.ceilings }

def execGovernorRun (dom : List Nat) (pkg : Nat) (used : List Nat) (s : State) : Outcome := .next (s.governorRun dom pkg used)

/-- crit_run has reached 1,000. -/
def execPowerCrit (s : State) : Outcome :=
  if s.hlt.critRun = 1000 then .next (s.raise Reg.HLT_INT_STATUS.power_crit) else .next s

/-! ### Temperature (R332, R336 to R338) -/

/-- Adds a member to a list without repeats, or takes it out. -/
def setMember (xs : List Nat) (k : Nat) (b : Bool) : List Nat :=
  if b then (if xs.contains k then xs else xs ++ [k]) else xs.filter fun x => x ≠ k

/-- tj_warn: raised once per crossing. -/
def State.warnDie (s : State) (d : Nat) (t : Int) : State :=
  let hot := decide ((s.fld Reg.HLT_THERM_CFG.tj_warn : Int) * 100 ≤ t)
  let s' := { s with hlt.tjWarned := setMember s.hlt.tjWarned d hot }
  if hot && !s.hlt.tjWarned.contains d then s'.raise Reg.HLT_INT_STATUS.tj_warn else s'

/-- tj_throttle of a switch die, with its 3 C of hysteresis. -/
def State.throttleDie (s : State) (d : Nat) (t : Int) : State :=
  let lim : Int := (s.fld Reg.HLT_THERM_CFG.tj_throttle : Int) * 100
  let was := s.hlt.tjHit.contains d
  let hit := decide (lim ≤ t) || (was && decide (lim - 300 ≤ t))
  let s' := { s with hlt.tjHit := setMember s.hlt.tjHit d hit }
  if hit && !was then s'.raise Reg.HLT_INT_STATUS.tj_throttle else s'

/-- stack_hot of a stack, with its 3 C of hysteresis. -/
def State.heatStack (s : State) (k : Nat) (t : Int) : State :=
  let lim : Int := (s.fld Reg.HLT_THERM_CFG.stack_hot : Int) * 100
  let was := s.hlt.stackHot.contains k
  let hot := decide (lim ≤ t) || (was && decide (lim - 300 ≤ t))
  let s' := { s with hlt.stackHot := setMember s.hlt.stackHot k hot }
  if hot && !was then s'.raise Reg.HLT_INT_STATUS.stack_hot else s'

/-- coolant_suspect of a die (R338): more than coolant_slew above a reading of the last 1 ms. -/
def State.slewDie (s : State) (d : Nat) (t : Int) : State :=
  let lim : Int := (s.fld Reg.HLT_THERM_CFG.coolant_slew : Int) * 100
  let fast := s.hlt.temps.any fun e => decide (s.ft ≤ e.1 + 16000000) && decide (lim < t - e.2.getD d 0)
  let was := s.hlt.coolantWarned.contains d
  let s' := { s with hlt.coolantWarned := setMember s.hlt.coolantWarned d fast }
  if fast && !was then (s'.log 0x16 .coolantSuspect d [wrap 16 t]).raise Reg.HLT_INT_STATUS.coolant_suspect else s'

/-- A tile's evidence count in bins at or above a bin (R331, R332). -/
def State.evidenceFrom (s : State) (t b : Nat) : Nat :=
  (List.range 256).foldl (fun n k =>
    if b ≤ k % 16 then n + s.fld ⟨(Reg.HLT_BIN.lo (128 * t + k / 2)).off, 16 * (k % 2), 16⟩ else n) 0

/-- Quarantine of a tile begins or ends (R332). -/
def State.quarantine (s : State) (t : Nat) : State :=
  let q : Int := (s.fld Reg.HLT_QUAR_CFG.quar_temp : Int) * 100
  let d := tileDie t
  let held := s.hlt.quarantined.contains t
  if held then
    if q = 0 ∨ s.dieTemp d < q - 300 then
      (({ s with hlt.quarantined := setMember s.hlt.quarantined t false }).raise Reg.HLT_INT_STATUS.quarantine).retryGroup (32 + d)
    else s
  else if q = 0 ∨ s.dieTemp d < q ∨ s.evidenceFrom t (tempBin q) < s.fld Reg.HLT_QUAR_CFG.quar_events ∨ s.mapTile t ≠ t then s
  else if s.spareTileIdle d then
    ({ s with hlt.quarantined := setMember s.hlt.quarantined t true }).raise Reg.HLT_INT_STATUS.quarantine
  else s.raise Reg.HLT_INT_STATUS.quarantine_blocked

/-- A reading of the junctions and the stacks (R336). -/
def State.readTemps (s : State) (tj st : List Int) : State :=
  let t (d : Nat) : Int := tj.getD d 0
  let s := (List.range 5).foldl (fun s d => s.setFld (Reg.HLT_TJ_MAX.temp d) (wrap 16 (t d))) s
  let s := (List.range 12).foldl (fun s k => s.setFld (Reg.HLT_STACK_TEMP.temp k) (wrap 16 (st.getD k 0))) s
  let s := (List.range 5).foldl (fun s d => (s.warnDie d (t d)).slewDie d (t d)) s
  let s := (List.range 4).foldl (fun s d => s.throttleDie d (t d)) s
  let s := (List.range 12).foldl (fun s k => s.heatStack k (st.getD k 0)) s
  let run (m : SMap Nat) (lim : Int) : SMap Nat :=
    (List.range 5).foldl (fun m d => SMap.write 0 m d (if lim ≤ t d then min 3 (SMap.read 0 m d + 1) else 0)) m
  let cool := (List.range 5).all fun d => decide (t d < 10000)
  let s := { s with
    hlt.temps := (s.ft, (List.range 5).map t) :: s.hlt.temps.filter fun e => decide (s.ft ≤ e.1 + 16000000)
    hlt.hot105 := run s.hlt.hot105 10500
    hlt.hot110 := run s.hlt.hot110 11000
    hlt.coolSince := if cool then some (s.hlt.coolSince.getD s.ft) else none }
  (List.range 64).foldl (fun s t => s.quarantine t) s

def execTemperatureRead (tj st : List Int) (s : State) : Outcome := .next (s.readTemps tj st)

/-- 105 C on 3 consecutive readings: every throttle at its maximum at once. -/
def execThermalCrit (s : State) : Outcome :=
  if s.hlt.hot105.any (fun e => 3 ≤ e.2) ∧ !s.hlt.critHold then
    let s := ({ s with hlt.critHold := true }).throttleMax
    .next ((s.log 0x16 .thermalCrit).raise Reg.HLT_INT_STATUS.thermal_crit)
  else .next s

/-- Every die has read below 100 C for 1 ms: the governor has the throttles again. -/
def execThermalCritRelease (s : State) : Outcome :=
  match s.hlt.coolSince with
  | some t => if s.hlt.critHold ∧ t + 16000000 ≤ s.ft then .next { s with hlt.critHold := false } else .next s
  | none => .next s

/-- 110 C on 3 consecutive readings (R337): the latches snap, every port stops, and THERMTRIP_N is asserted. -/
def execThermtrip (s : State) : Outcome :=
  if s.hlt.hot110.any (fun e => 3 ≤ e.2) ∧ !s.hlt.thermtripOn then
    let s := { s.snapAll with hlt.thermtripOn := true }
    .next ((s.log 0x16 .thermtrip).emit (.pin .thermtripN true))
  else .next s

end Sys2Proof.Machine
end

