-- ==== Sys2Proof/Machine/Memory.lean ====
section
/-!
DEFINITION. The meanings of the commands of chapter 12, and the refill tick of the meters (R186).
-/

namespace Sys2Proof.Machine

/-! ### Requests -/

/-- A MEM_REQ addressed with dclass 1 is received: it passes its meter and meets this spine's memory. -/
def State.memArrive (s : State) (p : Port) (f : Frame) (tIn : Stamp) (ok : Bool) (io : ChannelIo) : State :=
  let go (s : State) (k : Nat) : State :=
    s.meterIn { port := p, frame := f, stamp := tIn, buf := k, ok := ok, io := io } State.meterGo
  s.routed p f tIn go go

/-- A frame is a MEM_REQ to a switch address with an opcode. -/
def isOwnReq (f : Frame) (op : BitVec 8) : Bool := f.ftype == ftMemReq && f.dclass && f.opcode == op

def execLoad (p : Port) (f : Frame) (tIn : Stamp) (ok : Bool) (io : ChannelIo) (s : State) : Outcome :=
  if isOwnReq f reqLoad then .next (s.memArrive p f tIn ok io) else .next s

def execStore (p : Port) (f : Frame) (tIn : Stamp) (ok : Bool) (io : ChannelIo) (s : State) : Outcome :=
  if isOwnReq f reqStore then .next (s.memArrive p f tIn ok io) else .next s

def execStoreMcast (p : Port) (f : Frame) (tIn : Stamp) (ok : Bool) (s : State) : Outcome :=
  if isOwnReq f reqMcast then .next (s.memArrive p f tIn ok { }) else .next s

def execAtomic (p : Port) (f : Frame) (tIn : Stamp) (ok : Bool) (io : ChannelIo) (s : State) : Outcome :=
  if isOwnReq f reqAtomic then .next (s.memArrive p f tIn ok io) else .next s

def execReduceInto (p : Port) (f : Frame) (tIn : Stamp) (ok : Bool) (io : ChannelIo) (s : State) : Outcome :=
  if isOwnReq f reqReduce then .next (s.memArrive p f tIn ok io) else .next s

def execMemFence (p : Port) (f : Frame) (tIn : Stamp) (ok : Bool) (s : State) : Outcome :=
  if isOwnReq f reqFence then .next (s.memArrive p f tIn ok { }) else .next s

/-- The opcodes of Table 12-1. -/
def knownReq (op : BitVec 8) : Bool := decide (1 ≤ op.toNat ∧ op.toNat ≤ 6)

def execMemReqBadOpcode (p : Port) (f : Frame) (tIn : Stamp) (ok : Bool) (s : State) : Outcome :=
  if f.ftype = ftMemReq ∧ f.dclass ∧ !knownReq f.opcode then .next (s.memArrive p f tIn ok { }) else .next s

def execMemReqPassThrough (p : Port) (f : Frame) (tIn : Stamp) (s : State) : Outcome :=
  if f.ftype = ftMemReq ∧ !f.dclass then .next (s.memArrive p f tIn true { }) else .next s

/-! ### Responses -/

def execMemRspForward (p : Port) (f : Frame) (tIn : Stamp) (s : State) : Outcome :=
  if f.ftype = ftMemRsp ∧ !f.dclass then
    .next (s.routed p f tIn (fun s k => s.freeBuf k) fun s k => s.forwardBuf k p f)
  else .next s

/-- A response to this spine's memory-and-orrery unit (R292); one that is a data error is reported to its responder
(Table 7-3). -/
def State.rspIn (s : State) (p : Port) (f : Frame) (ok : Bool) : State :=
  if ok then s.ownAnswer f.seq f.opcode f.status.toNat f.payload
  else
    let s := s.dataError (dieOf p)
    if f.opcode = rspPathFail then s
    else (s.count (Reg.LNK_CNT_PATHFAIL.value p.toNat)).pathFailTo (dieOf p) f p pfDataError

def execMemRspToSpine (p : Port) (f : Frame) (ok : Bool) (s : State) : Outcome :=
  if f.ftype = ftMemRsp ∧ f.dclass then
    .next (s.routed p f (BitVec.ofInt 80 s.ft16) (fun s k => (s.freeBuf k).rspIn p f ok) fun s k => s.freeBuf k)
  else .next s

/-! ### Answers that wait -/

/-- The channel accepts the oldest write it holds (R276): its requests are answered. -/
def State.writeAccepted (s : State) (ch : Nat) : State :=
  match s.msf.writes.read [] ch with
  | [] => s
  | a :: rest =>
    let s := { s with msf.writes := s.msf.writes.write [] ch rest }
    match a with
    | .one q status => s.answer (dpaDie q.dpa) q rspAck status []
    | .set die qs status =>
      s.ackAll die.toNat ((qs.head?.map fun q => q.frame.opcode).getD 0) status qs
    | .thread t id => s.postedDone t id none

def execStackWriteAccepted (ch : BitVec 9) (s : State) : Outcome := .next (s.writeAccepted ch.toNat)

def execFenceAnswered (serial : Nat) (s : State) : Outcome :=
  match s.msf.fences.find? fun q => q.serial = serial with
  | some q => if s.fenceReady q then .next (s.answerFence q) else .next s
  | none => .next s

/-- The ACK of a STORE_MCAST once its unreached set is final (R281). -/
def State.mcastDone (s : State) (op : Nat) (m : McastOp) : State :=
  let s := { s with msf.mcasts := s.msf.mcasts.del op }
  match m.thread with
  | some (t, seq) => s.postedDone t seq none
  | none =>
  if m.unreached = 0 then s.answer (dieOf m.req.port) m.req rspAck 0 []
  else s.answer (dieOf m.req.port) m.req rspAck 4 (leBytes 64 m.unreached.toNat)

def execMcastUnreachedFinal (serial : Nat) (s : State) : Outcome :=
  match s.msf.mcasts.get serial with
  | some m => if s.mcastFinal serial then .next (s.mcastDone serial m) else .next s
  | none => .next s

/-! ### Combining -/

def execCombineTriggerClear (s : State) : Outcome := .next { s with msf.combCount := [] }

def execCombineFlush (id : Nat) (io : ChannelIo) (s : State) : Outcome :=
  match s.msf.combs.find? fun c => c.id = id with
  | some c => if !c.qs.isEmpty ∧ c.first + s.mergeWindow ≤ s.ft then .next (s.flushComb c io) else .next s
  | none => .next s

/-- An entry is released; what it still holds is flushed first (R289). -/
def State.closeComb (s : State) (c : Comb) : State :=
  let s := s.flushComb c { }
  { s with msf.combs := s.msf.combs.filter fun x => x.id ≠ c.id }

def execCombineIdleClose (id : Nat) (s : State) : Outcome :=
  match s.msf.combs.find? fun c => c.id = id with
  | some c => if c.lastAt + s.idleClose ≤ s.ft then .next (s.closeComb c) else .next s
  | none => .next s

/-- A merged request that no answer came for (R292). -/
def State.combTimeout (s : State) (r : ThruReq) : State :=
  let s := ({ s with msf.thrus := s.msf.thrus.filter fun x => !(x.seq == r.seq) }).raise Reg.MSF_INT_STATUS.rsp_timeout
  r.qs.foldl (fun s q =>
    (s.count (Reg.LNK_CNT_PATHFAIL.value q.port.toNat)).pathFailTo r.die.toNat q.frame q.port pfLinkDown) s

def execCombineRspTimeout (seq : BitVec 24) (s : State) : Outcome :=
  match s.msf.thrus.find? fun r => r.seq == seq with
  | some r => if r.at_ + s.fld Reg.MSF_RSP_TIMEOUT.timeout * 1600000 ≤ s.ft then .next (s.combTimeout r) else .next s
  | none => .next s

def execFilterRecordExpiry (die : BitVec 2) (s : State) : Outcome :=
  .next { s with msf.filters := s.msf.filters.filter fun r => !(r.die == die) || decide (s.ft < r.at_ + s.filterWindow) }

/-! ### The access table (R277) -/

/-- An entry with word w replaced: base, size and whether it is valid. -/
def State.accessWith (s : State) (n : Nat) (w : Nat) (v : W32) : Nat × Nat × Bool :=
  (if w = 0 then (Reg.MSF_ACCESS_BASE.base n).of v else s.fld (Reg.MSF_ACCESS_BASE.base n),
   if w = 1 then (Reg.MSF_ACCESS_SIZE.size n).of v else s.fld (Reg.MSF_ACCESS_SIZE.size n),
   if w = 2 then v.getLsbD 13 else s.bit (Reg.MSF_ACCESS_CTL.valid n))

/-- Two ranges of 2 MiB units share one. -/
def unitsMeet (a la b lb : Nat) : Bool := decide (a < b + lb) && decide (b < a + la)

/-- A write is refused: the entry would be valid and overlap another valid entry, pass the window, or be empty. -/
def State.accessRefused (s : State) (n w : Nat) (v : W32) : Bool :=
  let (base, size, valid) := s.accessWith n w v
  valid && (decide (size = 0) || decide (s.windowSize < (base + size) * 2 ^ 21) ||
    (List.range 256).any fun m => m ≠ n && s.bit (Reg.MSF_ACCESS_CTL.valid m) &&
      unitsMeet base size (s.fld (Reg.MSF_ACCESS_BASE.base m)) (s.fld (Reg.MSF_ACCESS_SIZE.size m)))

/-- The offset of word w of entry n. -/
def accessOff (n w : Nat) : Nat := Reg.MSF_ACCESS_BASE.addr n + 4 * w

/-- A word of the access table is written: the table is part of the active configuration (R277, R347; log 43). -/
def State.writeAccess (s : State) (n w : Nat) (v : W32) : State :=
  let off := accessOff n w
  if !s.answers off then s
  else if !s.bit Reg.CFG_CTL.local_write_en then s.log 0x17 .configWriteDiscarded off [v.toNat]
  else if s.accessRefused n w v then s.raise Reg.MSF_INT_STATUS.access_refused
  else
    let t := ((s.storeFields off v).setFld Reg.CFG_STATUS.drift 1).count Reg.CFG_LOCAL_WRITES.value
    ((t.log 0x17 .configWrite off [v.toNat]).raise Reg.CFG_INT_STATUS.local_write).reconfigured s

def execAccessEntryWrite (n : BitVec 8) (w : BitVec 2) (value : W32) (s : State) : Outcome :=
  if w.toNat < 3 then .next (s.writeAccess n.toNat w.toNat value) else .next s

/-! ### The meters' tick -/

def execMeterRefillTick (s : State) : Outcome := .next (s.refillTick State.meterGo)

end Sys2Proof.Machine
end

