-- ==== Sys2Proof/Machine/Keys.lean ====
section
/-!
DEFINITION. Signatures and owner keys (R379, R380, R384), and the bytes of staging areas.
-/

namespace Sys2Proof.Machine

/-- The first n bytes of a staging area; a byte not written since reset is 0 (log 41). -/
def stageBytes (m : SMap Byte) (n : Nat) : List Byte := (List.range n).map fun i => SMap.read 0 m i

/-- A context string (Table 17-1). -/
def context (s : String) : List Byte := s.toList.map fun c => BitVec.ofNat 8 c.toNat

def ctxFirmware : List Byte := context "ZNMFW"
def ctxSigner : List Byte := context "ZNMSIG"
def ctxOwner : List Byte := context "ZNMOWN"
def ctxFolio : List Byte := context "ZNMFOL"
def ctxAmend : List Byte := context "ZNMAMD"
def ctxProgram : List Byte := context "ZNMPRG"
def ctxDebug : List Byte := context "ZNMDBG"

/-- A signature of 114 bytes ends an object and covers every byte before it (R379). -/
def signedBy (key ctx obj : List Byte) : Bool :=
  decide (114 ≤ obj.length) &&
    Config.ed448Verify key ctx (obj.take (obj.length - 114)) (obj.drop (obj.length - 114))

/-! ### Owner records (Table 17-3) -/

def roleFolio : Nat := 0
def roleAmend : Nat := 1
def roleProgram : Nat := 2
def rolePriv : Nat := 3
def roleOwner : Nat := 4

def ownerKeys (rec : List Byte) : Nat := numAt rec 5 1
def ownerSeq (rec : List Byte) : Nat := numAt rec 8 4
def ownerKey (rec : List Byte) (k : Nat) : List Byte := sliceBytes rec (32 + 64 * k) 57
def ownerRoles (rec : List Byte) (k : Nat) : Nat := numAt rec (89 + 64 * k) 1

/-- The layout of an owner record (Table 17-3). -/
def ownerFormatOk (rec : List Byte) : Bool :=
  decide (rec.length = 402) && decide (numAt rec 0 4 = 0x524E574F) && decide (numAt rec 4 1 = 1) &&
    decide (1 ≤ ownerKeys rec) && decide (ownerKeys rec ≤ 4) && decide (1 ≤ ownerSeq rec) &&
    allZero (sliceBytes rec 6 2) && allZero (sliceBytes rec 12 20) &&
    (List.range (ownerKeys rec)).all fun k => decide (ownerRoles rec k < 32) && allZero (sliceBytes rec (90 + 64 * k) 6)

/-- An object verifies under a key of an owner record that carries a role (R380). -/
def recordVerifies (rec : List Byte) (role : Nat) (ctx obj : List Byte) : Bool :=
  (List.range (ownerKeys rec)).any fun k => decide (ownerRoles rec k / 2 ^ role % 2 = 1) && signedBy (ownerKey rec k) ctx obj

/-- An object verifies under an active owner key with a role; an UNOWNED device has none (R385). -/
def State.roleVerifies (s : State) (role : Nat) (ctx obj : List Byte) : Bool :=
  recordVerifies s.sec.ownerRecord role ctx obj

/-- An object is refused for its signature (R380). -/
def State.verifyFail (s : State) : State :=
  (s.count Reg.SEC_CNT_VERIFY_FAIL.value).raise Reg.SEC_INT_STATUS.verify_fail

end Sys2Proof.Machine
end

