-- ==== Sys2Proof/Machine/OryLoad.lean ====
section
/-!
DEFINITION. Loading of orrery programs (R312, R313).
-/

namespace Sys2Proof.Machine

/-! ### Images (Table 13-7) -/

/-- Header fields of an image. -/
def piId (b : List Byte) : Nat := numAt b 4 2
def piFlags (b : List Byte) : Nat := numAt b 7 1
def piWords (b : List Byte) : Nat := numAt b 8 4
def piData (b : List Byte) : Nat := numAt b 12 4
def piThreads (b : List Byte) : Nat := numAt b 16 1
def piScratch (b : List Byte) : Nat := numAt b 18 2

/-- Every header field is in range, and the image has the length its header gives. -/
def progHeaderOk (b : List Byte) : Bool :=
  let between (v lo hi : Nat) : Bool := decide (lo ≤ v) && decide (v ≤ hi)
  decide (numAt b 0 4 = 0x5952524F) && between (piId b) 1 0xFFFE && decide (numAt b 6 1 = 1) && decide (piFlags b < 4) &&
    between (piWords b) 1 32768 && decide (piData b % 8 = 0) && between (piThreads b) 1 64 &&
    between (numAt b 17 1) 1 64 && decide (piScratch b ≤ 256) && allZero (sliceBytes b 24 8) &&
    allZero (sliceBytes b 96 32) && decide (b.length = progLength b)

/-- The first n thread indices that no loaded program has. -/
def State.freeThreads (s : State) (n : Nat) : List Nat :=
  ((List.range 64).filter fun i => !s.ory.progs.any fun e => e.2.idx.contains i).take n

/-- The lowest offset of a free slice of a core's scratch: 0, or the end of a loaded program's slice. -/
def State.freeScratch (s : State) (kib : Nat) : Option Nat :=
  let ends := 0 :: (s.ory.progs.map fun e => e.2.scratch + 1024 * e.2.scratchKib)
  let fits (o : Nat) : Bool := decide (o + 1024 * kib ≤ 2 ^ 18) && s.ory.progs.all fun e =>
    decide (e.2.scratchKib = 0) || decide (o + 1024 * kib ≤ e.2.scratch) || decide (e.2.scratch + 1024 * e.2.scratchKib ≤ o)
  if kib = 0 then some 0
  else (ends.filter fits).foldl (fun m o => some (match m with
    | some x => min x o
    | none => o)) none

/-- Bytes of the program store that loaded programs take. -/
def State.progStore (s : State) : Nat := s.ory.progs.foldl (fun n e => n + 4 * e.2.code.length + e.2.data.length) 0

/-- The program an image describes. -/
def progOf (b : List Byte) (idx : List Nat) (scratch : Nat) : Prog :=
  { id := BitVec.ofNat 16 (piId b)
    privileged := decide (piFlags b % 2 = 1), transform := decide (piFlags b / 2 = 1)
    code := (List.range (piWords b)).map fun i => BitVec.ofNat 32 (numAt b (128 + 4 * i) 4)
    data := sliceBytes b (128 + 4 * piWords b) (piData b)
    chunkLines := numAt b 17 1, scratchKib := piScratch b, budget := numAt b 20 4
    far := (List.range 8).map fun i => BitVec.ofNat 64 (numAt b (32 + 8 * i) 8)
    idx := idx, scratch := scratch, meas := Config.shake256 b 64 }

/-- An image verifies under a key that may sign programs (Table 17-1): role PROGRAM, or for a privileged image
PRIV_PROGRAM. -/
def State.progSigned (s : State) (b : List Byte) : Bool :=
  s.roleVerifies roleProgram ctxProgram b || (decide (piFlags b % 2 = 1) && s.roleVerifies rolePriv ctxProgram b)

/-- Checks an image (R313): the status of ORY_PROG_CMD, 1 where it may load, and then its slot and program. -/
def State.progCheck (s : State) (b : List Byte) : Nat × Option (Nat × Prog) :=
  let idx := s.freeThreads (piThreads b)
  if !s.progSigned b then (2, none)
  else if !progHeaderOk b then (3, none)
  else if s.ory.progs.any fun e => decide (e.2.id.toNat = piId b) then (4, none)
  else if 131072 < s.progStore + 4 * piWords b + piData b then (5, none)
  else if idx.length < piThreads b then (6, none)
  else
    match (List.range 64).find? fun n => (s.ory.progs.get n).isNone, s.freeScratch (piScratch b) with
    | none, _ => (5, none)
    | _, none => (6, none)
    | some n, some o =>
      if piFlags b % 2 = 1 ∧ !s.roleVerifies rolePriv ctxProgram b then (7, none) else (1, some (n, progOf b idx o))

/-- A program is in its slot: its slices are clear and its threads start (R297). -/
def State.startProgram (s : State) (n : Nat) (p : Prog) : State :=
  { s with
    ory.progs := s.ory.progs.put n p
    ory.threads := s.ory.threads.filter fun e => !p.idx.contains (thrIndex e.1)
    ory.scratch := s.ory.scratch.filter fun e =>
      !(decide (p.scratch ≤ e.1 % 2 ^ 18) && decide (e.1 % 2 ^ 18 < p.scratch + 1024 * p.scratchKib)) }

/-- Loads an image at once, if it passes (the folio, an amendment): the status. -/
def State.loadNow (s : State) (b : List Byte) : State × Nat :=
  match s.progCheck b with
  | (c, some (n, p)) => (s.startProgram n p, c)
  | (c, none) => (s, c)

/-! ### ORY_STAGE (R313, R366) -/

def opProgramTransfer : BitVec 16 := 0xC004

/-- A load of ORY_STAGE ends with a status, which a PROGRAM_TRANSFER that waits is answered with. -/
def State.loadEnds (s : State) (status : Nat) : State :=
  let rt := s.ory.loadTo
  let s := ({ s with ory.loadTo := none, ory.loading := none }).progEnd status
  match rt with
  | some tp => s.endBackground tp opProgramTransfer 0 [BitVec.ofNat 8 status]
  | none => s

/-- A load of ORY_STAGE begins, or is refused. -/
def State.beginLoad (s : State) (img : List Byte) (rt : Option Transport) : State :=
  let s := { s.setFld Reg.ORY_PROG_CMD.busy 1 with ory.loadTo := rt }
  match s.progCheck img with
  | (_, some x) => { s with ory.loading := some x }
  | (c, none) => (if c = 2 ∨ c = 7 then s.verifyFail else s).loadEnds c

def execOryProgLoad (value : W32) (s : State) : Outcome :=
  .next (s.progCmd value 0 fun s => s.beginLoad (stageBytes s.cfg.progStage (s.fld Reg.ORY_PROG_LEN.bytes)) none)

/-- The load under way completes (R313): the configuration holds one program more. -/
def execProgramLoadDone (s : State) : Outcome :=
  match s.ory.loading with
  | none => .next s
  | some (n, p) => .next (((s.startProgram n p).reconfigured s).loadEnds 1)

end Sys2Proof.Machine
end

