-- ==== Sys2Proof/Machine/Sections.lean ====
section
/-!
DEFINITION. What the sections of a folio or an amendment put into the block (R342, Table 15-3): each code's data, with no
effect beside it. The content checks of R343 and R348 run on the state this leaves.
-/

namespace Sys2Proof.Machine

/-- The active section of a code and scope. -/
def State.section (s : State) (code scope : Nat) : List Byte := (s.cfg.sections.get (2 * code + scope)).getD []

/-- A section becomes the active one of its code and scope. -/
def State.putSection (s : State) (code scope : Nat) (bs : List Byte) : State :=
  { s with cfg.sections := s.cfg.sections.put (2 * code + scope) bs }

/-- Both scopes of a code in an image, LOCAL first: where both fill one table SHARED has the last word (log 42). -/
def imgScopes (b : List Byte) (code : Nat) : List (Nat × List Byte) :=
  [0, 1].filterMap fun scope => (imgSection b code scope).map fun bs => (scope, bs)

/-! ### REGS -/

/-- An entry of REGS is held by the scope that brought it last; its value is masked to the rw bits (R345). -/
def State.putRegEntry (s : State) (scope off : Nat) (v : W32) : State :=
  let w := v &&& BitVec.ofNat 32 ((cfgMask off).getD 0)
  if scope = 1 then
    { s with cfg.sharedRegs := s.cfg.sharedRegs.put off w, cfg.localRegs := s.cfg.localRegs.del off }
  else { s with cfg.localRegs := s.cfg.localRegs.put off w, cfg.sharedRegs := s.cfg.sharedRegs.del off }

/-- The rw bits of a register take a value. -/
def State.maskedReg (s : State) (off : Nat) (v : W32) : State :=
  let m := BitVec.ofNat 32 ((cfgMask off).getD 0)
  s.setReg off ((s.reg off &&& ~~~m) ||| (v &&& m))

/-- REGS of a scope: `write` puts a value into a register. -/
def State.applyRegs (s : State) (write : State → Nat → W32 → State) (scope : Nat) (bs : List Byte) : State :=
  (regsEntries bs).foldl (fun s e => (write s e.1 e.2).putRegEntry scope e.1 e.2) s

/-! ### Tables of one block -/

/-- CABLE_MAP: the port of each leaf (R27). -/
def State.applyCable (s : State) (bs : List Byte) : State :=
  (List.range 512).foldl (fun s l => s.setFld (Reg.FWD_CABLE_MAP.port l) (numAt bs (2 * l) 2)) s

/-- Words of a table laid out as registers: `count` entries of `k` words. -/
def State.applyWords (s : State) (addr : Nat → Nat → Nat) (count k : Nat) (bs : List Byte) : State :=
  (List.range count).foldl (fun s n =>
    (List.range k).foldl (fun s w => s.setReg (addr n w) (BitVec.ofNat 32 (numAt bs (4 * (k * n + w)) 4))) s) s

def State.applyParts (s : State) (bs : List Byte) : State := s.applyWords (fun n w => Reg.STK_PART.addr (4 * n + w)) 16 3 bs
def State.applyAccess (s : State) (bs : List Byte) : State := s.applyWords accessOff 256 3 bs

/-- POOLS: five counts and the landing count of each die (R165). -/
def State.applyPools (s : State) (bs : List Byte) : State :=
  (List.range 4).foldl (fun s d =>
    let s := (List.range 5).foldl (fun s i => s.setFld (Reg.CORE_POOL_CFG.count d i) (numAt bs (24 * d + 4 * i) 4)) s
    s.setFld (Reg.CORE_LANDING_CFG.cells d) (numAt bs (24 * d + 20) 4)) s

/-- MANAGERS: the node numbers (R352). -/
def State.applyManagers (s : State) (bss : List (List Byte)) : State :=
  let ns := bss.flatMap fun bs => (recordsOf 4 bs).map fun r => numAt r 0 4
  (List.range 16).foldl (fun s i =>
    s.setReg (Reg.CFG_MANAGER.addr i) (match ns[i]? with
      | some n => BitVec.ofNat 32 (2 ^ 31 + n % 2 ^ 17)
      | none => 0)) s

/-! ### INDEX (R142, R143) -/

/-- One entry (Table 15-4). -/
def idxEntryOf (r : List Byte) : IdxEntry :=
  { addr := BitVec.ofNat 64 (numAt r 0 8), len := BitVec.ofNat 7 (numAt r 8 1), kind := BitVec.ofNat 2 (numAt r 9 1),
    partition := BitVec.ofNat 12 (numAt r 10 2), node := BitVec.ofNat 17 (numAt r 12 4),
    tree := BitVec.ofNat 16 (numAt r 16 2), base := BitVec.ofNat 46 (numAt r 18 6) }

/-- Entries sort by prefix, then length (R345). -/
def idxBefore (a b : IdxEntry) : Bool := a.addr < b.addr || (a.addr == b.addr && a.len < b.len)

def insertIdx (e : IdxEntry) : List IdxEntry → List IdxEntry
  | [] => [e]
  | x :: xs => if idxBefore e x then e :: x :: xs else x :: insertIdx e xs

/-- The bytes of an entry. -/
def idxEntryBytes (e : IdxEntry) : List Byte :=
  leBytes 8 e.addr.toNat ++ leBytes 1 e.len.toNat ++ leBytes 1 e.kind.toNat ++ leBytes 2 e.partition.toNat ++
    leBytes 4 e.node.toNat ++ leBytes 2 e.tree.toNat ++ leBytes 6 e.base.toNat

/-- The entries of a section in canonical order. -/
def idxEntries (bs : List Byte) : List IdxEntry :=
  ((recordsOf 24 (bs.drop 8)).map idxEntryOf).foldl (fun es e => insertIdx e es) []
def idxCanonical (bs : List Byte) : List Byte := sliceBytes bs 0 8 ++ (idxEntries bs).flatMap idxEntryBytes

/-- The index is built from the active sections of both scopes; a set that cannot be placed leaves it. -/
def State.rebuildIndex (s : State) : State :=
  let bss := [0, 1].filterMap fun scope => s.cfg.sections.get (2 * 0x05 + scope)
  let seed := (bss.map fun bs => numAt bs 0 8).getLastD 0
  let es := (bss.flatMap idxEntries).foldl (fun es e => insertIdx e es) []
  let s := s.setPair Reg.FWD_IDX_SEED_LO.value seed
  match placeIndex seed es (overflowCount s.fwd.catalogue) with
  | some p => { s with fwd.index := p }
  | none => s

/-! ### TREES and REGIONS -/

/-- TREES of a scope: its unbound trees are replaced; a bound tree stays (R349). -/
def State.applyTrees (s : State) (scope : Nat) (bs : List Byte) : State :=
  let gone := (s.fwd.trees.filter fun e => !e.2.bound && s.inScope 0x06 scope e.1).map (·.1)
  let s := { s with fwd.trees := s.fwd.trees.filter fun e => !gone.contains e.1 }
  ((recordsOf 340 bs).foldl (fun s r =>
    let t := numAt r 0 4
    if (s.tree t).bound then s else s.setTree t (treeOf fun i => BitVec.ofNat 32 (numAt r (4 + 4 * i) 4))) s).putSection
      0x06 scope bs

/-- Words 0 to 4 of a region as a section gives them: word 0 without its read-only bits. -/
def regionWord (r : List Byte) (w : Nat) : W32 :=
  let v := BitVec.ofNat 32 (numAt r (4 + 4 * w) 4)
  if w = 0 then v &&& 0x3FFFFFF2 else v

/-- A region of a section is installed just as it is. -/
def State.regionSame (s : State) (rec : List Byte) : Bool :=
  let r := numAt rec 0 4
  s.regionValid r && (List.range 5).all fun w =>
    let v := s.reg (Reg.STK_REGION_W0.addr r + 4 * w)
    (if w = 0 then v &&& 0x3FFFFFF2 else v) == regionWord rec w

/-- Region r goes; one that a collective holds stays (R349). -/
def State.dropRegion (s : State) (r : Nat) : State :=
  if s.regionBusy r then s
  else
    let s := (s.setFld (Reg.STK_REGION_W0.valid r) 0).setFld (Reg.STK_REGION_W0.clear_done r) 0
    { s with stk.clearing := s.stk.clearing.filter fun x => x ≠ r }

/-- A region of a section is installed; `keep`: its lines are kept as they are (R409), else they are cleared (R259). -/
def State.addRegion (s : State) (keep : Bool) (rec : List Byte) : State :=
  let r := numAt rec 0 4
  if s.regionBusy r ∨ s.regionSame rec then s
  else
    let s := (List.range 5).foldl (fun s w => s.setReg (Reg.STK_REGION_W0.addr r + 4 * w) (regionWord rec w)) s
    let s := s.setFld (Reg.STK_REGION_W0.valid r) 1
    if keep then s.setFld (Reg.STK_REGION_W0.clear_done r) 1 else s.startClearing r

/-- REGIONS of a scope: its regions are replaced. -/
def State.applyRegions (s : State) (keep : Bool) (scope : Nat) (bs : List Byte) : State :=
  let recs := recordsOf 24 bs
  let gone := s.regionsListed.filter fun r => s.inScope 0x07 scope r && !recs.any fun x => decide (numAt x 0 4 = r)
  let s := gone.foldl State.dropRegion s
  (recs.foldl (fun s x => s.addRegion keep x) s).putSection 0x07 scope bs

/-! ### TRANSIT, GATES, UMBRA, XTALK -/

/-- The eight words of a permutation's row. -/
def State.putPerm (s : State) (i : Nat) (ps : List Byte) : State :=
  (List.range 8).foldl (fun s w => s.setReg (Reg.TRN_PERM.addr (8 * i + w)) (BitVec.ofNat 32 (numAt ps (4 * w) 4))) s

/-- Permutations of a scope are replaced; those of the section are committed. -/
def State.applyPerms (s : State) (scope : Nat) (bs : List Byte) : State :=
  let gone := (s.trn.committed.filter fun e => s.inScope 0x09 scope e.1).map (·.1)
  let s := gone.foldl (fun s i =>
    let s : State := { s with trn.committed := s.trn.committed.del i }
    s.putPerm i []) s
  ((transitPerms bs).foldl (fun s e =>
    if e.1 = 0 then s else
      let s : State := { s with trn.committed := s.trn.committed.put e.1 true }
      s.putPerm e.1 e.2) s).putSection 0x09 scope bs

/-- UMBRA: the map is written into the latches' cells (R103). -/
def State.applyUmbra (s : State) (bs : List Byte) : State :=
  let s := (List.range 8).foldl (fun s n => s.setReg (Reg.TRN_UMBRA_MAP.addr n) (BitVec.ofNat 32 (numAt bs (4 * n) 4))) s
  s.startMapWrite (BitVec.ofNat 256 (numAt bs 0 32))

/-- XTALK: the commissioned matrices are the active ones (R66). -/
def State.applyXtalk (s : State) (bs : List Byte) : State :=
  (recordsOf 2596 bs).foldl (fun s r =>
    let f := numAt r 0 4
    let s := (List.range 648).foldl (fun s m => s.setReg (Reg.OPT_XT_ACTIVE.addr f m) (BitVec.ofNat 32 (numAt r (4 + 4 * m) 4))) s
    (s.setEngine f { s.engine f with xtNext := none, swapPending := false, identified := false }).setFld
      (Reg.OPT_XT_CTL.identified f) 0) s

/-! ### PROGRAMS -/

/-- A PROGRAMS section after another: the images of both but for the ids it unloads, and nothing left to unload. -/
def mergePrograms (old new : List Byte) : List Byte :=
  let out := (progsOf new).2
  let imgs := ((progsOf old).1.filter fun b => !out.contains (piId b)) ++ (progsOf new).1
  leBytes 4 imgs.length ++ imgs.flatten ++ leBytes 4 0

/-! ### All sections -/

/-- The data of an image's sections: `write` puts a REGS value into its register, `keep` is as in `addRegion`. Programs
are loaded apart. -/
def State.applyData (s : State) (write : State → Nat → W32 → State) (keep : Bool) (b : List Byte) : State :=
  let each (code : Nat) (go : State → Nat → List Byte → State) (s : State) : State :=
    (imgScopes b code).foldl (fun s e => go s e.1 e.2) s
  let raw (code : Nat) (go : State → List Byte → State) (s : State) : State :=
    each code (fun s scope bs => (go s bs).putSection code scope bs) s
  let s := each 0x01 (fun s scope bs => s.applyRegs write scope bs) s
  let s := raw 0x02 State.applyCable s
  let s := raw 0x03 State.applyParts s
  let s := raw 0x04 State.applyPools s
  let s := each 0x05 (fun s scope bs => s.putSection 0x05 scope (idxCanonical bs)) s
  let s := if (imgScopes b 0x05).isEmpty then s else s.rebuildIndex
  let s := each 0x06 State.applyTrees s
  let s := each 0x07 (fun s scope bs => s.applyRegions keep scope bs) s
  let s := raw 0x08 State.applyAccess s
  let s := each 0x09 State.applyPerms s
  let s := raw 0x0A (fun s _ => s) s
  let s := raw 0x0B State.applyUmbra s
  let s := raw 0x0C State.applyXtalk s
  let s := each 0x0D (fun s scope bs => s.putSection 0x0D scope (mergePrograms (s.section 0x0D scope) bs)) s
  let s := raw 0x0E (fun s _ => s) s
  let s := raw 0x0F (fun s _ => s) s
  let s := raw 0x10 (fun s _ => s) s
  if (imgScopes b 0x10).isEmpty then s else s.applyManagers [s.section 0x10 0, s.section 0x10 1]

end Sys2Proof.Machine
end

