-- ==== Sys2Proof/Machine/Content.lean ====
section
/-!
DEFINITION. The content checks of folios and amendments (R342, R343, R348): every section is held against the rules of its
owning chapter, on the state that the image's sections would leave, so that their order does not matter.
-/

namespace Sys2Proof.Machine

/-- A content error as CFG_AMEND_ERR reports it: section code, entry index, and 1 a rule or 2 a capacity. -/
structure ContentErr where
  code : Nat
  index : Nat
  detail : Nat
  deriving DecidableEq, Repr

def ruleErr (code index : Nat) : Option ContentErr := some ⟨code, index, 1⟩

/-- The first entry of a list that a test refuses, with the entries before it. -/
def firstBad {α : Type} (code : Nat) (ok : List α → α → Bool) (es : List α) : Option ContentErr :=
  match (List.range es.length).find? fun i => !((es[i]?.map fun e => ok (es.take i) e).getD true) with
  | some i => ruleErr code i
  | none => none

/-- Two checks, in order. -/
def orElse (a b : Option ContentErr) : Option ContentErr := match a with
  | some e => some e
  | none => b

/-! ### REGS -/

/-- The port and VC of a credit grant. -/
def grantAt (off : Nat) : Option (Port × Nat) :=
  let p := (off - 0x04000000) / 0x1000
  let k := off % 0x1000
  if 0x04000000 ≤ off ∧ off < 0x04200000 ∧ 0x40 ≤ k ∧ k < 0x60 then some (BitVec.ofNat 9 p, (k - 0x40) / 4) else none

/-- The bits of a register an entry may hold nothing in: wo and rw1c (R342). -/
def closedBits (off : Nat) : Nat :=
  match regRow? off with
  | some r => r.wo ||| r.rw1c
  | none => 0

/-- The rules of one register's value: ranges, and what its table ignores or refuses (R64, R122, R167, R180, R185, R441). -/
def State.valueOk (v : State) (off : Nat) (w : W32) : Bool :=
  v.rangeOk off w && textOk off w && (off ≠ Reg.SCH_VC_WEIGHT_A.addr || weightOk false w) &&
    (off ≠ Reg.SCH_VC_WEIGHT_B.addr || weightOk true w) && (!isMeterReg off || v.meterOk off w) &&
    (match grantAt off with
     | some (p, vc) => decide (grantMin vc ≤ w.toNat % 2 ^ 24) && v.grantOk p vc (w.toNat % 2 ^ 24)
     | none => true)

def State.checkRegs (v : State) (bs : List Byte) : Option ContentErr :=
  if bs.length % 8 ≠ 0 then ruleErr 0x01 (bs.length / 8)
  else firstBad 0x01 (fun _ e => isConfig e.1 && decide (e.2.toNat &&& closedBits e.1 = 0) && v.valueOk e.1 e.2) (regsEntries bs)

/-! ### CABLE_MAP, PARTITIONS and POOLS -/

/-- The map is a bijection (R27). -/
def checkCable (bs : List Byte) : Option ContentErr :=
  if bs.length ≠ 1024 then ruleErr 0x02 (bs.length / 2)
  else firstBad 0x02 (fun before e => decide (numAt e 0 2 < 512) && !before.contains e) (recordsOf 2 bs)

/-- Bytes of P3 and P4 of a die. -/
def State.spillNeed (v : State) (d : Nat) : Nat := v.poolCount d 3 * 2 ^ 14 + v.poolCount d 4 * 2 ^ 16

/-- A partition keeps R253, beside those before it. -/
def State.partOk (v : State) (n : Nat) : Bool :=
  let k := v.partKind n
  let d := v.partDie n
  let units (m : Nat) : Nat × Nat := ((v.reg (Reg.STK_PART.addr (4 * m + 1))).toNat % 1024, (v.reg (Reg.STK_PART.addr (4 * m + 2))).toNat % 1024)
  let (base, size) := units n
  k = 0 || (decide (k ≤ 5) && decide (base + size ≤ 768) && decide (v.partMask n ≠ 0) && decide (size ≠ 0) &&
    (List.range n).all (fun m =>
      v.partKind m = 0 || (decide (v.partMask m &&& v.partMask n = 0) || decide ((units m).1 + (units m).2 ≤ base) ||
        decide (base + size ≤ (units m).1)) && (k = 1 || v.partKind m ≠ k)) &&
    (k ≠ 1 || ((maskStacks (v.partMask n)).all (fun t => decide (t / 3 = d)) && decide (v.spillNeed d ≤ v.partSize n))) &&
    (k ≠ 5 || decide (v.partSize n = 2 ^ 26)))

/-- The partitions as a whole: each die has its SPILL, at most 96 GiB together, and there is an ALMANAC (R253). -/
def State.partsWhole (v : State) : Bool :=
  let spill := (List.range 16).filter fun n => v.partKind n = 1
  (List.range 4).all (fun d => spill.any fun n => v.partDie n = d) &&
    decide (spill.foldl (fun t n => t + v.partSize n) 0 ≤ 96 * 2 ^ 30) && (v.partOf 5).isSome

/-- PARTITIONS, checked for every folio, whether or not it has the section. -/
def State.checkParts (v : State) (bs : Option (List Byte)) : Option ContentErr :=
  if bs.any fun b => b.length ≠ 192 then ruleErr 0x03 ((bs.getD []).length / 12)
  else
    orElse (firstBad 0x03 (fun _ n => v.partOk n) (List.range 16)) (if v.partsWhole then none else ruleErr 0x03 16)

/-- A die's pools keep R165 and R167. -/
def State.poolsOk (v : State) (d : Nat) : Bool :=
  decide (v.poolCount d 0 + 4 * v.poolCount d 1 + 16 * v.poolCount d 2 + v.fld (Reg.CORE_LANDING_CFG.cells d) ≤ 155648) &&
    decide (v.grantSum d 0 8 0 ≤ v.poolCount d 4)

def State.checkPools (v : State) (bs : Option (List Byte)) : Option ContentErr :=
  let wide (b : List Byte) : Bool := (List.range 24).any fun i => decide (2 ^ (if i % 6 = 5 then 18 else 21) ≤ numAt b (4 * i) 4)
  if bs.any fun b => b.length ≠ 96 ∨ wide b then ruleErr 0x04 0
  else
    orElse (firstBad 0x04 (fun _ d => v.poolsOk d) (List.range 4))
      (if (List.range 4).foldl (fun n d => n + v.spillNeed d) 0 ≤ 96 * 2 ^ 30 then none else ruleErr 0x04 0)

/-! ### INDEX, TREES, REGIONS, ACCESS -/

/-- An index entry keeps R142, beside those before it. -/
def State.idxOk (v : State) (before : List (List Byte)) (r : List Byte) : Bool :=
  let e := idxEntryOf r
  let n := e.len.toNat
  let span := 2 ^ (64 - n)
  let b := e.base.toNat
  decide (idxEntryBytes e = r) && decide (1 ≤ n) && decide (n ≤ 64) && decide (e.kind ≠ 3) && !e.addr.getLsbD 63 &&
    decide (e.addr.toNat % span = 0) && !before.any (fun x => decide (x.take 9 = r.take 9)) &&
    (e.kind ≠ kindNode || (decide (18 ≤ n) && decide (b % span = 0) && decide (b + span ≤ 2 ^ 46))) &&
    (e.kind ≠ kindSelf || (decide (b % span = 0) && decide (b + span ≤ v.windowSize))) &&
    (e.kind ≠ kindTree || decide (b = 0))

/-- INDEX: the set is refused whole where an entry breaks a rule, or where it cannot be placed (R142, R143). `other`: the
entries of the other scope. -/
def State.checkIndex (v : State) (other bs : List Byte) : Option ContentErr :=
  let recs := recordsOf 24 (bs.drop 8)
  let es := recs.map idxEntryOf
  let more := recordsOf 24 (other.drop 8)
  let fits (n : Nat) : Bool :=
    (placeIndex (numAt bs 0 8) (more.map idxEntryOf ++ es.take n) (overflowCount v.fwd.catalogue)).isSome
  if bs.length < 8 ∨ (bs.length - 8) % 24 ≠ 0 then ruleErr 0x05 recs.length
  else
    match firstBad 0x05 (fun before r => v.idxOk (more ++ before) r) recs with
    | some e => some e
    | none => if fits es.length then none else some ⟨0x05, ((List.range es.length).find? fun i => !fits (i + 1)).getD 0, 2⟩

/-- TREES: unbound trees with indices of their own; a bound tree is not changed (R147, R349). -/
def State.checkTrees (s : State) (bs : List Byte) : Option ContentErr :=
  if bs.length % 340 ≠ 0 then ruleErr 0x06 (bs.length / 340)
  else firstBad 0x06 (fun before r =>
    decide (numAt r 0 4 < 0xFFFF) && decide (numAt r 4 1 / 2 % 2 = 0) && !(s.tree (numAt r 0 4)).bound &&
      !before.any fun x => decide (numAt x 0 4 = numAt r 0 4)) (recordsOf 340 bs)

/-- A region of a section keeps R259 on the state that all sections leave; a busy one is not changed (R349). -/
def State.regionRecOk (s v : State) (before : List (List Byte)) (rec : List Byte) : Bool :=
  let r := numAt rec 0 4
  let size := match v.partOf 3 with
    | some n => v.partSize n
    | none => 0
  decide (r < 4096) && !before.any (fun x => decide (numAt x 0 4 = r)) && (!s.regionBusy r || s.regionSame rec) &&
    !v.regionWordsBad r && decide (v.regionEnd r ≤ size) &&
    decide (regionFootprint (v.regionLines r) (v.regionFmt r) ≤ 2 ^ 36) &&
    !v.regionsListed.any fun q => q ≠ r && decide (v.regionBase q < v.regionEnd r) && decide (v.regionBase r < v.regionEnd q)

def State.checkRegions (s v : State) (scope : Nat) (bs : List Byte) : Option ContentErr :=
  let recs := recordsOf 24 bs
  if bs.length % 24 ≠ 0 then ruleErr 0x07 recs.length
  else
    orElse (firstBad 0x07 (s.regionRecOk v) recs)
      (if s.regionsListed.any fun r => s.regionBusy r && s.inScope 0x07 scope r && !recs.any fun x => decide (numAt x 0 4 = r)
       then ruleErr 0x07 recs.length else none)

/-- An access entry keeps R277, beside those before it. -/
def State.accessOk (v : State) (n : Nat) : Bool :=
  let base := v.fld (Reg.MSF_ACCESS_BASE.base n)
  let size := v.fld (Reg.MSF_ACCESS_SIZE.size n)
  !v.bit (Reg.MSF_ACCESS_CTL.valid n) || (decide (size ≠ 0) && decide ((base + size) * 2 ^ 21 ≤ v.windowSize) &&
    (List.range n).all fun m => !v.bit (Reg.MSF_ACCESS_CTL.valid m) ||
      !unitsMeet base size (v.fld (Reg.MSF_ACCESS_BASE.base m)) (v.fld (Reg.MSF_ACCESS_SIZE.size m)))

def State.checkAccess (v : State) (bs : List Byte) : Option ContentErr :=
  if bs.length ≠ 3072 then ruleErr 0x08 (bs.length / 12) else firstBad 0x08 (fun _ n => v.accessOk n) (List.range 256)

/-! ### TRANSIT, GATES, UMBRA, XTALK -/

/-- The bytes of a permutation keep R89: no output twice, none its own fibre; permutation 0 is the empty one. -/
def permBytesOk (i : Nat) (ps : List Byte) : Bool :=
  let dest (f : Nat) : Option Nat := let b := numAt ps f 1; if b / 32 % 2 = 1 then some (b % 32) else none
  if i = 0 then allZero ps
  else (List.range 32).all fun f =>
    decide (numAt ps f 1 < 64) && (match dest f with
      | none => true
      | some g => g ≠ f && (List.range 32).all fun h => h = f || dest h ≠ some g)

/-- TRANSIT (R89, R91). `two`: the other scope holds a calendar too. -/
def State.checkTransit (v : State) (two : Bool) (bs : List Byte) : Option ContentErr :=
  let p := numAt bs 8 2
  let n := numAt bs 10 2
  if bs.length ≠ 16 + 36 * p + 32 * n ∨ 4096 < n ∨ numAt bs 12 4 ≠ 0 ∨ (two ∧ n ≠ 0) then ruleErr 0x09 (p + n)
  else
    orElse (firstBad 0x09 (fun before e => decide (e.1 < 4096) && permBytesOk e.1 e.2 && !before.any fun x => x.1 = e.1)
        (transitPerms bs))
      (match firstBad 0x09 (fun _ (e : BitVec 256) => decide (1600 ≤ entryDur e) && decide (e.toNat / 2 ^ 224 = 0) &&
          (List.range 16).all fun k => v.permCommitted (entryPerm e k)) (transitEntries bs) with
       | some e => some { e with index := p + e.index }
       | none => none)

/-- GATES (R182). `other`: the lists of the other scope. -/
def checkGates (other bs : List Byte) : Option ContentErr :=
  let rs := gateRecs bs.length bs
  let more := gateRecs other.length other
  if rs.foldl (fun n r => n + 16 + 8 * r.entries.length) 0 ≠ bs.length then ruleErr 0x0A rs.length
  else firstBad 0x0A (fun before r =>
    decide (r.port < 512) && !(more ++ before).any (fun x => decide (x.port = r.port)) &&
      decide (1 ≤ r.entries.length) && decide (r.entries.length ≤ 256) &&
      r.entries.all fun e => decide (512 ≤ entryDur e) && decide (e.toNat / 2 ^ 40 = 0)) rs

/-- UMBRA: the pairing is mutual (R103). -/
def checkUmbra (bs : List Byte) : Option ContentErr :=
  if bs.length ≠ 32 then ruleErr 0x0B bs.length
  else
    let m := BitVec.ofNat 256 (numAt bs 0 32)
    firstBad 0x0B (fun _ f => let b := mapByte m f
      b < 128 || (decide (b % 32 ≠ f) && decide (128 ≤ mapByte m (b % 32)) && decide (mapByte m (b % 32) % 32 = f)))
      (List.range 32)

/-- XTALK: one matrix an engine, its diagonal zero (R65). -/
def checkXtalk (bs : List Byte) : Option ContentErr :=
  if bs.length % 2596 ≠ 0 then ruleErr 0x0C (bs.length / 2596)
  else firstBad 0x0C (fun before r =>
    decide (numAt r 0 4 < 32) && !before.any (fun x => decide (numAt x 0 4 = numAt r 0 4)) &&
      (List.range 36).all fun i => decide (numAt r (4 + 2 * (37 * i)) 2 = 0)) (recordsOf 2596 bs)

/-! ### PROGRAMS, GROUPS, EXCLUDE, MANAGERS -/

/-- The images of a section load one after another (R313): the first that does not, with its status. -/
def loadAll : State → Nat → List (List Byte) → State × Option ContentErr
  | s, _, [] => (s, none)
  | s, i, b :: bs =>
    match s.loadNow b with
    | (s, 1) => loadAll s (i + 1) bs
    | (s, c) => (s, some ⟨0x0D, i, if c = 5 ∨ c = 6 then 2 else 1⟩)

/-- PROGRAMS: every image loads beside the programs that are loaded, and every id it unloads may be unloaded (R313,
R314; log 44). `first`: the section of the other scope, if it loads before. -/
def State.checkPrograms (s : State) (first bs : List Byte) : Option ContentErr :=
  let s := (loadAll s 0 (progsOf first).1).1
  let (imgs, ids) := progsOf bs
  let size := 8 + imgs.foldl (fun n b => n + progLength b) 0 + 2 * ids.length
  if size ≠ bs.length ∨ imgs.length ≠ numAt bs 0 4 then ruleErr 0x0D imgs.length
  else
    match loadAll s 0 imgs with
    | (_, some e) => some e
    | (_, none) =>
      match firstBad 0x0D (fun _ (i : Nat) => (s.progSlot i).isSome && !s.progBound (BitVec.ofNat 16 i)) ids with
      | some e => some { e with index := imgs.length + e.index }
      | none => none

/-- GROUPS: records of 1,152 bytes that keep Table 10-1. -/
def checkGroups (bs : List Byte) : Option ContentErr :=
  if bs.length % 1152 ≠ 0 then ruleErr 0x0E (bs.length / 1152)
  else firstBad 0x0E (fun _ r => recordOk r) (recordsOf 1152 bs)

/-- EXCLUDE: elements of Table 14-1. -/
def checkExclude (bs : List Byte) : Option ContentErr :=
  if bs.length % 4 ≠ 0 then ruleErr 0x0F (bs.length / 4)
  else firstBad 0x0F (fun _ r => decide (numAt r 2 2 < elemCount (numAt r 0 2))) (recordsOf 4 bs)

/-- MANAGERS: up to 16 node numbers, `other` in the other scope. -/
def checkManagers (other bs : List Byte) : Option ContentErr :=
  if bs.length % 4 ≠ 0 ∨ 64 < other.length + bs.length then ruleErr 0x10 (min (bs.length / 4) 16)
  else firstBad 0x10 (fun _ r => decide (numAt r 0 4 < 2 ^ 17)) (recordsOf 4 bs)

/-! ### The image as a whole -/

/-- One section: `s` is the active state, `v` the state with every section applied. -/
def State.checkSection (s v : State) (b : List Byte) (r : DirRec) (bs : List Byte) : Option ContentErr :=
  let other := v.section r.code (1 - r.scope)
  match r.code with
  | 0x01 => v.checkRegs bs
  | 0x02 => checkCable bs
  | 0x03 => v.checkParts (some bs)
  | 0x04 => v.checkPools (some bs)
  | 0x05 => v.checkIndex other bs
  | 0x06 => s.checkTrees bs
  | 0x07 => s.checkRegions v r.scope bs
  | 0x08 => v.checkAccess bs
  | 0x09 => v.checkTransit (decide (numAt other 10 2 ≠ 0)) bs
  | 0x0A => checkGates other bs
  | 0x0B => checkUmbra bs
  | 0x0C => checkXtalk bs
  | 0x0D => s.checkPrograms (if r.scope = 1 then (imgSection b 0x0D 0).getD [] else []) bs
  | 0x0E => checkGroups bs
  | 0x0F => checkExclude bs
  | 0x10 => checkManagers other bs
  | _ => ruleErr r.code 0

/-- The state with every section of an image applied, for the checks. -/
def State.viewOf (s : State) (b : List Byte) : State := s.applyData State.maskedReg false b

/-- The first content error of an image, in the order of its directory; a folio's partitions and pools are checked even
where it has no section for them. -/
def State.contentErr (s : State) (folio : Bool) (b : List Byte) : Option ContentErr :=
  let v := s.viewOf b
  let secs := (imgDir b).findSome? fun r => s.checkSection v b r (secBytes b r)
  let whole := if folio then orElse (v.checkParts none) (v.checkPools none) else none
  orElse secs whole

/-- The port that CABLE_MAP names twice first (R27). -/
def cableDuplicate (b : List Byte) : Option Nat :=
  (imgSectionsOf b 0x02).findSome? fun bs =>
    match checkCable bs with
    | some e => some (numAt bs (2 * e.index) 2)
    | none => none

end Sys2Proof.Machine
end

