-- ==== Sys2Proof/Machine/ConfigApply.lean ====
section
/-!
DEFINITION. Applying a folio (R343), staging, cancelling and firing an amendment (R348 to R350), and the firing of every
pending activation (R58).
-/

namespace Sys2Proof.Machine

/-! ### A configuration field takes a value -/

/-- The effect of a value in a configuration register, beside its storing: as a register write of it has. -/
def State.cfgEffect (s : State) (off : Nat) (v : W32) : State :=
  let port := BitVec.ofNat 9 ((off - 0x04000000) / 0x1000)
  match off / 0x1000000 with
  | 0x00 => (s.storeFields off v).alertFrom s
  | 0x01 => if off = Reg.EPH_PARENT01.addr ∨ off = Reg.EPH_PARENT23.addr then (s.storeFields off v).refreshParent else s.storeFields off v
  | 0x03 => if off = Reg.TRN_CTL.addr then (s.storeFields off v).refreshTransit else s.storeFields off v
  | 0x08 =>
    match arrayIndex? (Reg.CORE_MIR_CTL.addr 0) 4 (Reg.CORE_MIR_CTL.addr 1 - Reg.CORE_MIR_CTL.addr 0) off with
    | some n => s.writeMirCtl n v
    | none => s.storeFields off v
  | 0x0A =>
    if off = Reg.SCH_VC_WEIGHT_A.addr ∨ off = Reg.SCH_VC_WEIGHT_B.addr ∨ isMeterReg off then s.schWrite off v
    else s.storeFields off v
  | 0x16 =>
    if off = Reg.HLT_CTL.addr then
      let t := s.storeFields off v
      if s.fld Reg.HLT_CTL.fence_cap < t.fld Reg.HLT_CTL.fence_cap then t.retryGroup 100 else t
    else s.storeFields off v
  | _ =>
    if 0x04000000 ≤ off ∧ off < 0x04200000 then
      if off % 0x1000 = 0x000 then s.writeLnkCtl port v
      else if off % 0x1000 = 0x010 then s.setFence port (v.toNat % 4)
      else s.storeFields off v
    else s.storeFields off v

/-- The effect of a REGS entry of an amendment: bits of the register that are not configuration keep their value. -/
def State.amendReg (s : State) (off : Nat) (v : W32) : State :=
  let m := BitVec.ofNat 32 ((cfgMask off).getD 0)
  s.cfgEffect off (v &&& m)

/-! ### Refusals -/

/-- CFG_AMEND_ERR reports a failure (Table 15-9). -/
def State.setAmendErr (s : State) (e : ContentErr) : State :=
  ((s.setFld Reg.CFG_AMEND_ERR.section e.code).setFld Reg.CFG_AMEND_ERR.index e.index).setFld Reg.CFG_AMEND_ERR.detail e.detail

/-- A program image that no key of its role verifies counts as refused for its signature (R380). -/
def State.noteProgSig (s : State) (b : List Byte) (e : ContentErr) : State :=
  if e.code = 0x0D ∧ (imgSectionsOf b 0x0D).any fun bs => (progsOf bs).1.any fun i => !s.progSigned i then s.verifyFail else s

/-! ### The folio (R343) -/

/-- A byte of a flash area; an erased one reads 0xFF. -/
def flashByte (m : SMap Byte) (i : Nat) : Byte := SMap.read 0xFF m i
def flashBytes (m : SMap Byte) (o n : Nat) : List Byte := (List.range n).map fun i => flashByte m (o + i)

/-- The folio in flash, by the length word of its header, which must lie within the area (R379). -/
def State.flashFolio (s : State) : Option (List Byte) :=
  let n := numAt (flashBytes s.cfg.flash.folio 0 12) 8 4
  if 242 ≤ n ∧ n ≤ 0x8000000 then some (flashBytes s.cfg.flash.folio 0 n) else none

/-- The target word names this stepping (Table 15-2). -/
def targetOk (b : List Byte) : Bool := decide (imgTarget b = 0xA1)

/-- What is wrong with a folio, if anything: a failure before the sections is reported with section 0. -/
def State.folioErr (s : State) (b : List Byte) : Option ContentErr :=
  if !s.roleVerifies roleFolio ctxFolio b then ruleErr 0 0
  else if !imgFormatOk b 0 0x8000000 || !targetOk b then ruleErr 0 1
  else s.contentErr true b

/-- The CXL link trains once PERST_N is deasserted and no cold or device reset is in progress (R404). -/
def State.hostTrains (s : State) : State :=
  match s.pwr.hostSetup with
  | none => s
  | some (w, r, m) =>
    if s.pwr.perst ∨ s.pwr.resetting then s
    else
      let s := (s.setFld Reg.GLB_STATUS.host_up 1).setFld Reg.GLB_STATUS.host_width w.toNat
      { s.setFld Reg.GLB_STATUS.host_rate r.toNat with msixEnable := m }

/-- The host link is down: its status fields read 0. -/
def State.hostDown (s : State) : State :=
  ((s.setFld Reg.GLB_STATUS.host_up 0).setFld Reg.GLB_STATUS.host_width 0).setFld Reg.GLB_STATUS.host_rate 0

/-- The folio is BAD: the device halts with it (R343). -/
def State.folioBad (s : State) (e : ContentErr) (more : List Nat) : State :=
  let s := (s.setFld Reg.CFG_STATUS.folio_state 3).setAmendErr e
  let s := (s.raise Reg.CFG_INT_STATUS.folio_bad).log 0x17 .folioBad 0 ([e.code, e.index, e.detail] ++ more)
  ({ s.setFld Reg.GLB_STATUS.boot 5 with pwr.resetting := false, pwr.deviceReset := false } : State).hostTrains

/-- Elements of the exclusion list are EXCLUDED from a cold reset on: a tile is served by its die's spare, a port starts
FENCED (R339). -/
def State.exclude (s : State) (cls idx : Nat) : State :=
  let s := s.setElemAt cls idx { s.elemAt cls idx with state := .excluded }
  if cls = 1 ∧ idx < 64 then
    if (s.cnj.spareOf.get (tileDie idx)).isNone ∧ (s.elemAt 1 (64 + tileDie idx)).state ≠ .excluded then
      { s with cnj.spareOf := s.cnj.spareOf.put (tileDie idx) idx }
    else s
  else if cls = 5 then s.setFld (Reg.LNK_FENCE.state idx) 1
  else s

/-- What a cold reset fills once the folio is known: budgets are full (R324), and the exclusion list holds. -/
def State.coldElems (s : State) (b : List Byte) : State :=
  let s := (List.range 101).foldl (fun s g =>
    s.setFld (Reg.HLT_BUDGET_TOK.tokens g) (s.fld (Reg.HLT_BUDGET_CFG.burst (groupClass g)))) s
  (((imgScopes b 0x0F).flatMap fun e => recordsOf 4 e.2).map fun r => (numAt r 0 2, numAt r 2 2)).foldl
    (fun s e => s.exclude e.1 e.2) s

/-- After a device reset EXPELLED ports are set to their expulsion state again (R339). -/
def State.refence (s : State) : State :=
  (List.range 512).foldl (fun s p =>
    if (s.elemAt 5 p).state = .expelled then
      s.setFld (Reg.LNK_FENCE.state p) (if s.bit Reg.HLT_CTL.link_isolate then 2 else 1)
    else s) s

/-- Optical calibration starts on every enabled engine (R84). -/
def State.startCalibration (s : State) : State :=
  (List.range 32).foldl (fun s f =>
    if s.bit (Reg.OPT_CTL.engine_en f) then s.setEngine f { s.engine f with calState := 1 } else s) s

/-- Programs of an image load, its group records enter the configuration queue, in order. -/
def State.loadPrograms (s : State) (b : List Byte) : State :=
  (imgScopes b 0x0D).foldl (fun s e => (progsOf e.2).1.foldl (fun s i => (s.loadNow i).1) s) s
def State.queueGroups (s : State) (b : List Byte) : State :=
  (imgScopes b 0x0E).foldl (fun s e => (recordsOf 1152 e.2).foldl (fun s r => s.queueRecord r none) s) s

/-- The folio is applied, and the device runs. -/
def State.folioGood (s : State) (b : List Byte) : State :=
  let device := s.pwr.deviceReset
  let s := ((s.setFld Reg.CFG_DOMAIN.value (imgDomain b)).setFld Reg.CFG_EPOCH.value (imgEpoch b))
  let s := { s with swAddr := Config.folioSwitch b, sec.folioMeas := Config.shake256 b 64 }
  let s := s.applyData State.maskedReg (device && !s.stk.fillPending) b
  let s := s.loadPrograms b
  let s := if device then s.refence else s.coldElems b
  let s := ((s.setFld Reg.CFG_STATUS.folio_state 2).setFld Reg.GLB_STATUS.boot 3).setFld Reg.CFG_STATUS.colophon_busy 1
  let s := ({ s with pwr.resetting := false, pwr.deviceReset := false } : State).hostTrains
  (s.startCalibration).queueGroups b

def execFolioApply (s : State) : Outcome :=
  if s.fld Reg.GLB_STATUS.boot ≠ 2 then .next s
  else
    match s.flashFolio with
    | none => .next (s.verifyFail.folioBad ⟨0, 0, 1⟩ [])
    | some b =>
      match s.folioErr b with
      | some e =>
        let s := if e = ⟨0, 0, 1⟩ then s.verifyFail else s.noteProgSig b e
        .next (s.folioBad e (cableDuplicate b).toList)
      | none => .next (s.folioGood b)

/-! ### Staging an amendment (R348) -/

/-- Causes of Table 15-5. -/
def acStaged : Nat := 0
def acSignature : Nat := 1
def acFormat : Nat := 2
def acTarget : Nat := 3
def acEpoch : Nat := 4
def acBase : Nat := 5
def acNotAmendable : Nat := 6
def acContent : Nat := 7
def acBusy : Nat := 8
def acLate : Nat := 9
def acMisaligned : Nat := 10
def acNotManager : Nat := 11
def acTransfer : Nat := 12
def acFired : Nat := 14

/-- The codes an amendment may carry (Table 15-3). -/
def amendable (code : Nat) : Bool := decide (1 ≤ code) && decide (code ≤ 0x10) && ! [0x03, 0x04, 0x0E, 0x0F].contains code

/-- The colophon as the registers hold it. -/
def State.colophon (s : State) : List Byte := (List.range 8).flatMap fun i => leBytes 4 (s.reg (Reg.CFG_COLOPHON.addr i)).toNat

/-- The active and the carried bank of an object an image carries. -/
def State.carriedBanks (s : State) (b : List Byte) (k : Nat) : Bank × Bank × Nat :=
  if k = objCal then
    let es := transitEntries ((calSection b).getD [])
    (s.calActive, bankOf 0 es, es.length)
  else
    let es := ((((imgSectionsOf b 0x0A).flatMap fun bs => gateRecs bs.length bs).find? fun r => objGate r.port = k).map
      GateRec.entries).getD []
    (s.gateActive.read { } (k - 2), bankOf 0 es, es.length)

/-- The first object of an amendment that R57 refuses, with its reason. -/
def State.armTrouble (s : State) (b : List Byte) : Option (Nat × Nat) :=
  let t := imgTAct b
  let objs := imgObjects b
  match s.armDecide (s.act objAmend) t none, objs.find? fun k => (s.act k).pending with
  | some r, k => if r = arBusy ∨ k.isNone then some (objAmend, r) else some (k.getD 0, arBusy)
  | none, some k => some (k, arBusy)
  | none, none => objs.findSome? fun k => (s.armDecide (s.act k) t (some (s.carriedBanks b k))).map fun r => (k, r)

/-- The check of Table 15-5 an amendment fails first, with the content error. -/
def State.amendTrouble (s : State) (b : List Byte) : Option (Nat × Option ContentErr) :=
  if !s.roleVerifies roleAmend ctxAmend b then some (acSignature, none)
  else if !imgFormatOk b 1 0x800000 then some (acFormat, none)
  else if !targetOk b ∨ imgDomain b ≠ s.fld Reg.CFG_DOMAIN.value then some (acTarget, none)
  else if imgEpoch b ≠ (s.fld Reg.CFG_EPOCH.value + 1) % 2 ^ 32 then some (acEpoch, none)
  else if s.bit Reg.CFG_STATUS.colophon_busy ∨ imgBase b ≠ s.colophon then some (acBase, none)
  else if (imgDir b).any fun r => !amendable r.code then some (acNotAmendable, none)
  else
    match s.contentErr false b with
    | some e => some (acContent, some e)
    | none =>
      match s.armTrouble b with
      | some (_, r) => some (if r = arBusy then acBusy else if r = arLate then acLate else acMisaligned, none)
      | none => none

/-- The objects that a pending amendment armed are disarmed as another takes its place. -/
def State.releaseAmendment (s : State) : State :=
  match s.cfg.pendingAmend with
  | none => s
  | some a => (imgObjects a.image).foldl (fun s k => s.setAct k { s.act k with pending := false, state := 0, reason := arNone }) s

/-- An amendment is refused: nothing changes but what reports it. -/
def State.amendRefused (s : State) (cause : Nat) (e : Option ContentErr) (more : List Nat) : State :=
  let s := match e with
    | some e => s.setAmendErr e
    | none => s
  let s := (s.setFld Reg.CFG_AMEND_STATUS.cause cause).raise Reg.CFG_INT_STATUS.amend_refused
  s.log 0x17 .amendmentRefused cause ((e.map fun e => [e.code, e.index, e.detail]).getD [] ++ more)

/-- A refusal of R57 shows in the object's status (Table 2-8). -/
def State.armRefused (s : State) (k r : Nat) : State :=
  let a := s.act k
  (s.setAct k { a with reason := r, state := if a.pending then a.state else 3 }).raise Reg.EPH_INT_STATUS.act_refused

/-- A staged image is checked and takes its place as the pending amendment, or is refused (R348): the cause. -/
def State.stageAmend (s : State) (b : List Byte) : State × Nat :=
  match s.amendTrouble b with
  | some (c, e) =>
    let s := if c = acSignature then s.verifyFail else match e with
      | some e => s.noteProgSig b e
      | none => s
    let s := if acBusy ≤ c then match s.armTrouble b with
        | some (k, r) => s.armRefused k r
        | none => s
      else s
    (s.amendRefused c e (if e.isSome then (cableDuplicate b).toList else []), c)
  | none =>
    let s := s.releaseAmendment
    let t := imgTAct b
    let s := (objAmend :: imgObjects b).foldl (fun s k =>
      s.setAct k { pending := true, tAct := t, state := 1, reason := arNone }) s
    let s := { s with cfg.pendingAmend := some { image := b, tAct := t, epoch := BitVec.ofNat 32 (imgEpoch b) } }
    ((s.setFld Reg.CFG_AMEND_STATUS.cause acStaged).raise Reg.CFG_INT_STATUS.amend_staged, acStaged)

/-- Cancels the pending amendment under R57 (R350): cause 0, or 8 where it is too close. -/
def State.cancelAmend (s : State) : State × Nat :=
  match s.cfg.pendingAmend with
  | none => (s, acStaged)
  | some _ =>
    match s.cancel objAmend with
    | (s, true) => (s.dropAmendment acStaged .amendmentCancelled, acStaged)
    | (s, false) => (s.setFld Reg.CFG_AMEND_STATUS.cause acBusy, acBusy)

/-! ### Firing (R58, R349) -/

/-- The ports whose cabling map entry differs between two states abort their cut-overs (R81). -/
def State.cableMoves (s before : State) : State :=
  (List.range 32).foldl (fun s f =>
    match (s.engine f).cutover with
    | none => s
    | some c =>
      let p := portOf f c.duty
      if s.leafOn p = before.leafOn p then s else s.abortCutover f 4) s

/-- An object has fired: its status, and FIRED_LATE where its time passed in FREE or ACQUIRE. -/
def State.hasFired (s : State) (k : Nat) (late : Bool) : State :=
  let s := s.setAct k { s.act k with pending := false, state := 2, reason := if late then arFiredLate else arNone }
  if late then s.raise Reg.EPH_INT_STATUS.act_fired_late else s

/-- The contents that an amendment carries fill the shadow banks of their objects. -/
def State.fillCarried (s : State) (b : List Byte) : State :=
  let s := match calSection b with
    | some bs => s.fillCal (transitEntries bs)
    | none => s
  ((imgSectionsOf b 0x0A).flatMap fun bs => gateRecs bs.length bs).foldl (fun s r => s.fillGates r.port r.entries) s

/-- The pending amendment takes effect: every section at once, then the epoch (R349). -/
def State.fireAmend (s : State) (a : Amendment) (late : Bool) : State :=
  let before := s
  let s := { s with cfg.pendingAmend := none }
  let s := (s.applyData State.amendReg false a.image).loadPrograms a.image
  let s := ((imgScopes a.image 0x0D).flatMap fun e => (progsOf e.2).2).foldl (fun s id => (s.beginUnload id false none).1) s
  let s := (s.cableMoves before).fillCarried a.image
  let s := (s.setFld Reg.CFG_EPOCH.value a.epoch.toNat).setFld Reg.CFG_STATUS.colophon_busy 1
  let s := { s with hlt.activatedAt := some s.ft }
  let s := (s.setFld Reg.CFG_AMEND_STATUS.cause acFired).raise Reg.CFG_INT_STATUS.amend_fired
  (s.log 0x17 .amendmentFired 0 [a.epoch.toNat]).hasFired objAmend late

/-- The transit calendar's banks swap, with a base. -/
def State.fireCal (s : State) (base : Nat) (late : Bool) : State :=
  let dest := maskOf s.isDest
  let source := maskOf s.isSource
  let old := s.calActive.len
  let (act, sh) := swapBanks s.calActive s.calShadow (s.fld Reg.TRN_CAL_LEN.shadow + 1) base
  let was := s.calActive.on
  let s := ({ s with calActive := act, calShadow := sh } : State).showCal
  let s := if was then s.setFld Reg.TRN_CAL_LEN.shadow (old - 1) else s
  let s := s.setFld Reg.TRN_CAL_LEN.active (act.len - 1)
  let s := if s.eph.state.runsCalendar then
      ({ s with trn.calRunning := true, trn.calEntry := act.entryAt s.ft }).returnPorts (act.startAt s.ft) dest source
    else s
  s.hasFired objCal late

/-- A port's gate list swaps its banks. -/
def State.fireGates (s : State) (p base : Nat) (late : Bool) : State :=
  let a := s.gateActive.read { } p
  let (act, sh) := swapBanks a (s.gateShadow.read { } p) (s.fld (Reg.SCH_GATE_LEN.shadow p) + 1) base
  let s := ({ s with gateActive := s.gateActive.write { } p act, gateShadow := s.gateShadow.write { } p sh } : State).showGates p
  let s := if a.on then s.setFld (Reg.SCH_GATE_LEN.shadow p) (a.len - 1) else s
  (s.setFld (Reg.SCH_GATE_LEN.active p) (act.len - 1)).hasFired (objGate p) late

/-- The order of activations with one T_act: the amendment, the calendar, gate lists (R58). -/
def actRank (k : Nat) : Nat := if k = objAmend then 0 else if k = objCal then 1 else k

/-- The object that fires next: pending, due, with the earliest T_act. -/
def State.nextDue (s : State) : Option (Nat × Act) :=
  (s.acts.filter fun e => e.2.pending && decide (e.2.tAct ≤ s.ft)).foldl (fun m e =>
    match m with
    | none => some e
    | some x => if (e.2.tAct < x.2.tAct) ∨ (e.2.tAct = x.2.tAct ∧ actRank e.1 < actRank x.1) then some e else m) none

/-- Fires one object; its base is T_act, or the FT of firing where it waited in FREE or ACQUIRE. -/
def State.fireOne (s : State) (k : Nat) (a : Act) : State :=
  let late := decide (a.tAct < s.eph.lockedAt)
  let base := if late then s.ft else a.tAct
  let t := if k = objAmend then match s.cfg.pendingAmend with
      | some x => s.fireAmend x late
      | none => s.hasFired objAmend late
    else if k = objCal then s.fireCal base late
    else s.fireGates (k - 2) base late
  t.reconfigured s

/-- Every due activation fires, in order. -/
def fireDue : Nat → State → State
  | 0, s => s
  | n + 1, s =>
    match s.nextDue with
    | some (k, a) => fireDue n (s.fireOne k a)
    | none => s

def execActivationFire (s : State) : Outcome :=
  if s.eph.state.drives then .next (fireDue s.acts.length s) else .next s

end Sys2Proof.Machine
end

