-- ==== Sys2Proof/Machine/Transfers.lean ====
section
/-!
DEFINITION. Images that arrive in fragments (R351, R366).
-/

namespace Sys2Proof.Machine

/-- The transfers by number. -/
def xfAmend : Nat := 0
def xfProgram : Nat := 1
def xfFolio : Nat := 2
def xfFirmware : Nat := 3

/-- Two commands are of one sender: over the fabric one (snode, tag), out of band one address (R351). -/
def sameSender (a b : Transport) : Bool :=
  match a, b with
  | .mailbox, .mailbox => true
  | .oob m _, .oob n _ => m == n
  | .fabric _ n w t, .fabric _ m v u => n == m && w == v && t == u
  | _, _ => false

/-- What a fragment is to the transfers under way. -/
inductive FragWay where
  /-- Another transfer is open. -/
  | busy
  /-- It repeats the last accepted offset, which was answered so (none: a fragment that was not the last). -/
  | repeated (answer : Option (Nat × List Byte))
  /-- Out of order or oversize. -/
  | refused
  /-- Accepted; whether it is the last. -/
  | taken (last : Bool)
  deriving DecidableEq, Repr

/-- Judges a fragment of `len` bytes at an offset. `whole`: every fragment but the last has 4,096 bytes. -/
def fragWay (t : Option Transfer) (src : Transport) (off total len limit : Nat) (whole : Bool) : FragWay :=
  let fits := decide (0 < len) && decide (off + len ≤ total) && (!whole || len == 4096 || off + len == total)
  let fresh : FragWay := if off = 0 ∧ fits ∧ total ≤ limit then .taken (len == total) else .refused
  match t with
  | none => fresh
  | some t =>
    match t.answer with
    | some a => if sameSender t.src src ∧ off = t.last ∧ off ≠ 0 then .repeated (some a) else fresh
    | none =>
      if !sameSender t.src src then .busy
      else if off = t.last then .repeated none
      else if off = t.next ∧ total = t.total ∧ fits then .taken (off + len == total)
      else .refused

/-- The transfer after an accepted fragment. -/
def State.fragTaken (s : State) (k : Nat) (src : Transport) (off total len : Nat) : State :=
  { s with cfg.transfers :=
      s.cfg.transfers.put k { src := src, next := off + len, last := off, total := total, at_ := s.ft } }

/-- The transfer is complete; its last fragment was answered so. -/
def State.fragDone (s : State) (k : Nat) (code : Nat) (data : List Byte) : State :=
  match s.cfg.transfers.get k with
  | some t => { s with cfg.transfers := s.cfg.transfers.put k { t with answer := some (code, data) } }
  | none => s

/-- A transfer is open. -/
def State.xfOpen (s : State) (k : Nat) : Bool :=
  match s.cfg.transfers.get k with
  | some t => t.answer.isNone
  | none => false

/-- Puts bytes into a staging area; an area's bytes are those of one transfer, which begins at offset 0. -/
def stagePut (m : SMap Byte) (off : Nat) (bs : List Byte) : SMap Byte := writeBytes (if off = 0 then [] else m) off bs

/-- A transfer of an amendment is abandoned with cause TRANSFER. -/
def State.amendTransferFails (s : State) : State :=
  let s := { s with cfg.transfers := s.cfg.transfers.del xfAmend, cfg.amendStage := [] }
  (s.setFld Reg.CFG_STATUS.staging_busy 0).amendRefused acTransfer none []

/-- A fragment of an amendment (R348, R351): the state and the status it is answered with. -/
def State.amendFragment (s : State) (src : Transport) (off total : Nat) (bs : List Byte) (whole : Bool) : State × Nat :=
  match fragWay (s.cfg.transfers.get xfAmend) src off total bs.length 0x800000 whole with
  | .busy => (s, acBusy)
  | .repeated a => (s, (a.map (·.1)).getD 0)
  | .refused => (s.amendTransferFails, acTransfer)
  | .taken last =>
    let s := { s.fragTaken xfAmend src off total bs.length with cfg.amendStage := stagePut s.cfg.amendStage off bs }
    if last then
      match s.stageAmend (stageBytes s.cfg.amendStage total) with
      | (s, c) => ((s.fragDone xfAmend c []).setFld Reg.CFG_STATUS.staging_busy 0, c)
    else (s.setFld Reg.CFG_STATUS.staging_busy 1, 0)

/-- A transfer that has been idle for 100 ms is abandoned (R351, R366). -/
def State.transferIdle (s : State) (k : Nat) : State :=
  match s.cfg.transfers.get k with
  | none => s
  | some t =>
    if t.answer.isSome ∨ s.ft < t.at_ + 1600000000 then s
    else if k = xfAmend then s.amendTransferFails
    else
      let s := { s with cfg.transfers := s.cfg.transfers.del k }
      if k = xfProgram then { s with cfg.progStage := [] } else s

end Sys2Proof.Machine
end

