-- ==== Sys2Proof/Machine/ConfigRows.lean ====
section
/-!
DEFINITION. The meanings of the commands of chapter 15 but the check units: configuration fields, the colophon, amendments
and their management frames.
-/

namespace Sys2Proof.Machine

/-! ### Configuration fields (R347) -/

/-- Activations that are due take effect before a write of the same FT (R421). -/
def State.fired (s : State) : State := if s.eph.state.drives then fireDue s.acts.length s else s

/-- The effect of a register write to a configuration field: as an amendment's, with the operations that a write of its
register starts. -/
def State.cfgWriteEffect (s : State) (off : Nat) (v : W32) : State :=
  let f := (off - 0x02000000) / 0x10000
  if 0x02000000 ≤ off ∧ off < 0x02200000 ∧ off % 0x10000 = 0 then
    (s.draw).writeOptCtl f v ((Config.freeSearch s.fresh).setWidth 36)
  else if 0x02000000 ≤ off ∧ off < 0x02200000 ∧ off = Reg.OPT_XT_CTL.addr f then s.writeXtCtl f v
  else if off = Reg.TRN_CTL.addr then (s.draw).writeTrnCtl v (Config.freeSearch s.fresh)
  else if off = Reg.TRN_UMBRA_CTL.addr then s.writeUmbraCtl v
  else s.cfgEffect off v

/-- A register write to a configuration field, with the refusals of the registers that have their own (R122, R167, R180,
R185). -/
def State.cfgWrite (s : State) (off : Nat) (v : W32) : State :=
  if off = Reg.SCH_VC_WEIGHT_A.addr then s.writeWeights false v
  else if off = Reg.SCH_VC_WEIGHT_B.addr then s.writeWeights true v
  else if isMeterReg off then s.writeMeter off v
  else
    match grantAt off with
    | some (p, vc) =>
      if s.answers off && !s.grantOk p vc (v.toNat % 2 ^ 24) then s.regAccess off
      else s.regWrite off v fun s => s.storeFields off v
    | none => s.regWrite off v fun s => s.cfgWriteEffect off v

def execConfigFieldWrite (_r : Requester) (off : BitVec 29) (value : W32) (s : State) : Outcome :=
  if isConfig off.toNat then .next (s.fired.cfgWrite off.toNat value) else .next s

/-! ### The colophon (R346) -/

/-- Stores a digest in eight registers. -/
def State.putDigest (s : State) (addr : Nat → Nat) (bs : List Byte) : State :=
  (List.range 8).foldl (fun s i => s.setReg (addr i) (BitVec.ofNat 32 (numAt bs (4 * i) 4))) s

def execColophonRecomputeDone (s : State) : Outcome :=
  if s.bit Reg.CFG_STATUS.colophon_busy then
    let c := s.digest 1
    let l := s.digest 0
    let s := (s.putDigest Reg.CFG_COLOPHON.addr c).putDigest Reg.CFG_LOCAL_DIGEST.addr l
    .next ((s.setFld Reg.CFG_STATUS.colophon_busy 0).raise Reg.CFG_INT_STATUS.colophon_ready)
  else .next s

/-- The flags of the colophon report (Table 15-7). -/
def State.reportFlags (s : State) : Nat :=
  (if s.bit Reg.CFG_STATUS.colophon_busy then 1 else 0) + (if s.bit Reg.CFG_STATUS.drift then 2 else 0) +
    (if s.cfg.pendingAmend.isSome then 4 else 0) + (if s.fld Reg.CFG_STATUS.folio_state = 3 then 8 else 0)

/-- The local digest as the registers hold it. -/
def State.localDigest (s : State) : List Byte :=
  (List.range 8).flatMap fun i => leBytes 4 (s.reg (Reg.CFG_LOCAL_DIGEST.addr i)).toNat

/-- The colophon report (Table 15-7). -/
def State.colophonReport (s : State) : List Byte :=
  s.colophon ++ s.localDigest ++ leBytes 4 (s.fld Reg.CFG_EPOCH.value) ++ leBytes 4 s.reportFlags ++
    leBytes 8 ((s.cfg.pendingAmend.map fun a => a.tAct).getD 0) ++
    leBytes 4 ((s.cfg.pendingAmend.map fun a => a.epoch.toNat).getD 0) ++ leBytes 12 0

/-! ### CFG_AMEND_CMD (R348, R350) -/

/-- A write to CFG_AMEND_CMD: with go, op 0 stages CFG_AMEND_STAGE, op 1 cancels. A stage waits for no transfer: while one
fills the staging it does nothing (log 46). -/
def State.writeAmendCmd (s : State) (v : W32) : State :=
  let s := s.storeFields Reg.CFG_AMEND_CMD.addr v
  if !v.getLsbD 1 then s
  else if v.getLsbD 0 then s.cancelAmend.1
  else if s.bit Reg.CFG_STATUS.staging_busy then s
  else (s.stageAmend (stageBytes s.cfg.amendStage (s.fld Reg.CFG_AMEND_LEN.bytes))).1

def execCfgAmendStage (value : W32) (s : State) : Outcome :=
  if value.getLsbD 1 ∧ !value.getLsbD 0 then
    .next (s.regWrite Reg.CFG_AMEND_CMD.addr value fun s => s.writeAmendCmd value)
  else .next s

def execCfgAmendCancel (value : W32) (s : State) : Outcome :=
  if value.getLsbD 1 ∧ value.getLsbD 0 then
    .next (s.regWrite Reg.CFG_AMEND_CMD.addr value fun s => s.writeAmendCmd value)
  else .next s

/-! ### Management frames (R351 to R353) -/

/-- A MGMT frame of an opcode that reaches the hub die is taken by a rule. -/
def State.mgmtIn (s : State) (op : BitVec 8) (p : Port) (f : Frame) (ok : Bool) (rule : State → State) : State :=
  if f.ftype = ftMgmt ∧ f.opcode = op ∧ f.dclass then
    s.routed p f 0 (fun s k => if ok then rule (s.freeBuf k) else (s.freeBuf k).dataError (dieOf p)) fun s k => s.freeBuf k
  else s

/-- AMEND_FRAG. -/
def State.takeAmendFrag (s : State) (p : Port) (f : Frame) : State :=
  if !s.bit Reg.CFG_CTL.mgmt_amend_en then s.cfgReply p f acFormat
  else
    match s.amendFragment (.fabric p f.snode f.swSrc (mgTag f)) f.w5.toNat f.w6.toNat f.payload true with
    | (s, c) => s.cfgReply p f c

def execAmendFrag (p : Port) (f : Frame) (ok : Bool) (s : State) : Outcome :=
  .next (s.mgmtIn mgAmendFrag p f ok fun s => s.takeAmendFrag p f)

def execMgmtAmendCancel (p : Port) (f : Frame) (ok : Bool) (s : State) : Outcome :=
  .next (s.mgmtIn mgAmendCancel p f ok fun s =>
    if s.isManager f.snode f.swSrc then
      match s.cancelAmend with
      | (s, c) => s.cfgReply p f c
    else s.cfgReply p f acNotManager)

def execMgmtColophonQuery (p : Port) (f : Frame) (ok : Bool) (s : State) : Outcome :=
  .next (s.mgmtIn mgColophon p f ok fun s =>
    if s.bit Reg.CFG_CTL.query_en then s.cfgReply p f 0 s.colophonReport else s)

def execTransferIdleTimeout (s : State) : Outcome := .next ([0, 1, 2, 3].foldl State.transferIdle s)

end Sys2Proof.Machine
end

