-- ==== Sys2Proof/Machine/Archive.lean ====
section
/-!
DEFINITION. The Archivist: which commands a transport accepts (R365, R370, R389), return codes, the almanac's rings and
their bytes (R372, R373), flash summaries (R374), the watchdog, sensors and ALERT_N (R370, R371, R376), and writes to
INT_STATUS (R368).
-/

namespace Sys2Proof.Machine

/-! ### Return codes (R364: those of CXL 3.1; log 47) -/

def rcSuccess : Nat := 0x00
def rcInvalidInput : Nat := 0x02
def rcUnsupported : Nat := 0x03
def rcBusy : Nat := 0x06
def rcFwInProgress : Nat := 0x08
def rcFwOutOfOrder : Nat := 0x09
def rcFwVerify : Nat := 0x0A
def rcInvalidSlot : Nat := 0x0B
def rcInvalidHandle : Nat := 0x0E
def rcPayloadLength : Nat := 0x16
def rcInvalidLog : Nat := 0x17

/-! ### Classes (Tables 16-3 and 16-4) -/

/-- The class of an opcode, as its bit of GLB_CMD_MASK: 0 READ, 1 CONFIG, 2 SIGNED, 3 RESET. -/
def cmdClass (op : BitVec 16) : Option Nat :=
  match op.toNat with
  | 0x0001 => some 0
  | 0x0002 => some 0
  | 0x0100 => some 0
  | 0x0101 => some 0
  | 0x0102 => some 0
  | 0x0103 => some 0
  | 0x0200 => some 0
  | 0x0201 => some 2
  | 0x0202 => some 2
  | 0x0300 => some 0
  | 0x0400 => some 0
  | 0x0401 => some 0
  | 0x4000 => some 0
  | 0x4200 => some 0
  | 0xC000 => some 2
  | 0xC001 => some 1
  | 0xC002 => some 1
  | 0xC003 => some 0
  | 0xC004 => some 2
  | 0xC005 => some 1
  | 0xC006 => some 2
  | 0xC007 => some 0
  | 0xC008 => some 0
  | 0xC009 => some 0
  | 0xC00A => some 0
  | 0xC00B => some 1
  | 0xC00C => some 3
  | _ => none

/-- The opcodes with a class, in ascending order. -/
def archOpcodes : List (BitVec 16) :=
  [0x0001, 0x0002, 0x0100, 0x0101, 0x0102, 0x0103, 0x0200, 0x0201, 0x0202, 0x0300, 0x0400, 0x0401, 0x4000, 0x4200, 0xC000,
   0xC001, 0xC002, 0xC003, 0xC004, 0xC005, 0xC006, 0xC007, 0xC008, 0xC009, 0xC00A, 0xC00B, 0xC00C]

/-- The commands of the recovery loader (Table 17-5). -/
def recoveryOpcodes : List (BitVec 16) :=
  [0x0001, 0x0002, 0x0200, 0x0201, 0x0202, 0xC006, 0xC007, 0xC009, 0xC00C]

/-- The mask of a transport in GLB_CMD_MASK (Table 16-13). -/
def maskField (tp : Transport) : Fld :=
  match tp with
  | .mailbox => Reg.GLB_CMD_MASK.host
  | .oob _ _ => Reg.GLB_CMD_MASK.oob
  | .fabric _ _ _ _ => Reg.GLB_CMD_MASK.fabric

/-- A transport brings commands to the device: the CXL link is up, the out-of-band port answers, frames arrive. -/
def State.transportOpen (s : State) (tp : Transport) : Bool :=
  match tp with
  | .mailbox => s.bit Reg.GLB_STATUS.host_up
  | .oob _ _ => s.bit Reg.GLB_CTL.oob_en
  | .fabric _ _ _ _ => true

/-- What meets a command before its own rule. -/
inductive ArchWay where
  | unanswered | busy | refused | run
  deriving DecidableEq, Repr

/-- R365, with R370 (a hung Archivist) and R389 (the recovery loader). -/
def State.archWay (s : State) (tp : Transport) (op : BitVec 16) : ArchWay :=
  let boot := s.fld Reg.GLB_STATUS.boot
  let fabric := tpKind tp = 2
  if boot < 2 ∨ !s.transportOpen tp then .unanswered
  else if s.bit Reg.GLB_STATUS.arch_hung then (if tp = .mailbox then .busy else .unanswered)
  else if boot = 4 then
    if fabric then .unanswered else if recoveryOpcodes.contains op then .run else .refused
  else
    match cmdClass op with
    | none => .refused
    | some c =>
      let manager := match tp with
        | .fabric _ n sw _ => s.isManager n sw
        | _ => true
      if s.fld (maskField tp) / 2 ^ c % 2 = 0 ∨ (fabric ∧ (c = 1 ∨ c = 3) ∧ !manager) then .refused else .run

/-- A command reaches its rule, or the answer that meets it before. -/
def State.archCmd (s : State) (tp : Transport) (op : BitVec 16) (rule : State → State) : State :=
  match s.archWay tp op with
  | .unanswered => s
  | .busy => s.archReply tp op rcBusy []
  | .refused => s.archReply tp op rcUnsupported [0xFE]
  | .run => rule s

/-- UNSUPPORTED_COMMAND: a command that R365 refuses. -/
def execUnsupportedCommand (tp : Transport) (opcode : BitVec 16) (s : State) : Outcome :=
  .next (match s.archWay tp opcode with
    | .refused => s.archReply tp opcode rcUnsupported [0xFE]
    | _ => s)

/-- A transfer on the same kind of transport is under way, or any at all. -/
def State.backgroundOf (s : State) (op : BitVec 16) : Bool := s.arc.background.any fun e => e.2.opcode = op

/-! ### The almanac (R372, R373) -/

/-- The bytes of a record (Table 16-6). -/
def AlmRec.bytes (r : AlmRec) : List Byte :=
  let code : BitVec 16 := match r.event with
    | .recordsLost => 1
    | .restartMarker => 2
    | e => Config.almCode e
  leBytes 8 r.seq ++ leBytes 8 r.ft.toNat ++ [r.block] ++ leBytes 1 r.severity ++ leBytes 2 code.toNat ++
    leBytes 4 r.epoch.toNat ++ leBytes 4 r.memEpoch.toNat ++ leBytes 4 r.index ++
    sliceBytes (Config.almDetail r.event r.detail) 0 32

/-- Records of the SRAM ring not yet copied, newest first. -/
def Almanac.uncopied (a : Almanac) : List AlmRec := a.ring.takeWhile fun r => decide (a.copied < r.seq)

/-- Every record that can be read, newest first. -/
def Almanac.all (a : Almanac) : List AlmRec := a.uncopied ++ a.stack

/-- The oldest sequence of the stack ring (GLB_ALM_OLDEST): 0 while it is empty. -/
def Almanac.oldest (a : Almanac) : Nat := (a.stack.getLast?.map (·.seq)).getD 0

/-- The stack partition ALMANAC is in place: the folio has it and its stacks have trained. -/
def State.almanacHome (s : State) : Bool :=
  match s.partOf 5 with
  | some n => (maskStacks (s.partMask n)).all fun k => s.fld Reg.STK_STATUS.stack_ok / 2 ^ k % 2 = 1
  | none => false

/-- Copies the SRAM ring to the stack ring; records overwritten before are counted, and one record gives their range. -/
def State.almanacCopy (s : State) : State :=
  let un := s.alm.uncopied
  let lost := s.alm.seq - s.alm.copied - un.length
  let from_ := s.alm.copied + 1
  let s := { s with alm.stack := (un ++ s.alm.stack).take 1048576, alm.copied := s.alm.seq }
  if lost = 0 then s
  else
    let s := s.count Reg.GLB_ALM_LOST.value lost
    let s := s.log 0x00 .recordsLost 0 [from_, from_ + lost - 1]
    let s := { s with alm.stack := (s.alm.uncopied ++ s.alm.stack).take 1048576, alm.copied := s.alm.seq }
    s.raise Reg.GLB_INT_STATUS.alm_lost

def execAlmanacCopy (s : State) : Outcome :=
  if s.almanacHome ∧ s.alm.copied < s.alm.seq then .next s.almanacCopy else .next s

/-! ### Flash summaries (R374) -/

/-- The records of the present run that are newer than a sequence, newest first: sequences fall from record to record. -/
def newerThan (lo : Nat) : Nat → List AlmRec → List AlmRec
  | _, [] => []
  | top, r :: rs => if r.seq < top ∧ lo < r.seq then r :: newerThan lo r.seq rs else []

/-- Adds a record to the counts by block and event. -/
def countIn (r : AlmRec) : List (BitVec 8 × AlmEvent × Nat × Nat) → List (BitVec 8 × AlmEvent × Nat × Nat)
  | [] => [(r.block, r.event, 1, r.seq)]
  | e :: es =>
    if e.1 = r.block ∧ e.2.1 = r.event then (e.1, e.2.1, e.2.2.1 + 1, max e.2.2.2 r.seq) :: es else e :: countIn r es

/-- The records that the next summary covers, oldest first. -/
def State.unsummarised (s : State) : List AlmRec := (newerThan s.arc.summaryTo (s.alm.seq + 1) s.alm.all).reverse

/-- The Archivist's firmware runs. -/
def State.archRuns (s : State) : Bool :=
  let boot := s.fld Reg.GLB_STATUS.boot
  !s.bit Reg.GLB_STATUS.arch_hung && (boot = 2 || boot = 3 || boot = 5)

/-- Writes a summary block; the area holds 768 and overwrites its oldest. -/
def State.writeSummary (s : State) : State :=
  let rs := s.unsummarised
  let b : Summary :=
    { seq := s.arc.summarySeq, counts := rs.foldl (fun m r => countIn r m) [],
      records := (rs.filter fun r => decide (3 ≤ r.severity)).take 960,
      colophon := s.colophon, epoch := s.reg Reg.CFG_EPOCH.addr }
  { s with
    arc.summaries := (b :: s.arc.summaries).take 768
    arc.summarySeq := s.arc.summarySeq + 1
    arc.summaryTo := s.alm.seq
    arc.summaryAt := s.ft }

/-- A summary is due: the period has passed, or a FATAL record is not in one yet. -/
def State.summaryDue (s : State) : Bool :=
  decide (s.arc.summaryAt + max 60 (s.fld Reg.GLB_ALM_CFG.summary_period) * second ≤ s.ft) ||
    s.unsummarised.any fun r => r.severity == 4

def execSummaryWrite (s : State) : Outcome :=
  if s.archRuns ∧ s.summaryDue then .next s.writeSummary else .next s

/-- The 64 KiB of a block of the area; one that has not been written is erased. -/
def State.summaryBlock (s : State) (i : Nat) : List Byte :=
  match s.arc.summaries.find? fun b => b.seq % 768 = i with
  | some b =>
    let bs := (Config.summaryBytes b).take 65536
    bs ++ List.replicate (65536 - bs.length) 0xFF
  | none => List.replicate 65536 0xFF

/-! ### The watchdog, sensors, ALERT_N -/

def execArchivistWatchdogLapse (s : State) : Outcome :=
  if s.archRuns then
    let t := s.log 0x00 .watchdogLapse
    let t := (t.setFld Reg.GLB_STATUS.arch_hung 1).raise Reg.GLB_INT_STATUS.arch_hung
    .next (t.alertFrom (s.log 0x00 .watchdogLapse))
  else .next s

/-- The Archivist's readings go to GLB_SENSORn and GLB_RAILr (R371). -/
def State.sensors (s : State) (tj : List Int) (rails : List W32) : State :=
  let s := (List.range 640).foldl (fun s n =>
    match tj[n]? with
    | some t => s.setFld (Reg.GLB_SENSOR.temp n) (wrap 16 t)
    | none => s) s
  (List.range 7).foldl (fun s r =>
    match rails[r]? with
    | some w => s.setReg (Reg.GLB_RAIL.addr r) w
    | none => s) s

/-- In the recovery loader the loader itself answers SENSOR_READ (Table 17-5), so readings are taken there too. -/
def execSensorSample (tj : List Int) (rails : List W32) (s : State) : Outcome :=
  if s.archRuns ∨ s.fld Reg.GLB_STATUS.boot = 4 then .next (s.sensors tj rails) else .next s

/-- alert_ack acknowledges every record committed so far (R376). -/
def State.acknowledge (s : State) : State := ({ s with alm.unacked := none }).alertFrom s

/-- A write to GLB_CTL: alert_ack, and the enables, which are configuration. -/
def State.writeGlbCtl (s : State) (v : W32) : State :=
  let s := if Reg.GLB_CTL.alert_ack.of v = 1 then s.acknowledge else s
  s.regWrite Reg.GLB_CTL.addr v fun s => s.cfgEffect Reg.GLB_CTL.addr v

def execAlertAck (value : W32) (s : State) : Outcome :=
  if Reg.GLB_CTL.alert_ack.of value = 1 then .next (s.fired.writeGlbCtl value) else .next s

/-! ### INT_STATUS (R368) -/

/-- The offset is a block's INT_STATUS. -/
def isIntStatus (off : Nat) : Bool :=
  [Reg.EPH_INT_STATUS.addr, Reg.TRN_INT_STATUS.addr, Reg.FWD_INT_STATUS.addr, Reg.CORE_INT_STATUS.addr,
   Reg.SCH_INT_STATUS.addr, Reg.CNJ_INT_STATUS.addr, Reg.STK_INT_STATUS.addr, Reg.MSF_INT_STATUS.addr,
   Reg.ORY_INT_STATUS.addr, Reg.HLT_INT_STATUS.addr, Reg.CFG_INT_STATUS.addr, Reg.SEC_INT_STATUS.addr,
   Reg.PMU_INT_STATUS.addr, Reg.GLB_INT_STATUS.addr].contains off ||
    (arrayIndex? (Reg.LNK_INT_STATUS.addr 0) 512 0x1000 off).isSome ||
    (arrayIndex? (Reg.OPT_INT_STATUS.addr 0) 32 0x10000 off).isSome

/-- A write to INT_STATUS clears bits, and sends the vector again while the source stays pending. -/
def State.writeIntStatus (s : State) (off : Nat) (v : W32) : State :=
  s.regWrite off v fun s =>
    let s := s.storeFields off v
    if s.irqPending off then s.sendMsix off else s

def execIntStatusWrite (_r : Requester) (off : BitVec 29) (value : W32) (s : State) : Outcome :=
  if isIntStatus off.toNat then .next (s.writeIntStatus off.toNat value) else .next s

end Sys2Proof.Machine
end

