-- ==== Sys2Proof/Machine/ArchiveStd.lean ====
section
/-!
DEFINITION. The standard commands of Table 16-3 but those of firmware updates. Where the manual names only the command,
input and output follow CXL 3.1, and what that leaves to a device is free (log 47).
-/

namespace Sys2Proof.Machine

/-- Free bytes of an answer. -/
def State.freeBytes (s : State) (n : Nat) : List Byte := (List.range n).map fun i => Config.freeByte s.fresh i

/-- An answer of success. -/
def State.archDone (s : State) (tp : Transport) (op : BitVec 16) (data : List Byte) : State :=
  s.archReply tp op rcSuccess data

/-! ### Identify and background operations -/

/-- Vendor, device, subsystem and serial numbers, the payload limit of 1 MiB (Table 16-1), and the component type of a
Type 3 device. -/
def identifyBytes : List Byte := leBytes 16 Config.deviceIds.toNat ++ [20, 3]

def execIdentify (tp : Transport) (s : State) : Outcome :=
  .next (s.archCmd tp 0x0001 fun s => s.archDone tp 0x0001 identifyBytes)

/-- Progress of the transport's background command, or the result of its last one. How far one under way has come is
free. -/
def State.backgroundStatus (s : State) (tp : Transport) : List Byte :=
  match s.arc.background.get (tpKind tp), s.arc.lastBackground.get (tpKind tp) with
  | some b, _ => leBytes 1 (1 + 2 * ((Config.freeByte s.fresh 0).toNat % 100)) ++ [0] ++ leBytes 2 b.opcode.toNat ++ leBytes 4 0
  | none, some (op, code, _) => leBytes 1 200 ++ [0] ++ leBytes 2 op.toNat ++ leBytes 2 code ++ leBytes 2 0
  | none, none => leBytes 8 0

def execBackgroundOperationStatus (tp : Transport) (s : State) : Outcome :=
  .next (s.archCmd tp 0x0002 fun s => s.draw.archDone tp 0x0002 (s.backgroundStatus tp))

/-! ### Event logs -/

/-- The four logs: 0 informational, 1 warning, 2 failure, 3 fatal. -/
def State.eventLog (s : State) (k : Nat) : List LogEntry := s.arc.eventLogs.read [] k

/-- The answer of Get Event Records: flags, what was lost while the log was full, and the records, oldest first. -/
def State.eventAnswer (s : State) (k : Nat) : List Byte :=
  let es := s.eventLog k
  let (n, first, last) := (s.arc.logOverflow.get k).getD (0, 0, 0)
  let flag := if (s.arc.logOverflow.get k).isSome then 1 else 0
  leBytes 1 flag ++ [0] ++ leBytes 2 n ++ leBytes 8 first ++ leBytes 8 last ++ leBytes 2 es.length ++ leBytes 10 0 ++
    es.flatMap fun e => sliceBytes (Config.eventBytes e) 0 128

def execGetEventRecords (tp : Transport) (input : List Byte) (s : State) : Outcome :=
  .next (s.archCmd tp 0x0100 fun s =>
    if input.length ≠ 1 then s.archReply tp 0x0100 rcPayloadLength []
    else if 3 < numAt input 0 1 then s.archReply tp 0x0100 rcInvalidInput []
    else s.archDone tp 0x0100 (s.eventAnswer (numAt input 0 1)))

/-- Removes the records of a log with the handles given, which must be its oldest, in order; or all of them, which is
allowed once the log has overflowed. Room ends the overflow. -/
def State.clearEvents (s : State) (k : Nat) (all : Bool) (hs : List Nat) : State × Nat :=
  let es := s.eventLog k
  let lost := (s.arc.logOverflow.get k).isSome
  if all then
    if lost then
      ({ s with arc.eventLogs := s.arc.eventLogs.write [] k [], arc.logOverflow := s.arc.logOverflow.del k }, rcSuccess)
    else (s, rcInvalidInput)
  else if hs = (es.take hs.length).map (fun e => e.handle.toNat) then
    let s := { s with arc.eventLogs := s.arc.eventLogs.write [] k (es.drop hs.length) }
    (if hs.isEmpty then s else { s with arc.logOverflow := s.arc.logOverflow.del k }, rcSuccess)
  else if hs.all fun h => es.any fun e => decide (e.handle.toNat = h) then (s, rcInvalidInput)
  else (s, rcInvalidHandle)

def execClearEventRecords (tp : Transport) (input : List Byte) (s : State) : Outcome :=
  .next (s.archCmd tp 0x0101 fun s =>
    let n := numAt input 2 1
    if input.length ≠ 6 + 2 * n then s.archReply tp 0x0101 rcPayloadLength []
    else if 3 < numAt input 0 1 then s.archReply tp 0x0101 rcInvalidInput []
    else
      let hs := (List.range n).map fun i => numAt input (6 + 2 * i) 2
      match s.clearEvents (numAt input 0 1) (decide (numAt input 1 1 % 2 = 1)) hs with
      | (s, c) => s.archReply tp 0x0101 c [])

def execGetEventInterruptPolicy (tp : Transport) (s : State) : Outcome :=
  .next (s.archCmd tp 0x0102 fun s => s.archDone tp 0x0102 s.arc.eventPolicy)

def execSetEventInterruptPolicy (tp : Transport) (input : List Byte) (s : State) : Outcome :=
  .next (s.archCmd tp 0x0103 fun s =>
    if input.length ≠ 4 then s.archReply tp 0x0103 rcPayloadLength []
    else ({ s with arc.eventPolicy := input } : State).archDone tp 0x0103 [])

/-! ### Timestamps -/

def execGetTimestamp (tp : Transport) (s : State) : Outcome :=
  .next (s.archCmd tp 0x0300 fun s => s.archDone tp 0x0300 (leBytes 8 (s.ft / 16)))

/-- Time is fabric time: Set Timestamp has no class, so every transport refuses it. -/
def execSetTimestamp (tp : Transport) (_input : List Byte) (s : State) : Outcome :=
  .next (s.archCmd tp 0x0301 fun s => s)

/-! ### Logs -/

/-- The identifier of the Command Effects Log. -/
def celId : List Byte :=
  [0x0D, 0xA9, 0xC0, 0xB5, 0xBF, 0x41, 0x4B, 0x78, 0x8F, 0x79, 0x96, 0xB1, 0x62, 0x3B, 0x3F, 0x17]

/-- The Command Effects Log: every command and its effects. -/
def celBytes : List Byte := archOpcodes.flatMap fun op => leBytes 2 op.toNat ++ leBytes 2 (Config.celEffect op).toNat

def execGetSupportedLogs (tp : Transport) (s : State) : Outcome :=
  .next (s.archCmd tp 0x0400 fun s =>
    s.archDone tp 0x0400 (leBytes 2 1 ++ leBytes 6 0 ++ celId ++ leBytes 4 celBytes.length))

def execGetLog (tp : Transport) (input : List Byte) (s : State) : Outcome :=
  .next (s.archCmd tp 0x0401 fun s =>
    let o := numAt input 16 4
    let n := numAt input 20 4
    if input.length ≠ 24 then s.archReply tp 0x0401 rcPayloadLength []
    else if input.take 16 ≠ celId then s.archReply tp 0x0401 rcInvalidLog []
    else if celBytes.length < o + n then s.archReply tp 0x0401 rcInvalidInput []
    else s.archDone tp 0x0401 (sliceBytes celBytes o n))

/-! ### The memory device -/

/-- The host-visible capacity in units of 256 MiB (R360). -/
def State.hdmCapacity (s : State) : Nat := min s.windowSize 0x8000000000 / 0x10000000

/-- The revision string of the running firmware. -/
def State.fwName (s : State) : List Byte := sliceBytes (Config.fwRevision s.fwMeas) 0 16

/-- Total and volatile capacity, no persistent one, four logs of 1,024 records, and no label area or poison list. -/
def State.memoryDevice (s : State) : List Byte :=
  s.fwName ++ leBytes 8 s.hdmCapacity ++ leBytes 8 s.hdmCapacity ++ leBytes 8 0 ++ leBytes 8 0 ++
    leBytes 2 1024 ++ leBytes 2 1024 ++ leBytes 2 1024 ++ leBytes 2 1024 ++ leBytes 4 0 ++ leBytes 3 0 ++ leBytes 2 0 ++
    leBytes 1 0 ++ leBytes 1 0

def execIdentifyMemoryDevice (tp : Transport) (s : State) : Outcome :=
  .next (s.archCmd tp 0x4000 fun s => s.archDone tp 0x4000 s.memoryDevice)

/-- The hottest stack, in whole degrees. -/
def State.worstStack (s : State) : Int :=
  (List.range 12).foldl (fun m k => max m (signed 16 (s.fld (Reg.HLT_STACK_TEMP.temp k)) / 100))
    (signed 16 (s.fld (Reg.HLT_STACK_TEMP.temp 0)) / 100)

/-- Life used is 0 and the temperature that of the hottest stack; the manual states no other field. -/
def State.healthInfo (s : State) : List Byte :=
  let b := s.freeBytes 15
  b.take 3 ++ [0] ++ leBytes 2 (wrap 16 s.worstStack) ++ b.drop 3

def execGetHealthInfo (tp : Transport) (s : State) : Outcome :=
  .next (s.archCmd tp 0x4200 fun s => s.draw.archDone tp 0x4200 s.healthInfo)

end Sys2Proof.Machine
end

