-- ==== Sys2Proof/Machine/ArchiveCmd.lean ====
section
/-!
DEFINITION. The commands of Table 16-4 but those of registers and resets: transfers (R366), group records, the colophon
report, programs, the almanac, summaries and sensors.
-/

namespace Sys2Proof.Machine

/-! ### Transfers (R366): input uint32 offset, uint32 total, bytes -/

/-- Bytes written to flash, which reads 0xFF where it is erased. -/
def flashPut : SMap Byte → Nat → List Byte → SMap Byte
  | m, _, [] => m
  | m, o, b :: bs => flashPut (SMap.write 0xFF m o b) (o + 1) bs

/-- An answer to a fragment that repeats the last one accepted. -/
def State.repeatAnswer (s : State) (tp : Transport) (op : BitVec 16) (a : Option (Nat × List Byte)) : State :=
  match a with
  | some (c, bs) => s.archReply tp op c bs
  | none => s.archDone tp op []

/-- The input of a transfer is long enough to hold its header. -/
def State.transferCmd (s : State) (tp : Transport) (op : BitVec 16) (input : List Byte)
    (rule : State → Nat → Nat → List Byte → State) : State :=
  s.archCmd tp op fun s =>
    if input.length < 8 then s.archReply tp op rcPayloadLength []
    else rule s (numAt input 0 4) (numAt input 4 4) (input.drop 8)

/-- AMEND_TRANSFER: the last fragment, and one that ends the transfer, is answered with a cause of Table 15-5. -/
def State.amendTransfer (s : State) (tp : Transport) (off total : Nat) (bs : List Byte) : State :=
  if fragWay (s.cfg.transfers.get xfAmend) tp off total bs.length 0x800000 false = .busy then s.archReply tp 0xC000 rcBusy []
  else
    match s.amendFragment tp off total bs false with
    | (s, c) => s.archDone tp 0xC000 (if c = 0 ∧ off + bs.length ≠ total then [] else [BitVec.ofNat 8 c])

def execAmendTransfer (tp : Transport) (input : List Byte) (s : State) : Outcome :=
  .next (s.transferCmd tp 0xC000 input fun s off total bs => s.amendTransfer tp off total bs)

/-- PROGRAM_TRANSFER: fills ORY_STAGE; the last fragment starts a load in the background. -/
def State.programTransfer (s : State) (tp : Transport) (off total : Nat) (bs : List Byte) : State :=
  let op := opProgramTransfer
  match fragWay (s.cfg.transfers.get xfProgram) tp off total bs.length 262144 false with
  | .busy => s.archReply tp op rcBusy []
  | .repeated a => s.repeatAnswer tp op a
  | .refused =>
    ({ s with cfg.transfers := s.cfg.transfers.del xfProgram, cfg.progStage := [] } : State).archReply tp op rcInvalidInput []
  | .taken last =>
    if s.bit Reg.ORY_PROG_CMD.busy || (last && s.inBackground tp) then s.archReply tp op rcBusy []
    else
      let s := { s.fragTaken xfProgram tp off total bs.length with cfg.progStage := stagePut s.cfg.progStage off bs }
      if last then
        let s := (s.fragDone xfProgram 1 []).startBackground tp op
        s.beginLoad (stageBytes s.cfg.progStage total) (some tp)
      else s.archDone tp op []

def execProgramTransfer (tp : Transport) (input : List Byte) (s : State) : Outcome :=
  .next (s.transferCmd tp opProgramTransfer input fun s off total bs => s.programTransfer tp off total bs)

def opFolioTransfer : BitVec 16 := 0xC006

/-- FOLIO_TRANSFER: the first fragment erases the area, every fragment is written as it arrives, and the last starts the
verification from flash. -/
def State.folioTransfer (s : State) (tp : Transport) (off total : Nat) (bs : List Byte) : State :=
  let op := opFolioTransfer
  match fragWay (s.cfg.transfers.get xfFolio) tp off total bs.length 0x8000000 false with
  | .busy => s.archReply tp op rcBusy []
  | .repeated a => s.repeatAnswer tp op a
  | .refused => ({ s with cfg.transfers := s.cfg.transfers.del xfFolio } : State).archReply tp op rcInvalidInput []
  | .taken last =>
    if s.backgroundOf op || (last && s.inBackground tp) then s.archReply tp op rcBusy []
    else
      let area := if off = 0 then [] else s.cfg.flash.folio
      let s := { s.fragTaken xfFolio tp off total bs.length with cfg.flash.folio := flashPut area off bs }
      if last then (s.fragDone xfFolio 1 []).startBackground tp op else s.archDone tp op []

def execFolioTransfer (tp : Transport) (input : List Byte) (s : State) : Outcome :=
  .next (s.transferCmd tp opFolioTransfer input fun s off total bs => s.folioTransfer tp off total bs)

/-- The verdict on the folio in flash: 0 verified, 1 signature, 2 format. -/
def State.folioVerdict (s : State) : Nat :=
  match s.flashFolio with
  | none => 1
  | some b =>
    if !s.roleVerifies roleFolio ctxFolio b then 1 else if imgFormatOk b 0 0x8000000 && targetOk b then 0 else 2

def execFolioVerifyDone (s : State) : Outcome :=
  match s.arc.background.find? fun e => e.2.opcode = opFolioTransfer with
  | some (_, b) =>
    let v := s.folioVerdict
    let s := if v = 1 then s.verifyFail else s
    .next (s.endBackground b.tp opFolioTransfer rcSuccess [BitVec.ofNat 8 v])
  | none => .next s

/-! ### Configuration and groups -/

def execAmendCancel (tp : Transport) (s : State) : Outcome :=
  .next (s.archCmd tp 0xC001 fun s =>
    match s.cancelAmend with
    | (s, c) => s.archDone tp 0xC001 [BitVec.ofNat 8 c])

/-- GROUP_RECORD: a background command until its record is processed. -/
def execGroupRecord (tp : Transport) (input : List Byte) (s : State) : Outcome :=
  .next (s.archCmd tp opGroupRecord fun s =>
    if s.inBackground tp then s.archReply tp opGroupRecord rcBusy []
    else (s.startBackground tp opGroupRecord).queueRecord input (some (.command tp)))

def execColophonQuery (tp : Transport) (s : State) : Outcome :=
  .next (s.archCmd tp 0xC003 fun s => s.archDone tp 0xC003 s.colophonReport)

/-- PROGRAM_UNLOAD: answered with the status of ORY_PROG_CMD, once the unload has ended. -/
def execProgramUnload (tp : Transport) (input : List Byte) (s : State) : Outcome :=
  .next (s.archCmd tp opProgramUnload fun s =>
    if input.length ≠ 2 then s.archReply tp opProgramUnload rcPayloadLength []
    else
      match s.beginUnload (numAt input 0 2) false (some tp) with
      | (s, some c) => s.archDone tp opProgramUnload [BitVec.ofNat 8 c]
      | (s, none) => s)

/-! ### Records, summaries, sensors -/

/-- Records from a sequence on, oldest first: from the oldest where it is older than GLB_ALM_OLDEST, none where it is not
committed. A sequence that two runs share names the later record (log 53). -/
def State.almanacFrom (s : State) (first : Nat) : List AlmRec :=
  let rs := s.alm.all
  if first < ((rs.getLast?.map (·.seq)).getD 0) then rs.reverse
  else if rs.any fun r => r.seq = first then
    let newer := rs.takeWhile fun r => decide (r.seq ≠ first)
    (rs.take (newer.length + 1)).reverse
  else []

/-- The most records one answer holds: the payload of the mailbox is 1 MiB (Table 16-1). -/
def almanacLimit (tp : Transport) : Nat := if tpKind tp = 0 then 16384 else 65535

def execAlmanacRead (tp : Transport) (input : List Byte) (s : State) : Outcome :=
  .next (s.archCmd tp 0xC007 fun s =>
    if input.length ≠ 10 then s.archReply tp 0xC007 rcPayloadLength []
    else
      let n := min (numAt input 8 2) (almanacLimit tp)
      s.archDone tp 0xC007 (((s.almanacFrom (numAt input 0 8)).take n).flatMap AlmRec.bytes))

def execSummaryRead (tp : Transport) (input : List Byte) (s : State) : Outcome :=
  .next (s.archCmd tp 0xC008 fun s =>
    if input.length ≠ 4 then s.archReply tp 0xC008 rcPayloadLength []
    else if 768 ≤ numAt input 0 4 then s.archReply tp 0xC008 rcInvalidInput []
    else s.archDone tp 0xC008 (s.summaryBlock (numAt input 0 4)))

/-- Sensor words 0 to 639, then rail words 640 to 646. -/
def sensorOff (i : Nat) : Nat := if i < 640 then Reg.GLB_SENSOR.addr i else Reg.GLB_RAIL.addr (i - 640)

def execSensorRead (tp : Transport) (input : List Byte) (s : State) : Outcome :=
  .next (s.archCmd tp 0xC009 fun s =>
    let first := numAt input 0 2
    let n := numAt input 2 2
    if input.length ≠ 4 then s.archReply tp 0xC009 rcPayloadLength []
    else if 647 < first + n then s.archReply tp 0xC009 rcInvalidInput []
    else s.archDone tp 0xC009 ((List.range n).flatMap fun i => leBytes 4 (s.reg (sensorOff (first + i))).toNat))

end Sys2Proof.Machine
end

