-- ==== Sys2Proof/Machine/HostLink.lean ====
section
/-!
DEFINITION. The CXL attachment: HDM decoders (R361), CXL.mem accesses (R293, R362), the CDAT (R367), and the reset and
training of the host link (R369).
-/

namespace Sys2Proof.Machine

/-! ### HDM decoders (R361) -/

def State.decoder (s : State) (n : Nat) : HdmDecoder := s.hdm.read { } n

/-- The bytes of CXL DPA space that a decoder claims. -/
def HdmDecoder.dpaSize (d : HdmDecoder) : Nat := d.size.toNat / d.ways

/-- What a decoder can be given: ways 1, 2 or 4, granularities of 256 bytes to 16 KiB, a place among the ways, and ranges
in the units of 256 MiB that HDM decoders have (log 54). -/
def HdmDecoder.formOk (d : HdmDecoder) : Bool :=
  [1, 2, 4].contains d.ways && [256, 512, 1024, 2048, 4096, 8192, 16384].contains d.granularity &&
    decide (d.position < d.ways) && decide (d.base.toNat % 0x10000000 = 0) &&
    decide (d.size.toNat % (0x10000000 * d.ways) = 0) && decide (d.dpaBase.toNat % 0x10000000 = 0)

/-- Two decoders' DPA ranges share a byte. -/
def HdmDecoder.overlaps (a b : HdmDecoder) : Bool :=
  decide (a.dpaBase.toNat < b.dpaBase.toNat + b.dpaSize) && decide (b.dpaBase.toNat < a.dpaBase.toNat + a.dpaSize)

/-- A decoder may commit: its DPA range lies within the host-visible capacity and meets no other committed one. -/
def State.decoderOk (s : State) (n : Nat) (d : HdmDecoder) : Bool :=
  d.formOk && decide (d.dpaBase.toNat + d.dpaSize ≤ s.hdmCapacity * 0x10000000) &&
    (List.range 4).all fun k => k = n || !(s.decoder k).committed || !d.overlaps (s.decoder k)

def execHdmDecoderCommit (n : BitVec 2) (base size : W64) (ways granularity position : Nat) (dpaBase : W64) (s : State) :
    Outcome :=
  if s.bit Reg.GLB_STATUS.host_up then
    let d : HdmDecoder := ⟨base, size, ways, granularity, position, dpaBase, false, false⟩
    let good := s.decoderOk n.toNat d
    .next { s with hdm := s.hdm.write { } n.toNat { d with committed := good, error := !good } }
  else .next s

/-- The CXL DPA of a host address under a decoder, if the decoder claims it for this device. -/
def HdmDecoder.dpaOf (d : HdmDecoder) (hpa : Nat) : Option Nat :=
  let o := hpa - d.base.toNat
  if d.committed ∧ d.base.toNat ≤ hpa ∧ o < d.size.toNat ∧ o / d.granularity % d.ways = d.position then
    some (d.dpaBase.toNat + o / (d.granularity * d.ways) * d.granularity + o % d.granularity)
  else none

/-- The CXL DPA, which is a window offset (R360), that a committed decoder gives a host address. -/
def State.hpaOffset (s : State) (hpa : W64) : Option Nat :=
  (List.range 4).findSome? fun n => (s.decoder n).dpaOf hpa.toNat

/-- An access that no decoder claims is recorded. -/
def State.hdmUnclaimed (s : State) (hpa : W64) : State :=
  (s.log 0x00 .hdmUnclaimed 0 [hpa.toNat]).raise Reg.GLB_INT_STATUS.hdm_unclaimed

/-! ### CXL.mem (R293, R362) -/

def allOnes : List Byte := List.replicate 64 0xFF

/-- A read answers the 64 bytes of its word. -/
def State.cxlReads (s : State) (hpa : W64) (dpa : Nat) (io : ChannelIo) : State :=
  let s := (s.wordsCorrected dpa io.corrected).countRead dpa 64
  s.emit (.memData hpa (s.bytesAt dpa 64))

/-- A read that meets an uncorrectable word: the epoch, the record, and all-ones data, in this order (R362). -/
def State.cxlReadFails (s : State) (hpa : W64) (dpa : Nat) : State :=
  let off := (s.hpaOffset hpa).getD 0
  let e := s.reg Reg.GLB_MEM_ERR_EPOCH.addr + 1
  let s := (s.setReg Reg.GLB_MEM_ERR_EPOCH.addr e).raise Reg.GLB_INT_STATUS.mem_err
  let s := s.addEvent 2 (.media (BitVec.ofNat 64 off) (BitVec.ofNat 64 dpa) e)
  s.emit (.memData hpa allOnes)

/-- A write rewrites its whole word. -/
def State.cxlWrites (s : State) (hpa : W64) (dpa : Nat) (data : List Byte) : State :=
  (s.storeMem dpa (sliceBytes data 0 64)).emit (.memDone hpa)

/-- The DPA of the 64-byte word that a host address lies in. -/
def State.hpaDpa (s : State) (hpa : W64) : Option Nat := (s.hpaOffset hpa).map fun o => s.windowDpa (o / 64 * 64)

def execCxlMemRead (hpa : W64) (io : ChannelIo) (s : State) : Outcome :=
  if !s.bit Reg.GLB_STATUS.host_up then .next s
  else
    match s.hpaDpa hpa with
    | none => .next ((s.hdmUnclaimed hpa).emit (.memData hpa allOnes))
    | some d =>
      match s.holdPage d 64 io (.cxlRead hpa) with
      | some s => .next s
      | none => .next (s.cxlReads hpa d io)

def execCxlMemWrite (hpa : W64) (data : List Byte) (io : ChannelIo) (s : State) : Outcome :=
  if !s.bit Reg.GLB_STATUS.host_up then .next s
  else
    match s.hpaDpa hpa with
    | none => .next ((s.hdmUnclaimed hpa).emit (.memDone hpa))
    | some d =>
      match s.holdWords d [] io (.cxlWrite hpa data) with
      | some s => .next s
      | none => .next (s.cxlWrites hpa d data)

/-! ### The CDAT (R367) -/

/-- A latency or bandwidth entry of the one memory range. -/
def cdatEntry (kind value : Nat) : List Byte :=
  [1, 0] ++ leBytes 2 24 ++ [0, 0] ++ leBytes 1 kind ++ [0] ++ leBytes 8 1000 ++ leBytes 2 value ++ leBytes 6 0

/-- 128 GB/s at x16 and 64 GT/s. -/
def State.hostBandwidth (s : State) : Nat :=
  let w := s.fld Reg.GLB_STATUS.host_width
  let r := s.fld Reg.GLB_STATUS.host_rate
  if w = 3 ∧ r = 2 then 128 else (Config.cdatBandwidth w r).toNat

/-- One DSMAS entry for the host-visible capacity, and its latencies and bandwidths, in the layout of CXL (log 52). -/
def State.cdatBody (s : State) : List Byte :=
  let bw := s.hostBandwidth
  [0, 0] ++ leBytes 2 24 ++ [0, 0, 0, 0] ++ leBytes 8 0 ++ leBytes 8 (s.hdmCapacity * 0x10000000) ++
    cdatEntry 1 400 ++ cdatEntry 2 400 ++ cdatEntry 4 bw ++ cdatEntry 5 bw

/-- The table with its header, whose checksum makes all bytes sum to zero. -/
def State.cdat (s : State) : List Byte :=
  let body := s.cdatBody
  let head (sum : Byte) : List Byte := leBytes 4 (16 + body.length) ++ [1, sum] ++ leBytes 10 0
  let total : Byte := (head 0 ++ body).foldl (fun a b => a + b) 0
  head (-total) ++ body

def execCdatRead (s : State) : Outcome :=
  if s.bit Reg.GLB_STATUS.host_up then .next (s.emit (.doe s.cdat)) else .next s

/-! ### The host link (R369) -/

/-- CXL.mem accesses that wait for a page are lost. -/
def State.dropCxl (s : State) : State :=
  { s with stk.pages := s.stk.pages.map fun e => (e.1, e.2.1, e.2.2.filter fun a =>
      match a with
      | .cxlRead _ => false
      | .cxlWrite _ _ => false
      | _ => true) }

/-- What the mailbox had in flight: a background command loses its requester, a transfer is abandoned, and an unload goes on
unanswered. -/
def State.dropMailbox (s : State) : State :=
  let s := match s.arc.background.get 0 with
    | some b => { s with arc.background := s.arc.background.put 0 { b with orphan := true } }
    | none => s
  let s := { s with arc.lastBackground := s.arc.lastBackground.del 0 }
  let mine (s : State) (k : Nat) : Bool := match s.cfg.transfers.get k with
    | some t => t.src == .mailbox
    | none => false
  let s := if mine s xfAmend then (if s.xfOpen xfAmend then s.amendTransferFails else
    { s with cfg.transfers := s.cfg.transfers.del xfAmend }) else s
  let s := if mine s xfProgram then
      let s := if s.xfOpen xfProgram then { s with cfg.progStage := [] } else s
      { s with cfg.transfers := s.cfg.transfers.del xfProgram }
    else s
  let s := [xfFolio, xfFirmware].foldl (fun s k =>
    if mine s k then { s with cfg.transfers := s.cfg.transfers.del k } else s) s
  { s with ory.progs := s.ory.progs.map fun e =>
      (e.1, if e.2.unloadTo = some .mailbox then { e.2 with unloadTo := none } else e.2) }

/-- A host-link reset resets the host interface, and nothing else. -/
def State.resetHostLink (s : State) : State :=
  let s := ((s.hostDown).dropCxl).dropMailbox
  { s with hdm := [], msixEnable := false, arc.eventPolicy := [0, 0, 0, 0], sec.spdm := 0, pwr.perst := true,
           pwr.hostSetup := none }

def execHostLinkReset (s : State) : Outcome := .next s.resetHostLink

def execPerstNDeassert (width : BitVec 3) (rate : BitVec 2) (msix : Bool) (s : State) : Outcome :=
  if s.pwr.perst ∧ 1 ≤ width.toNat ∧ width.toNat ≤ 3 ∧ rate.toNat ≤ 2 then
    .next ({ s with pwr.perst := false, pwr.hostSetup := some (width, rate, msix) } : State).hostTrains
  else .next s

end Sys2Proof.Machine
end

