-- ==== Sys2Proof/Machine/CheckUnit.lean ====
section
/-!
DEFINITION. The check units (R355, R356) and the bytes of the flash (Tables 15-1 and 17-2).
-/

namespace Sys2Proof.Machine

/-! ### The flash -/

/-- Bytes of the whole flash. -/
def flashSize : Nat := 0x10000000

/-- A byte of an area that is held as a list; it is erased past its end. -/
def areaByte (bs : List Byte) (i : Nat) : Byte := (bs[i]?).getD 0xFF

/-- The byte at a flash offset. -/
def State.flashAt (s : State) (a : Nat) : Byte :=
  let f := s.cfg.flash
  if a < 0x10000 then areaByte f.helper a
  else if a < 0x20000 then areaByte f.certs (a - 0x10000)
  else if a < 0x30000 then areaByte f.owner0 (a - 0x20000)
  else if a < 0x40000 then areaByte f.owner1 (a - 0x30000)
  else if a < 0x01000000 then 0xFF
  else if a < 0x05000000 then flashByte f.firmware (a - 0x01000000)
  else if a < 0x0D000000 then flashByte f.folio (a - 0x05000000)
  else if a < 0x10000000 then areaByte (s.summaryBlock ((a - 0x0D000000) / 65536)) (a % 65536)
  else 0xFF

/-! ### Jobs -/

/-- The parameters of a preset (Table 15-8): width, polynomial, init, refl, final_inv. -/
def cuPreset (n : Nat) : Option (Nat × Nat × Nat × Bool × Bool) :=
  match n with
  | 1 => some (32, 0x1EDC6F41, 0xFFFFFFFF, true, true)
  | 2 => some (32, 0x04C11DB7, 0xFFFFFFFF, true, true)
  | 3 => some (64, 0x42F0E1EBA9EA3693, 0, false, false)
  | 4 => some (16, 0x1021, 0, true, false)
  | _ => none

/-- The parameters of a unit: those of its preset, or with preset 0 its registers'. -/
def State.cuParams (s : State) (u : Nat) : Option (Nat × Nat × Nat × Bool × Bool) :=
  let p := s.fld (Reg.CFG_CU_CTL.preset u)
  if p = 0 then
    if s.fld (Reg.CFG_CU_CTL.width_m1 u) < 7 then none
    else
      some (s.fld (Reg.CFG_CU_CTL.width_m1 u) + 1, s.pair (Reg.CFG_CU_POLY_LO.value u), s.pair (Reg.CFG_CU_INIT_LO.value u),
        s.bit (Reg.CFG_CU_CTL.refl u), s.bit (Reg.CFG_CU_CTL.final_inv u))
  else cuPreset p

/-- A job ends (R355): its state, error and cu_done. -/
def State.cuEnds (s : State) (u state err : Nat) : State :=
  let s := { s with cfg.cuJobs := s.cfg.cuJobs.del u }
  ((s.setFld (Reg.CFG_CU_STATUS.state u) state).setFld (Reg.CFG_CU_STATUS.error u) err).raise Reg.CFG_INT_STATUS.cu_done

/-- Starts a job, which takes its parameters from the registers as they are now, or ends it at once with PARAMS. -/
def State.cuStart (s : State) (u : Nat) : State :=
  let flash := s.bit (Reg.CFG_CU_CTL.src u)
  let src := s.pair (Reg.CFG_CU_SRC_LO.value u)
  let len := s.pair (Reg.CFG_CU_LEN_LO.value u)
  let top := if flash then flashSize else dpaEnd
  match s.cuParams u with
  | none => s.cuEnds u 3 1
  | some (w, poly, init, refl, inv) =>
    if len = 0 ∨ top < src + len then s.cuEnds u 3 1
    else
      let j : CuJob :=
        { flash := flash, src := src, len := len, w := w, poly := poly, init := init, refl := refl, inv := inv,
          compare := s.bit (Reg.CFG_CU_CTL.compare_en u), expect := s.pair (Reg.CFG_CU_EXPECT_LO.value u) }
      let s := { s with cfg.cuJobs := s.cfg.cuJobs.put u j }
      (s.setFld (Reg.CFG_CU_STATUS.state u) 1).setFld (Reg.CFG_CU_STATUS.error u) 0

/-- A write to CFG_CU_CTLu; go is ignored while the unit is busy. -/
def State.writeCuCtl (s : State) (u : Nat) (v : W32) : State :=
  let off := Reg.CFG_CU_CTL.addr u
  s.regWrite off v fun s =>
    let s := s.storeFields off v
    if (Reg.CFG_CU_CTL.go u).of v = 1 ∧ (s.cfg.cuJobs.get u).isNone then s.cuStart u else s

def execCheckUnitJob (u : BitVec 5) (value : W32) (s : State) : Outcome :=
  if (Reg.CFG_CU_CTL.go u.toNat).of value = 1 then .next (s.writeCuCtl u.toNat value) else .next s

/-- The bytes a job reads. -/
def State.cuBytes (s : State) (j : CuJob) : List Byte :=
  if j.flash then (List.range j.len).map fun i => s.flashAt (j.src + i) else s.bytesAt j.src j.len

/-- A job has read its bytes: the result, and the comparison. -/
def State.cuResult (s : State) (u : Nat) (j : CuJob) : State :=
  let r := crc (s.cuBytes j) j.w j.poly j.init j.refl j.inv
  let s := s.setPair (Reg.CFG_CU_RESULT_LO.value u) r
  let s := if j.compare then
      if r = j.expect then s.setFld (Reg.CFG_CU_STATUS.mismatch u) 0
      else (s.setFld (Reg.CFG_CU_STATUS.mismatch u) 1).raise Reg.CFG_INT_STATUS.cu_mismatch
    else s
  s.cuEnds u 2 0

/-- A job ends: with MEDIA where a word of the stack is uncorrectable (Table 11-8; its class: log 55). -/
def execCheckUnitDone (u : BitVec 5) (media : Bool) (s : State) : Outcome :=
  let n := u.toNat
  match s.cfg.cuJobs.get n with
  | none => .next s
  | some j =>
    let bad := if j.flash then none else
      match s.badIn j.src j.len with
      | some w => some (64 * w)
      | none => if media then some j.src else none
    match bad with
    | some d => .next (({ s with stk.badWords := s.stk.badWords.put (d / 64) true } : State).mediaEvent d 4 |>.cuEnds n 3 2)
    | none => .next ((if j.flash then s else s.countRead j.src j.len).cuResult n j)

end Sys2Proof.Machine
end

