-- ==== Sys2Proof/Machine/Mend.lean ====
section
/-!
DEFINITION. The end of a page decode (R267 to R269): the mended page or the media event, the access that met the failed
word, and the accesses held meanwhile, in order.
-/

namespace Sys2Proof.Machine

/-- A DPA lies in the partition of a kind. -/
def State.inPart (s : State) (kind dpa : Nat) : Bool :=
  match s.partOf kind with
  | none => false
  | some n =>
    let a := dpa % stackBytes
    (maskStacks (s.partMask n)).contains (dpaStack dpa) && decide (s.partBase n ≤ a) &&
      decide (a < s.partBase n + s.partStride n)

/-- The requester class of a media event (Table 11-16). -/
def State.accessClass (s : State) (a : Access) (dpa : Nat) : Nat :=
  match a with
  | .request q => if redRegion q.frame then 3 else 1
  | .flush _ qs => if qs.any fun q => redRegion q.frame then 3 else 1
  | .command _ => 3
  | .contrib _ _ => 3
  | .cxlRead _ => 2
  | .cxlWrite _ _ => 2
  | .aperture _ _ _ => 4
  | .thread _ => if s.inPart 2 dpa then 1 else 3

/-- The segment in progress whose region lines hold a line of a region. -/
def State.segOfLine (s : State) (r line : Nat) : Option (Nat × BitVec 16 × Nat × Segment) :=
  s.cnj.segs.findSome? fun e =>
    let g := e.1 / 2 ^ 40
    let cseq : BitVec 16 := BitVec.ofNat 16 (e.1 / 2 ^ 24)
    let n := e.1 % 2 ^ 24
    match s.coll g cseq with
    | none => none
    | some c =>
      if descPath c.desc = 1 ∧ descRegion c.desc = r ∧ (e.2.state == .exponent || e.2.state == .collect || e.2.state == .final) ∧
          regionLine c.desc n 0 ≤ line ∧ line < regionLine c.desc n e.2.lines then some (g, cseq, n, e.2)
      else none

/-- The line that a command on a region names. -/
def cmdLine : AccCmd → Option (Nat × Nat)
  | .clear r l _ => some (r, l)
  | .setA r l _ => some (r, l)
  | .add r l _ _ _ _ => some (r, l)
  | .merge r l _ _ _ _ => some (r, l)
  | .readLanes r l => some (r, l)
  | .writeLanes r l _ => some (r, l)
  | .readFmt r l => some (r, l)
  | .atomic _ _ _ _ => none

/-- A segment of a path-1 collective restarts (Table 11-8); a line that was being added counts as accepted. -/
def State.restartFor (s : State) (g : Nat) (cseq : BitVec 16) (n : Nat) (line : Option (Port × Nat)) : State :=
  match s.seg g cseq n with
  | none => s
  | some x =>
    let x := match line with
      | some (p, l) => { x with arrived := x.arrived.write 0 p.toNat (SMap.read 0 x.arrived p.toNat ||| ((1 : BitVec 64) <<< l)) }
      | none => x
    (s.setSeg g cseq n x).restartSeg g cseq n x.tile x.audit

/-- The outcome of the access that meets an uncorrectable word (Table 11-8). -/
def State.accessFails (s : State) (a : Access) (dpa : Nat) : State :=
  match a with
  | .request q => s.failReqs (dpaDie q.dpa) [q]
  | .flush die qs => s.failReqs die.toNat qs
  | .command c =>
    match (cmdLine c).bind fun e => s.segOfLine e.1 e.2 with
    | some (g, cseq, n, _) => s.restartFor g cseq n none
    | none => s.emit (.accession asMedia [])
  | .contrib p f => s.restartFor f.group.toNat f.cseq f.segment.toNat (some (p, f.firstLine.toNat))
  | .cxlRead hpa => s.cxlReadFails hpa dpa
  | .cxlWrite hpa data => s.cxlWrites hpa dpa data
  | .aperture _ _ n => s.emit (.aperture (List.replicate n 0xFF))
  | .thread t => (s.setThread t { s.thread t with pageHeld := false }).faultThread t faultMedia

/-- A held access reaches its channel again. A thread issues its instruction again. -/
def State.accessAgain (s : State) (a : Access) : State :=
  let io : ChannelIo := { }
  match a with
  | .request q => s.issueReqs (dpaDie q.dpa) [q] a io
  | .flush die qs => s.issueReqs die.toNat qs a io
  | .command c => s.accCommand c io
  | .contrib p f => ((s.takeLine p f [] io).1).tryFinal f.group.toNat f.cseq f.segment.toNat false
  | .cxlRead hpa =>
    match s.hpaDpa hpa with
    | none => s.emit (.memData hpa allOnes)
    | some d =>
      match s.holdPage d 64 io a with
      | some s => s
      | none => s.cxlReads hpa d io
  | .cxlWrite hpa data =>
    match s.hpaDpa hpa with
    | none => s.emit (.memDone hpa)
    | some d =>
      match s.holdWords d [] io a with
      | some s => s
      | none => s.cxlWrites hpa d data
  | .aperture _ off n =>
    let d := s.apertureDpa off
    match s.holdPage d n io a with
    | some s => s
    | none => s.apertureGo d n io
  | .thread t => s.setThread t { s.thread t with pageHeld := false }

/-- Path-1 segments that waited in FINAL for a page form their results. -/
def State.emitWaiting (s : State) : State :=
  s.cnj.segs.foldl (fun s e =>
    let g := e.1 / 2 ^ 40
    let cseq : BitVec 16 := BitVec.ofNat 16 (e.1 / 2 ^ 24)
    let n := e.1 % 2 ^ 24
    match s.coll g cseq, s.seg g cseq n with
    | some c, some x =>
      if descPath c.desc = 1 ∧ x.state == .final ∧ x.chunks.isEmpty ∧ (x.audit.bind (·.waitFrom)).isNone then s.emitSeg g cseq n
      else s
    | _, _ => s) s

/-- The page code has mended the page: it is rewritten, counted, and released. -/
def State.pageMended (s : State) (page : Nat) : State :=
  let dpa := 4096 * page
  let s := { s with stk.badWords := s.stk.badWords.filter fun e => e.1 / 64 ≠ page }
  let s := s.bucketAdd (dpaChannel dpa) (s.fld Reg.STK_LB_CFG.page_weight)
  (s.count (Reg.STK_CNT_PAGE_MEND.value (dpaStack dpa))).raise Reg.STK_INT_STATUS.page_mend

/-- The page code has failed: the word stays unreadable, and the access that read it has its outcome. -/
def State.pageLost (s : State) (w : Nat) (as : List Access) : State :=
  let s := { s with stk.badWords := s.stk.badWords.put w true }
  match as with
  | [] => s.mediaEvent (64 * w) 2
  | a :: _ => (s.mediaEvent (64 * w) (s.accessClass a (64 * w))).accessFails a (64 * w)

def execPageMendDone (dpa : BitVec 40) (ok : Bool) (s : State) : Outcome :=
  let page := dpa.toNat / 4096
  match s.stk.pages.get page with
  | none => .next s
  | some (w, as) =>
    let s := { s with stk.pages := s.stk.pages.del page }
    let s := if ok then s.pageMended page else s.pageLost w as
    let rest := if ok then as else as.drop 1
    .next ((rest.foldl State.accessAgain s).emitWaiting)

end Sys2Proof.Machine
end

