-- ==== Sys2Proof/Machine/Secure.lean ====
section
/-!
DEFINITION. Identity, firmware and owner records (R381 to R388, R392): what the boot chain derives and chooses, the
operations of SEC_OWNER_CMD, and the transfer of firmware.
-/

namespace Sys2Proof.Machine

/-! ### Identity (R381, R382) -/

/-- The digest of the DeviceID public key. -/
def State.devidHash (s : State) : List Byte := sliceBytes (Config.shake256 (Config.devidKey s.cfg.flash.helper) 32) 0 32

/-- The helper data passes its check. -/
def State.helperOk (s : State) : Bool := Config.helperDigest s.cfg.flash.helper == s.devidHash

/-- The certificate in flash names the derived key. -/
def State.identityOk (s : State) : Bool :=
  s.helperOk && Config.certKey s.cfg.flash.certs == Config.devidKey s.cfg.flash.helper

/-- The locally administered MAC of R389 in GLB_OOB_MAC. -/
def State.localMac (s : State) (d : List Byte) : State :=
  let s := s.setReg Reg.GLB_OOB_MAC_LO.addr (BitVec.ofNat 32 (leNat ([0x02, 0x5A, 0x4E] ++ sliceBytes d 0 1)))
  s.setReg Reg.GLB_OOB_MAC_HI.addr (BitVec.ofNat 32 (leNat (sliceBytes d 1 2)))

/-- The ROM derives the identity, or it fails. -/
def State.deriveIdentity (s : State) : State :=
  let h := s.devidHash
  let s := if s.helperOk then s.putDigest Reg.SEC_DEVID_HASH.addr h else s
  if s.identityOk then (s.setFld Reg.SEC_STATUS.identity 1).localMac h
  else
    let s := (s.log 0x18 .identityFailure).setFld Reg.SEC_STATUS.identity 2
    (s.raise Reg.SEC_INT_STATUS.identity_fail).localMac []

/-! ### Firmware (R387, R388) -/

/-- The image in flash, by its length word, which must lie within the area. -/
def State.flashFw (s : State) : Option (List Byte) :=
  let n := numAt (flashBytes s.cfg.flash.firmware 0 12) 8 4
  if 434 ≤ n ∧ n ≤ 0x4000000 then some (flashBytes s.cfg.flash.firmware 0 n) else none

/-- A signer block (bytes 128 to 319 of Table 17-4), at offset o, is certified by the Product Root. -/
def signerOk (b : List Byte) (o : Nat) : Bool :=
  Config.ed448Verify Config.productRoot ctxSigner (sliceBytes b o 64) (sliceBytes b (o + 64) 114)

/-- An image's signature verifies under its certified signer key. -/
def fwSigned (b : List Byte) : Bool := signerOk b 128 && signedBy (sliceBytes b 128 57) ctxFirmware b

/-- An image has the layout of Table 17-4. -/
def fwLayoutOk (b : List Byte) : Bool :=
  decide (numAt b 0 4 = 0x57464E5A) && decide (numAt b 4 1 = 1) && decide (numAt b 5 1 = 0xA1) && allZero (sliceBytes b 6 2) &&
    decide (numAt b 8 4 = b.length) && allZero (sliceBytes b 16 112) && allZero (sliceBytes b 185 7) &&
    allZero (sliceBytes b 306 14)

/-- The image in flash, if it verifies. -/
def State.goodFw (s : State) : Option (List Byte) :=
  match s.flashFw with
  | none => none
  | some b => if fwSigned b && fwLayoutOk b then some b else none

/-- Verifies the image in flash; a refusal for its signature counts (R380, SEC_CNT_VERIFY_FAIL). -/
def State.verifyFw (s : State) : State × Bool :=
  match s.goodFw with
  | some _ => (s, true)
  | none =>
    let signed := match s.flashFw with
      | some b => fwSigned b
      | none => false
    (if signed then s else s.verifyFail, false)

/-- Stores the measurement and the SVN of the image that runs. -/
def State.measureFw (s : State) (b : List Byte) : State :=
  let m := sliceBytes (Config.shake256 b 64) 0 64
  let s := (List.range 16).foldl (fun s i => s.setReg (Reg.SEC_FW_MEAS.addr i) (BitVec.ofNat 32 (numAt m (4 * i) 4))) s
  s.setReg Reg.SEC_SVN.addr (BitVec.ofNat 32 (numAt b 12 4))

/-! ### Owner records (R384) -/

/-- The record in a slot, if it is valid: it verifies under one of its own OWNER keys and has its layout. -/
def State.ownerSlot (s : State) (k : Nat) : Option (List Byte) :=
  let b := (if k = 0 then s.cfg.flash.owner0 else s.cfg.flash.owner1).take 402
  if ownerFormatOk b && recordVerifies b roleOwner ctxOwner b then some b else none

/-- The active record: the valid one with the higher sequence. -/
def State.pickOwner (s : State) : Option (Nat × List Byte) :=
  match s.ownerSlot 0, s.ownerSlot 1 with
  | some a, some b => if ownerSeq a < ownerSeq b then some (1, b) else some (0, a)
  | some a, none => some (0, a)
  | none, some b => some (1, b)
  | none, none => none

/-- The keys of the active record in SEC_KEYk_i and SEC_KEY_ROLEk. -/
def State.showKeys (s : State) (rec : List Byte) : State :=
  (List.range (ownerKeys rec)).foldl (fun s k =>
    let s := (List.range 15).foldl (fun s i =>
      s.setReg (Reg.SEC_KEY.addr k i) (BitVec.ofNat 32 (numAt (ownerKey rec k) (4 * i) 4))) s
    s.setReg (Reg.SEC_KEY_ROLE.addr k) (BitVec.ofNat 32 (ownerRoles rec k + 2 ^ 31))) s

/-- The owner record is chosen. -/
def State.chooseOwner (s : State) : State :=
  match s.pickOwner with
  | none => { s with sec.ownerRecord := [] }
  | some (k, b) =>
    let s := ({ s with sec.ownerRecord := b } : State).showKeys b
    let s := (s.setFld Reg.SEC_STATUS.owner 1).setFld Reg.SEC_STATUS.active_slot k
    s.setReg Reg.SEC_OWNER_SEQ.addr (BitVec.ofNat 32 (ownerSeq b))

/-! ### SEC_OWNER_CMD (R384, R392) -/

/-- An operation of SEC_OWNER_CMD ends. -/
def State.ownerEnds (s : State) (status : Nat) : State :=
  (s.setFld Reg.SEC_OWNER_CMD.status status).raise Reg.SEC_INT_STATUS.owner_done

/-- What SEC_STAGE holds. -/
def State.secObject (s : State) : List Byte := stageBytes s.cfg.secStage (s.fld Reg.SEC_OWNER_LEN.bytes)

/-- A record is installed in the slot that does not hold the active one; on an UNOWNED device in slot 0 (log 63). -/
def State.installOwner (s : State) : State :=
  let b := s.secObject
  let owned := s.bit Reg.SEC_STATUS.owner
  let signed := if owned then s.roleVerifies roleOwner ctxOwner b else recordVerifies b roleOwner ctxOwner b
  if !signed then s.verifyFail.ownerEnds 2
  else if !ownerFormatOk b then s.ownerEnds 3
  else if owned && decide (ownerSeq b ≤ s.fld Reg.SEC_OWNER_SEQ.value) then s.ownerEnds 4
  else
    let slot1 := owned && !s.bit Reg.SEC_STATUS.active_slot
    let s := if slot1 then { s with cfg.flash.owner1 := b } else { s with cfg.flash.owner0 := b }
    (s.setFld Reg.SEC_STATUS.install_pending 1).ownerEnds 1

/-- A debug authorization (R392): hash, nonce, signer block, signature. -/
def State.debugFormat (s : State) (b : List Byte) : Bool :=
  let regs (addr : Nat → Nat) : List Byte := (List.range 8).flatMap fun i => leBytes 4 (s.reg (addr i)).toNat
  decide (b.length = 370) && sliceBytes b 0 32 == regs Reg.SEC_DEVID_HASH.addr &&
    sliceBytes b 32 32 == regs Reg.SEC_DEBUG_NONCE.addr && allZero (sliceBytes b 121 7) && allZero (sliceBytes b 242 14)

def State.debugAuth (s : State) : State :=
  let b := s.secObject
  if !s.bit Reg.SEC_CTL.debug_auth_en then s.ownerEnds 6
  else if !(signerOk b 64 && signedBy (sliceBytes b 64 57) ctxDebug b) then s.verifyFail.ownerEnds 2
  else if !s.debugFormat b then s.ownerEnds 3
  else
    let s := (s.setFld Reg.SEC_STATUS.debug_unlocked 1).setFld Reg.SEC_STATUS.alias_ready 0
    (s.raise Reg.SEC_INT_STATUS.debug_unlock).ownerEnds 1

/-- A write to SEC_OWNER_CMD. -/
def State.writeOwnerCmd (s : State) (v : W32) : State :=
  s.regWrite Reg.SEC_OWNER_CMD.addr v fun s =>
    if s.bit Reg.SEC_OWNER_CMD.busy then s
    else
      let s := s.storeFields Reg.SEC_OWNER_CMD.addr v
      if Reg.SEC_OWNER_CMD.go.of v = 0 then s
      else if Reg.SEC_OWNER_CMD.op.of v = 0 then s.installOwner
      else s.debugAuth

def execOwnerInstall (value : W32) (s : State) : Outcome :=
  if Reg.SEC_OWNER_CMD.go.of value = 1 ∧ Reg.SEC_OWNER_CMD.op.of value = 0 then .next (s.writeOwnerCmd value) else .next s

def execDebugAuthorization (value : W32) (s : State) : Outcome :=
  if Reg.SEC_OWNER_CMD.go.of value = 1 ∧ Reg.SEC_OWNER_CMD.op.of value = 1 then .next (s.writeOwnerCmd value) else .next s

/-! ### Transfer FW (R388): action, slot, offset in units of 128 bytes, and data from byte 128 on (CXL 3.1) -/

/-- The image is complete: it is verified from flash. -/
def State.fwComplete (s : State) (tp : Transport) : State :=
  match ({ s with cfg.transfers := s.cfg.transfers.del xfFirmware } : State).verifyFw with
  | (s, ok) => s.archReply tp 0x0201 (if ok then rcSuccess else rcFwVerify) []

/-- Writes a fragment; the first one erases the area. -/
def State.fwPut (s : State) (off : Nat) (bs : List Byte) : State :=
  { s with cfg.flash.firmware := flashPut (if off = 0 then [] else s.cfg.flash.firmware) off bs, sec.fwStaged := false }

/-- A fragment that continues an open transfer, or ends it. -/
def State.fwContinue (s : State) (tp : Transport) (t : Transfer) (off : Nat) (bs : List Byte) (last : Bool) : State :=
  let op : BitVec 16 := 0x0201
  if off = t.next then
    if 0x4000000 < off + bs.length then
      ({ s with cfg.transfers := s.cfg.transfers.del xfFirmware } : State).archReply tp op rcInvalidInput []
    else
      let s := (s.fwPut off bs).fragTaken xfFirmware tp off 0 bs.length
      if last then s.fwComplete tp else s.archDone tp op []
  else if off = t.last ∧ !last then s.archDone tp op []
  else s.archReply tp op rcFwOutOfOrder []

def State.transferFw (s : State) (tp : Transport) (input : List Byte) : State :=
  let op : BitVec 16 := 0x0201
  let action := numAt input 0 1
  let off := 128 * numAt input 4 4
  let bs := input.drop 128
  let t := if s.xfOpen xfFirmware then s.cfg.transfers.get xfFirmware else none
  let foreign := match t with
    | some t => !sameSender t.src tp
    | none => false
  if input.length < 128 then s.archReply tp op rcPayloadLength []
  else if foreign then s.archReply tp op rcFwInProgress []
  else if (action = 0 ∨ action = 3) ∧ numAt input 1 1 ≠ 1 then s.archReply tp op rcInvalidSlot []
  else
    match action, t with
    | 0, none =>
      if off ≠ 0 ∨ 0x4000000 < bs.length then s.archReply tp op rcInvalidInput []
      else (s.fwPut 0 bs).fwComplete tp
    | 1, none =>
      if off ≠ 0 then s.archReply tp op rcFwOutOfOrder []
      else if 0x4000000 < bs.length then s.archReply tp op rcInvalidInput []
      else ((s.fwPut 0 bs).fragTaken xfFirmware tp 0 0 bs.length).archDone tp op []
    | 1, some t => if off = 0 ∧ t.last = 0 then s.archDone tp op [] else s.archReply tp op rcFwInProgress []
    | 0, some _ => s.archReply tp op rcFwInProgress []
    | 2, some t => s.fwContinue tp t off bs false
    | 3, some t => s.fwContinue tp t off bs true
    | 4, _ => ({ s with cfg.transfers := s.cfg.transfers.del xfFirmware } : State).archDone tp op []
    | 2, none => s.archReply tp op rcFwOutOfOrder []
    | 3, none => s.archReply tp op rcFwOutOfOrder []
    | _, _ => s.archReply tp op rcInvalidInput []

def execTransferFw (tp : Transport) (input : List Byte) (s : State) : Outcome :=
  .next (s.archCmd tp 0x0201 fun s => s.transferFw tp input)

/-- One slot, which is active; it is staged once Activate FW has verified it; activation only at a reset. -/
def State.fwInfo (s : State) : List Byte :=
  [1, if s.sec.fwStaged then 9 else 1, 0] ++ leBytes 13 0 ++ s.fwName ++ leBytes 48 0

def execGetFwInfo (tp : Transport) (s : State) : Outcome :=
  .next (s.archCmd tp 0x0200 fun s => s.archDone tp 0x0200 s.fwInfo)

end Sys2Proof.Machine
end

