-- ==== Sys2Proof/Machine/Spdm.lean ====
section
/-!
DEFINITION. The SPDM 1.3 responder over DOE (R390, R391). What the manual leaves to DSP0274, the layouts of messages and
their order, follows it (log 61).
-/

namespace Sys2Proof.Machine

/-! ### Requests -/

def spVersion : Nat := 0x84
def spCapabilities : Nat := 0xE1
def spAlgorithms : Nat := 0xE3
def spDigests : Nat := 0x81
def spCertificate : Nat := 0x82
def spChallenge : Nat := 0x83
def spMeasurements : Nat := 0xE0

/-- The requests that are supported. -/
def spdmKnown : List Nat := [0x84, 0xE1, 0xE3, 0x81, 0x82, 0x83, 0xE0]

/-- Error codes. -/
def seInvalid : Nat := 0x01
def seBusy : Nat := 0x03
def seUnexpected : Nat := 0x04
def seUnspecified : Nat := 0x05
def seUnsupported : Nat := 0x07
def seVersion : Nat := 0x41

def spdmCode (req : List Byte) : Nat := numAt req 1 1
def spdmParam1 (req : List Byte) : Nat := numAt req 2 1
def spdmParam2 (req : List Byte) : Nat := numAt req 3 1

/-- An ERROR response. -/
def spdmError (code data : Nat) : List Byte := [0x13, 0x7F, BitVec.ofNat 8 code, BitVec.ofNat 8 data]

/-- Answers an error. -/
def State.spdmFail (s : State) (code : Nat) (data : Nat := 0) : State := s.emit (.doe (spdmError code data))

/-- A request reaches its rule, or the error that meets it before: `stage` is what must have been negotiated. -/
def State.spdmIn (s : State) (code stage : Nat) (req : List Byte) (rule : State → State) : State :=
  if !s.bit Reg.GLB_STATUS.host_up ∨ spdmCode req ≠ code then s
  else if req.length < 4 then s.spdmFail seInvalid
  else if s.fld Reg.GLB_STATUS.boot = 4 then s.spdmFail seUnspecified
  else if !s.bit Reg.SEC_CTL.spdm_en then s.spdmFail seBusy
  else if numAt req 0 1 ≠ (if code = spVersion then 0x10 else 0x13) then s.spdmFail seVersion
  else if s.sec.spdm < stage then s.spdmFail seUnexpected
  else rule s

/-! ### Negotiation -/

def versionAnswer : List Byte := [0x10, 0x04, 0, 0, 0, 1] ++ leBytes 2 0x1300

def execGetVersion (req : List Byte) (s : State) : Outcome :=
  .next (s.spdmIn spVersion 0 req fun s =>
    ({ s with sec.spdm := 1, sec.spdmA := req ++ versionAnswer, sec.spdmB := [], sec.spdmL := [] } : State).emit
      (.doe versionAnswer))

/-- CERT_CAP, CHAL_CAP, and MEAS_CAP with signatures; the timeout exponent and the sizes are free. -/
def State.capabilitiesAnswer (s : State) : List Byte :=
  [0x13, 0x61, 0, 0, 0] ++ s.freeBytes 1 ++ [0, 0] ++ leBytes 4 0x16 ++ (s.freeBytes 9).drop 1

def execGetCapabilities (req : List Byte) (s : State) : Outcome :=
  .next (s.spdmIn spCapabilities 1 req fun s =>
    let a := s.capabilitiesAnswer
    ({ s.draw with sec.spdm := 2, sec.spdmA := s.sec.spdmA ++ req ++ a } : State).emit (.doe a))

/-- Ed448, SHA3-512 for signatures and for measurements; where the requester does not offer one, none is chosen. -/
def algorithmsAnswer (req : List Byte) : List Byte :=
  let asym := if numAt req 8 4 / 2 ^ 11 % 2 = 1 then 2 ^ 11 else 0
  let hash := if numAt req 12 4 / 2 ^ 5 % 2 = 1 then 2 ^ 5 else 0
  [0x13, 0x63, 0, 0] ++ leBytes 2 36 ++ [1, 0] ++ leBytes 4 (2 ^ 6) ++ leBytes 4 asym ++ leBytes 4 hash ++ leBytes 16 0

def execNegotiateAlgorithms (req : List Byte) (s : State) : Outcome :=
  .next (s.spdmIn spAlgorithms 2 req fun s =>
    if req.length < 32 then s.spdmFail seInvalid
    else
      let a := algorithmsAnswer req
      ({ s with sec.spdm := 3, sec.spdmA := s.sec.spdmA ++ req ++ a } : State).emit (.doe a))

/-! ### Certificates (R383) -/

/-- The chain of slot 0. -/
def State.chain (s : State) : List Byte :=
  Config.certChain s.cfg.flash.certs s.cfg.flash.helper s.fwMeas (s.fld Reg.SEC_SVN.value)

/-- Identity has failed (R382). -/
def State.noIdentity (s : State) : Bool := s.fld Reg.SEC_STATUS.identity ≠ 1

/-- The alias key cannot sign: identity failed, or debug was unlocked (R382, R392). -/
def State.noAlias (s : State) : Bool := s.noIdentity || !s.bit Reg.SEC_STATUS.alias_ready

def State.digestsAnswer (s : State) : List Byte := [0x13, 0x01, 0, 1] ++ sliceBytes (Config.sha3 64 s.chain) 0 64

def execGetDigests (req : List Byte) (s : State) : Outcome :=
  .next (s.spdmIn spDigests 3 req fun s =>
    let a := s.digestsAnswer
    ({ s with sec.spdmB := s.sec.spdmB ++ req ++ a } : State).emit (.doe a))

/-- The part of the chain that a GET_CERTIFICATE asks for. -/
def State.certificateAnswer (s : State) (off len : Nat) : List Byte :=
  let part := (s.chain.drop off).take len
  [0x13, 0x02, 0, 0] ++ leBytes 2 part.length ++ leBytes 2 (s.chain.length - off - part.length) ++ part

def execGetCertificate (req : List Byte) (s : State) : Outcome :=
  .next (s.spdmIn spCertificate 3 req fun s =>
    if s.noIdentity then s.spdmFail seUnspecified
    else if req.length ≠ 8 ∨ spdmParam1 req % 16 ≠ 0 ∨ s.chain.length ≤ numAt req 4 2 then s.spdmFail seInvalid
    else
      let a := s.certificateAnswer (numAt req 4 2) (numAt req 6 2)
      ({ s with sec.spdmB := s.sec.spdmB ++ req ++ a } : State).emit (.doe a))

/-! ### Measurements (Table 17-6) -/

/-- The programs loaded, by id: id and measurement. -/
def State.programMeas (s : State) : List Byte :=
  let ps := s.ory.progs.foldl (fun (m : SMap (List Byte)) e => m.put e.2.id.toNat e.2.meas) []
  ps.flatMap fun e => leBytes 2 e.1 ++ sliceBytes e.2 0 64

/-- The content of a measurement block; none beyond 9. -/
def State.measurement (s : State) (i : Nat) : Option (List Byte) :=
  match i with
  | 1 => some (sliceBytes Config.romDigest 0 64)
  | 2 => some s.fwMeas
  | 3 => some (leBytes 4 (s.fld Reg.SEC_SVN.value) ++ leBytes 4 (s.reg Reg.GLB_DEVICE_ID.addr).toNat)
  | 4 => some (leBytes 4 (s.fld Reg.SEC_OWNER_SEQ.value) ++ sliceBytes (Config.shake256 s.sec.ownerRecord 64) 0 64)
  | 5 => some (sliceBytes s.sec.folioMeas 0 64)
  | 6 => some (s.colophon ++ leBytes 4 (s.fld Reg.CFG_EPOCH.value) ++ leBytes 4 s.reportFlags)
  | 7 => some s.localDigest
  | 8 => some (sliceBytes (Config.shake256 s.programMeas 64) 0 64)
  | 9 => some (leBytes 4 (s.fld Reg.SEC_STATUS.identity + 4 * s.fld Reg.SEC_STATUS.owner +
      16 * s.fld Reg.SEC_STATUS.debug_unlocked))
  | _ => none

/-- A measurement block, of type raw bit stream. -/
def measurementBlock (i : Nat) (v : List Byte) : List Byte :=
  leBytes 1 i ++ [1] ++ leBytes 2 (v.length + 3) ++ leBytes 1 (128 + (Config.measurementKind i).toNat) ++ leBytes 2 v.length ++ v

/-- The blocks of a request from one snapshot: all nine, or the one of an index. -/
def State.blocks (s : State) (op : Nat) : Option (List (List Byte)) :=
  let one (i : Nat) : Option (List Byte) := (s.measurement i).map (measurementBlock i)
  if op = 0 then some []
  else if op = 255 then some ((List.range 9).filterMap fun i => one (i + 1))
  else (one op).map fun b => [b]

/-- A nonce of 32 bytes. -/
def State.nonce (s : State) : List Byte := leBytes 32 (Config.freeNonce s.fresh).toNat

/-- MEASUREMENTS without its signature: the request's context closes it. -/
def State.measurementsBody (s : State) (op : Nat) (bs : List (List Byte)) (ctx : List Byte) : List Byte :=
  let rec_ := bs.flatMap id
  [0x13, 0x60, if op = 0 then 9 else 0, 0] ++ leBytes 1 bs.length ++ leBytes 3 rec_.length ++ rec_ ++ s.nonce ++ leBytes 2 0 ++ ctx

/-- The signature of the alias key over the digest of a transcript. -/
def State.aliasSig (s : State) (use : String) (transcript : List Byte) : List Byte :=
  sliceBytes (Config.aliasSign s.fwMeas (context use ++ Config.sha3 64 transcript)) 0 114

def execGetMeasurements (req : List Byte) (s : State) : Outcome :=
  .next (s.spdmIn spMeasurements 3 req fun s =>
    let sig := spdmParam1 req % 2 = 1
    let ctx := sliceBytes req (if sig then 37 else 4) 8
    if s.noAlias then s.spdmFail seUnspecified
    else if req.length ≠ (if sig then 45 else 12) ∨ (sig ∧ numAt req 36 1 % 16 ≠ 0) then s.spdmFail seInvalid
    else
      match s.blocks (spdmParam2 req) with
      | none => s.spdmFail seInvalid
      | some bs =>
        let body := s.measurementsBody (spdmParam2 req) bs ctx
        let l := s.sec.spdmL ++ req ++ body
        if sig then
          ({ s.draw with sec.spdmL := [] } : State).emit
            (.doe (body ++ s.aliasSig "responder-measurements signing" (s.sec.spdmA ++ l)))
        else ({ s.draw with sec.spdmL := l } : State).emit (.doe body))

/-! ### Challenge -/

/-- The summary of measurements that a CHALLENGE may ask for: of the ROM and firmware (1), or of all (255). -/
def State.measurementSummary (s : State) (kind : Nat) : List Byte :=
  let is := if kind = 255 then (List.range 9).map (· + 1) else [1, 2]
  Config.sha3 64 ((is.filterMap fun i => (s.measurement i).map (measurementBlock i)).flatMap id)

/-- CHALLENGE_AUTH without its signature. -/
def State.challengeBody (s : State) (req : List Byte) : List Byte :=
  let kind := spdmParam2 req
  [0x13, 0x03, 0, 1] ++ sliceBytes (Config.sha3 64 s.chain) 0 64 ++ s.nonce ++
    (if kind = 0 then [] else sliceBytes (s.measurementSummary kind) 0 64) ++ leBytes 2 0 ++ sliceBytes req 36 8

def execChallenge (req : List Byte) (s : State) : Outcome :=
  .next (s.spdmIn spChallenge 3 req fun s =>
    if s.noAlias then s.spdmFail seUnspecified
    else if req.length ≠ 44 ∨ spdmParam1 req % 16 ≠ 0 ∨ !(spdmParam2 req = 0 ∨ spdmParam2 req = 1 ∨ spdmParam2 req = 255) then
      s.spdmFail seInvalid
    else
      let body := s.challengeBody req
      let sig := s.aliasSig "responder-challenge_auth signing" (s.sec.spdmA ++ s.sec.spdmB ++ req ++ body)
      ({ s.draw with sec.spdmB := [] } : State).emit (.doe (body ++ sig)))

/-! ### Anything else -/

/-- Every other request gets ERROR, UnsupportedRequest. -/
def execSpdmUnsupportedRequest (req : List Byte) (s : State) : Outcome :=
  if spdmKnown.contains (spdmCode req) then .next s
  else .next (s.spdmIn (spdmCode req) 0 req fun s => s.spdmFail seUnsupported (spdmCode req))

end Sys2Proof.Machine
end

