-- ==== Sys2Proof/Machine/Reset.lean ====
section
/-!
DEFINITION. Resets and supply (chapter 18): the state that each reset leaves (R402, R403), the boot chain (R386, R398), the
hold-up reserve (R397), supply loss (R405 to R407), the reference clock (R431), and the commands that start a device
reset.
-/

namespace Sys2Proof.Machine

/-! ### Registers that survive -/

/-- Latch cycle counts are held in the latches' own cells (R402). -/
def latchOffs : List Nat := (List.range 32).map Reg.TRN_LATCH_CYCLES.addr

/-- Registers that a device reset keeps whole (R402). -/
def deviceKept : List Nat :=
  latchOffs ++ [Reg.GLB_MEM_ERR_EPOCH.addr, Reg.HLT_BREAKER.addr] ++
    (List.range 384).map Reg.STK_ENG.addr ++ (List.range 101).map Reg.HLT_BUDGET_TOK.addr ++
    ((List.range 68).flatMap fun t => (List.range 128).map fun k => Reg.HLT_BIN.addr (128 * t + k))

/-- The registers of the list with the values they have; every other one at its Reset value. -/
def State.keepRegs (s : State) (offs : List Nat) : SMap W32 := s.regs.filter fun e => offs.contains e.1

/-- Pins that a reset changes: the output pulses are disarmed, THERMTRIP_N is released, and ALERT_N follows its cause. -/
def State.pinsFrom (s old : State) : State :=
  let s := [0, 1, 2, 3].foldl (fun (s : State) (n : BitVec 2) =>
    let was := (old.pulse n.toNat).active != old.bit (Reg.EPH_PULSE_CTL.polarity n.toNat)
    let now := s.bit (Reg.EPH_PULSE_CTL.polarity n.toNat)
    if was = now then s else s.emit (.pin (.ppsOut n) now)) s
  let s := if old.hlt.thermtripOn && !s.hlt.thermtripOn then s.emit (.pin .thermtripN false) else s
  s.alertFrom old

/-! ### Cold reset -/

/-- The state that a cold reset leaves (R402, R403): every field at its Reset value but what the latches' cells, the flash
and the MIRROR and ALMANAC partitions hold. Memory waits for the zero fill. -/
def State.coldBase (s : State) : State :=
  { State.reset with
    pending := s.pending, out := s.out, fresh := s.fresh
    regs := s.keepRegs latchOffs
    alm := { stack := s.alm.stack }
    trn := { umbraMap := s.trn.umbraMap }
    stk := { mem := s.stk.mem, badWords := s.stk.badWords }
    cfg := { flash := s.cfg.flash }
    arc := { summaries := s.arc.summaries, summarySeq := s.arc.summarySeq }
    pwr := { porst := s.pwr.porst, perst := s.pwr.perst, supplyLost := s.pwr.supplyLost,
             hostSetup := s.pwr.hostSetup.map fun h => (h.1, h.2.1, false) } }

/-- A cold reset begins, and holds until the device starts. -/
def State.coldReset (s : State) : State := (s.coldBase.snapAll).pinsFrom s

/-- T0: the ROM starts. A fresh debug nonce is drawn (R392), and the restart is marked (R373). -/
def State.bootStart (s : State) : State :=
  let n := leBytes 32 (Config.freeNonce s.fresh).toNat
  let s := (s.draw.putDigest Reg.SEC_DEBUG_NONCE.addr n).setFld Reg.GLB_STATUS.boot 1
  s.log 0x00 .restartMarker 0 [if s.pwr.deviceReset then 1 else 0]

/-- The hold-up reserve is measured in mJ (R397): below 3 J it is recorded, and no port is offered. -/
def State.checkReserve (s : State) (mJ : Nat) : State :=
  if 3000 ≤ mJ then { s with pwr.reserveOk := true } else s.log 0x00 .holdUpReserve 0 [mJ]

/-- The cold start: the boot chain begins, and the reserve is checked. -/
def State.coldStart (s : State) (mJ : Nat) : State := (s.bootStart).checkReserve mJ

def execPorstNAssert (s : State) : Outcome :=
  if s.pwr.porst then .next s else .next ({ s with pwr.porst := true } : State).coldReset

def execPorstNDeassert (reserve : Nat) (s : State) : Outcome :=
  if s.pwr.porst then
    let s := { s with pwr.porst := false }
    .next (if s.pwr.supplyLost then s else s.coldStart reserve)
  else .next s

/-! ### Supply (R405 to R407) -/

/-- The contents that stack memory has after a loss of supply are unknown (log 62). -/
def State.loseMemory (s : State) : State :=
  let m := (Config.lostMemory s.fresh).foldl (fun m e => if e.1 < dpaEnd then SMap.write 0 m e.1 e.2 else m) []
  { s.draw with stk.mem := m, stk.badWords := [], alm.stack := [] }

def execSupplyLoss (s : State) : Outcome :=
  if s.pwr.supplyLost then .next s else .next (({ s with pwr.supplyLost := true } : State).coldReset).loseMemory

def execSupplyRestored (reserve : Nat) (s : State) : Outcome :=
  if s.pwr.supplyLost then
    let s := { s with pwr.supplyLost := false }
    .next (if s.pwr.porst then s else s.coldStart reserve)
  else .next s

/-- The device is held in cold reset. -/
def State.held (s : State) : Bool := s.pwr.porst || s.pwr.supplyLost

def execVinLow (s : State) : Outcome := if s.held then .next s else .next (s.log 0x00 .vinLow)

/-- Engines whose ports wait for their latches (R105): calibration is ready. -/
def State.releaseReady (s : State) : State :=
  if s.mayRelease ∧ (!s.bit Reg.TRN_UMBRA_CTL.hold_at_start ∨ s.trn.releasePending) then
    ((List.range 32).filter fun f => (s.engine f).calState = 2).foldl (fun s f => { s.releaseLatch f with trn.dark := false }) s
  else s

/-- A short reserve is measured again each second until it holds 3 J. -/
def execReserveRecheck (reserve : Nat) (s : State) : Outcome :=
  if !s.held ∧ 1 ≤ s.fld Reg.GLB_STATUS.boot ∧ !s.pwr.reserveOk ∧ 3000 ≤ reserve then
    .next ({ s with pwr.reserveOk := true } : State).releaseReady
  else .next s

/-! ### The reference clock (R431) -/

/-- Transmitters stop, the latches snap, and ALERT_N is asserted; nothing is recorded, and only PORST_N ends it. -/
def execRefclkFault (s : State) : Outcome :=
  if s.held ∨ s.pwr.refclkBad then .next s
  else .next (({ s.snapAll with pwr.refclkBad := true } : State).alertFrom s)

/-! ### Device reset (R400) -/

/-- The device ignores requests for a device reset: it is held, tripped or without a clock (R404, R431). -/
def State.deaf (s : State) : Bool := s.held || s.hlt.thermtripOn || s.pwr.refclkBad

/-- Every open collective aborts with RESET, cause DEVICE (R248). -/
def State.abortAll (s : State) : State :=
  s.cnj.colls.foldl (fun s e => s.abortColl (e.1 / 65536) (BitVec.ofNat 16 e.1) abReset 1 0) s

/-- Frames that leave before the device falls silent: the ABORTs of R248, and the answers of commands. -/
def leavesFirst (f : Frame) : Bool :=
  (f.ftype == ftCollCtl && f.opcode == opAbort && decide (f.abortCode = abReset)) || (f.ftype == ftMgmt && f.opcode == mgArchRsp)

/-- The frames that wait for a port and leave before the reset, with their dies. -/
def State.lastFrames (s : State) : List (Nat × Port × Frame) :=
  (s.bufs.flatMap fun e =>
    if e.2.inPort.isNone then
      (e.2.dests.filter fun d => !d.begun && leavesFirst d.frame).map fun d => (bufDie e.1, d.port, d.frame) else []) ++
  (s.originWait.flatMap fun w => (w.copies.filter fun c => leavesFirst c.2).map fun c => (w.die.toNat, c.1, c.2))

def State.sendLast (s : State) : State :=
  s.lastFrames.foldl (fun s e => if s.isUp e.2.1 then (s.transmit e.2.1 e.2.2 none .plain e.1).1 else s) s

/-- The state that a device reset leaves (R402, R403). -/
def State.deviceBase (s : State) : State :=
  let t : State :=
    { State.reset with
      pending := s.pending, out := s.out, fresh := s.fresh
      regs := s.keepRegs deviceKept
      alm := { s.alm with ring := [], copied := s.alm.seq }
      msixEnable := s.msixEnable, hdm := s.hdm
      eph := { acc := s.eph.acc, adj := s.eph.adj, integ := s.eph.integ, state := .acquire }
      trn := { umbraMap := s.trn.umbraMap }
      cnj := { groups := s.cnj.groups.foldl (fun m e => SMap.write { } m e.1 { gen := e.2.gen }) [], spareOf := s.cnj.spareOf }
      stk := { mem := s.stk.mem, badWords := s.stk.badWords, fillPending := s.stk.fillPending }
      hlt := { s.hlt with ceilings := [] }
      cfg := { flash := s.cfg.flash }
      arc := { eventLogs := s.arc.eventLogs, eventHandle := s.arc.eventHandle, logOverflow := s.arc.logOverflow,
               eventPolicy := s.arc.eventPolicy, summaries := s.arc.summaries, summarySeq := s.arc.summarySeq,
               summaryTo := s.arc.summaryTo, summaryAt := s.arc.summaryAt }
      pwr := { s.pwr with resetting := true, deviceReset := true } }
  let t := (List.range 384).foldl (fun t c => t.setFld (Reg.STK_LB.level c) (s.fld (Reg.STK_LB.level c))) t
  t.setFld Reg.SEC_STATUS.debug_unlocked (s.fld Reg.SEC_STATUS.debug_unlocked)

/-- A device reset: collectives abort, the Archivist writes a summary (R374) and the SRAM ring is copied (R377), the latches
snap, and the boot chain starts. A second one merges into a reset in progress (R404). -/
def State.startDeviceReset (s : State) : State :=
  if s.deaf ∨ s.pwr.resetting then s
  else
    let s := (s.abortAll).sendLast
    let s := if s.archRuns then s.writeSummary else s
    let s := if s.almanacHome then s.almanacCopy else s
    let t := (s.deviceBase.snapAll).pinsFrom s
    t.bootStart

/-- A write to GLB_RESET_CMD: go with the key. -/
def State.writeResetCmd (s : State) (v : W32) : State :=
  s.regWrite Reg.GLB_RESET_CMD.addr v fun s =>
    if Reg.GLB_RESET_CMD.go.of v = 1 ∧ Reg.GLB_RESET_CMD.key.of v = 0x5253 then s.startDeviceReset else s

def execGlbResetCmd (value : W32) (s : State) : Outcome := .next (s.writeResetCmd value)

/-- DEVICE_RESET with its word: the reset follows the reply. -/
def execDeviceReset (tp : Transport) (input : List Byte) (s : State) : Outcome :=
  .next (s.archCmd tp 0xC00C fun s =>
    if input.length ≠ 4 then s.archReply tp 0xC00C rcPayloadLength []
    else if numAt input 0 4 ≠ 0x52455345 then s.archReply tp 0xC00C rcInvalidInput []
    else (s.archDone tp 0xC00C []).startDeviceReset)

/-- Activate FW (R388): at the next reset only; in the recovery loader it starts one. -/
def State.activateFw (s : State) (tp : Transport) (input : List Byte) : State :=
  let op : BitVec 16 := 0x0202
  if input.length ≠ 2 then s.archReply tp op rcPayloadLength []
  else if numAt input 0 1 = 0 then s.archReply tp op rcUnsupported []
  else if numAt input 0 1 ≠ 1 then s.archReply tp op rcInvalidInput []
  else if numAt input 1 1 ≠ 1 then s.archReply tp op rcInvalidSlot []
  else
    match s.verifyFw with
    | (s, false) => s.archReply tp op rcFwVerify []
    | (s, true) =>
      let s := ({ s with sec.fwStaged := true } : State).archDone tp op []
      if s.fld Reg.GLB_STATUS.boot = 4 then s.startDeviceReset else s

def execActivateFw (tp : Transport) (input : List Byte) (s : State) : Outcome :=
  .next (s.archCmd tp 0x0202 fun s => s.activateFw tp input)

/-! ### The boot chain (R386) -/

/-- The recovery loader (R389): no alias key, every latch as it is. -/
def State.enterRecovery (s : State) : State :=
  ({ s.setFld Reg.GLB_STATUS.boot 4 with pwr.resetting := false, pwr.deviceReset := false } : State).hostTrains

/-- Firmware starts: the alias key is there unless identity failed or debug was unlocked, and the owner record is chosen. -/
def State.firmwareStarts (s : State) (b : List Byte) : State :=
  let s := s.measureFw b
  let s := if s.fld Reg.SEC_STATUS.identity = 1 ∧ !s.bit Reg.SEC_STATUS.debug_unlocked then
      s.setFld Reg.SEC_STATUS.alias_ready 1 else s
  (s.chooseOwner.setFld Reg.GLB_STATUS.boot 2).setFld Reg.CFG_STATUS.folio_state 1

def execFirmwareVerifyDone (s : State) : Outcome :=
  if s.fld Reg.GLB_STATUS.boot ≠ 1 then .next s
  else
    let s := s.deriveIdentity
    match s.verifyFw, s.goodFw with
    | (s, true), some b => .next (s.firmwareStarts b)
    | (s, _), _ => .next s.enterRecovery

/-- The stack interfaces have trained (R398): the zero fill starts where it is owed, and else the memory stands. -/
def execStackTrained (ok : BitVec 12) (s : State) : Outcome :=
  if s.fld Reg.GLB_STATUS.boot = 3 ∧ s.fld Reg.STK_STATUS.stack_ok = 0 ∧ ok ≠ 0 then
    let s := s.setFld Reg.STK_STATUS.stack_ok ok.toNat
    let s := if ok = 0xFFF then s else s.raise Reg.STK_INT_STATUS.stack_fail
    .next (if s.stk.fillPending then s.setFld Reg.STK_STATUS.fill_busy 1 else s.setFld Reg.STK_STATUS.fill_done 1)
  else .next s

end Sys2Proof.Machine
end

