-- ==== Sys2Proof/Machine/RegView.lean ====
section
/-!
DEFINITION. What a register reads as (R7 to R10, R420 to R422): the stored fields, those that show what a mechanism holds,
the high words that reads latch, and the fields that a read clears.
-/

namespace Sys2Proof.Machine

/-! ### Fields that show what a mechanism holds -/

/-- A Boolean as a field. -/
def flag (b : Bool) : Nat := if b then 1 else 0

/-- A 64-bit pair: its low field and what it holds. -/
def livePair (lo : Fld) (v : Nat) : List (Fld × Nat) := [(lo, v % 2 ^ 32), ({ lo with off := lo.off + 4 }, v / 2 ^ 32 % 2 ^ 32)]

def State.liveGlb (s : State) : List (Fld × Nat) :=
  livePair Reg.GLB_ALM_SEQ_LO.value s.alm.seq ++ livePair Reg.GLB_ALM_OLDEST_LO.value s.alm.oldest ++
    [(Reg.GLB_HDM_CAP.capacity, s.hdmCapacity)]

def State.liveEph (s : State) (off : Nat) : List (Fld × Nat) :=
  if off < 0x01010000 then
    let p := s.eph.parent
    [(Reg.EPH_STATUS.state, s.eph.state.code), (Reg.EPH_STATUS.parent_port, (p.map fun e => e.1.toNat).getD 0),
     (Reg.EPH_STATUS.parent_valid, flag p.isSome), (Reg.EPH_STATUS.parent_rank, (p.map fun e => e.2.toNat).getD 0),
     (Reg.EPH_STATUS.source_holdover, flag s.eph.sourceHoldover), (Reg.EPH_STATUS.lock_count, min s.eph.lockCount 255)] ++
      livePair Reg.EPH_FT_LO.value s.ft ++ livePair Reg.EPH_FREQ_ADJ_LO.value (wrap 64 s.eph.adj) ++
      livePair Reg.EPH_OFFSET_LO.value (wrap 64 s.eph.offset) ++
      [0, 1, 2, 3].map fun n => (Reg.EPH_PULSE_CTL.armed n, flag (s.pulse n).armed)
  else
    let p : Port := BitVec.ofNat 9 ((off - 0x01010000) / 16)
    let t := s.time p
    livePair (Reg.EPH_PORT_DELAY_LO.value p.toNat) (wrap 64 t.mean) ++
      [(Reg.EPH_PORT_STAT.delay_valid p.toNat, flag t.valid), (Reg.EPH_PORT_STAT.parent_eligible p.toNat, flag (s.eligible p)),
       (Reg.EPH_PORT_STAT.pdelay_loss_run p.toNat, min t.loss 15)]

/-- The code of a fade state (Table 3-14). -/
def FadeState.code : FadeState → Nat
  | .normal => 0
  | .advisory => 1
  | .cutover => 2
  | .moved => 3
  | .noSpare => 4
  | .idle => 5
  | .failed => 6

def State.liveOptLine (s : State) (f n : Nat) : List (Fld × Nat) :=
  let l := s.line f n
  let p0 := match l.p0 with
    | some p => if s.reg (Reg.OPT_LINE_P0.addr f n) = 0x80008000 then
        [(Reg.OPT_LINE_P0.tx f n, wrap 16 p.1), (Reg.OPT_LINE_P0.rx f n, wrap 16 p.2)] else []
    | none => []
  [(Reg.OPT_LINE_STAT.duty f n, (l.duty.map BitVec.toNat).getD 31), (Reg.OPT_LINE_STAT.fade_state f n, l.fade.code),
   (Reg.OPT_LINE_STAT.provisional f n, flag l.provisional), (Reg.OPT_LINE_STAT.margin_low f n, flag l.marginLow),
   (Reg.OPT_LINE_STAT.usable f n, flag l.usable), (Reg.OPT_LINE_PWR.tx f n, wrap 16 l.tx),
   (Reg.OPT_LINE_PWR.rx f n, wrap 16 l.rx), (Reg.OPT_LINE_AVG.tx f n, wrap 16 l.avgTx),
   (Reg.OPT_LINE_AVG.rx f n, wrap 16 l.avgRx)] ++ p0

def State.liveOpt (s : State) (off : Nat) : List (Fld × Nat) :=
  let f := (off - 0x02000000) / 0x10000
  let o := off % 0x10000
  if o < 0x100 then
    let e := s.engine f
    let used := (List.range 18).map fun n => s.line f n
    let unlocked := (List.range 36).filter fun h => !(s.heater f h).locked
    [(Reg.OPT_STATUS.cal_state f, e.calState), (Reg.OPT_STATUS.laser_ok f, flag e.laserOk),
     (Reg.OPT_STATUS.any_unlocked f, flag (used.any fun l => l.duty.isSome && !l.locked)),
     (Reg.OPT_STATUS.spare_ready f, flag (s.spareReady f 16) + 2 * flag (s.spareReady f 17)),
     (Reg.OPT_STATUS.cutover_busy f, flag e.cutover.isSome),
     (Reg.OPT_STATUS.unlocked_count f, if e.calState = 0 then 0 else unlocked.length),
     (Reg.OPT_XT_CTL.identified f, flag e.identified)]
  else if o < 0x200 then
    let h := (o - 0x100) / 4
    let x := s.heater f h
    [(Reg.OPT_HEATER.drive f h, x.drive), (Reg.OPT_HEATER.locked f h, flag x.locked),
     (Reg.OPT_HEATER.headroom_out f h, flag x.headroomOut)]
  else if 0x300 ≤ o ∧ o < 0x420 then s.liveOptLine f ((o - 0x300) / 16)
  else []

/-- The code of a plane's state (Table 4-15). -/
def PlaneState.code : PlaneState → Nat
  | .idle => 0
  | .active => 1
  | .unusable => 2
  | .failed => 3
  | .standby => 4

/-- A word of an entry of an active bank. -/
def Bank.word (b : Bank) (e w : Nat) : Nat :=
  if e < b.len then ((SMap.get b.ent e).getD 0).toNat / 2 ^ (32 * w) % 2 ^ 32 else 0

def State.liveTrn (s : State) (off : Nat) : List (Fld × Nat) :=
  if 0x03040000 ≤ off then
    if off < 0x03060000 then
      let k := (off - 0x03040000) / 4
      [(Reg.TRN_CAL_ACTIVE.value k, if s.calActive.on then s.calActive.word (k / 8) (k % 8) else 0)]
    else []
  else if 0x03000040 ≤ off ∧ off < 0x03000088 then
    let c := (off - 0x03000040) / 4
    let x := s.plane c
    let bad := ((List.range 144).filter fun e => !(s.elem c e).locked).length
    [(Reg.TRN_PLANE_STAT.state c, x.state.code), (Reg.TRN_PLANE_STAT.locked c, flag (s.elemsLocked c)),
     (Reg.TRN_PLANE_STAT.unlocked_elems c, if x.state = .idle then 0 else bad),
     (Reg.TRN_PLANE_STAT.standin_for c, (x.standinFor.map BitVec.toNat).getD 31), (Reg.TRN_PLANE_STAT.latency c, x.latency)]
  else
    let a := s.act objCal
    [(Reg.TRN_STATUS.entry, s.trn.calEntry), (Reg.TRN_STATUS.cal_running, flag s.trn.calRunning),
     (Reg.TRN_CAL_ACT_STATUS.act_state, a.state), (Reg.TRN_CAL_ACT_STATUS.act_reason, a.reason),
     (Reg.TRN_PERM_COMMIT.committed, flag (s.permCommitted (s.fld Reg.TRN_PERM_COMMIT.index))),
     (Reg.TRN_UMBRA_CTL.map_busy, flag s.trn.umbraWrite.isSome)]

def State.liveLnk (s : State) (off : Nat) : List (Fld × Nat) :=
  let p : Port := BitVec.ofNat 9 ((off - 0x04000000) / 0x1000)
  let n := p.toNat
  let l := s.link p
  let st := match l.state with
    | .down => 0
    | .training => 1
    | .up => 2
  let avail (v : Nat) : Nat := (l.plim.read 0 v - l.sent.read 0 v).toNat
  [(Reg.LNK_STATUS.state n, st), (Reg.LNK_STATUS.fence n, s.fence p), (Reg.LNK_STATUS.held n, flag l.held.isSome),
   (Reg.LNK_STATUS.carrier n, (s.carrier p).getD 31), (Reg.LNK_STATUS.down_cause n, l.cause),
   (Reg.LNK_SEQ.tx n, l.txLseq.toNat), (Reg.LNK_SEQ.rx n, l.rxLseq.toNat)] ++
    (List.range 8).map fun v => (Reg.LNK_CREDIT_AVAIL.avail n v, avail v)

def State.liveFwd (s : State) : List (Fld × Nat) :=
  let ovf := overflowCount s.fwd.catalogue
  let trie := s.trieCount
  [(Reg.FWD_STATUS.rehash_busy, flag s.fwd.rehash.isSome), (Reg.FWD_STATUS.overflow_used, flag (decide (0 < ovf))),
   (Reg.FWD_STATUS.overflow_full, flag (decide (1024 ≤ ovf))), (Reg.FWD_CAT_REHASH.busy, flag s.fwd.rehash.isSome),
   (Reg.FWD_CAT_COUNT.buckets, s.fwd.catalogue.length - ovf), (Reg.FWD_CAT_COUNT.overflow, ovf),
   (Reg.FWD_IDX_HASH_COUNT.count, s.fwd.index.length - trie), (Reg.FWD_IDX_TRIE_COUNT.trie, trie),
   (Reg.FWD_IDX_TRIE_COUNT.cat, ovf)]

def State.liveCore (s : State) (off : Nat) : List (Fld × Nat) :=
  if off < 0x08100000 then [(Reg.CORE_STATUS.value, (Config.openRead Reg.CORE_STATUS.addr s.fresh).toNat)]
  else
    let d := (off - 0x08100000) / 0x100000
    (List.range 5).map (fun i => (Reg.CORE_POOL_STAT.in_use d i, s.poolUse d i)) ++
      [(Reg.CORE_LANDING_STAT.cells d, s.landed d),
       (Reg.CORE_WITHHELD.vcs d, (s.core d).withheld.eraseDups.foldl (fun n v => n + 2 ^ v.toNat) 0)]

def State.liveSch (s : State) (off : Nat) : List (Fld × Nat) :=
  if off < 0x0A400000 then (List.range 4).map fun d => (Reg.SCH_HOLD_STAT.held d, (s.sch.hold.read [] d).length)
  else
    let p := (off - 0x0A400000) / 0x2000
    let o := off % 0x2000
    if 0x1000 ≤ o then
      let k := (o - 0x1000) / 4
      let b := s.gateActive.read { } p
      [(Reg.SCH_GATE_ACTIVE.value p k, if b.on then b.word (k / 2) (k % 2) else 0)]
    else if o < 0x800 then
      let a := s.act (objGate p)
      let g := (s.gateState (BitVec.ofNat 9 p)).toNat
      [(Reg.SCH_GATE_ACT_STATUS.act_state p, a.state), (Reg.SCH_GATE_ACT_STATUS.act_reason p, a.reason),
       (Reg.SCH_GATE_STATE.effective p, g % 256), (Reg.SCH_GATE_STATE.list p, g / 256 % 256),
       (Reg.SCH_GATE_STATE.entry p, g / 65536 % 256)]
    else []

/-- The state, the tile served and the reserved slots of a tile (Table 10-16). -/
def State.tileShown (s : State) (t : Nat) : Nat × Nat × Nat :=
  let st := (s.elemAt 1 t).state
  let bad := st == .degraded || st == .expelling
  if t < 64 then
    if st = .expelled ∨ st = .excluded then (2, 127, 0) else (flag bad, 127, s.slotsReserved)
  else
    let d := t - 64
    let quar := s.hlt.quarantined.find? fun q => tileDie q = d
    let served := match s.cnj.spareOf.get d with
      | some q => some q
      | none => quar
    match served with
    | some q => (4, q, s.slotsReserved)
    | none => (if st = .expelled ∨ st = .excluded then 2 else if bad then 1 else 3, 127, 0)

def State.liveCnj (s : State) (off : Nat) : List (Fld × Nat) :=
  if 0x0C000400 ≤ off ∧ off < 0x0C000510 then
    let t := (off - 0x0C000400) / 4
    let (st, sv, n) := s.tileShown t
    let held := s.tileHeld t + s.auditHeld t
    if t < 64 then
      [(Reg.CNJ_TILE_STAT.state t, st), (Reg.CNJ_TILE_STAT.serves t, sv), (Reg.CNJ_TILE_STAT.slots_reserved t, n),
       (Reg.CNJ_TILE_STAT.slots_held t, held)]
    else
      [(Reg.CNJ_TILE_STAT_SPARE.state (t - 64), st), (Reg.CNJ_TILE_STAT_SPARE.serves (t - 64), sv),
       (Reg.CNJ_TILE_STAT_SPARE.slots_reserved (t - 64), n), (Reg.CNJ_TILE_STAT_SPARE.slots_held (t - 64), held)]
  else
    let g := s.fld Reg.CNJ_GRP_CTL.group
    let x := s.group g
    let st (y : GroupState) : Nat := (s.cnj.groups.filter fun e => e.2.state == y).length
    let code := match x.state with
      | .free => 0
      | .admitted => 1
      | .draining => 2
    [(Reg.CNJ_STATUS.admitted, st .admitted), (Reg.CNJ_STATUS.draining, st .draining),
     (Reg.CNJ_CFGQ_STAT.queued, s.cnj.cfgq.length), (Reg.CNJ_SPILL_RSVD.cells, s.spillReserved),
     (Reg.CNJ_GRP_STATUS.state, code), (Reg.CNJ_GRP_STATUS.gen, x.gen.toNat),
     (Reg.CNJ_GRP_STATUS.partition, x.partition.toNat), (Reg.CNJ_GRP_STATUS.tile_slots, x.tileSlots),
     (Reg.CNJ_GRP_STATUS.fence_tolerant, flag x.fenceTolerant), (Reg.CNJ_GRP_STATUS.transform_en, flag x.transformEn),
     (Reg.CNJ_GRP_CSEQ.next, x.nextCseq.toNat), (Reg.CNJ_GRP_CSEQ.open, x.opened.length),
     (Reg.CNJ_GRP_SPILL.cells, s.groupCells g)]

def State.liveMsf (s : State) : List (Fld × Nat) :=
  livePair Reg.MSF_WIN_SIZE_LO.value s.windowSize ++
    (List.range 4).map fun d => (Reg.MSF_COMB_STAT.entries d, s.combCountOf d)

/-- Groups ADMITTED or DRAINING that bind a program (Table 13-15). -/
def State.progGroups (s : State) (id : BitVec 16) : Nat :=
  (s.cnj.groups.filter fun e => e.2.state != .free && e.2.transformEn && e.2.program == id).length

def State.liveOry (s : State) (off : Nat) : List (Fld × Nat) :=
  if off < 0x14000100 then
    [(Reg.ORY_STATUS.programs, s.ory.progs.length), (Reg.ORY_STATUS.free, (131072 - s.progStore) / 8)]
  else if off < 0x14000300 then
    let n := (off - 0x14000100) / 8
    match s.ory.progs.get n with
    | none => []
    | some p =>
      [(Reg.ORY_PROG_ID.id n, p.id.toNat), (Reg.ORY_PROG_ID.valid n, 1), (Reg.ORY_PROG_ID.privileged n, flag p.privileged),
       (Reg.ORY_PROG_ID.transform n, flag p.transform), (Reg.ORY_PROG_STAT.threads n, p.idx.length),
       (Reg.ORY_PROG_STAT.suspended n, flag p.suspended),
       (Reg.ORY_PROG_STAT.faults n, min 255 (p.faults.filter fun f => decide (s.ft < f + second)).length),
       (Reg.ORY_PROG_STAT.groups n, min 65535 (s.progGroups p.id))]
  else if 0x14001000 ≤ off ∧ off < 0x14001400 then
    let c := (off - 0x14001000) / 4
    [(Reg.ORY_CORE.threads_reserved c, s.ory.progs.foldl (fun n e => n + e.2.idx.length) 0),
     (Reg.ORY_CORE.tokens_queued c, (s.ory.tokens.read [] c).length),
     (Reg.ORY_CORE.scratch_kib c, s.ory.progs.foldl (fun n e => n + e.2.scratchKib) 0)]
  else []

/-- The code of an element's state (Table 14-11). -/
def ElemState.code : ElemState → Nat
  | .ok => 0
  | .suspect => 1
  | .degraded => 2
  | .expelling => 3
  | .expelled => 4
  | .excluded => 5

/-- HLT_ELEM_STAT of the selected element; the manual does not say what it reads for a selection that names none (log 64). -/
def State.elemShown (s : State) : List (Fld × Nat) :=
  match s.selected with
  | some (c, i) =>
    let e := s.elemAt c i
    [(Reg.HLT_ELEM_STAT.score, e.score), (Reg.HLT_ELEM_STAT.state, e.state.code), (Reg.HLT_ELEM_STAT.capped, flag e.capped),
     (Reg.HLT_ELEM_STAT.last_input, e.lastInput), (Reg.HLT_ELEM_STAT.hold_reason, e.holdReason)]
  | none => [(⟨Reg.HLT_ELEM_STAT.addr, 0, 22⟩, (Config.openRead Reg.HLT_ELEM_STAT.addr s.fresh).toNat)]

def State.liveHlt (s : State) (off : Nat) : List (Fld × Nat) :=
  if off < 0x16000040 then
    let n (y : ElemState) : Nat := min 1023 (s.hlt.elems.filter fun e => e.2.state == y).length
    [(Reg.HLT_STATUS.suspect, n .suspect), (Reg.HLT_STATUS.degraded, n .degraded), (Reg.HLT_STATUS.expelled, n .expelled),
     (Reg.HLT_BREAKER.count, min 15 s.windowGrants.length)] ++ s.elemShown
  else []

def State.liveCfg (s : State) (off : Nat) : List (Fld × Nat) :=
  if off < 0x17000080 then
    let a := s.act objAmend
    [(Reg.CFG_STATUS.amend_pending, flag s.cfg.pendingAmend.isSome), (Reg.CFG_AMEND_STATUS.act_state, a.state),
     (Reg.CFG_AMEND_STATUS.act_reason, a.reason),
     (Reg.CFG_AMEND_EPOCH.value, (s.cfg.pendingAmend.map fun x => x.epoch.toNat).getD 0)] ++
      livePair Reg.CFG_AMEND_ACT_LO.value ((s.cfg.pendingAmend.map fun x => x.tAct).getD 0)
  else []

/-- The fields of registers near an offset that show what a mechanism holds, with their values. -/
def State.live (s : State) (off : Nat) : List (Fld × Nat) :=
  match off / 0x1000000 with
  | 0x00 => s.liveGlb
  | 0x01 => s.liveEph off
  | 0x02 => s.liveOpt off
  | 0x03 => s.liveTrn off
  | 0x04 => s.liveLnk off
  | 0x06 => s.liveFwd
  | 0x08 => s.liveCore off
  | 0x0A => s.liveSch off
  | 0x0C => s.liveCnj off
  | 0x12 => s.liveMsf
  | 0x14 => s.liveOry off
  | 0x16 => s.liveHlt off
  | 0x17 => s.liveCfg off
  | _ => []

/-! ### Reads -/

/-- The value of the register at an offset: its stored fields, wo and reserved ones as zero (R9, R10), with the fields that
show what a mechanism holds. An offset that names no register reads as zero. -/
def State.view (s : State) (off : Nat) : W32 :=
  match regRow? off with
  | none => 0
  | some r =>
    let w := s.reg off &&& BitVec.ofNat 32 (r.rw ||| r.rw1c ||| r.rc ||| r.ro)
    (s.live off).foldl (fun w e => if e.1.off = off then e.1.put w e.2 else w) w

/-- A read clears the rc fields of a register (R10). -/
def State.clearRead (s : State) (off : Nat) : State :=
  match regRow? off with
  | none => s
  | some r => if r.rc = 0 then s else s.setReg off (s.reg off &&& ~~~(BitVec.ofNat 32 r.rc))

/-- The offset is the low word of a 64-bit register (chapter 20). -/
def isLow (off : Nat) : Bool :=
  let o := off % 0x1000000
  match off / 0x1000000 with
  | 0x00 => [0x18, 0x20, 0x34].contains o
  | 0x01 =>
    [0x08, 0x10, 0x20, 0x30, 0x40, 0x48].contains o || (arrayIndex? 0x104 4 0x20 o).isSome ||
      (arrayIndex? 0x10C 4 0x20 o).isSome || (arrayIndex? 0x10000 512 0x10 o).isSome
  | 0x03 => o = 0x10
  | 0x06 => [0x48, 0x50, 0x60].contains o
  | 0x08 => (arrayIndex? 0x110 4 0x40 o).isSome
  | 0x0A => (arrayIndex? 0x400008 512 0x2000 o).isSome
  | 0x10 => o = 0x20
  | 0x12 => o = 0x20
  | 0x14 => o = 0x20
  | 0x17 => o = 0x70 || (decide (0x10000 ≤ o) && decide (o < 0x10800) && decide (o % 8 = 0) && decide (8 ≤ o % 64) &&
      decide (o % 64 < 0x38))
  | 0x19 => o = 0x10 || (arrayIndex? 0x104 64 0x10 o).isSome ||
      (decide (0x10000 ≤ o) && decide (o < 0x10000 + 288 * 0x30) && decide ((o - 0x10000) % 0x30 < 0x28) && decide (o % 8 = 0))
  | _ => false

/-- The high word of a 64-bit register. -/
def isHigh (off : Nat) : Bool := decide (4 ≤ off) && isLow (off - 4)

/-- The latch, and the held low word, that a requester has for the register whose low word is at an offset (R8, R420). -/
def requesterCode : Requester → Nat
  | .host => 0
  | .oob => 1
  | .fabric => 2
  | .mailbox => 3
  | .i3c => 4
def latchKey (r : Requester) (lo : Nat) : Nat := requesterCode r * 2 ^ 29 + lo

/-- The I3C target reads these registers only (R376). -/
def i3cReads (off : Nat) : Bool :=
  off = Reg.GLB_DEVICE_ID.addr || off = Reg.GLB_STATUS.addr || (arrayIndex? (Reg.GLB_SENSOR.addr 0) 640 4 off).isSome ||
    (arrayIndex? (Reg.GLB_RAIL.addr 0) 7 4 off).isSome || (arrayIndex? (Reg.HLT_TJ_MAX.addr 0) 5 4 off).isSome

/-- A requester may read an offset: the I3C target its own registers, while i3c_en is set. -/
def State.mayRead (s : State) (r : Requester) (off : Nat) : Bool :=
  r != .i3c || (s.bit Reg.GLB_CTL.i3c_en && i3cReads off)

/-- One register read by a requester: a window that does not answer reads all-ones (R422); the low word of a pair latches the
high word, the high word consumes the latch (R8), and rc fields are cleared. -/
def State.readReg (s : State) (r : Requester) (off : Nat) : State × W32 :=
  if !s.answers off then (s, 0xFFFFFFFF)
  else
    let v := s.view off
    if isLow off then
      let hi := s.view (off + 4)
      (({ s with latches := s.latches.put (latchKey r off) hi }).clearRead off, v)
    else if isHigh off then
      match s.latches.get (latchKey r (off - 4)) with
      | some x => ({ s with latches := s.latches.del (latchKey r (off - 4)) }, x)
      | none => (s.clearRead off, v)
    else (s.clearRead off, v)

/-- A read that answers its requester. -/
def State.answerRead (s : State) (r : Requester) (off : Nat) : State :=
  match s.readReg r off with
  | (s, v) => s.emit (.regValue r off v)

/-- A word of a 64-bit register is read: the low word latches the high one, the high word takes it (log 65). -/
def execLowWordRead (r : Requester) (off : BitVec 29) (s : State) : Outcome :=
  if (isLow off.toNat || isHigh off.toNat) && s.mayRead r off.toNat then .next (s.answerRead r off.toNat) else .next s

/-- A register that is no pair is read, and its rc fields are cleared. -/
def execClearOnRead (r : Requester) (off : BitVec 29) (s : State) : Outcome :=
  if off.toNat % 4 = 0 ∧ !isLow off.toNat ∧ !isHigh off.toNat ∧ s.mayRead r off.toNat then
    .next (s.answerRead r off.toNat)
  else .next s

end Sys2Proof.Machine
end

