-- ==== Sys2Proof/Machine/Pmu.lean ====
section
/-!
DEFINITION. The slot ledger and the counting of events that no other command counts (R411 to R415).
-/

namespace Sys2Proof.Machine

/-- A ledger counter: an element's five classes lie 8 bytes apart (Table 19-4). -/
def ledgerLo (e cls : Nat) : Fld := ⟨Reg.PMU_SL_USED_LO.addr e + 8 * cls, 0, 32⟩

/-- Enters slots of an element in a class (R411, R415). -/
def State.ledgerAdd (s : State) (e cls k : Nat) : State :=
  if !s.pmuRuns || !s.bit Reg.PMU_CTL.ledger_en then s
  else
    let sum := s.pair (ledgerLo e cls) + k
    let s := s.setPair (ledgerLo e cls) (sum % 2 ^ 48)
    if sum < 2 ^ 48 then s
    else (s.setFld ⟨Reg.PMU_SL_OVF.addr e, cls, 1⟩ 1).raise Reg.PMU_INT_STATUS.ledger_ovf

/-- Counts what a source gives: an event of Table 19-1, or slots of a pipeline or core; one that neither names counts
nothing (R414). -/
def execPmuCounterOverflow (src : PmuSource) (amount : Nat) (thread : Option (BitVec 14 × BitVec 16 × BitVec 15))
    (s : State) : Outcome :=
  match src with
  | .event block event index vc =>
    if 1 ≤ event.toNat ∧ event.toNat ≤ pmuEvents block.toNat then
      .next (s.pmuEvent block.toNat event.toNat index.toNat (vc.map BitVec.toNat) amount
        (if block = 0x14 then thread.map fun t => (t.1.toNat, t.2.1.toNat, t.2.2.toNat) else none))
    else .next s
  | .ledger e cls => if e.toNat < 288 ∧ cls.toNat < 5 then .next (s.ledgerAdd e.toNat cls.toNat amount) else .next s

end Sys2Proof.Machine
end

