-- ==== Sys2Proof/Machine/RegWrite.lean ====
section
/-!
DEFINITION. Writes to BAR0 (R7 to R10, R347, R420 to R422, R441): what a word written to each register does, 64-bit pairs,
staging areas, and the commands that write or read registers.
-/

namespace Sys2Proof.Machine

/-! ### Staging areas (R421) -/

/-- A staging area: which one, and the offset in it. -/
inductive Stage where
  | amend (i : Nat) | program (i : Nat) | owner (i : Nat)
  deriving DecidableEq, Repr

/-- The staging area an offset lies in (Tables 20-13, 20-15 and 20-16). -/
def stageAt (off : Nat) : Option Stage :=
  if 0x14100000 ≤ off ∧ off < 0x14140000 then some (.program (off - 0x14100000))
  else if 0x17800000 ≤ off ∧ off < 0x18000000 then some (.amend (off - 0x17800000))
  else if 0x18010000 ≤ off ∧ off < 0x18020000 then some (.owner (off - 0x18010000))
  else none

/-- A write to a staging area: discarded with reg_access while it is busy. -/
def State.writeStage (s : State) (off : Nat) (v : W32) : Stage → State
  | .amend i =>
    if s.bit Reg.CFG_STATUS.staging_busy then s.regAccess off
    else { s with cfg.amendStage := writeBytes s.cfg.amendStage i (leBytes 4 v.toNat) }
  | .program i =>
    if s.bit Reg.ORY_PROG_CMD.busy then s.regAccess off
    else { s with cfg.progStage := writeBytes s.cfg.progStage i (leBytes 4 v.toNat) }
  | .owner i =>
    if s.bit Reg.SEC_OWNER_CMD.busy then s.regAccess off
    else { s with cfg.secStage := writeBytes s.cfg.secStage i (leBytes 4 v.toNat) }

/-! ### Registers that are no configuration -/

/-- A write to a part of a shadow bank that has no rule of its own: discarded while the bank is locked (R57). -/
def State.writeShadow (s : State) (k off : Nat) (v : W32) : State :=
  if s.shadowLocked k then s.regAccess off else s.storeFields off v

/-- A write to FWD_CAT_CMD: with go, the operation of its op. -/
def State.writeCat (s : State) (v : W32) : State :=
  match catOp v with
  | some 0 => s.writeCatCmd v State.catQuery
  | some 1 => s.writeCatCmd v State.catInstall
  | some 2 => s.writeCatCmd v State.catRemove
  | some _ => s.writeCatCmd v State.catUnfreeze
  | none => s.storeFields Reg.FWD_CAT_CMD.addr v

/-- A write to ORY_PROG_CMD: with go, the operation of its op; nothing while one is in progress. -/
def State.writeProg (s : State) (v : W32) : State :=
  if s.bit Reg.ORY_PROG_CMD.busy then s
  else
    let s := s.storeFields Reg.ORY_PROG_CMD.addr v
    if !v.getLsbD 18 then s
    else
      match Reg.ORY_PROG_CMD.op.of v with
      | 0 => s.beginLoad (stageBytes s.cfg.progStage (s.fld Reg.ORY_PROG_LEN.bytes)) none
      | 1 =>
        match s.beginUnload (v.toNat % 2 ^ 16) true none with
        | (s, some c) => s.progEnd c
        | (s, none) => s
      | 2 => s.resume (v.toNat % 2 ^ 16)
      | _ => s

def State.performOpt (s : State) (off : Nat) (v : W32) : State :=
  let f := (off - 0x02000000) / 0x10000
  if off = Reg.OPT_LANE_MOVE.addr f then s.writeLaneMove f v else s.storeFields off v

def State.performTrn (s : State) (off : Nat) (v : W32) : State :=
  if off = Reg.TRN_CAL_ACT_STATUS.addr then s.writeCalAct v
  else if off = Reg.TRN_CAL_LEN.addr then s.writeShadow objCal off v
  else if off = Reg.TRN_PERM_COMMIT.addr then (if v.getLsbD 12 then s.commitPerm v else s.storeFields off v)
  else
    match arrayIndex? (Reg.TRN_UMBRA_MAP.addr 0) 8 4 off, arrayIndex? (Reg.TRN_PERM.addr 0) 32768 4 off,
      arrayIndex? (Reg.TRN_CAL_SHADOW.addr 0) 32768 4 off with
    | some n, _, _ => s.writeUmbraMap n v
    | _, some k, _ => s.writePerm (k / 8) (k % 8) v
    | _, _, some k => if k % 8 = 7 then s.storeCalEntry (k / 8) v else s.writeShadow objCal off v
    | _, _, _ => s.storeFields off v

def State.performFwd (s : State) (off : Nat) (v : W32) : State :=
  if off = Reg.FWD_CAT_REHASH.addr then s.writeRehash v
  else if off = Reg.FWD_CAT_CMD.addr then s.writeCat v
  else if off = Reg.FWD_IDX_QUERY_CTL.addr then (if v.getLsbD 12 then s.idxQuery v else s.storeFields off v)
  else if off = Reg.FWD_MC_COMMIT.addr then
    if v.getLsbD 16 then s.commitTree v else if v.getLsbD 17 then s.loadTree v else s.storeFields off v
  else s.storeFields off v

def State.performSch (s : State) (off : Nat) (v : W32) : State :=
  if off < 0x0A400000 then s.storeFields off v
  else
    let p := (off - 0x0A400000) / 0x2000
    if off = Reg.SCH_GATE_LEN.addr p then s.writeShadow (objGate p) off v
    else if off = Reg.SCH_GATE_ACT_STATUS.addr p then s.writeGateAct p v
    else
      match arrayIndex? (Reg.SCH_GATE_SHADOW.addr p 0) 512 4 off with
      | some k => if k % 2 = 1 then s.storeGateEntry p (k / 2) v else s.writeShadow (objGate p) off v
      | none => s.storeFields off v

def State.performStk (s : State) (off : Nat) (v : W32) : State :=
  if off = Reg.STK_REGION_CMD.addr then s.writeRegionCmd v
  else
    match arrayIndex? (Reg.STK_ENG.addr 0) 384 4 off with
    | some ch => if v.getLsbD 1 then s.setFld (Reg.STK_ENG.bypass ch) 0 else s
    | none => s.storeFields off v

def State.performHlt (s : State) (off : Nat) (v : W32) : State :=
  if off = Reg.HLT_BREAKER.addr then (if v.getLsbD 1 then s.clearBreaker else s)
  else if off = Reg.HLT_ELEM_CMD.addr then s.writeElemCmd v
  else s.storeFields off v

def State.performCfg (s : State) (off : Nat) (v : W32) : State :=
  if off = Reg.CFG_AMEND_CMD.addr then s.writeAmendCmd v
  else
    match arrayIndex? (Reg.CFG_CU_CTL.addr 0) 32 0x40 off with
    | some u => s.writeCuCtl u v
    | none => s.storeFields off v

/-- What a word written to a register that is no configuration does. -/
def State.perform (s : State) (off : Nat) (v : W32) : State :=
  match off / 0x1000000 with
  | 0x00 => if off = Reg.GLB_RESET_CMD.addr then s.writeResetCmd v else s.storeFields off v
  | 0x01 =>
    match arrayIndex? (Reg.EPH_PULSE_CTL.addr 0) 4 0x20 off with
    | some n => s.writePulseCtl n v
    | none => s.storeFields off v
  | 0x02 => s.performOpt off v
  | 0x03 => s.performTrn off v
  | 0x06 => s.performFwd off v
  | 0x0A => s.performSch off v
  | 0x10 => s.performStk off v
  | 0x14 => if off = Reg.ORY_PROG_CMD.addr then s.writeProg v else s.storeFields off v
  | 0x16 => s.performHlt off v
  | 0x17 => s.performCfg off v
  | 0x18 => if off = Reg.SEC_OWNER_CMD.addr then s.writeOwnerCmd v else s.storeFields off v
  | _ => s.storeFields off v

/-- The entry and the word of the access table (Table 12-13) at an offset. -/
def accessAt (off : Nat) : Option (Nat × Nat) :=
  match arrayIndex? (Reg.MSF_ACCESS_BASE.addr 0) 1024 4 off with
  | some k => if k % 4 < 3 then some (k / 4, k % 4) else none
  | none => none

/-- A word written to a register that is no part of a pair. A change of INT_ENABLE may make a source pending (R368). -/
def State.writePlain (s : State) (off : Nat) (v : W32) : State :=
  if isIntStatus off then s.writeIntStatus off v
  else if 4 ≤ off ∧ isIntStatus (off - 4) then (s.regWrite off v fun s => s.storeFields off v).msixFrom s (off - 4)
  else if off = Reg.GLB_CTL.addr then s.fired.writeGlbCtl v
  else if isConfig off then s.fired.cfgWrite off v
  else
    match accessAt off with
    | some (n, w) => s.fired.writeAccess n w v
    | none => s.regWrite off v fun s => s.perform off v

/-! ### Pairs (R8) -/

/-- Both words of a configuration pair are written as one value: one change of the configuration (R8, R347). -/
def State.cfgPair (s : State) (lo : Nat) (a b : W32) : State :=
  if !s.bit Reg.CFG_CTL.local_write_en then s.log 0x17 .configWriteDiscarded lo [a.toNat, b.toNat]
  else
    let t := (((s.storeFields lo a).storeFields (lo + 4) b)).noteConfig lo a
    let w := b &&& BitVec.ofNat 32 ((cfgMask (lo + 4)).getD 0)
    match s.cfg.sharedRegs.get (lo + 4) with
    | none => { t with cfg.localRegs := t.cfg.localRegs.put (lo + 4) w }
    | some old =>
      let t := { t with cfg.sharedRegs := t.cfg.sharedRegs.put (lo + 4) w }
      if old = w then t else t.dropAmendment 13 .amendmentDiscarded

/-- A 64-bit register takes a value. EPH_FREQ_ADJ is writable while servo_en is 0 (Table 2-9)
and clamped (R36), and a written EPH_TOD_SET
waits for PPS_IN (R46). -/
def State.writePair (s : State) (lo : Nat) (a b : W32) : State :=
  if lo = Reg.EPH_FREQ_ADJ_LO.addr then
    if s.bit Reg.EPH_CTL.servo_en then s else { s with eph.adj := clampInt (signed 64 (a.toNat + 2 ^ 32 * b.toNat)) (-adjClamp) adjClamp }
  else if isConfig lo then s.fired.cfgPair lo a b
  else
    let t := (s.storeFields lo a).storeFields (lo + 4) b
    if lo = Reg.EPH_TOD_SET_LO.addr then { t with eph.todSet := true } else t

/-- The low word of a pair is held for its requester; the high word completes the pair, with the held low word or else the
register's current one. -/
def State.holdLow (s : State) (r : Requester) (lo : Nat) (v : W32) : State :=
  { s with heldLow := s.heldLow.put (latchKey r lo) v }
def State.writeHigh (s : State) (r : Requester) (lo : Nat) (v : W32) : State :=
  let a := (s.heldLow.get (latchKey r lo)).getD (s.view lo)
  ({ s with heldLow := s.heldLow.del (latchKey r lo) } : State).writePair lo a v

/-- A 32-bit aligned write by a requester: the I3C target writes nothing (R376), and a window that does not answer, or an
offset that names no register, discards it (R9, R422). -/
def State.writeWord (s : State) (r : Requester) (off : Nat) (v : W32) : State :=
  if r = .i3c ∨ !s.answers off then s
  else
    match stageAt off with
    | some g => s.writeStage off v g
    | none =>
      if isLow off then s.holdLow r off v
      else if isHigh off then s.writeHigh r (off - 4) v
      else if (regRow? off).isNone then s
      else s.writePlain off v

/-! ### The commands -/

/-- A write of another width or alignment is discarded with a register-access event (R7). -/
def execRegisterWrite (r : Requester) (off : BitVec 29) (size : BitVec 4) (value : W32) (s : State) : Outcome :=
  if r = .i3c ∨ !s.answers off.toNat then .next s
  else if size = 4 ∧ off.toNat % 4 = 0 then .next (s.writeWord r off.toNat value)
  else .next (s.regAccess off.toNat)

def execHighWordWrite (r : Requester) (off : BitVec 29) (value : W32) (s : State) : Outcome :=
  if isHigh off.toNat then .next (s.writeWord r off.toNat value) else .next s

/-- The offset is a word of a PMU counter. -/
def isPmuCounter (off : Nat) : Bool :=
  decide (0x19000000 ≤ off) && off ≠ Reg.PMU_OVF_LO.addr && off ≠ Reg.PMU_OVF_HI.addr && (isLow off || isHigh off)

/-- Software writes a counter; the command takes the host as its requester. -/
def execPmuCounterWrite (off : BitVec 29) (value : W32) (s : State) : Outcome :=
  if isPmuCounter off.toNat then .next (s.writeWord .host off.toNat value) else .next s

def execPmuFreeze (value : W32) (s : State) : Outcome := .next (s.writeWord .host Reg.PMU_CTL.addr value)

/-! ### REG_READ and REG_WRITE (Table 16-4) -/

/-- The requester that a transport is (R420). -/
def Requester.ofTransport : Transport → Requester
  | .mailbox => .mailbox
  | .oob _ _ => .oob
  | .fabric _ _ _ _ => .fabric

/-- An aperture word: a stack read (R420), all-ones while the aperture is disabled. -/
def State.apertureWord (s : State) (off : Nat) : State × W32 :=
  if !s.answers off ∨ !s.bit Reg.STK_CTL.aperture_en then (s, 0xFFFFFFFF)
  else
    let d := s.apertureDpa (off - 0x11000000)
    (s.countRead d 4, BitVec.ofNat 32 (numAt (s.bytesAt d 4) 0 4))

/-- Words read in order from an offset on. -/
def State.readWords (r : Requester) : Nat → Nat → State → State × List Byte
  | 0, _, s => (s, [])
  | n + 1, off, s =>
    let (s, v) := if 0x11000000 ≤ off ∧ off < 0x12000000 then s.apertureWord off else s.readReg r off
    let (s, bs) := State.readWords r n (off + 4) s
    (s, leBytes 4 v.toNat ++ bs)

/-- An aperture read among the words names an address beyond the last stack. -/
def State.apertureAbsent (s : State) (off n : Nat) : Bool :=
  s.bit Reg.STK_CTL.aperture_en && s.answers Reg.STK_CTL.addr && (List.range n).any fun i =>
    let o := off + 4 * i
    decide (0x11000000 ≤ o) && decide (o < 0x12000000) && decide (dpaEnd < s.apertureDpa (o - 0x11000000) + 4)

def State.regReadCmd (s : State) (tp : Transport) (input : List Byte) : State :=
  let op : BitVec 16 := 0xC00A
  let off := numAt input 0 4
  let n := numAt input 4 2
  if input.length ≠ 6 then s.archReply tp op rcPayloadLength []
  else if off % 4 ≠ 0 ∨ 256 < n ∨ 0x20000000 < off + 4 * n ∨ s.apertureAbsent off n then s.archReply tp op rcInvalidInput []
  else
    match State.readWords (Requester.ofTransport tp) n off s with
    | (s, bs) => s.archDone tp op bs

def execRegRead (tp : Transport) (input : List Byte) (s : State) : Outcome :=
  .next (s.archCmd tp 0xC00A fun s => s.regReadCmd tp input)

def State.regWriteCmd (s : State) (tp : Transport) (input : List Byte) : State :=
  let op : BitVec 16 := 0xC00B
  let off := numAt input 0 4
  let v := BitVec.ofNat 32 (numAt input 4 4)
  if input.length ≠ 8 then s.archReply tp op rcPayloadLength []
  else if 0x20000000 ≤ off then s.archReply tp op rcInvalidInput []
  else if off % 4 ≠ 0 then ((if s.answers off then s.regAccess off else s).archDone tp op [])
  else if off = Reg.GLB_RESET_CMD.addr then (s.archDone tp op []).writeWord (Requester.ofTransport tp) off v
  else (s.writeWord (Requester.ofTransport tp) off v).archDone tp op []

def execRegWrite (tp : Transport) (input : List Byte) (s : State) : Outcome :=
  .next (s.archCmd tp 0xC00B fun s => s.regWriteCmd tp input)

end Sys2Proof.Machine
end

