-- ==== Sys2Proof/Machine/OutOfBand.lean ====
section
/-!
DEFINITION. The out-of-band port (R375): frames of EtherType 0x88B5 to the device's MAC address, the fragments of a command,
and the command they make.
-/

namespace Sys2Proof.Machine

/-- The address of the port: octets 0 to 5, the first in the most significant byte (R375). -/
def State.oobMac (s : State) : BitVec 48 :=
  let bs := leBytes 4 (s.reg Reg.GLB_OOB_MAC_LO.addr).toNat ++ leBytes 2 (s.reg Reg.GLB_OOB_MAC_HI.addr).toNat
  BitVec.ofNat 48 (bs.foldl (fun n b => 256 * n + b.toNat) 0)

/-- A whole command: the meaning of its opcode (Tables 16-3 and 16-4). -/
def State.archRun (s : State) (tp : Transport) (op : BitVec 16) (input : List Byte) : Outcome :=
  match op.toNat with
  | 0x0001 => execIdentify tp s
  | 0x0002 => execBackgroundOperationStatus tp s
  | 0x0100 => execGetEventRecords tp input s
  | 0x0101 => execClearEventRecords tp input s
  | 0x0102 => execGetEventInterruptPolicy tp s
  | 0x0103 => execSetEventInterruptPolicy tp input s
  | 0x0200 => execGetFwInfo tp s
  | 0x0201 => execTransferFw tp input s
  | 0x0202 => execActivateFw tp input s
  | 0x0300 => execGetTimestamp tp s
  | 0x0301 => execSetTimestamp tp input s
  | 0x0400 => execGetSupportedLogs tp s
  | 0x0401 => execGetLog tp input s
  | 0x4000 => execIdentifyMemoryDevice tp s
  | 0x4200 => execGetHealthInfo tp s
  | 0xC000 => execAmendTransfer tp input s
  | 0xC001 => execAmendCancel tp s
  | 0xC002 => execGroupRecord tp input s
  | 0xC003 => execColophonQuery tp s
  | 0xC004 => execProgramTransfer tp input s
  | 0xC005 => execProgramUnload tp input s
  | 0xC006 => execFolioTransfer tp input s
  | 0xC007 => execAlmanacRead tp input s
  | 0xC008 => execSummaryRead tp input s
  | 0xC009 => execSensorRead tp input s
  | 0xC00A => execRegRead tp input s
  | 0xC00B => execRegWrite tp input s
  | 0xC00C => execDeviceReset tp input s
  | _ => execUnsupportedCommand tp op s

/-- The bytes a command has brought so far, if a frame continues it; a frame at offset 0 begins one (log 67). -/
def State.oobSoFar (s : State) (src : BitVec 48) (tag op : BitVec 16) (off : Nat) : Option (List Byte) :=
  if off = 0 then some []
  else
    match s.arc.oobRx with
    | some x => if x.mac = src ∧ x.tag = tag ∧ x.command = op ∧ x.bytes.length = off then some x.bytes else none
    | none => none

/-- A frame to the port: a response, a frame without its header, with too many bytes, or out of order is discarded; the last
fragment completes its command, when it has brought the total. -/
def execOobFrame (dst src : BitVec 48) (etherType : BitVec 16) (body : List Byte) (s : State) : Outcome :=
  let tag := BitVec.ofNat 16 (numAt body 0 2)
  let op := BitVec.ofNat 16 (numAt body 2 2)
  let flags := numAt body 4 1
  let off := numAt body 8 4
  let total := numAt body 12 4
  let bytes := (body.drop 16).take (total - off)
  if etherType ≠ 0x88B5 ∨ dst ≠ s.oobMac ∨ !s.bit Reg.GLB_CTL.oob_en ∨ s.fld Reg.GLB_STATUS.boot < 2 then .next s
  else if body.length < 16 ∨ 1040 < body.length ∨ flags % 2 = 1 then .next s
  else
    match s.oobSoFar src tag op off with
    | none => .next s
    | some old =>
      let all := old ++ bytes
      if flags / 2 % 2 = 0 then
        .next { s with arc.oobRx := some { mac := src, tag := tag, command := op, bytes := all } }
      else
        let s := { s with arc.oobRx := none }
        if all.length = total then s.archRun (.oob src tag) op all else .next s

end Sys2Proof.Machine
end

