-- ==== Sys2Proof/Machine/Dispatch.lean ====
section
/-!
DEFINITION. The effect of a command on everything but the queue: one direct call of a meaning per constructor.
-/

namespace Sys2Proof.Machine

/-- The effect of a command (log 2: a command whose condition does not hold changes nothing). -/
def exec (i : Instr) (s : State) : Host.Outcome State Fault Refusal :=
  match i with
  | .registerWrite r off size value => Sys2Proof.Machine.execRegisterWrite r off size value s
  | .lowWordRead r off => Sys2Proof.Machine.execLowWordRead r off s
  | .highWordWrite r off value => Sys2Proof.Machine.execHighWordWrite r off value s
  | .clearOnRead r off => Sys2Proof.Machine.execClearOnRead r off s
  | .timeSync p f tRx => Sys2Proof.Machine.execTimeSync p f tRx s
  | .pdelayReq p f tRx => Sys2Proof.Machine.execPdelayReq p f tRx s
  | .pdelayResp p f tRx => Sys2Proof.Machine.execPdelayResp p f tRx s
  | .timeFrameBadOpcode p f => Sys2Proof.Machine.execTimeFrameBadOpcode p f s
  | .pdelayExchangeStart => Sys2Proof.Machine.execPdelayExchangeStart s
  | .pdelayRespLost p => Sys2Proof.Machine.execPdelayRespLost p s
  | .syncIntervalExpiry => Sys2Proof.Machine.execSyncIntervalExpiry s
  | .parentSyncLost p => Sys2Proof.Machine.execParentSyncLost p s
  | .holdoverEntry => Sys2Proof.Machine.execHoldoverEntry s
  | .expiredEntry => Sys2Proof.Machine.execExpiredEntry s
  | .ppsInEdge capture => Sys2Proof.Machine.execPpsInEdge capture s
  | .ppsInMissing => Sys2Proof.Machine.execPpsInMissing s
  | .pulseArm n value => Sys2Proof.Machine.execPulseArm n value s
  | .pulseLeadingEdge n => Sys2Proof.Machine.execPulseLeadingEdge n s
  | .pulseTrailingEdge n => Sys2Proof.Machine.execPulseTrailingEdge n s
  | .pulseMissed n => Sys2Proof.Machine.execPulseMissed n s
  | .activationFire => Sys2Proof.Machine.execActivationFire s
  | .heaterUpdate f inputs temps => Sys2Proof.Machine.execHeaterUpdate f inputs temps s
  | .xtRefreshPeriodEnd f residuals => Sys2Proof.Machine.execXtRefreshPeriodEnd f residuals s
  | .xtSwap f value => Sys2Proof.Machine.execXtSwap f value s
  | .lineLockLost f n => Sys2Proof.Machine.execLineLockLost f n s
  | .lineLockRegained f n => Sys2Proof.Machine.execLineLockRegained f n s
  | .laneHoldLimit p => Sys2Proof.Machine.execLaneHoldLimit p s
  | .linePowerSample f n r => Sys2Proof.Machine.execLinePowerSample f n r s
  | .laneMoveReq p f => Sys2Proof.Machine.execLaneMoveReq p f s
  | .cutoverStart f => Sys2Proof.Machine.execCutoverStart f s
  | .laneAck p f => Sys2Proof.Machine.execLaneAck p f s
  | .laneReady p f => Sys2Proof.Machine.execLaneReady p f s
  | .spareReceiverAligned f => Sys2Proof.Machine.execSpareReceiverAligned f s
  | .laneReadyDeadline f => Sys2Proof.Machine.execLaneReadyDeadline f s
  | .tSwitch f cwCount => Sys2Proof.Machine.execTSwitch f cwCount s
  | .laneMark p f => Sys2Proof.Machine.execLaneMark p f s
  | .oldLineRelease f => Sys2Proof.Machine.execOldLineRelease f s
  | .laneAbort p f => Sys2Proof.Machine.execLaneAbort p f s
  | .cutoverRetry f n fadeHolds => Sys2Proof.Machine.execCutoverRetry f n fadeHolds s
  | .optLaneMoveGo f value => Sys2Proof.Machine.execOptLaneMoveGo f value s
  | .optLaneRestore f value => Sys2Proof.Machine.execOptLaneRestore f value s
  | .calibrationDone f r => Sys2Proof.Machine.execCalibrationDone f r s
  | .optRecal f value locks => Sys2Proof.Machine.execOptRecal f value locks s
  | .permWordWrite ix w value => Sys2Proof.Machine.execPermWordWrite ix w value s
  | .permCommit value => Sys2Proof.Machine.execPermCommit value s
  | .calShadowEntryStore e value => Sys2Proof.Machine.execCalShadowEntryStore e value s
  | .trnCalArm value => Sys2Proof.Machine.execTrnCalArm value s
  | .trnCalCancel value => Sys2Proof.Machine.execTrnCalCancel value s
  | .calEntryBoundary => Sys2Proof.Machine.execCalEntryBoundary s
  | .transitElectricalResume => Sys2Proof.Machine.execTransitElectricalResume s
  | .elementBiasUpdate c e leakage bias => Sys2Proof.Machine.execElementBiasUpdate c e leakage bias s
  | .elementLockLost c e => Sys2Proof.Machine.execElementLockLost c e s
  | .elementLocked c e => Sys2Proof.Machine.execElementLocked c e s
  | .planeFailed c e => Sys2Proof.Machine.execPlaneFailed c e s
  | .elementLockRetry c e found => Sys2Proof.Machine.execElementLockRetry c e found s
  | .trnRecal value found => Sys2Proof.Machine.execTrnRecal value found s
  | .transitSuspendTFrom => Sys2Proof.Machine.execTransitSuspendTFrom s
  | .transitResumeTFrom => Sys2Proof.Machine.execTransitResumeTFrom s
  | .umbraSnap value => Sys2Proof.Machine.execUmbraSnap value s
  | .umbraRelease value => Sys2Proof.Machine.execUmbraRelease value s
  | .umbraMapWriteDone => Sys2Proof.Machine.execUmbraMapWriteDone s
  | .hello p f => Sys2Proof.Machine.execHello p f s
  | .helloInterval p => Sys2Proof.Machine.execHelloInterval p s
  | .credit p f => Sys2Proof.Machine.execCredit p f s
  | .creditPublish p => Sys2Proof.Machine.execCreditPublish p s
  | .ack p f => Sys2Proof.Machine.execAck p f s
  | .ackDelayExpiry p => Sys2Proof.Machine.execAckDelayExpiry p s
  | .retryReq p f => Sys2Proof.Machine.execRetryReq p f s
  | .hopError p cause => Sys2Proof.Machine.execHopError p cause s
  | .retryReqTimeout p => Sys2Proof.Machine.execRetryReqTimeout p s
  | .ackTimeout p => Sys2Proof.Machine.execAckTimeout p s
  | .retryExhausted p => Sys2Proof.Machine.execRetryExhausted p s
  | .linkCtlBadOpcode p f => Sys2Proof.Machine.execLinkCtlBadOpcode p f s
  | .trainingStart p => Sys2Proof.Machine.execTrainingStart p s
  | .trainTimeout p => Sys2Proof.Machine.execTrainTimeout p s
  | .trainRetry p => Sys2Proof.Machine.execTrainRetry p s
  | .portEnClear p value => Sys2Proof.Machine.execPortEnClear p value s
  | .alignLost p => Sys2Proof.Machine.execAlignLost p s
  | .lnkFenceWrite p value => Sys2Proof.Machine.execLnkFenceWrite p value s
  | .lnkCreditGrantWrite p vc value => Sys2Proof.Machine.execLnkCreditGrantWrite p vc value s
  | .portReset p value => Sys2Proof.Machine.execPortReset p value s
  | .trailerFailAfterDispatch p buf => Sys2Proof.Machine.execTrailerFailAfterDispatch p buf s
  | .announce p f => Sys2Proof.Machine.execAnnounce p f s
  | .catalogueSweep => Sys2Proof.Machine.execCatalogueSweep s
  | .catRehashGo value => Sys2Proof.Machine.execCatRehashGo value s
  | .catRehashDone => Sys2Proof.Machine.execCatRehashDone s
  | .catQuery value => Sys2Proof.Machine.execCatQuery value s
  | .catInstall value => Sys2Proof.Machine.execCatInstall value s
  | .catRemove value => Sys2Proof.Machine.execCatRemove value s
  | .catUnfreeze value => Sys2Proof.Machine.execCatUnfreeze value s
  | .idxQueryGo value => Sys2Proof.Machine.execIdxQueryGo value s
  | .mcCommit value => Sys2Proof.Machine.execMcCommit value s
  | .mcLoad value => Sys2Proof.Machine.execMcLoad value s
  | .bulk p f tIn => Sys2Proof.Machine.execBulk p f tIn s
  | .bestEffort p f tIn => Sys2Proof.Machine.execBestEffort p f tIn s
  | .mgmtForward p f tIn => Sys2Proof.Machine.execMgmtForward p f tIn s
  | .resultFromLeaf p f => Sys2Proof.Machine.execResultFromLeaf p f s
  | .cellArrival buf port cell check => Sys2Proof.Machine.execCellArrival buf port cell check s
  | .reseqTimeout buf port cell => Sys2Proof.Machine.execReseqTimeout buf port cell s
  | .cellRetryExhausted buf port cell => Sys2Proof.Machine.execCellRetryExhausted buf port cell s
  | .egressUnderrun buf port => Sys2Proof.Machine.execEgressUnderrun buf port s
  | .withholdEvaluate die => Sys2Proof.Machine.execWithholdEvaluate die s
  | .bufferAudit die findings => Sys2Proof.Machine.execBufferAudit die findings s
  | .spillDelayExpiry buf => Sys2Proof.Machine.execSpillDelayExpiry buf s
  | .spillRateCheck die => Sys2Proof.Machine.execSpillRateCheck die s
  | .mirrorEnable n value => Sys2Proof.Machine.execMirrorEnable n value s
  | .originBufferAvailable => Sys2Proof.Machine.execOriginBufferAvailable s
  | .egressArbitrate p tOut => Sys2Proof.Machine.execEgressArbitrate p tOut s
  | .vcWeightWrite b value => Sys2Proof.Machine.execVcWeightWrite b value s
  | .gateShadowEntryStore p e value => Sys2Proof.Machine.execGateShadowEntryStore p e value s
  | .schGateArm p value => Sys2Proof.Machine.execSchGateArm p value s
  | .schGateCancel p value => Sys2Proof.Machine.execSchGateCancel p value s
  | .gateEntryBoundary p => Sys2Proof.Machine.execGateEntryBoundary p s
  | .gateStarve p vc waited => Sys2Proof.Machine.execGateStarve p vc waited s
  | .meterRefillTick => Sys2Proof.Machine.execMeterRefillTick s
  | .meterConfigWrite off value => Sys2Proof.Machine.execMeterConfigWrite off value s
  | .groupRec p f ok => Sys2Proof.Machine.execGroupRec p f ok s
  | .cfgqAdmission => Sys2Proof.Machine.execCfgqAdmission s
  | .cfgqTeardown => Sys2Proof.Machine.execCfgqTeardown s
  | .groupDrained g => Sys2Proof.Machine.execGroupDrained g s
  | .collBegin p f ok => Sys2Proof.Machine.execCollBegin p f ok s
  | .contribData p f ok faults io auditLate => Sys2Proof.Machine.execContribData p f ok faults io auditLate s
  | .exp p f ok => Sys2Proof.Machine.execExp p f ok s
  | .abortReq p f ok => Sys2Proof.Machine.execAbortReq p f ok s
  | .segmentSlotsAvailable g cseq seg => Sys2Proof.Machine.execSegmentSlotsAvailable g cseq seg s
  | .signatureCollectEnd g cseq => Sys2Proof.Machine.execSignatureCollectEnd g cseq s
  | .resendTimeout g cseq => Sys2Proof.Machine.execResendTimeout g cseq s
  | .deferralResend g => Sys2Proof.Machine.execDeferralResend g s
  | .collectiveTimeout g cseq => Sys2Proof.Machine.execCollectiveTimeout g cseq s
  | .segmentDone g cseq seg => Sys2Proof.Machine.execSegmentDone g cseq seg s
  | .tileMoveComplete t => Sys2Proof.Machine.execTileMoveComplete t s
  | .clear r line count io => Sys2Proof.Machine.execClear r line count io s
  | .setA r line a io => Sys2Proof.Machine.execSetA r line a io s
  | .accessionAdd r line part fmt data scales io => Sys2Proof.Machine.execAccessionAdd r line part fmt data scales io s
  | .merge r line part fmt data scales io => Sys2Proof.Machine.execMerge r line part fmt data scales io s
  | .readLanes r line io => Sys2Proof.Machine.execReadLanes r line io s
  | .writeLanes r line lanes io => Sys2Proof.Machine.execWriteLanes r line lanes io s
  | .readFmt r line io => Sys2Proof.Machine.execReadFmt r line io s
  | .accessionAtomic dpa sub b c io => Sys2Proof.Machine.execAccessionAtomic dpa sub b c io s
  | .pageMendDone dpa ok => Sys2Proof.Machine.execPageMendDone dpa ok s
  | .lbLeak => Sys2Proof.Machine.execLbLeak s
  | .engineRestore st c value => Sys2Proof.Machine.execEngineRestore st c value s
  | .regionInstall value => Sys2Proof.Machine.execRegionInstall value s
  | .regionRemove value => Sys2Proof.Machine.execRegionRemove value s
  | .regionClearAll value => Sys2Proof.Machine.execRegionClearAll value s
  | .regionClearDone r => Sys2Proof.Machine.execRegionClearDone r s
  | .zeroFillDone => Sys2Proof.Machine.execZeroFillDone s
  | .apertureRead r off size io => Sys2Proof.Machine.execApertureRead r off size io s
  | .load p f tIn ok io => Sys2Proof.Machine.execLoad p f tIn ok io s
  | .store p f tIn ok io => Sys2Proof.Machine.execStore p f tIn ok io s
  | .storeMcast p f tIn ok => Sys2Proof.Machine.execStoreMcast p f tIn ok s
  | .atomic p f tIn ok io => Sys2Proof.Machine.execAtomic p f tIn ok io s
  | .reduceInto p f tIn ok io => Sys2Proof.Machine.execReduceInto p f tIn ok io s
  | .memFence p f tIn ok => Sys2Proof.Machine.execMemFence p f tIn ok s
  | .memReqPassThrough p f tIn => Sys2Proof.Machine.execMemReqPassThrough p f tIn s
  | .memRspForward p f tIn => Sys2Proof.Machine.execMemRspForward p f tIn s
  | .memRspToSpine p f ok => Sys2Proof.Machine.execMemRspToSpine p f ok s
  | .stackWriteAccepted ch => Sys2Proof.Machine.execStackWriteAccepted ch s
  | .fenceAnswered serial => Sys2Proof.Machine.execFenceAnswered serial s
  | .mcastUnreachedFinal serial => Sys2Proof.Machine.execMcastUnreachedFinal serial s
  | .combineTriggerClear => Sys2Proof.Machine.execCombineTriggerClear s
  | .combineFlush id io => Sys2Proof.Machine.execCombineFlush id io s
  | .combineIdleClose id => Sys2Proof.Machine.execCombineIdleClose id s
  | .combineRspTimeout seq => Sys2Proof.Machine.execCombineRspTimeout seq s
  | .filterRecordExpiry die => Sys2Proof.Machine.execFilterRecordExpiry die s
  | .accessEntryWrite n w value => Sys2Proof.Machine.execAccessEntryWrite n w value s
  | .oAdd t => Sys2Proof.Machine.execOAdd t s
  | .oSub t => Sys2Proof.Machine.execOSub t s
  | .oAnd t => Sys2Proof.Machine.execOAnd t s
  | .oOr t => Sys2Proof.Machine.execOOr t s
  | .oXor t => Sys2Proof.Machine.execOXor t s
  | .oShl t => Sys2Proof.Machine.execOShl t s
  | .oShr t => Sys2Proof.Machine.execOShr t s
  | .oSra t => Sys2Proof.Machine.execOSra t s
  | .oSlt t => Sys2Proof.Machine.execOSlt t s
  | .oSltu t => Sys2Proof.Machine.execOSltu t s
  | .oMin t => Sys2Proof.Machine.execOMin t s
  | .oMax t => Sys2Proof.Machine.execOMax t s
  | .oMul t => Sys2Proof.Machine.execOMul t s
  | .oMulh t => Sys2Proof.Machine.execOMulh t s
  | .oSrr t => Sys2Proof.Machine.execOSrr t s
  | .oPopc t => Sys2Proof.Machine.execOPopc t s
  | .oAddi t => Sys2Proof.Machine.execOAddi t s
  | .oAndi t => Sys2Proof.Machine.execOAndi t s
  | .oOri t => Sys2Proof.Machine.execOOri t s
  | .oXori t => Sys2Proof.Machine.execOXori t s
  | .oShli t => Sys2Proof.Machine.execOShli t s
  | .oShri t => Sys2Proof.Machine.execOShri t s
  | .oSrai t => Sys2Proof.Machine.execOSrai t s
  | .oSlti t => Sys2Proof.Machine.execOSlti t s
  | .oConst t => Sys2Proof.Machine.execOConst t s
  | .oConsth t => Sys2Proof.Machine.execOConsth t s
  | .oAmo t io => Sys2Proof.Machine.execOAmo t io s
  | .oTime t => Sys2Proof.Machine.execOTime t s
  | .oSelf t => Sys2Proof.Machine.execOSelf t s
  | .oSetfar t => Sys2Proof.Machine.execOSetfar t s
  | .oBeq t => Sys2Proof.Machine.execOBeq t s
  | .oBne t => Sys2Proof.Machine.execOBne t s
  | .oBlt t => Sys2Proof.Machine.execOBlt t s
  | .oBge t => Sys2Proof.Machine.execOBge t s
  | .oBltu t => Sys2Proof.Machine.execOBltu t s
  | .oBgeu t => Sys2Proof.Machine.execOBgeu t s
  | .oJmp t => Sys2Proof.Machine.execOJmp t s
  | .oJal t => Sys2Proof.Machine.execOJal t s
  | .oJr t => Sys2Proof.Machine.execOJr t s
  | .oLd t io => Sys2Proof.Machine.execOLd t io s
  | .oLw t io => Sys2Proof.Machine.execOLw t io s
  | .oLh t io => Sys2Proof.Machine.execOLh t io s
  | .oLbu t io => Sys2Proof.Machine.execOLbu t io s
  | .oSt t io => Sys2Proof.Machine.execOSt t io s
  | .oStw t io => Sys2Proof.Machine.execOStw t io s
  | .oSth t io => Sys2Proof.Machine.execOSth t io s
  | .oVld t io => Sys2Proof.Machine.execOVld t io s
  | .oVst t io => Sys2Proof.Machine.execOVst t io s
  | .oVgather t io => Sys2Proof.Machine.execOVgather t io s
  | .oVscatter t io => Sys2Proof.Machine.execOVscatter t io s
  | .oVadd t => Sys2Proof.Machine.execOVadd t s
  | .oVsub t => Sys2Proof.Machine.execOVsub t s
  | .oVand t => Sys2Proof.Machine.execOVand t s
  | .oVor t => Sys2Proof.Machine.execOVor t s
  | .oVxor t => Sys2Proof.Machine.execOVxor t s
  | .oVmin t => Sys2Proof.Machine.execOVmin t s
  | .oVmax t => Sys2Proof.Machine.execOVmax t s
  | .oVshl t => Sys2Proof.Machine.execOVshl t s
  | .oVsra t => Sys2Proof.Machine.execOVsra t s
  | .oVmul t => Sys2Proof.Machine.execOVmul t s
  | .oVmulq t => Sys2Proof.Machine.execOVmulq t s
  | .oVsrr t => Sys2Proof.Machine.execOVsrr t s
  | .oVclamp t => Sys2Proof.Machine.execOVclamp t s
  | .oVclt t => Sys2Proof.Machine.execOVclt t s
  | .oVceq t => Sys2Proof.Machine.execOVceq t s
  | .oVcle t => Sys2Proof.Machine.execOVcle t s
  | .oVsel t => Sys2Proof.Machine.execOVsel t s
  | .oVred t => Sys2Proof.Machine.execOVred t s
  | .oVbcast t => Sys2Proof.Machine.execOVbcast t s
  | .oVget t => Sys2Proof.Machine.execOVget t s
  | .oVput t => Sys2Proof.Machine.execOVput t s
  | .oMset t => Sys2Proof.Machine.execOMset t s
  | .oMget t => Sys2Proof.Machine.execOMget t s
  | .oPopm t => Sys2Proof.Machine.execOPopm t s
  | .oMnot t => Sys2Proof.Machine.execOMnot t s
  | .oVsort t => Sys2Proof.Machine.execOVsort t s
  | .oWait t => Sys2Proof.Machine.execOWait t s
  | .oWaitWake t => Sys2Proof.Machine.execOWaitWake t s
  | .oRelease t => Sys2Proof.Machine.execORelease t s
  | .oPost t => Sys2Proof.Machine.execOPost t s
  | .oFence t => Sys2Proof.Machine.execOFence t s
  | .oHalt t => Sys2Proof.Machine.execOHalt t s
  | .oFault t => Sys2Proof.Machine.execOFault t s
  | .oTimer t => Sys2Proof.Machine.execOTimer t s
  | .timerTokenFire t => Sys2Proof.Machine.execTimerTokenFire t s
  | .tokenQueueRoom c => Sys2Proof.Machine.execTokenQueueRoom c s
  | .budgetExceeded t => Sys2Proof.Machine.execBudgetExceeded t s
  | .programSuspend n => Sys2Proof.Machine.execProgramSuspend n s
  | .issueWatchdog t => Sys2Proof.Machine.execIssueWatchdog t s
  | .oryProgLoad value => Sys2Proof.Machine.execOryProgLoad value s
  | .programLoadDone => Sys2Proof.Machine.execProgramLoadDone s
  | .oryProgUnload value => Sys2Proof.Machine.execOryProgUnload value s
  | .unloadForceStop => Sys2Proof.Machine.execUnloadForceStop s
  | .oryProgResume value => Sys2Proof.Machine.execOryProgResume value s
  | .albedoInput cls idx inp => Sys2Proof.Machine.execAlbedoInput cls idx inp s
  | .scoreRecovery => Sys2Proof.Machine.execScoreRecovery s
  | .budgetRefill g => Sys2Proof.Machine.execBudgetRefill g s
  | .expulsionComplete cls idx => Sys2Proof.Machine.execExpulsionComplete cls idx s
  | .breakerClear value => Sys2Proof.Machine.execBreakerClear value s
  | .elemScoreReset value => Sys2Proof.Machine.execElemScoreReset value s
  | .elemRestore value => Sys2Proof.Machine.execElemRestore value s
  | .elemExpel value => Sys2Proof.Machine.execElemExpel value s
  | .auditWaitExpiry g cseq seg => Sys2Proof.Machine.execAuditWaitExpiry g cseq seg s
  | .governorRun dom pkg used => Sys2Proof.Machine.execGovernorRun dom pkg used s
  | .powerCrit => Sys2Proof.Machine.execPowerCrit s
  | .temperatureRead tj st => Sys2Proof.Machine.execTemperatureRead tj st s
  | .thermalCrit => Sys2Proof.Machine.execThermalCrit s
  | .thermalCritRelease => Sys2Proof.Machine.execThermalCritRelease s
  | .thermtrip => Sys2Proof.Machine.execThermtrip s
  | .folioApply => Sys2Proof.Machine.execFolioApply s
  | .configFieldWrite r off value => Sys2Proof.Machine.execConfigFieldWrite r off value s
  | .colophonRecomputeDone => Sys2Proof.Machine.execColophonRecomputeDone s
  | .cfgAmendStage value => Sys2Proof.Machine.execCfgAmendStage value s
  | .cfgAmendCancel value => Sys2Proof.Machine.execCfgAmendCancel value s
  | .amendFrag p f ok => Sys2Proof.Machine.execAmendFrag p f ok s
  | .mgmtAmendCancel p f ok => Sys2Proof.Machine.execMgmtAmendCancel p f ok s
  | .mgmtColophonQuery p f ok => Sys2Proof.Machine.execMgmtColophonQuery p f ok s
  | .transferIdleTimeout => Sys2Proof.Machine.execTransferIdleTimeout s
  | .checkUnitJob u value => Sys2Proof.Machine.execCheckUnitJob u value s
  | .checkUnitDone u media => Sys2Proof.Machine.execCheckUnitDone u media s
  | .identify tp => Sys2Proof.Machine.execIdentify tp s
  | .backgroundOperationStatus tp => Sys2Proof.Machine.execBackgroundOperationStatus tp s
  | .getEventRecords tp input => Sys2Proof.Machine.execGetEventRecords tp input s
  | .clearEventRecords tp input => Sys2Proof.Machine.execClearEventRecords tp input s
  | .getEventInterruptPolicy tp => Sys2Proof.Machine.execGetEventInterruptPolicy tp s
  | .setEventInterruptPolicy tp input => Sys2Proof.Machine.execSetEventInterruptPolicy tp input s
  | .getFwInfo tp => Sys2Proof.Machine.execGetFwInfo tp s
  | .transferFw tp input => Sys2Proof.Machine.execTransferFw tp input s
  | .activateFw tp input => Sys2Proof.Machine.execActivateFw tp input s
  | .getTimestamp tp => Sys2Proof.Machine.execGetTimestamp tp s
  | .setTimestamp tp input => Sys2Proof.Machine.execSetTimestamp tp input s
  | .getSupportedLogs tp => Sys2Proof.Machine.execGetSupportedLogs tp s
  | .getLog tp input => Sys2Proof.Machine.execGetLog tp input s
  | .identifyMemoryDevice tp => Sys2Proof.Machine.execIdentifyMemoryDevice tp s
  | .getHealthInfo tp => Sys2Proof.Machine.execGetHealthInfo tp s
  | .amendTransfer tp input => Sys2Proof.Machine.execAmendTransfer tp input s
  | .amendCancel tp => Sys2Proof.Machine.execAmendCancel tp s
  | .groupRecord tp input => Sys2Proof.Machine.execGroupRecord tp input s
  | .colophonQuery tp => Sys2Proof.Machine.execColophonQuery tp s
  | .programTransfer tp input => Sys2Proof.Machine.execProgramTransfer tp input s
  | .programUnload tp input => Sys2Proof.Machine.execProgramUnload tp input s
  | .folioTransfer tp input => Sys2Proof.Machine.execFolioTransfer tp input s
  | .almanacRead tp input => Sys2Proof.Machine.execAlmanacRead tp input s
  | .summaryRead tp input => Sys2Proof.Machine.execSummaryRead tp input s
  | .sensorRead tp input => Sys2Proof.Machine.execSensorRead tp input s
  | .regRead tp input => Sys2Proof.Machine.execRegRead tp input s
  | .regWrite tp input => Sys2Proof.Machine.execRegWrite tp input s
  | .deviceReset tp input => Sys2Proof.Machine.execDeviceReset tp input s
  | .glbResetCmd value => Sys2Proof.Machine.execGlbResetCmd value s
  | .unsupportedCommand tp opcode => Sys2Proof.Machine.execUnsupportedCommand tp opcode s
  | .hdmDecoderCommit n base size ways granularity position dpaBase => Sys2Proof.Machine.execHdmDecoderCommit n base size ways granularity position dpaBase s
  | .cxlMemRead hpa io => Sys2Proof.Machine.execCxlMemRead hpa io s
  | .cxlMemWrite hpa data io => Sys2Proof.Machine.execCxlMemWrite hpa data io s
  | .cdatRead => Sys2Proof.Machine.execCdatRead s
  | .intStatusWrite r off value => Sys2Proof.Machine.execIntStatusWrite r off value s
  | .hostLinkReset => Sys2Proof.Machine.execHostLinkReset s
  | .archivistWatchdogLapse => Sys2Proof.Machine.execArchivistWatchdogLapse s
  | .sensorSample tj rails => Sys2Proof.Machine.execSensorSample tj rails s
  | .almanacCopy => Sys2Proof.Machine.execAlmanacCopy s
  | .summaryWrite => Sys2Proof.Machine.execSummaryWrite s
  | .oobFrame dst src etherType body => Sys2Proof.Machine.execOobFrame dst src etherType body s
  | .alertAck value => Sys2Proof.Machine.execAlertAck value s
  | .ownerInstall value => Sys2Proof.Machine.execOwnerInstall value s
  | .debugAuthorization value => Sys2Proof.Machine.execDebugAuthorization value s
  | .getVersion req => Sys2Proof.Machine.execGetVersion req s
  | .getCapabilities req => Sys2Proof.Machine.execGetCapabilities req s
  | .negotiateAlgorithms req => Sys2Proof.Machine.execNegotiateAlgorithms req s
  | .getDigests req => Sys2Proof.Machine.execGetDigests req s
  | .getCertificate req => Sys2Proof.Machine.execGetCertificate req s
  | .challenge req => Sys2Proof.Machine.execChallenge req s
  | .getMeasurements req => Sys2Proof.Machine.execGetMeasurements req s
  | .spdmUnsupportedRequest req => Sys2Proof.Machine.execSpdmUnsupportedRequest req s
  | .firmwareVerifyDone => Sys2Proof.Machine.execFirmwareVerifyDone s
  | .porstNAssert => Sys2Proof.Machine.execPorstNAssert s
  | .porstNDeassert reserve => Sys2Proof.Machine.execPorstNDeassert reserve s
  | .stackTrained ok => Sys2Proof.Machine.execStackTrained ok s
  | .reserveRecheck reserve => Sys2Proof.Machine.execReserveRecheck reserve s
  | .supplyLoss => Sys2Proof.Machine.execSupplyLoss s
  | .vinLow => Sys2Proof.Machine.execVinLow s
  | .supplyRestored reserve => Sys2Proof.Machine.execSupplyRestored reserve s
  | .refclkFault => Sys2Proof.Machine.execRefclkFault s
  | .pmuFreeze value => Sys2Proof.Machine.execPmuFreeze value s
  | .pmuCounterWrite off value => Sys2Proof.Machine.execPmuCounterWrite off value s
  | .pmuCounterOverflow src amount thread => Sys2Proof.Machine.execPmuCounterOverflow src amount thread s
  | .malformedFrame p f => Sys2Proof.Machine.execMalformedFrame p f s
  | .stompedFrame p f => Sys2Proof.Machine.execStompedFrame p f s
  | .uncorrectableCodeword p => Sys2Proof.Machine.execUncorrectableCodeword p s
  | .memReqBadOpcode p f tIn ok => Sys2Proof.Machine.execMemReqBadOpcode p f tIn ok s
  | .illegalInstruction t => Sys2Proof.Machine.execIllegalInstruction t s
  | .folioVerifyDone => Sys2Proof.Machine.execFolioVerifyDone s
  | .perstNDeassert width rate msix => Sys2Proof.Machine.execPerstNDeassert width rate msix s

end Sys2Proof.Machine
end

