-- ==== Sys2Proof/Machine/Tick.lean ====
section
/-!
DEFINITION. The tick of the timing clock (R36), which is what the block does while no command waits (log 1).
-/

namespace Sys2Proof.Machine

/-- acc advances by 2^52 + adj * 2^4 (R36). -/
def State.advance (s : State) : State := { s with eph.acc := s.eph.acc + BitVec.ofInt 112 (2 ^ 52 + s.eph.adj * 2 ^ 4) }

/-- One tick: the counter advances, and held collective frames that may go on do so (R236). A device held in reset (R405), or
one whose reference clock failed (R431), has no tick. -/
def State.tick (s : State) : State := if s.held || s.pwr.refclkBad then s else s.advance.settleAll

end Sys2Proof.Machine
end

