-- ==== Sys2Proof/Safety.lean ====
section
/-!
DEFINITION. What a safe run keeps: the clamps of the timing counter (R36) and the canonical form of stack memory; and the
terms in which the statements say that a command's own rule runs.
-/

namespace Sys2Proof.Machine

/-- The canonical form of a memory of bytes: addresses strictly rise, and no listed byte equals what an unlisted address
reads as (log 15). -/
def Memory.wf (m : SMap Byte) : Bool := SMap.wf (fun _ => 0) m

/-- adj and integ lie inside the clamps of R36. -/
def State.clamped (s : State) : Prop :=
  (-(2 ^ 36) ≤ s.eph.adj ∧ s.eph.adj ≤ 2 ^ 36) ∧ -(2 ^ 36) ≤ s.eph.integ ∧ s.eph.integ ≤ 2 ^ 36

/-! ### When a command's own rule runs -/

/-- What a frame's own rule starts from once its port has taken it in and its cells are freed (R112 to R121, R128); none: it
was discarded on the way. -/
def State.received (s : State) (p : Port) (f : Frame) : Option State :=
  match s.ingress p f with
  | (u, true) => some (u.freeCells p f.vc f.cells)
  | (_, false) => none

/-- What a routed frame's rule starts from once its port has taken it in: the state in which it holds a shelf buffer, and that
buffer's key (R130, R154); none: it was discarded on the way. -/
def State.parked (s : State) (p : Port) (f : Frame) (stamp : Stamp) : Option (State × Nat) :=
  match s.ingress p f (some stamp) with
  | (u, true) => some (u.park p f stamp)
  | (_, false) => none

/-- A memory request that its port takes in waits behind no held frame and conforms to its meter (R187, R188): v is the state in
which its rule runs, k its buffer. -/
def State.leavesMeter (s v : State) (p : Port) (f : Frame) (x : Stamp) (k : Nat) : Prop :=
  ∃ u, s.parked p f x = some (u, k) ∧ (f.dclass = true → u.mine f = true) ∧ u.holdOf (dieOf p) = [] ∧ u.meter f = (v, .pass)

/-- A request to this spine's memory passes the checks of R443 and repeats none, no combining entry takes it, and the words it
reads are readable at once: it is performed as q in the state w (R276, R286, R287). -/
def State.performs (s w : State) (p : Port) (f : Frame) (x : Stamp) (io : ChannelIo) (q : MemReq) : Prop :=
  ∃ v u k, s.leavesMeter v p f x k ∧ f.ftype = ftMemReq ∧ f.dclass = true ∧
    (v.countLookup (dieOf p) f).memWay f = .perform q.dpa ∧
    q = { serial := (v.countLookup (dieOf p) f).msf.serial, port := p, frame := f, dpa := q.dpa } ∧
    u = ({ v.countLookup (dieOf p) f with msf.serial := (v.countLookup (dieOf p) f).msf.serial + 1 } : State).freeBuf k ∧
    (filtered f = true → u.filterRec (dpaDie q.dpa) f = none) ∧ u.inHand (dpaDie q.dpa) f = false ∧
    u.offer (ownRange q) q (u.bit Reg.MSF_CTL.combine_en) = (w, false) ∧
    w.holdWords q.dpa (State.reqReads [q]) io (.request q) = none ∧ io.corrected = 0 ∧ io.disagree = 0

/-- A frame of a collective that its port takes in names a group with its generation, partition and mask port, and no frame of
that group waits before it (R224, R236, Table 10-5): u is the state in which its rule runs. -/
def State.collAt (s u : State) (p : Port) (f : Frame) : Prop :=
  s.ingress p f = (u, true) ∧ (f.ftype = ftContrib → f.dclass = true ∧ u.mine f = true) ∧
    (u.group f.group.toNat).held = [] ∧ u.relayFull f = false ∧ (u.group f.group.toNat).state ≠ .free ∧
    f.gen = (u.group f.group.toNat).gen ∧ f.partition = (u.group f.group.toNat).partition ∧
    (u.group f.group.toNat).mask.getLsbD p.toNat = true

/-- A frame names an open collective, which does not exclude its port (R228, R243). -/
def State.isOpen (s : State) (p : Port) (f : Frame) (c : Coll) : Prop :=
  (s.group f.group.toNat).opened.contains f.cseq = true ∧ s.coll f.group.toNat f.cseq = some c ∧
    c.excluded.getLsbD p.toNat = false

/-- A CONTRIB of an open collective passes the checks of Table 10-5 up to its kind: BEGIN received, signature, members and
sideband. -/
def State.contributes (s : State) (p : Port) (f : Frame) (c : Coll) : Prop :=
  s.isOpen p f c ∧ (c.begins.any fun b => b.1 == p) = true ∧ f.w7 = c.sig ∧
    (s.group f.group.toNat).membersOk p f.members.toNat = true ∧
    f.sideband = (f.opcode == opData && isBlock (awFmt (descW0 c.desc)))

/-- A written word reaches its register's own rule: the window answers (R422) and no field leaves its range (R441). -/
def State.writable (s : State) (off : Nat) (v : W32) : Bool := s.answers off && s.rangeOk off v && textOk off v

/-- A thread may issue, and the instruction at its pc is o: in program p, by word w and the word k after it (R296, R302). -/
def State.at_ (s : State) (t : Nat) (o : OryOp) (p : Prog) (w k : W32) : Prop :=
  s.threadReady t = true ∧ s.thrProg t = some p ∧ p.opAt (s.thread t).pc = some (o, w, k) ∧
    p.overBudget (s.thread t) = false

/-- An SPDM request of a code, and in its turn, is answered by its own rule (R390): the host link is up, the request has a header
of the version it needs, the device does not run its recovery loader, and spdm_en is 1. -/
def State.spdmReady (s : State) (code stage : Nat) (req : List Byte) : Prop :=
  s.bit Reg.GLB_STATUS.host_up = true ∧ spdmCode req = code ∧ 4 ≤ req.length ∧ s.fld Reg.GLB_STATUS.boot ≠ 4 ∧
    s.bit Reg.SEC_CTL.spdm_en = true ∧ numAt req 0 1 = (if code = spVersion then 0x10 else 0x13) ∧ stage ≤ s.sec.spdm

/-- Everything but the interrupt causes of GLB, the alert bit, the almanac and what is sent out: what a record leaves as it
was (R372). -/
def State.sameButRecord (s t : State) : Prop :=
  (∀ o, o ≠ Reg.GLB_INT_STATUS.addr → o ≠ Reg.GLB_STATUS.addr → t.reg o = s.reg o) ∧
  t = { s with regs := t.regs, alm := t.alm, out := t.out }

end Sys2Proof.Machine
end

