-- ==== Sys2Proof/WellFormed.lean ====
section
/-!
DEFINITION. Which commands are well formed: operands inside the ranges that the spec gives the things they name. exec gives
every command a next state or a stop, well formed or not; the ranges say which commands can come from outside.
-/

namespace Sys2Proof

/-- Frames: a payload of at most 65,024 bytes (Table 5-3) and a sideband of 8 bytes per line (R193), marked when present. -/
def Frame.wf (f : Frame) : Bool :=
  decide (f.payload.length ≤ 65024) && decide (f.scales.length ≤ 2032) && decide (f.scales.length % 8 = 0) &&
    (f.sideband == !f.scales.isEmpty)

/-- Word-aligned BAR0 offsets (R7). -/
def wordOff (off : BitVec 29) : Bool := decide (off.toNat % 4 = 0)

/-- Power-of-two access sizes of 1 to 8 bytes (R7, R9). -/
def accessSize (n : BitVec 4) : Bool := n == 1 || n == 2 || n == 4 || n == 8

/-- A line of an engine: 16 active lines and two spares (R61). -/
def lineOk (n : BitVec 5) : Bool := decide (n.toNat < 18)

/-- A transit plane and an element of it (R86). -/
def planeOk (c : BitVec 5) : Bool := decide (c.toNat < 18)
def elementOk (e : BitVec 8) : Bool := decide (e.toNat < 144)

/-- Elements of the six classes of Table 14-1. -/
def classSize (cls : BitVec 3) : Nat := [576, 68, 256, 384, 32, 512].getD cls.toNat 0
def healthElemOk (cls : BitVec 3) (idx : BitVec 10) : Bool := decide (idx.toNat < classSize cls)

/-- A stack (R252). -/
def stackOk (st : BitVec 4) : Bool := decide (st.toNat < 12)

/-- A line: 256 bytes, with 8 scale bytes when its format is a block format (R192, R193). -/
def lineBytesOk (data scales : List Byte) : Bool :=
  decide (data.length = 256) && (scales.isEmpty || decide (scales.length = 8))

/-- A PMU source: an event, or one of the five ledger counters of a pipeline or orrery core (R415). -/
def PmuSource.wf : PmuSource → Bool
  | .event .. => true
  | .ledger element cls => decide (element.toNat < 288) && decide (cls.toNat < 5)

/-- The operands of a command are inside their ranges. -/
def Instr.wf : Instr → Bool
  | .registerWrite _ _ size _ => accessSize size
  | .apertureRead _ off size _ => accessSize size && decide (off.toNat + size.toNat ≤ 0x1000000)
  | .lowWordRead _ off | .clearOnRead _ off | .highWordWrite _ off _ | .configFieldWrite _ off _ | .intStatusWrite _ off _
  | .meterConfigWrite off _ | .pmuCounterWrite off _ => wordOff off
  | .timeSync _ f _ | .pdelayReq _ f _ | .pdelayResp _ f _ | .timeFrameBadOpcode _ f | .laneMoveReq _ f | .laneAck _ f
  | .laneReady _ f | .laneMark _ f | .laneAbort _ f | .hello _ f | .credit _ f | .ack _ f | .retryReq _ f
  | .linkCtlBadOpcode _ f | .announce _ f | .bulk _ f _ | .bestEffort _ f _ | .mgmtForward _ f _ | .resultFromLeaf _ f
  | .groupRec _ f _ | .collBegin _ f _ | .contribData _ f _ _ _ _ | .exp _ f _ | .abortReq _ f _ | .load _ f _ _ _
  | .store _ f _ _ _ | .storeMcast _ f _ _ | .atomic _ f _ _ _ | .reduceInto _ f _ _ _ | .memFence _ f _ _
  | .memReqPassThrough _ f _ | .memRspForward _ f _ | .memRspToSpine _ f _ | .amendFrag _ f _ | .mgmtAmendCancel _ f _
  | .mgmtColophonQuery _ f _ | .malformedFrame _ f | .stompedFrame _ f | .memReqBadOpcode _ f _ _ => f.wf
  | .heaterUpdate _ inputs temps => decide (inputs.length = 36) && decide (temps.length = 4)
  | .xtRefreshPeriodEnd _ residuals => decide (residuals.length = 1296)
  | .lineLockLost _ n | .lineLockRegained _ n | .linePowerSample _ n _ | .cutoverRetry _ n _ => lineOk n
  | .elementBiasUpdate c e _ _ | .elementLockLost c e | .elementLocked c e | .planeFailed c e
  | .elementLockRetry c e _ => planeOk c && elementOk e
  | .engineRestore st _ _ => stackOk st
  | .setA _ _ a _ => decide (a.length = 8)
  | .accessionAdd _ _ _ _ data scales _ | .merge _ _ _ _ data scales _ => lineBytesOk data scales
  | .writeLanes _ _ lanes _ => decide (lanes.length ≤ 512)
  | .accessionAtomic dpa _ _ _ _ => decide (dpa.toNat % 8 = 0)
  | .stackWriteAccepted ch => decide (ch.toNat < 384)
  | .accessEntryWrite _ w _ => decide (w.toNat < 3)
  | .budgetRefill g => decide (g.toNat < 101)
  | .albedoInput cls idx inp => healthElemOk cls idx && decide (inp.toNat < 19)
  | .expulsionComplete cls idx => healthElemOk cls idx
  | .governorRun dom _ used => decide (dom.length = 6) && decide (used.length = 16)
  | .temperatureRead tj st => decide (tj.length = 5) && decide (st.length = 12)
  | .sensorSample tj rails => decide (tj.length = 640) && decide (rails.length = 7)
  | .cxlMemRead hpa _ => decide (hpa.toNat % 64 = 0)
  | .cxlMemWrite hpa data _ => decide (hpa.toNat % 64 = 0) && decide (data.length = 64)
  | .perstNDeassert width rate _ => decide (1 ≤ width.toNat) && decide (width.toNat ≤ 3) && decide (rate.toNat ≤ 2)
  | .pmuCounterOverflow src _ _ => src.wf
  | _ => true

end Sys2Proof
end

