-- ==== Sys2Proof/Certificates/Slice0/Obligations.lean ====
section
/-!
DEFINITION. The statements for the provers: how a command runs, what each command does, and what every step keeps. Where a clause
rests on a choice of the model, its docstring names the log entry.
-/

open Sys2Proof Sys2Proof.Machine

/-! ### The queue -/

/-- A command at the front of the queue runs with the queue's rest. -/
def Obligations.StepRunsFront : Prop :=
  ∀ (c : Instr) (cs : List Instr) (s : State), step { s with pending := c :: cs } = exec c { s with pending := cs }

/-- R36 with the model's tick (log 1): with no command waiting a step is one tick, at which acc advances by 2^52 + adj *
2^4 and the rate stays; a device held in reset, or without its clock, has none. -/
def Obligations.EmptyQueueTicks : Prop :=
  ∀ s : State, s.pending = [] →
    ((s.held = true ∨ s.pwr.refclkBad = true) → step s = .next s) ∧
    (s.held = false → s.pwr.refclkBad = false →
      ∃ t, step s = .next t ∧ t.pending = [] ∧ t.eph.adj = s.eph.adj ∧ t.eph.integ = s.eph.integ ∧
        t.eph.acc = s.eph.acc + BitVec.ofInt 112 (2 ^ 52 + s.eph.adj * 2 ^ 4))

/-- No command changes the queue of those that wait after it. -/
def Obligations.CommandsLeaveQueue : Prop :=
  ∀ (c : Instr) (s t : State), exec c s = .next t → t.pending = s.pending

/-- Only two commands ever stop: those that read or change the memory at a DPA of their own. -/
def Obligations.OnlyAbsentMemoryStops : Prop :=
  ∀ (c : Instr) (s : State),
    (∀ r off size io, c ≠ .apertureRead r off size io) → (∀ dpa sub b d io, c ≠ .accessionAtomic dpa sub b d io) →
    ∃ t, exec c s = .next t

/-! ### The timing counter -/

/-- R36: adj and integ lie inside their clamps after every step from a state in which they do. -/
def Obligations.ClampsHold : Prop := ∀ s t : State, s.clamped → step s = .next t → t.clamped

/-- The clamps hold at reset. -/
def Obligations.ClampsAtReset : Prop := State.reset.clamped

/-- The counter itself is moved by a time frame or an edge of PPS_IN, or starts again with a cold reset; no other command
changes it. -/
def Obligations.CounterMovers : Prop :=
  ∀ (c : Instr) (s t : State),
    (∀ p f r, c ≠ .timeSync p f r) → (∀ x, c ≠ .ppsInEdge x) → c ≠ .porstNAssert → c ≠ .supplyLoss →
    exec c s = .next t → t.eph.acc = s.eph.acc

/-- What a reset leaves: no command waits, FT is 0 and FREE, every port DOWN, memory lists nothing, and the registers read
the Reset values of their tables. Registers without a Reset value of their own read 0 (log 3), and so does a byte of
memory that nothing has written (log 15). -/
def Obligations.ResetState : Prop :=
  State.reset.pending = [] ∧ State.reset.ft = 0 ∧ State.reset.eph.state = .free ∧
    (∀ p, (State.reset.link p).state = .down) ∧ (∀ d, State.reset.byteAt d = 0) ∧ State.reset.stk.mem = [] ∧
    (∀ off, State.reset.reg off = regReset off) ∧
    State.reset.fld Reg.GLB_STATUS.boot = 0 ∧ State.reset.fld Reg.GLB_CTL.oob_en = 1 ∧ State.reset.fld Reg.GLB_CTL.i3c_en = 1

/-! ### Registers -/

/-- R7: a write that is not 32 bits wide and aligned is discarded, and a register-access event is recorded: beside the
record and its causes nothing changes. -/
def Obligations.BadWidthDiscarded : Prop :=
  ∀ (r : Requester) (off : BitVec 29) (size : BitVec 4) (v : W32) (s : State), r ≠ .i3c → s.answers off.toNat = true →
    (size ≠ 4 ∨ off.toNat % 4 ≠ 0) →
    ∃ t, exec (.registerWrite r off size v) s = .next t ∧ s.sameButRecord t ∧
      t.alm.seq = s.alm.seq + 1 ∧ (t.alm.ring.head?.map fun e => (e.event, e.index)) = some (.registerAccess, off.toNat) ∧
      t.bit Reg.GLB_INT_STATUS.reg_access = true

/-- R10: a word written to a register that only stores is stored in its rw fields and clears the rw1c bits written as 1;
every other bit and every other register stays, and so does the rest of the device. -/
def Obligations.RegisterStored : Prop :=
  ∀ (r : Requester) (off : BitVec 29) (v : W32) (s : State) (row : RegRow),
    r ≠ .i3c → off.toNat % 4 = 0 → s.writable off.toNat v = true → regRow? off.toNat = some row → stageAt off.toNat = none →
    isLow off.toNat = false → isHigh off.toNat = false → isIntStatus off.toNat = false → isIntStatus (off.toNat - 4) = false →
    off.toNat ≠ Reg.GLB_CTL.addr → isConfig off.toNat = false → accessAt off.toNat = none →
    off.toNat / 0x1000000 ∈ [0x08, 0x0C, 0x12, 0x19] →
    exec (.registerWrite r off 4 v) s = .next (s.setReg off.toNat
      ((s.reg off.toNat &&& ~~~BitVec.ofNat 32 row.rw &&& ~~~(BitVec.ofNat 32 row.rw1c &&& v)) ||| (v &&& BitVec.ofNat 32 row.rw)))

/-- R8: a 64-bit register is an aligned pair of 32-bit ones, the low word at the lower offset. A read of the low word
latches the high word; the next read of the high word answers the latch and consumes it, and one without a latch answers
the live high word, as one after a reset does. A write of the low word is held, the later for the earlier; the high word
makes the pair take effect as one value with the held low word, which is consumed, or without one with the current low
word. Each requester has its own latches and held words. -/
def Obligations.RegisterPairs : Prop :=
  (∀ off, isLow off = true → off % 4 = 0 ∧ isHigh (off + 4) = true) ∧
  (∀ (q r : Requester) (a b : BitVec 29), latchKey q a.toNat = latchKey r b.toNat → q = r ∧ a = b) ∧
  (State.reset.latches = [] ∧ ∀ s : State, s.coldReset.latches = [] ∧ s.deviceBase.latches = []) ∧
  (∀ (r : Requester) (off : BitVec 29) (s : State), r ≠ .i3c → s.answers off.toNat = true →
    (isLow off.toNat = true →
      exec (.lowWordRead r off) s = .next ((({ s with
        latches := s.latches.put (latchKey r off.toNat) (s.view (off.toNat + 4)) } : State).clearRead off.toNat).emit
          (.regValue r off.toNat (s.view off.toNat)))) ∧
    (isLow off.toNat = false → isHigh off.toNat = true →
      (∀ x, s.latches.get (latchKey r (off.toNat - 4)) = some x → exec (.lowWordRead r off) s = .next (({ s with
        latches := s.latches.del (latchKey r (off.toNat - 4)) } : State).emit (.regValue r off.toNat x))) ∧
      (s.latches.get (latchKey r (off.toNat - 4)) = none → exec (.lowWordRead r off) s =
        .next ((s.clearRead off.toNat).emit (.regValue r off.toNat (s.view off.toNat)))))) ∧
  ∀ (r : Requester) (off : BitVec 29) (v : W32) (s : State), r ≠ .i3c → s.answers off.toNat = true → stageAt off.toNat = none →
    (isLow off.toNat = true →
      exec (.registerWrite r off 4 v) s = .next { s with heldLow := s.heldLow.put (latchKey r off.toNat) v }) ∧
    (isLow off.toNat = false → isHigh off.toNat = true → ∀ u : State,
      u = { s with heldLow := s.heldLow.del (latchKey r (off.toNat - 4)) } →
      (∀ a, s.heldLow.get (latchKey r (off.toNat - 4)) = some a →
        exec (.highWordWrite r off v) s = .next (u.writePair (off.toNat - 4) a v)) ∧
      (s.heldLow.get (latchKey r (off.toNat - 4)) = none →
        exec (.highWordWrite r off v) s = .next (u.writePair (off.toNat - 4) (s.view (off.toNat - 4)) v)))

/-- R347: a write to a configuration field. With local_write_en 0 it is discarded and recorded. With local_write_en 1 a
field of the LOCAL configuration that only stores takes it, and the write is counted and recorded, sets drift and raises
local_write. Which registers are configuration: log 7. -/
def Obligations.ConfigurationWrite : Prop :=
  ∀ (r : Requester) (off : BitVec 29) (v : W32) (s : State), isConfig off.toNat = true → s.eph.state.drives = false →
    isMeterReg off.toNat = false → grantAt off.toNat = none → s.writable off.toNat v = true →
    off.toNat ≠ Reg.SCH_VC_WEIGHT_A.addr → off.toNat ≠ Reg.SCH_VC_WEIGHT_B.addr →
    (s.bit Reg.CFG_CTL.local_write_en = false →
      exec (.configFieldWrite r off v) s = .next (s.log 0x17 .configWriteDiscarded off.toNat [v.toNat])) ∧
    (s.bit Reg.CFG_CTL.local_write_en = true →
      exec (.configFieldWrite r off v) s = .next ((s.cfgWriteEffect off.toNat v).noteConfig off.toNat v))

/-- A read of any other register answers its value and clears its rc fields (R10); a window that does not answer reads
all-ones and loses nothing (R422); the I3C target with i3c_en 0 reads nothing (R376). R368: a write to an INT_STATUS
clears the causes written as 1; while one that is enabled remains, its vector is sent again. -/
def Obligations.ReadsAndInterruptStatus : Prop :=
  (∀ (r : Requester) (off : BitVec 29) (s : State), off.toNat % 4 = 0 → isLow off.toNat = false → isHigh off.toNat = false →
    (r ≠ .i3c → s.answers off.toNat = true →
      exec (.clearOnRead r off) s = .next ((s.clearRead off.toNat).emit (.regValue r off.toNat (s.view off.toNat)))) ∧
    (r ≠ .i3c → s.answers off.toNat = false →
      exec (.clearOnRead r off) s = .next (s.emit (.regValue r off.toNat 0xFFFFFFFF))) ∧
    (r = .i3c → s.bit Reg.GLB_CTL.i3c_en = false → exec (.clearOnRead r off) s = .next s)) ∧
  (∀ (r : Requester) (off : BitVec 29) (v : W32) (s : State), isIntStatus off.toNat = true → s.writable off.toNat v = true →
    isConfig off.toNat = false →
    exec (.intStatusWrite r off v) s =
      .next (if (s.storeFields off.toNat v).irqPending off.toNat then (s.storeFields off.toNat v).sendMsix off.toNat
        else s.storeFields off.toNat v))

/-! ### Fabric time -/

/-- R48: a sample taken in LOCKED, HOLDOVER or inside the step threshold, with the servo on and a last sample T > 0 whole
FT before it: integ and adj take the values of the procedure, and the counter does not step. -/
def Obligations.ServoSample : Prop :=
  ∀ (s : State) (e tRx t0 : Int),
    (s.eph.state = .locked → e.natAbs ≤ s.fld Reg.EPH_SERVO.outlier_limit * 2 ^ 16) → s.eph.state ≠ .free →
    e.natAbs ≤ s.fld Reg.EPH_STEP_THRESH.value * 2 ^ 16 → s.bit Reg.EPH_CTL.servo_en = true → s.eph.lastRx = some t0 →
    sar (tRx - t0) 16 ≠ 0 →
    (s.sample e tRx).eph.integ =
      clampInt (s.eph.integ - sar (e * 2 ^ 32 / sar (tRx - t0) 16) (s.fld Reg.EPH_SERVO.ki_shift)) (-(2 ^ 36)) (2 ^ 36) ∧
    (s.sample e tRx).eph.adj =
      clampInt ((s.sample e tRx).eph.integ - sar (e * 2 ^ 32 / sar (tRx - t0) 16) (s.fld Reg.EPH_SERVO.kp_shift))
        (-(2 ^ 36)) (2 ^ 36) ∧
    (s.sample e tRx).eph.acc = s.eph.acc

/-- R39, R42, R45 and R48: a time frame the port takes in. TIME_SYNC of the active parent is the sample of a follower; of
another valid port it is counted; PDELAY_REQ is answered; the awaited PDELAY_RESP sets the mean delay; another opcode is
counted in time_drops. -/
def Obligations.TimeFrames : Prop :=
  ∀ (p : Port) (f : Frame) (tRx : Stamp) (s u : State), f.ftype = ftTime → s.received p f = some u →
    (f.opcode = tfSync → tfState f ≤ 1 → (u.time p).valid = true →
      ∀ v, v = (u.setTime p { u.time p with lastSync := some u.ft }).refreshParent →
        (v.eph.parent.map (·.1) ≠ some p →
          exec (.timeSync p f tRx) s = .next (v.count (Reg.EPH_PORT_STAT.sync_other p.toNat))) ∧
        (v.eph.parent.map (·.1) = some p → v.fld Reg.EPH_CTL.role = 0 → v.bit Reg.EPH_CTL.relay_en = false →
          exec (.timeSync p f tRx) s = .next
            ((({ v with eph.sourceHoldover := decide (tfState f = 1) } : State).sample
              ((tRx.toNat : Int) - ((tfValue f : Int) * 2 ^ 16 + f.correction + v.delayIn p)) tRx.toNat).pmuEvent 0x01 0x01 0))) ∧
    (f.opcode = tfPdelayReq →
      exec (.pdelayReq p f tRx) s =
        .next (u.sendVc0 p (u.timeFrame tfPdelayResp 0 (tfSeq f) 255 0) (.pdelayResp tRx.toNat))) ∧
    (f.opcode = tfPdelayResp → ∀ t1, (u.time p).req = some (tfSeq f, some t1) → (tRx.toNat : Int) - t1 ≤ 64000 * 2 ^ 16 →
      exec (.pdelayResp p f tRx) s = .next (u.setTime p { u.time p with
        mean := if (u.time p).valid then
            (u.time p).mean + sar (sar ((tRx.toNat : Int) - t1 - f.correction) 1 - (u.time p).mean) 3
          else sar ((tRx.toNat : Int) - t1 - f.correction) 1
        valid := true, loss := 0, req := none }).refreshParent) ∧
    ((f.opcode = 0 ∨ 3 < f.opcode.toNat) →
      exec (.timeFrameBadOpcode p f) s = .next (u.count (Reg.EPH_PORT_STAT.time_drops p.toNat)))

/-- R42, R44 and R45: the exchange interval sends a PDELAY_REQ on every port; a response that is late is lost, the fourth
in a row clears delay_valid; the sync interval of a LOCKED source sends TIME_SYNC on every OPEN port; three intervals
without one select the parent again. Table 2-4: LOCKED without a sample for three intervals becomes HOLDOVER, adj frozen
at integ; HOLDOVER past its limit becomes EXPIRED. -/
def Obligations.TimeIntervalsAndStates : Prop :=
  (∀ (s : State) (p : Port),
    (s.bit Reg.EPH_CTL.pdelay_en = true → exec .pdelayExchangeStart s = .next (allPorts.foldl State.startPdelay s)) ∧
    (∀ q t1, (s.time p).req = some (q, some t1) → t1 + 64000 * 2 ^ 16 ≤ s.ft16 →
      exec (.pdelayRespLost p) s = .next (s.setTime p { s.time p with
        loss := min ((s.time p).loss + 1) 15
        valid := (s.time p).valid && decide (min ((s.time p).loss + 1) 15 < 4), req := none }).refreshParent) ∧
    (s.fld Reg.EPH_CTL.role = 1 → s.eph.state = .locked →
      exec .syncIntervalExpiry s = .next ((allPorts.filter fun p => s.fence p == 0).foldl
        (fun t p => t.sendVc0 p (s.timeFrame tfSync 0 s.eph.syncSeq 0 (s.swAddr.toNat + 2 ^ 31)) .sync)
        { s with eph.syncSeq := s.eph.syncSeq + 1 })) ∧
    (∀ t, (s.time p).lastSync = some t → t + 3 * s.fld Reg.EPH_SYNC_INTERVAL.value < s.ft →
      exec (.parentSyncLost p) s = .next s.refreshParent)) ∧
  (∀ s : State,
    (s.eph.state = .locked → s.fld Reg.EPH_CTL.role = 0 →
      s.eph.lastSample + 3 * s.fld Reg.EPH_SYNC_INTERVAL.value ≤ s.ft →
      ∃ t, exec .holdoverEntry s = .next t ∧ t.eph.state = .holdover ∧ t.eph.adj = s.eph.integ ∧ t.eph.integ = s.eph.integ ∧
        t.eph.acc = s.eph.acc ∧ t.bit Reg.EPH_INT_STATUS.holdover_entry = true ∧
        t = { s with eph := t.eph, regs := t.regs, out := t.out } ∧ ∀ o, o ≠ Reg.EPH_INT_STATUS.addr → t.reg o = s.reg o) ∧
    (s.eph.state = .holdover → s.eph.holdoverAt + s.pair Reg.EPH_HOLDOVER_LIMIT_LO.value ≤ s.ft →
      ∃ t, exec .expiredEntry s = .next t ∧ t.eph.state = .expired ∧ t.eph.adj = s.eph.adj ∧ t.eph.integ = s.eph.integ ∧
        t.eph.acc = s.eph.acc ∧ t.bit Reg.EPH_INT_STATUS.expired_entry = true ∧
        ∀ o, o ≠ Reg.EPH_INT_STATUS.addr → t.reg o = s.reg o))

/-- R46 and R56: every edge of PPS_IN is captured. A follower does no more with it; the edge a source expects is its
sample, and the next is expected a second later; the first after a write of EPH_TOD_SET enters ACQUIRE and steps the
counter to the written time. A missing edge raises pps_in_missing. R55 and R56: a periodic pulse with good parameters is
armed by the write of enable 1; its pin goes active at its leading edge in a state that drives it and inactive at its
trailing edge, for the next period; a one-shot whose time passes while the pins are inactive is missed and disarmed. -/
def Obligations.PpsAndPulses : Prop :=
  (∀ (c : Stamp) (s u : State), u = s.setPair Reg.EPH_PPSIN_STAMP_LO.value (c.toNat / 2 ^ 16) →
    (u.fld Reg.EPH_CTL.role = 0 → exec (.ppsInEdge c) s = .next u) ∧
    (∀ x, u.fld Reg.EPH_CTL.role = 1 → u.eph.todSet = false → u.eph.ppsExpected = some x →
      exec (.ppsInEdge c) s = .next (({ u with eph.ppsExpected := some (x + 16000000000) } : State).sample
        ((c.toNat : Int) - (x : Int) * 2 ^ 16) c.toNat)) ∧
    (u.fld Reg.EPH_CTL.role = 1 → u.eph.todSet = true → u.bit Reg.EPH_CTL.step_en = true → u.eph.leftAcquire = false →
      ∃ t, exec (.ppsInEdge c) s = .next t ∧ t.eph.state = .acquire ∧ t.eph.todSet = false ∧
        t.eph.ppsExpected = some (u.pair Reg.EPH_TOD_SET_LO.value + 16000000000) ∧
        t.eph.acc = BitVec.ofInt 112 ((u.eph.acc.toNat : Int) -
          ((c.toNat : Int) - (u.pair Reg.EPH_TOD_SET_LO.value : Int) * 2 ^ 16) * 2 ^ 32) ∧
        t.bit Reg.EPH_INT_STATUS.step_taken = true) ∧
    (∀ x, s.fld Reg.EPH_CTL.role = 1 → s.eph.ppsExpected = some x → x + 16000 < s.ft → s.eph.state ≠ .locked →
      exec .ppsInMissing s = .next (({ s with eph.ppsExpected := some (x + 16000000000) } : State).raise
        Reg.EPH_INT_STATUS.pps_in_missing))) ∧
  (∀ (n : BitVec 2) (s : State),
    (∀ v : W32, v = 1 → s.writable (Reg.EPH_PULSE_CTL.addr n.toNat) v = true →
      isConfig (Reg.EPH_PULSE_CTL.addr n.toNat) = false →
      ∀ u, u = (s.setFld (Reg.EPH_PULSE_CTL.enable n.toNat) 1).setFld (Reg.EPH_PULSE_CTL.polarity n.toNat) 0 →
      16000 ≤ (u.pulseParams n.toNat).2.1 → 16 ≤ (u.pulseParams n.toNat).2.2 →
      (u.pulseParams n.toNat).2.2 < (u.pulseParams n.toNat).2.1 →
      exec (.pulseArm n v) s = .next (u.setPulse n.toNat { u.pulse n.toNat with
        armed := true, start := (u.pulseParams n.toNat).1, period := (u.pulseParams n.toNat).2.1
        width := (u.pulseParams n.toNat).2.2
        nextEdge := nextLeading (u.pulseParams n.toNat).1 (u.pulseParams n.toNat).2.1 u.ft })) ∧
    ((s.pulse n.toNat).armed = true → (s.pulse n.toNat).active = false → (s.pulse n.toNat).nextEdge ≤ s.ft →
      s.eph.state.drives = true →
      exec (.pulseLeadingEdge n) s = .next ((s.setPulse n.toNat { s.pulse n.toNat with active := true }).emit
        (.pin (.ppsOut n) (!s.bit (Reg.EPH_PULSE_CTL.polarity n.toNat))))) ∧
    ((s.pulse n.toNat).armed = true → (s.pulse n.toNat).active = true →
      (s.pulse n.toNat).nextEdge + (s.pulse n.toNat).width ≤ s.ft → (s.pulse n.toNat).period = 0 →
      exec (.pulseTrailingEdge n) s = .next ((s.drivePulse n false).setPulse n.toNat
        { (s.drivePulse n false).pulse n.toNat with armed := false })) ∧
    ((s.pulse n.toNat).armed = true → (s.pulse n.toNat).active = false → (s.pulse n.toNat).period = 0 →
      (s.pulse n.toNat).nextEdge < s.ft → s.eph.state.drives = false →
      exec (.pulseMissed n) s = .next (((s.setPulse n.toNat { s.pulse n.toNat with armed := false }).setFld
        (Reg.EPH_PULSE_CTL.missed n.toNat) 1).raise Reg.EPH_INT_STATUS.pulse_missed)))

/-- R57: an arming of a gate list whose lead time is kept, whose bank is complete and whose time is a boundary of the
active list pends; one that comes too late is refused with LATE and raises act_refused; a cancel in time leaves nothing
pending. R58: in a state that fires activations one that is due fires, the others after it; where none is due nothing
changes. -/
def Obligations.ArmingAndFiring : Prop :=
  (∀ (s : State) (k t : Nat) (active shadow : Bank) (len : Nat), (s.act k).pending = false →
    ((s.fld Reg.EPH_ACT_LEAD.value : Int) ≤ (t : Int) - s.ft → shadow.complete len = true → active.boundary t = true →
      s.arm k t (some (active, shadow, len)) =
        (s.setAct k { pending := true, tAct := t, state := 1, reason := 0 }, true)) ∧
    ((t : Int) - s.ft < s.fld Reg.EPH_ACT_LEAD.value →
      s.arm k t (some (active, shadow, len)) =
        ((s.setAct k { s.act k with reason := 1, state := 3 }).raise Reg.EPH_INT_STATUS.act_refused, false))) ∧
  (∀ s : State, s.eph.state.drives = true →
    (s.nextDue = none → exec .activationFire s = .next s) ∧
    (∀ k a n, s.nextDue = some (k, a) → s.acts.length = n + 1 → (s.fireOne k a).nextDue = none →
      exec .activationFire s = .next (s.fireOne k a)))

/-! ### Optical lanes -/

/-- R65, R66, R71 and R84: a calibrated engine takes its readings and updates every heater; the end of a refresh period
makes the refined matrix the next one; a swap of a shadow whose diagonal is zero waits for the next update; a recal of an
engine still in calibration is no more than a write; calibration ends once. R67 to R69: a line whose ring has lost lock
loses it, and a line with a duty holds its port and raises lock_lost; a line that is good again has its port released; a
port held for hold_limit goes DOWN with lane_down; a power sample is taken on a calibrated engine. -/
def Obligations.EnginesAndLines : Prop :=
  (∀ (f : BitVec 5) (s : State),
    (∀ inputs temps, (s.engine f.toNat).calState = 2 →
      exec (.heaterUpdate f inputs temps) s = .next ((s.substrate f.toNat temps).heaterUpdate f.toNat inputs)) ∧
    (∀ (residuals : List Int) (new : Nat → Int), s.bit (Reg.OPT_CTL.xt_refresh_en f.toNat) = true →
      (s.engine f.toNat).calState = 2 →
      (∀ e, new e = s.xtActive f.toNat e -
        clampInt (sar (residuals.getD e 0) (s.fld (Reg.OPT_XT_CTL.mu_shift f.toNat))) (-32) 32) →
      (∀ e, e < 1296 → -8192 ≤ new e ∧ new e ≤ 8192) →
      exec (.xtRefreshPeriodEnd f residuals) s = .next (s.setEngine f.toNat { s.engine f.toNat with
        xtNext := some ((((List.range 1296).filter fun e => e / 36 ≠ e % 36).map fun e => (e, new e)).filter
          fun e => e.2 ≠ s.xtActive f.toNat e.1) })) ∧
    (∀ v : W32, v.getLsbD 16 = true → s.writable (Reg.OPT_XT_CTL.addr f.toNat) v = true →
      isConfig (Reg.OPT_XT_CTL.addr f.toNat) = true → s.bit Reg.CFG_CTL.local_write_en = true →
      ∀ u, u = s.storeFields (Reg.OPT_XT_CTL.addr f.toNat) v →
      (∀ i, i < 36 → u.xtShadow f.toNat (37 * i) = 0) →
      exec (.xtSwap f v) s = .next ((u.setEngine f.toNat { u.engine f.toNat with swapPending := true }).noteConfig
        (Reg.OPT_XT_CTL.addr f.toNat) v)) ∧
    (∀ r, (s.engine f.toNat).calState = 1 → exec (.calibrationDone f r) s = .next (s.calDone f.toNat r)) ∧
    (∀ (v : W32) (locks : BitVec 36), v.getLsbD 8 = true → s.writable (Reg.OPT_CTL.addr f.toNat) v = true →
      isConfig (Reg.OPT_CTL.addr f.toNat) = true → s.bit Reg.CFG_CTL.local_write_en = true →
      exec (.optRecal f v locks) s =
        .next ((s.writeOptCtl f.toNat v locks).noteConfig (Reg.OPT_CTL.addr f.toNat) v))) ∧
  (∀ (f n : BitVec 5) (s : State), n.toNat < 18 →
    ((s.line f.toNat n.toNat).locked = true → s.lineGood f.toNat n.toNat = false → (s.line f.toNat n.toNat).duty = none →
      s.cutoverUses f.toNat n.toNat = false →
      exec (.lineLockLost f n) s =
        .next (s.setLine f.toNat n.toNat { s.line f.toNat n.toNat with locked := false }).refreshTransit) ∧
    (∀ k, (s.line f.toNat n.toNat).locked = true → s.lineGood f.toNat n.toNat = false →
      (s.line f.toNat n.toNat).duty = some k → s.cutoverUses f.toNat n.toNat = false →
      (s.link (portOf f.toNat k)).state = .up → (s.link (portOf f.toNat k)).held = none →
      ∃ u, u = (s.setLine f.toNat n.toNat { s.line f.toNat n.toNat with locked := false }).raise
          (Reg.OPT_INT_STATUS.lock_lost f.toNat) ∧
        exec (.lineLockLost f n) s =
          .next (u.setLink (portOf f.toNat k) { s.link (portOf f.toNat k) with held := some s.ft }).refreshTransit) ∧
    ((s.line f.toNat n.toNat).locked = false → s.lineGood f.toNat n.toNat = true → (s.line f.toNat n.toNat).duty = none →
      exec (.lineLockRegained f n) s =
        .next ((s.setLine f.toNat n.toNat { s.line f.toNat n.toNat with locked := true }).refreshTransit.retryGroup f.toNat)) ∧
    (∀ p t, (s.link p).held = some t → s.fld (Reg.OPT_LOCK_CFG.hold_limit (engineOf p)) ≠ 0 →
      t + s.fld (Reg.OPT_LOCK_CFG.hold_limit (engineOf p)) * 1600000 ≤ s.ft →
      exec (.laneHoldLimit p) s = .next ((s.raise (Reg.OPT_INT_STATUS.lane_down (engineOf p))).linkDown p 4)) ∧
    (∀ r, (s.engine f.toNat).calState = 2 →
      exec (.linePowerSample f n r) s = .next (s.powerSample f.toNat n.toNat r).refreshTransit))

/-- R77 to R79 and Table 5-7: the messages of a cut-over. LANE_MOVE_REQ of the leaf asks for a move of its own duty,
LANE_ACK and LANE_READY for the target line are noted, LANE_MARK ends the wait for the mark, LANE_ABORT before t_switch
ends the cut-over. -/
def Obligations.CutoverMessages : Prop :=
  ∀ (p : Port) (f : Frame) (s u : State), f.ftype = ftLinkCtl → s.received p f = some u →
    (f.opcode = opLaneMoveReq → f.laneDuty = dutyOf p →
      exec (.laneMoveReq p f) s = .next (u.trigger (engineOf p) ⟨dutyOf p, none, .leaf⟩)) ∧
    (∀ c, u.cutoverFor p f = some c → f.laneTo = c.target →
      (f.opcode = opLaneAck →
        exec (.laneAck p f) s =
          .next (u.setEngine (engineOf p) { u.engine (engineOf p) with cutover := some { c with acked := true } })) ∧
      (f.opcode = opLaneReady →
        exec (.laneReady p f) s =
          .next (u.setEngine (engineOf p) { u.engine (engineOf p) with cutover := some { c with leafReady := true } })) ∧
      (f.opcode = opLaneMark →
        exec (.laneMark p f) s =
          .next (u.setEngine (engineOf p) { u.engine (engineOf p) with cutover := some { c with markRx := true } })) ∧
      (f.opcode = opLaneAbort → c.marked = false → exec (.laneAbort p f) s = .next (u.abortCutover (engineOf p) 5)))

/-- R77 to R83: a waiting trigger with a ready target begins a cut-over; an aligned spare answers LANE_READY; at t_switch,
both ends ready, LANE_MARK goes out and the duty is carried by the target line; 100 µs before t_switch an end that is not
ready aborts it; 100 µs after it the old line is released; an aborted fade is tried again a second later. R83 and Table
3-12: a move to a ready spare that is asked for by OPT_LANE_MOVE waits as a cut-over and reads as in progress; one with no
line for it is refused. -/
def Obligations.CutoverTimesAndMoves : Prop :=
  (∀ (f : BitVec 5) (s : State),
    (∀ t ts c n, (s.engine f.toNat).cutover = none → (s.engine f.toNat).waiting = t :: ts →
      ∀ u, u = s.setEngine f.toNat { s.engine f.toNat with waiting := ts } →
      u.carrier (portOf f.toNat t.duty) = some c → u.targetOf f.toNat t = some n → n ≠ c →
      exec (.cutoverStart f) s = .next (u.beginCutover f.toNat c n t)) ∧
    (∀ c, (s.engine f.toNat).cutover = some c →
      (c.ownReady = false →
        exec (.spareReceiverAligned f) s =
          .next ((s.setEngine f.toNat { s.engine f.toNat with cutover := some { c with ownReady := true } }).sendVc0
            (portOf f.toNat c.duty) (s.linkCtl opLaneReady (BitVec.ofNat 32 (c.duty.toNat + c.target * 2 ^ 9)) 0 0 0))) ∧
      (c.marked = false → c.leafReady = false → c.tSwitch ≤ s.ft + 1600000 →
        exec (.laneReadyDeadline f) s = .next (s.abortCutover f.toNat 1)) ∧
      (∀ cw : BitVec 10, c.marked = false → c.leafReady = true → c.ownReady = true → c.tSwitch ≤ s.ft →
        ∃ u v w, u = s.sendVc0 (portOf f.toNat c.duty)
            (s.linkCtl opLaneMark (BitVec.ofNat 32 (c.duty.toNat + cw.toNat * 2 ^ 16)) 0 0 0) ∧
          v = u.setLine f.toNat c.source { u.line f.toNat c.source with duty := none } ∧
          w = v.setLine f.toNat c.target { v.line f.toNat c.target with duty := some c.duty, fade := .normal } ∧
          exec (.tSwitch f cw) s =
            .next (w.setEngine f.toNat { w.engine f.toNat with cutover := some { c with marked := true } }).refreshTransit) ∧
      (c.marked = true → c.cause = .manual → c.tSwitch + 1600000 ≤ s.ft →
        ∃ u v, u = s.setEngine f.toNat { s.engine f.toNat with cutover := none } ∧
          v = u.setLine f.toNat c.source { u.line f.toNat c.source with
            fade := if 16 ≤ c.source ∧ c.target < 16 then .idle else .moved, aborts := 0, retryFrom := none } ∧
          exec (.oldLineRelease f) s = .next (((v.raise (Reg.OPT_INT_STATUS.cutover_done f.toNat)).endStandin c.source).setFld
            (Reg.OPT_LANE_MOVE.result f.toNat) 2))) ∧
    (∀ (n : BitVec 5) t k, (s.line f.toNat n.toNat).retryFrom = some t → (s.line f.toNat n.toNat).duty = some k →
      (s.line f.toNat n.toNat).fade ≠ .noSpare → t + 16000000000 ≤ s.ft →
      exec (.cutoverRetry f n true) s =
        .next ((s.setLine f.toNat n.toNat { s.line f.toNat n.toNat with retryFrom := none }).trigger f.toNat ⟨k, none, .fade⟩))) ∧
  (∀ (f : BitVec 5) (v : W32) (s u : State), v.getLsbD 6 = true → s.writable (Reg.OPT_LANE_MOVE.addr f.toNat) v = true →
    isConfig (Reg.OPT_LANE_MOVE.addr f.toNat) = false → u = s.storeFields (Reg.OPT_LANE_MOVE.addr f.toNat) v →
    (∀ a b n, v.getLsbD 5 = false → n = (if v.getLsbD 4 then 17 else 16) →
      u.carrier (portOf f.toNat (BitVec.ofNat 4 v.toNat)) = some a →
      u.targetOf f.toNat ⟨BitVec.ofNat 4 v.toNat, some n, .manual⟩ = some b → u.moving f.toNat (BitVec.ofNat 4 v.toNat) = false →
      exec (.optLaneMoveGo f v) s = .next ((u.setEngine f.toNat { u.engine f.toNat with
        waiting := (u.engine f.toNat).waiting ++ [⟨BitVec.ofNat 4 v.toNat, some n, .manual⟩] }).setFld
          (Reg.OPT_LANE_MOVE.result f.toNat) 1)) ∧
    (∀ a b, v.getLsbD 5 = true →
      u.carrier (portOf f.toNat (BitVec.ofNat 4 v.toNat)) = some a →
      u.targetOf f.toNat ⟨BitVec.ofNat 4 v.toNat, some (BitVec.ofNat 4 v.toNat).toNat, .manual⟩ = some b →
      u.moving f.toNat (BitVec.ofNat 4 v.toNat) = false →
      exec (.optLaneRestore f v) s = .next ((u.setEngine f.toNat { u.engine f.toNat with
        waiting := (u.engine f.toNat).waiting ++ [⟨BitVec.ofNat 4 v.toNat, some (BitVec.ofNat 4 v.toNat).toNat, .manual⟩] }).setFld
          (Reg.OPT_LANE_MOVE.result f.toNat) 1)) ∧
    (v.getLsbD 5 = false → u.carrier (portOf f.toNat (BitVec.ofNat 4 v.toNat)) = none →
      exec (.optLaneMoveGo f v) s = .next (u.setFld (Reg.OPT_LANE_MOVE.result f.toNat) 3)))

/-! ### The transit plane -/

/-- R89 and Table 4-11: a word of a permutation that no calendar names is stored, and the permutation is no longer
committed; one that is named raises perm_busy and keeps its word; permutation 0 keeps its own. A commit of a good
permutation commits it, and of a bad one reports so. R57, R91 and R92: word 7 of a shadow entry stores it, or discards it
with its cause where it is shorter than 1,600 FT; a locked bank keeps its entries; the calendar is armed and cancelled by
its status register; at an entry boundary the entry in force is that of the time, and 128 FT later no transmitter waits.
-/
def Obligations.PermutationsAndCalendar : Prop :=
  (∀ (n : BitVec 12) (w : BitVec 3) (v : W32) (s : State),
    (s.writable (Reg.TRN_PERM.addr (8 * n.toNat + w.toNat)) v = true →
      isConfig (Reg.TRN_PERM.addr (8 * n.toNat + w.toNat)) = false →
      (n ≠ 0 → s.permUsed n.toNat = false →
        exec (.permWordWrite n w v) s =
          .next (({ s.storeFields (Reg.TRN_PERM.addr (8 * n.toNat + w.toNat)) v with
            trn.committed := s.trn.committed.del n.toNat } : State).reconfigured s)) ∧
      (n ≠ 0 → s.permUsed n.toNat = true → exec (.permWordWrite n w v) s = .next (s.raise Reg.TRN_INT_STATUS.perm_busy)) ∧
      (n = 0 → exec (.permWordWrite n w v) s = .next s)) ∧
    (v.getLsbD 12 = true → s.writable Reg.TRN_PERM_COMMIT.addr v = true → isConfig Reg.TRN_PERM_COMMIT.addr = false →
      ∀ u, u = s.storeFields Reg.TRN_PERM_COMMIT.addr v → v.toNat % 4096 ≠ 0 → u.permUsed (v.toNat % 4096) = false →
      (u.permOk (v.toNat % 4096) = true →
        exec (.permCommit v) s = .next ((({ u with trn.committed := u.trn.committed.put (v.toNat % 4096) true } : State).reconfigured u).setFld
          Reg.TRN_PERM_COMMIT.result 1)) ∧
      (u.permOk (v.toNat % 4096) = false → exec (.permCommit v) s = .next (u.setFld Reg.TRN_PERM_COMMIT.result 2)))) ∧
  (∀ (s : State),
    (∀ (e : BitVec 12) (v : W32), s.writable (Reg.TRN_CAL_SHADOW.addr (8 * e.toNat + 7)) v = true →
      isConfig (Reg.TRN_CAL_SHADOW.addr (8 * e.toNat + 7)) = false →
      (s.shadowLocked objCal = true →
        exec (.calShadowEntryStore e v) s = .next (s.regAccess (Reg.TRN_CAL_SHADOW.addr (8 * e.toNat + 7)))) ∧
      (s.shadowLocked objCal = false → ∀ u x, u = s.storeFields (Reg.TRN_CAL_SHADOW.addr (8 * e.toNat + 7)) v →
        x = (List.range 8).foldl (fun (n : BitVec 256) w =>
          n ||| (BitVec.setWidth 256 (u.reg (Reg.TRN_CAL_SHADOW.addr (8 * e.toNat + w))) <<< (32 * w))) 0 →
        (entryDur x < 1600 → exec (.calShadowEntryStore e v) s = .next (u.shadowErr e.toNat 1)) ∧
        (1600 ≤ entryDur x → (List.range 16).all (fun k => u.permCommitted (entryPerm x k)) = true →
          exec (.calShadowEntryStore e v) s = .next { u with calShadow.ent := u.calShadow.ent.put e.toNat x }))) ∧
    (∀ v : W32, s.writable Reg.TRN_CAL_ACT_STATUS.addr v = true → isConfig Reg.TRN_CAL_ACT_STATUS.addr = false →
      (v.getLsbD 6 = true → v.getLsbD 7 = false →
        exec (.trnCalArm v) s = .next (s.armSoft objCal (s.pair Reg.TRN_CAL_ACT_LO.value) s.calActive s.calShadow
          (s.fld Reg.TRN_CAL_LEN.shadow + 1)).1) ∧
      (v.getLsbD 6 = false → v.getLsbD 7 = true → exec (.trnCalCancel v) s = .next (s.cancelSoft objCal))) ∧
    (s.calActive.on = true → s.eph.state = .locked → s.trn.calRunning = false →
      exec .calEntryBoundary s = .next (({ s with trn.calRunning := true, trn.calEntry := s.calActive.entryAt s.ft } : State).returnPorts
        (s.calActive.startAt s.ft) (maskOf s.isDest) (maskOf s.isSource))) ∧
    (s.trn.boundaryAt + 128 ≤ s.ft → exec .transitElectricalResume s = .next { s with trn.quiet := 0 }))

/-- R97 and R98: an element counts its runs of low and of high leakage, locks after 100 of the first and is lost after 8
of the second; an element that stays unlocked fails its plane; a retry or a recal that finds its lock locks it, and a
recal that leaves all 144 locked ends the failure. R99 and R100: at t_from a notice suspends, or resumes, the fibres of
its mask, and a notice that has acted in full is done; where none is due nothing changes. R102 to R105: snap latches every
latch and darkens every transmitter, release clears the latches of engines out of calibration while the reserve holds; a
map takes effect when its write into the cells ends. -/
def Obligations.ElementsAndLatches : Prop :=
  (∀ (c : BitVec 5) (e : BitVec 8) (s : State), c.toNat < 18 → e.toNat < 144 →
    (∀ leakage bias : Int, s.bit Reg.TRN_CTL.elem_lock_en = true →
      exec (.elementBiasUpdate c e leakage bias) s = .next (s.setElem c.toNat e.toNat { s.elem c.toNat e.toNat with
        bias := bias
        lowRun := if leakage ≤ -2500 then min ((s.elem c.toNat e.toNat).lowRun + 1) 100 else 0
        highRun := if -1800 < leakage then min ((s.elem c.toNat e.toNat).highRun + 1) 8 else 0 })) ∧
    ((s.elem c.toNat e.toNat).locked = true → 8 ≤ (s.elem c.toNat e.toNat).highRun →
      exec (.elementLockLost c e) s = .next (s.setElem c.toNat e.toNat { s.elem c.toNat e.toNat with
        locked := false, unlockedAt := s.ft }).refreshTransit) ∧
    ((s.elem c.toNat e.toNat).locked = false → 100 ≤ (s.elem c.toNat e.toNat).lowRun →
      exec (.elementLocked c e) s =
        .next (s.setElem c.toNat e.toNat { s.elem c.toNat e.toNat with locked := true }).refreshTransit) ∧
    ((s.elem c.toNat e.toNat).locked = false → (s.plane c.toNat).failed = false → (s.plane c.toNat).state ≠ .idle →
      s.fld Reg.TRN_ELEM_CFG.elem_hold_limit ≠ 0 →
      (s.elem c.toNat e.toNat).unlockedAt + s.fld Reg.TRN_ELEM_CFG.elem_hold_limit * 1600000 ≤ s.ft → 16 ≤ c.toNat →
      exec (.planeFailed c e) s = .next ((s.setPlane c.toNat { s.plane c.toNat with failed := true }).raise
        Reg.TRN_INT_STATUS.plane_failed).refreshTransit) ∧
    ((s.plane c.toNat).failed = true → (s.elem c.toNat e.toNat).locked = false →
      exec (.elementLockRetry c e true) s = .next (s.setElem c.toNat e.toNat { s.elem c.toNat e.toNat with
        locked := true, lowRun := 100, highRun := 0 }).refreshTransit) ∧
    (∀ (v : W32) (found : BitVec 144), v.getLsbD 13 = true → v.toNat / 2 ^ 8 % 32 = c.toNat →
      s.writable Reg.TRN_CTL.addr v = true → isConfig Reg.TRN_CTL.addr = true → s.bit Reg.CFG_CTL.local_write_en = true →
      ∀ u, u = s.storeFields Reg.TRN_CTL.addr v → found = 0 → u.elemsLocked c.toNat = true →
      exec (.trnRecal v found) s = .next
        ((u.setPlane c.toNat { u.plane c.toNat with failed := false }).refreshTransit.noteConfig Reg.TRN_CTL.addr v))) ∧
  (∀ s : State,
    (∀ n, s.trn.notices = [n] → n.tFrom ≤ s.ft → s.trn.suspMask = [] →
      exec .transitSuspendTFrom s = .next (({ s with
        trn.suspMask := SMap.write 0 [] n.duty.toNat (0 ||| n.mask), trn.notices := [] } : State).returnPorts
          (s.calActive.startAt s.ft) (maskOf s.isDest) (maskOf s.isSource))) ∧
    (∀ n, s.trn.notices = [n] → n.tFrom ≤ s.ft → n.mask = 0 →
      exec .transitResumeTFrom s = .next (({ s with
        trn.suspMask := SMap.write 0 s.trn.suspMask n.duty.toNat 0, trn.notices := [] } : State).returnPorts
          (s.calActive.startAt s.ft) (maskOf s.isDest) (maskOf s.isSource))) ∧
    ((∀ n ∈ s.trn.notices, s.ft < n.tFrom) → exec .transitSuspendTFrom s = .next s ∧ exec .transitResumeTFrom s = .next s) ∧
    (∀ (v : W32) u, s.writable Reg.TRN_UMBRA_CTL.addr v = true → isConfig Reg.TRN_UMBRA_CTL.addr = true →
      s.bit Reg.CFG_CTL.local_write_en = true → u = s.storeFields Reg.TRN_UMBRA_CTL.addr v →
      (v.getLsbD 0 = true → v.getLsbD 1 = false →
        exec (.umbraSnap v) s = .next ((({ u.setReg Reg.TRN_UMBRA_STAT.addr 0xFFFFFFFF with
          trn.dark := true, trn.releasePending := false } : State)).noteConfig Reg.TRN_UMBRA_CTL.addr v)) ∧
      (v.getLsbD 0 = false → v.getLsbD 1 = true → u.mayRelease = true → (∀ f, f < 32 → (u.engine f).calState ≠ 1) →
        exec (.umbraRelease v) s = .next ((({ (List.range 32).foldl (fun s f => s.releaseLatch f) u with
          trn.dark := false, trn.releasePending := false } : State)).noteConfig Reg.TRN_UMBRA_CTL.addr v))) ∧
    (∀ m, s.trn.umbraWrite = some m →
      exec .umbraMapWriteDone s = .next (({ s with trn.umbraMap := m, trn.umbraWrite := none } : State).reconfigured s)))

/-! ### The link -/

/-- R114, R115 and R120: a good frame in sequence is taken: its lseq is the expected one, which advances, a retry is no
longer awaited, and its acknowledgement becomes due. One out of sequence asks for a retry of the expected lseq once, and a
port whose latch is latched takes nothing. -/
def Obligations.Sequence : Prop :=
  ∀ (s : State) (p : Port) (f : Frame), s.hears p = true →
    (s.link p).held = none → ((s.link p).state = .up ∨ f.ftype = ftLinkCtl ∨ f.ftype = ftTime) →
    (f.isSequenced = true → f.lseq = (s.link p).rxLseq → (s.link p).replay = [] → f.crValid = false →
      s.linkIn p f = (s.setLink p { s.link p with
        rxLseq := (s.link p).rxLseq + 1, ackVal := f.lseq, retryAt := none
        ackDue := match (s.link p).ackDue with
          | some t => some t
          | none => some s.ft }, true)) ∧
    (f.isSequenced = true → f.lseq ≠ (s.link p).rxLseq → ∀ t, (s.link p).retryAt = some t → s.linkIn p f = (s, false)) ∧
    (f.isSequenced = true → f.lseq ≠ (s.link p).rxLseq → (s.link p).retryAt = none →
      s.linkIn p f = (s.sendRetryReq p 4, false))

/-- Table 5-7: HELLO is recorded in LNK_PEER and counts in TRAINING; CREDIT gives the partner's limits; ACK acknowledges
by its header alone; RETRY_REQ replays from its lseq; another opcode is counted and raised as malformed. -/
def Obligations.LinkMessages : Prop :=
  ∀ (p : Port) (f : Frame) (s u : State), f.ftype = ftLinkCtl → s.received p f = some u →
    (f.opcode = opHello → ∀ v, v = ((u.setReg (Reg.LNK_PEER_ID.addr p.toNat) f.w4).setReg (Reg.LNK_PEER_PORT.addr p.toNat) f.w5).setFld
        (Reg.LNK_STATUS.peer_valid p.toNat) 1 →
      ((v.link p).state ≠ .training → exec (.hello p f) s = .next v) ∧
      ((v.link p).state = .training →
        exec (.hello p f) s = .next ((v.setLink p { v.link p with helloRx := true }).tryUp p))) ∧
    (f.opcode = opCredit → f.payload.length = 32 → ∀ v, v = creditVcs.foldl (fun s n =>
        s.takeLimit p (BitVec.ofNat 3 n) (BitVec.ofNat 24 (numAt f.payload (4 * n) 3))) u →
      (v.link p).state = .up → exec (.credit p f) s = .next v) ∧
    (f.opcode = opAck → exec (.ack p f) s = .next u) ∧
    (f.opcode = opRetryReq → exec (.retryReq p f) s = .next (u.replayFrom p (f.w4.setWidth 15))) ∧
    (linkOps.contains f.opcode = false → exec (.linkCtlBadOpcode p f) s =
      .next ((u.count (Reg.LNK_CNT_MALFORMED.value p.toNat)).raise (Reg.LNK_INT_STATUS.malformed p.toNat)))

/-- R113 to R116 and R121: what a port does by itself. HELLO and CREDIT at their intervals, the delayed ACK, RETRY_REQ
again when none answers it, replay of the oldest frame at ack_timeout, and DOWN with RETRY_EXHAUSTED after more than
retry_limit replays of one frame. R115, R117 and R118: a hop error of causes 1 to 4 asks for a retry unless one is
awaited, a header error counted first; the trailer of the frame last received that fails after dispatch takes the frame
back; a malformed frame ends at its port; a stomped one is counted; an uncorrectable codeword is counted and nothing else
changes. -/
def Obligations.LinkTimersAndErrors : Prop :=
  (∀ (p : Port) (s : State),
    ((s.link p).state ≠ .down → exec (.helloInterval p) s =
      .next (((s.setLink p { s.link p with helloTx := true }).sendVc0 p (s.helloFrame p)).tryUp p)) ∧
    ((s.link p).state ≠ .down → (s.link p).pub ≠ (s.link p).lim → exec (.creditPublish p) s =
      .next (((s.setLink p { s.link p with pub := (s.link p).lim, creditTx := true, creditAt := s.ft }).sendVc0 p
        ((s.setLink p { s.link p with pub := (s.link p).lim, creditTx := true, creditAt := s.ft }).linkCtl opCredit 0 0 0 0
          ((List.range 8).flatMap fun v => leBytes 4 ((s.link p).lim.read 0 v).toNat))).tryUp p)) ∧
    (∀ t, (s.link p).ackDue = some t → t + s.fld (Reg.LNK_RETRY_CFG.ack_delay p.toNat) * 128 ≤ s.ft →
      exec (.ackDelayExpiry p) s =
        .next ((s.setLink p { s.link p with ackDue := none }).sendVc0 p (s.linkCtl opAck 0 0 0 0))) ∧
    (∀ t, (s.link p).retryAt = some t → t + s.fld (Reg.LNK_RETRY_CFG.ack_timeout p.toNat) * 1600 ≤ s.ft →
      exec (.retryReqTimeout p) s = .next (s.sendRetryReq p 5)) ∧
    (∀ r rs, (s.link p).replay = r :: rs →
      (s.link p).ackAt + s.fld (Reg.LNK_RETRY_CFG.ack_timeout p.toNat) * 1600 ≤ s.ft →
      exec (.ackTimeout p) s = .next (s.replayFrom p r.frame.lseq)) ∧
    (∀ r, r ∈ (s.link p).replay → s.fld (Reg.LNK_RETRY_CFG.retry_limit p.toNat) < r.count →
      exec (.retryExhausted p) s = .next (s.linkDown p 2))) ∧
  (∀ (p : Port) (s : State),
    (∀ cause : BitVec 8, (s.link p).state ≠ .down → s.hears p = true → 2 ≤ cause.toNat → cause.toNat ≤ 4 →
      (s.link p).retryAt = none → exec (.hopError p cause) s = .next (s.sendRetryReq p cause.toNat)) ∧
    ((s.link p).state ≠ .down → s.hears p = true → (∃ t, (s.link p).retryAt = some t) →
      exec (.hopError p 1) s = .next (s.count (Reg.LNK_CNT_HDR_ERR.value p.toNat))) ∧
    (∀ k b f, s.bufs.get k = some b → s.bufFrame k b = some f → b.inPort = some p → f.isSequenced = true →
      (s.link p).rxLseq = f.lseq + 1 → exec (.trailerFailAfterDispatch p k) s = .next (s.trailerFail p k b f)) ∧
    (∀ (f : Frame) u, f.malformed = true → s.linkIn p f = (u, true) →
      (u.pmuRuns = false →
        exec (.malformedFrame p f) s = .next (((u.count (Reg.LNK_CNT_MALFORMED.value p.toNat)).raise
          (Reg.LNK_INT_STATUS.malformed p.toNat)).passCells p f.vc f.cells))) ∧
    (∀ (f : Frame) u, s.linkIn p f = (u, true) →
      exec (.stompedFrame p f) s = .next ((u.count (Reg.LNK_CNT_STOMP.value p.toNat)).passCells p f.vc f.cells)) ∧
    ((s.link p).state ≠ .down → s.rxExempt p = false →
      ∃ t, exec (.uncorrectableCodeword p) s = .next t ∧
        t.fld (Reg.LNK_CNT_FEC_UNCORR.value p.toNat) = min (s.fld (Reg.LNK_CNT_FEC_UNCORR.value p.toNat) + 1) (2 ^ 32 - 1) ∧
        (∀ o, o ≠ (Reg.LNK_CNT_FEC_UNCORR.value p.toNat).off → t.reg o = s.reg o) ∧ t = { s with regs := t.regs }))

/-- R113, R126 and R129: an aligned port trains when R113 lets it; training that lasts train_timeout fails with cause 1
and starts again 1 ms later; lost alignment, a cleared port_en and a port reset take it DOWN with causes 3 and 5. -/
def Obligations.PortStates : Prop :=
  ∀ (p : Port) (s : State),
    ((s.link p).state = .down → (s.link p).failAt = none →
      (s.setLink p { s.link p with aligned := true }).canTrain p = true →
      exec (.trainingStart p) s = .next ((s.setLink p { s.link p with aligned := true }).startTraining p)) ∧
    ((s.link p).state = .training → (s.link p).trainAt + s.fld (Reg.LNK_CTL.train_timeout p.toNat) * 1600000 ≤ s.ft →
      exec (.trainTimeout p) s = .next (s.linkDown p 1)) ∧
    (∀ t, (s.link p).state = .down → (s.link p).failAt = some t → (s.link p).aligned = true → t + 16000000 ≤ s.ft →
      (s.setLink p { s.link p with failAt := none }).canTrain p = true →
      exec (.trainRetry p) s = .next ((s.setLink p { s.link p with failAt := none }).startTraining p)) ∧
    (s.rxExempt p = false → (s.link p).held = none → exec (.alignLost p) s = .next (s.linkDown p 3)) ∧
    (∀ v : W32, s.writable (Reg.LNK_CTL.addr p.toNat) v = true → isConfig (Reg.LNK_CTL.addr p.toNat) = true →
      s.bit Reg.CFG_CTL.local_write_en = true → ∀ u, u = s.storeFields (Reg.LNK_CTL.addr p.toNat) v →
      (v.getLsbD 0 = false → v.getLsbD 1 = false →
        exec (.portEnClear p v) s = .next ((u.linkDown p 5).noteConfig (Reg.LNK_CTL.addr p.toNat) v)) ∧
      (v.getLsbD 0 = true → v.getLsbD 1 = true → ∀ x y, x = u.linkDown p 5 →
        y = x.setLink p { x.link p with cause := 5, failAt := none, deficit := [] } →
        exec (.portReset p v) s = .next ((((y.setTime p { y.time p with valid := false, loss := 0 }).refreshParent).refreshTransit).noteConfig
          (Reg.LNK_CTL.addr p.toNat) v)))

/-- R122 and R128: a new fence state is stored and raised, and one that leaves OPEN loses the port for collectives; a
grant at or above its VC's minimum that the die's buffers cover is stored; a smaller one is discarded with a register-
access event. -/
def Obligations.FencesAndGrants : Prop :=
  ∀ (p : Port) (v : W32) (s : State), s.bit Reg.CFG_CTL.local_write_en = true →
    (s.writable (Reg.LNK_FENCE.addr p.toNat) v = true → isConfig (Reg.LNK_FENCE.addr p.toNat) = true → v.toNat % 4 ≠ 3 →
      v.toNat % 4 ≠ s.fence p → ∀ u, u = (s.setFld (Reg.LNK_FENCE.state p.toNat) (v.toNat % 4)).raise
        (Reg.LNK_INT_STATUS.fence_change p.toNat) →
      exec (.lnkFenceWrite p v) s = .next (((if s.fence p = 0 then u.collPortLost p true else u).refreshParent.refreshTransit).noteConfig
        (Reg.LNK_FENCE.addr p.toNat) v)) ∧
    (∀ vc : BitVec 3, s.writable (Reg.LNK_CREDIT_GRANT.addr p.toNat vc.toNat) v = true →
      isConfig (Reg.LNK_CREDIT_GRANT.addr p.toNat vc.toNat) = true →
      (s.grantOk p vc.toNat (v.toNat % 2 ^ 24) = true →
        exec (.lnkCreditGrantWrite p vc v) s = .next ((s.storeFields (Reg.LNK_CREDIT_GRANT.addr p.toNat vc.toNat) v).noteConfig
          (Reg.LNK_CREDIT_GRANT.addr p.toNat vc.toNat) v)) ∧
      (v.toNat % 2 ^ 24 < grantMin vc.toNat →
        exec (.lnkCreditGrantWrite p vc v) s = .next (s.regAccess (Reg.LNK_CREDIT_GRANT.addr p.toNat vc.toNat))))

/-! ### Forwarding -/

/-- R135 and R136: an ANNOUNCE for this spine whose payload names its sender and its leaf is counted and applied, another
is rejected. An applied one of a node that is not there inserts it; an older incarnation is counted and discarded; a newer
one replaces the location and ends a freeze; one of the same incarnation and port refreshes; from another port it freezes
the entry. -/
def Obligations.Announcements : Prop :=
  (∀ (p : Port) (f : Frame) (s u : State) (k : Nat), f.ftype = ftMgmt → f.opcode = opAnnounce → f.dclass = true →
    s.parked p f (BitVec.ofInt 80 s.ft16) = some (u, k) → u.mine f = true → ∀ v, v = u.freeBuf k →
    v.bit Reg.FWD_CTL.learn_en = true →
    (numAt f.payload 0 4 % 2 ^ 17 = f.snode.toNat → numAt f.payload 8 2 % 512 = v.leafOn p →
      exec (.announce p f) s = .next ((v.count Reg.FWD_CNT_ANN_ACCEPT.value).announceNode f.snode.toNat
        (BitVec.ofNat 16 (numAt f.payload 4 2)) p (decide (numAt f.payload 6 1 % 2 = 1)) (numAt f.payload 10 1))) ∧
    ((numAt f.payload 0 4 % 2 ^ 17 ≠ f.snode.toNat ∨ numAt f.payload 8 2 % 512 ≠ v.leafOn p) →
      exec (.announce p f) s = .next ((v.count Reg.FWD_CNT_ANN_REJECT.value).raise Reg.FWD_INT_STATUS.ann_reject))) ∧
  ∀ (s : State) (n down : Nat) (inc : BitVec 16) (p : Port) (w : Bool),
    (s.fwd.catalogue.get n = none → w = false →
      s.announceNode n inc p w down = (s.catInsert n { port := p, incarnation := inc, hit := true }).1) ∧
    ∀ e, s.fwd.catalogue.get n = some e →
      (32768 ≤ (inc - e.incarnation).toNat → s.announceNode n inc p w down = s.count Reg.FWD_CNT_ANN_STALE.value) ∧
      (inc ≠ e.incarnation → (inc - e.incarnation).toNat < 32768 → s.announceNode n inc p w down = s.putEntry n { e with
        port := if w then s.cable (n / 256) else p, incarnation := inc, frozen := false, hit := true, miss := false }) ∧
      (inc = e.incarnation → e.port = (if w then s.cable (n / 256) else p) →
        s.announceNode n inc p w down = s.putEntry n { e with hit := true, miss := false }) ∧
      (inc = e.incarnation → w = false → e.port ≠ p →
        ((s.announceNode n inc p w down).fwd.catalogue.get n = some { e with frozen := true }) ∧
        (s.announceNode n inc p w down).bit Reg.FWD_INT_STATUS.conflict = true)

/-- R138 to R141: a sweep keeps the frozen entries, takes a hit as new time, marks a first miss and removes an entry at
its second; a rehash starts with the seed and ends with the catalogue rebuilt, or with result 3; FWD_CAT_CMD reads,
installs, removes and unfreezes the entry of one node. R144, R145 and R147: a query of the index answers the entry that
serves an address, or none; a commit of a free tree replaces the whole tree by the stage, one of a bound tree is refused,
and a load copies a tree's words to the stage. -/
def Obligations.CatalogueIndexAndTrees : Prop :=
  (∀ s : State,
    (∀ kept : SMap CatEntry, s.bit Reg.FWD_CTL.age_en = true →
      kept = s.fwd.catalogue.filterMap (fun e => if e.2.frozen then some e
        else if e.2.hit then some (e.1, { e.2 with hit := false, miss := false })
        else if e.2.miss then none else some (e.1, { e.2 with miss := true })) →
      exec .catalogueSweep s = .next (({ s with fwd.catalogue := kept } : State).count Reg.FWD_CNT_AGED.value
        (s.fwd.catalogue.length - kept.length))) ∧
    (∀ v : W32, v.getLsbD 0 = true → s.writable Reg.FWD_CAT_REHASH.addr v = true → isConfig Reg.FWD_CAT_REHASH.addr = false →
      s.fwd.rehash = none → exec (.catRehashGo v) s =
        .next { s with fwd.rehash := some (BitVec.ofNat 17 (s.fld Reg.FWD_CAT_SEED.seed)) }) ∧
    (∀ seed c, s.fwd.rehash = some seed → c = rebuild seed.toNat [] s.fwd.catalogue →
      ((1024 < overflowCount c ∨ 32768 < s.trieCount + overflowCount c) → exec .catRehashDone s =
        .next ((({ s with fwd.rehash := none } : State).setFld Reg.FWD_CAT_REHASH.result 3).raise
          Reg.FWD_INT_STATUS.rehash_done)) ∧
      (overflowCount c ≤ 1024 → s.trieCount + overflowCount c ≤ 32768 →
        ∃ t, exec .catRehashDone s = .next t ∧ t.fwd.catalogue = c ∧ t.fwd.rehash = none ∧
          t.fld Reg.FWD_CAT_ACTIVE_SEED.seed = seed.toNat ∧ t.bit Reg.FWD_INT_STATUS.rehash_done = true)) ∧
    (∀ (v : W32) (u : State) (n : Nat), v.getLsbD 19 = true → s.writable Reg.FWD_CAT_CMD.addr v = true →
      isConfig Reg.FWD_CAT_CMD.addr = false → u = s.storeFields Reg.FWD_CAT_CMD.addr v → n = v.toNat % 2 ^ 17 →
      ∀ e, u.fwd.catalogue.get n = some e →
      (v.toNat / 2 ^ 17 % 4 = 0 → ∃ t, exec (.catQuery v) s = .next t ∧ t.fld Reg.FWD_CAT_CMD.status = 1 ∧
        t.fwd = u.fwd ∧ t.reg Reg.FWD_CAT_RESULT.addr = BitVec.ofNat 32 (e.port.toNat + 2 ^ 9 + e.frozen.toNat * 2 ^ 10 +
          e.hit.toNat * 2 ^ 11 + e.miss.toNat * 2 ^ 12 + e.overflow.toNat * 2 ^ 13 + e.incarnation.toNat * 2 ^ 16)) ∧
      (v.toNat / 2 ^ 17 % 4 = 1 → exec (.catInstall v) s = .next ((u.putEntry n { e with
        port := BitVec.ofNat 9 (u.fld Reg.FWD_CAT_ARG.port), incarnation := BitVec.ofNat 16 (u.fld Reg.FWD_CAT_ARG.incarnation)
        frozen := false, hit := true }).setFld Reg.FWD_CAT_CMD.status 1)) ∧
      (v.toNat / 2 ^ 17 % 4 = 2 → exec (.catRemove v) s =
        .next (({ u with fwd.catalogue := u.fwd.catalogue.del n } : State).setFld Reg.FWD_CAT_CMD.status 1)) ∧
      (v.toNat / 2 ^ 17 % 4 = 3 → exec (.catUnfreeze v) s =
        .next ((u.putEntry n { e with frozen := false }).setFld Reg.FWD_CAT_CMD.status 1)))) ∧
  (∀ (s u : State) (v : W32),
    (v.getLsbD 12 = true → s.writable Reg.FWD_IDX_QUERY_CTL.addr v = true → isConfig Reg.FWD_IDX_QUERY_CTL.addr = false →
      u = (s.storeFields Reg.FWD_IDX_QUERY_CTL.addr v).setFld Reg.FWD_IDX_QUERY_CTL.done 1 →
      ∀ a, a = BitVec.ofNat 64 (u.pair Reg.FWD_IDX_QUERY_LO.value) →
      (u.idxLookup a (BitVec.ofNat 12 v.toNat) = none → exec (.idxQueryGo v) s =
        .next ((u.setReg Reg.FWD_IDX_QUERY_RESULT.addr 0).setPair Reg.FWD_IDX_QUERY_OUT_LO.value 0)) ∧
      (∀ e, u.idxLookup a (BitVec.ofNat 12 v.toNat) = some e → e.kind = kindNode → exec (.idxQueryGo v) s =
        .next ((u.setReg Reg.FWD_IDX_QUERY_RESULT.addr (BitVec.ofNat 32 (e.len.toNat + e.kind.toNat * 2 ^ 7 + 2 ^ 9 +
          (if e.inTrie then 2 ^ 10 else 0)))).setPair Reg.FWD_IDX_QUERY_OUT_LO.value (e.coord a).toNat))) ∧
    (s.writable Reg.FWD_MC_COMMIT.addr v = true → isConfig Reg.FWD_MC_COMMIT.addr = false → v.toNat % 2 ^ 16 ≠ 0xFFFF →
      u = s.storeFields Reg.FWD_MC_COMMIT.addr v →
      (v.getLsbD 16 = true → (u.reg (Reg.FWD_MC_STAGE.addr 0)).getLsbD 1 = false → (u.tree (v.toNat % 2 ^ 16)).bound = false →
        exec (.mcCommit v) s = .next (((u.setTree (v.toNat % 2 ^ 16)
          (treeOf fun i => u.reg (Reg.FWD_MC_STAGE.addr i))).reconfigured u).setFld Reg.FWD_MC_COMMIT.result 1)) ∧
      (v.getLsbD 16 = true → (u.tree (v.toNat % 2 ^ 16)).bound = true →
        exec (.mcCommit v) s = .next ((u.setFld Reg.FWD_MC_COMMIT.result 3).raise Reg.FWD_INT_STATUS.mc_refused)) ∧
      (v.getLsbD 16 = false → v.getLsbD 17 = true → exec (.mcLoad v) s =
        .next (((List.range 84).foldl (fun t i => t.setReg (Reg.FWD_MC_STAGE.addr i) ((u.tree (v.toNat % 2 ^ 16)).word i)) u).setFld
          Reg.FWD_MC_COMMIT.result 1))))

/-- Table 6-1, R131, R187, R189 and R190: BULK, BEST_EFFORT and MGMT frames are routed by their coordinates, BULK after
its partition's meter and BEST_EFFORT after the policer of its port; those that name this spine are discarded and counted,
as is every RESULT or MCAST received; a frame for another spine has no path. -/
def Obligations.RoutedFrames : Prop :=
  ∀ (p : Port) (f : Frame) (x : Stamp) (s u : State) (k : Nat), s.parked p f x = some (u, k) →
    (f.dclass = false →
      (f.ftype = ftBulk → u.holdOf (dieOf p) = [] → ∀ v, u.meter f = (v, .pass) →
        exec (.bulk p f x) s = .next (v.forwardBuf k p f)) ∧
      (f.ftype = ftBulk → u.holdOf (dieOf p) = [] → ∀ v, u.meter f = (v, .drop) →
        exec (.bulk p f x) s = .next ((v.freeBuf k).count (Reg.SCH_CNT_OOC_DROP.value p.toNat))) ∧
      (f.ftype = ftBestEffort → u.bit Reg.SCH_CTL.vc7_police_en = true → 256 * f.cells ≤ u.vc7Tokens p.toNat →
        exec (.bestEffort p f x) s = .next (({ u with
          sch.vc7Tok := u.sch.vc7Tok.put p.toNat (u.vc7Tokens p.toNat - 256 * f.cells) } : State).forwardBuf k p f)) ∧
      (f.ftype = ftBestEffort → u.bit Reg.SCH_CTL.vc7_police_en = true → u.vc7Tokens p.toNat < 256 * f.cells →
        exec (.bestEffort p f x) s = .next ((u.freeBuf k).count (Reg.SCH_CNT_VC7_DROP.value p.toNat))) ∧
      (f.ftype = ftMgmt → exec (.mgmtForward p f x) s = .next (u.forwardBuf k p f)) ∧
      ((f.ftype = ftResult ∨ f.ftype = ftMcast) → x = BitVec.ofInt 80 s.ft16 →
        exec (.resultFromLeaf p f) s = .next ((u.freeBuf k).count Reg.FWD_CNT_DIR_DROP.value))) ∧
    (f.dclass = true → u.mine f = true → (f.ftype = ftBulk → exec (.bulk p f x) s =
        .next ((u.freeBuf k).count Reg.FWD_CNT_DIR_DROP.value)) ∧
      (f.ftype = ftBestEffort → exec (.bestEffort p f x) s = .next ((u.freeBuf k).count Reg.FWD_CNT_DIR_DROP.value))) ∧
    (f.dclass = true → u.mine f = false → f.ftype = ftBulk →
      exec (.bulk p f x) s = .next ((u.freeBuf k).count Reg.FWD_CNT_NO_PATH.value))

/-! ### The switch core -/

/-- R158 to R164, R170 and R171: a good cell that a destination still lacks is taken in its flow's order; a failed one is
pulled again while its limit allows; at the limit the frame is a data error; a begun frame that lacks a cell ends stomped
and is queued again; and a cell for a buffer or a port that does not own it is a rejected free. R168, R169 and R172 to
R175: withholding is evaluated for a die; the auditor reclaims a buffer found unreferenced twice; landed cells move to the
stack after the spill delay; a millisecond of heavy spill is raised; a mirror ring that lies in no allowed memory is
refused; waiting originated frames take the buffers there are. Which free buffer a frame takes: log 14. -/
def Obligations.CellsAndBuffers : Prop :=
  (∀ (k : Nat) (p : Port) (i : BitVec 8) (s : State),
    (∀ c, s.bufs.get k = none → s.bufExists k = true → (s.core (bufDie k)).reclaimed.contains k = false →
      exec (.cellArrival k p i c) s = .next (s.rejectFree k 0)) ∧
    (∀ c b, s.bufs.get k = some b → (∀ d ∈ b.dests, d.port ≠ p) → exec (.cellArrival k p i c) s = .next (s.rejectFree k 1)) ∧
    (∀ cause, (s.rejectFree k cause).bit Reg.CORE_INT_STATUS.double_free = true ∧
      (s.rejectFree k cause).alm.seq = s.alm.seq + 1 ∧ (s.rejectFree k cause).bufs = s.bufs) ∧
    ∀ b d, s.destOf k p = some (b, d) →
      (i.toNat < b.cells → d.got.contains i.toNat = false →
        exec (.cellArrival k p i .good) s = .next (((s.setDest k p { d with got := d.got ++ [i.toNat] }).takeCells (flowSrc k b) p
          d.frame.vc [d.rseq + BitVec.ofNat 24 i.toNat]).settleDest k p)) ∧
      (i.toNat < b.cells → d.got.contains i.toNat = false →
        d.retries.read 0 i.toNat < s.fld Reg.CORE_RESEQ_CFG.cell_retry_limit → s.pmuRuns = false →
        (s.flows.read { } (flowKey (flowSrc k b) p d.frame.vc)).ahead.isEmpty = false →
        exec (.reseqTimeout k p i) s = .next ((s.setDest k p { d with
          retries := d.retries.write 0 i.toNat (d.retries.read 0 i.toNat + 1) }).count (Reg.CORE_CNT_REPULL.value (dieOf p)))) ∧
      (i.toNat < b.cells → d.got.contains i.toNat = false →
        s.fld Reg.CORE_RESEQ_CFG.cell_retry_limit ≤ d.retries.read 0 i.toNat →
        exec (.cellRetryExhausted k p i) s = .next (s.loseDest .dataError k p)) ∧
      (d.begun = true → d.got.length < b.cells →
        ∀ u q, u = (s.stompBegun p d.frame).setDest k p { d with begun := false, ready := true } →
        q = p.toNat * 8 + d.frame.vc.toNat →
        exec (.egressUnderrun k p) s = .next (({ u with queues := u.queues.write [] q (k :: u.queues.read [] q) } : State).count
          (Reg.CORE_CNT_UNDERRUN.value (dieOf p))))) ∧
  (∀ s : State,
    (∀ d : BitVec 2, ∃ t, exec (.withholdEvaluate d) s = .next t ∧
      (t.core d.toNat).withheld = (if s.bit Reg.CORE_CTL.withhold_en then
        s.withheldSet (s.dieOcc d.toNat) (s.core d.toNat).withheld else []) ∧
      (t.core d.toNat).warned = decide (750 ≤ s.dieOcc d.toNat) ∧ t.bufs = s.bufs ∧ t.fwd = s.fwd ∧
      ∀ p, dieOf p ≠ d.toNat → t.link p = s.link p) ∧
    (∀ (d : BitVec 2) pool index k b, s.bit Reg.CORE_CTL.audit_en = true → k = bufKey d.toNat pool.toNat index.toNat →
      s.bufs = [(k, b)] → s.referenced k b = false →
      (b.unref = none → exec (.bufferAudit d [.unreferenced pool index]) s =
        .next { s with bufs := [(k, { b with unref := some s.ft })] }) ∧
      (∀ t, b.unref = some t → ∀ u, u = (s.freeBuf k).count (Reg.CORE_CNT_LEAK.value d.toNat) →
        exec (.bufferAudit d [.unreferenced pool index]) s = .next (((u.setCore d.toNat { u.core d.toNat with
          reclaimed := (u.core d.toNat).reclaimed ++ [k] }).log 0x08 .bufferReclaimed d.toNat
            [pool.toNat, index.toNat, t, u.ft]).raise Reg.CORE_INT_STATUS.leak))) ∧
    (∀ k b, s.bufs.get k = some b → 0 < b.landed → b.landedAt + s.fld Reg.CORE_SPILL_CFG.spill_delay * 160 ≤ s.ft →
      exec (.spillDelayExpiry k) s = .next (({ s with
        bufs := s.bufs.put k { b with landed := 0, spilled := b.spilled + b.landed } } : State).countSpill (bufDie k) b.landed)) ∧
    (∀ d : BitVec 2, ∀ u, u = s.setCore d.toNat { s.core d.toNat with spillMs := 0 } →
      exec (.spillRateCheck d) s =
        .next (if s.fld Reg.CORE_SPILL_CFG.spill_warn * 100000000 < (s.core d.toNat).spillMs * 256 then
          u.raise Reg.CORE_INT_STATUS.spill_heavy else u)) ∧
    (∀ (n : BitVec 2) (v : W32) u, v.getLsbD 0 = true → s.writable (Reg.CORE_MIR_CTL.addr n.toNat) v = true →
      isConfig (Reg.CORE_MIR_CTL.addr n.toNat) = true → s.bit Reg.CFG_CTL.local_write_en = true →
      u = s.storeFields (Reg.CORE_MIR_CTL.addr n.toNat) v →
      (u.ringFits (u.pair (Reg.CORE_MIR_BASE_LO.value n.toNat)) = true →
        exec (.mirrorEnable n v) s = .next ((u.setFld (Reg.CORE_MIR_CTL.refused n.toNat) 0).noteConfig
          (Reg.CORE_MIR_CTL.addr n.toNat) v)) ∧
      (u.ringFits (u.pair (Reg.CORE_MIR_BASE_LO.value n.toNat)) = false →
        exec (.mirrorEnable n v) s = .next ((((u.setFld (Reg.CORE_MIR_CTL.enable n.toNat) 0).setFld
          (Reg.CORE_MIR_CTL.refused n.toNat) 1).raise Reg.CORE_INT_STATUS.mirror_refused).noteConfig
          (Reg.CORE_MIR_CTL.addr n.toNat) v))) ∧
    (∀ (w : OriginWait) q f cs t, s.originWait = [w] → w.copies = (q, f) :: cs →
      s.place w.die.toNat none f.vc 0 f.cells w.owner w.copies = some t →
      exec .originBufferAvailable s = .next { t with originWait := [] }))

/-- R178 and R179: a free transmitter of a port that may send replays first what waits to be replayed, then sends the VC0
frame that waits, and in UP serves VC1 to VC7 by their deficits; a VC with credit and a positive deficit is chosen and
pays for its frame. -/
def Obligations.Arbiter : Prop :=
  (∀ (p : Port) (t : Stamp) (s : State),
    (s.canSend p = false → exec (.egressArbitrate p t) s = .next s) ∧
    (∀ n, s.canSend p = true → (s.link p).replayDue = some n → exec (.egressArbitrate p t) s = .next (s.replayFrom p n)) ∧
    (∀ x xs, s.canSend p = true → (s.link p).replayDue = none → (s.link p).vc0 = x :: xs → fenceStops (s.fence p) x.frame = false →
      s.windowOpen p x.frame = true → exec (.egressArbitrate p t) s = .next (s.sendTx p x xs t)) ∧
    (s.canSend p = true → (s.link p).replayDue = none → (s.link p).vc0 = [] → (s.link p).state = .up →
      exec (.egressArbitrate p t) s = .next (s.serveVcs p t))) ∧
  ∀ (elig empty : Nat → Bool) (cost w : Nat → Nat) (q n : Nat) (d : SMap Int) (v : Nat),
    (elig v = true → 0 < d.read 0 v → ∃ d', arbitrate elig empty cost w q (n + 1) d v = (d', v, some v) ∧
      d'.read 0 v = d.read 0 v - cost v ∧ ∀ x, x ≠ v → d'.read 0 x = d.read 0 x) ∧
    (elig v = true → d.read 0 v ≤ 0 → ∃ d', arbitrate elig empty cost w q (n + 1) d v = arbitrate elig empty cost w q n d' (nextVc v) ∧
      d'.read 0 v = d.read 0 v + ((w v * q : Nat) : Int) ∧ ∀ x, x ≠ v → d'.read 0 x = d.read 0 x)

/-- R57, R180, R182, R184 and R185: weights and meter words that may be written wait for the next refill tick, others are
refused; word 1 of a gate entry stores it, or discards it with gate_shadow_err where it is shorter than 512 FT; a gate
list is armed and cancelled by its status register; the gate state is that of the entry in force; a head frame that its
gate starves is raised once. -/
def Obligations.GatesAndMeters : Prop :=
  ∀ s : State,
    (∀ (b : Bool) (v : W32) (off : Nat), off = (if b then Reg.SCH_VC_WEIGHT_B.addr else Reg.SCH_VC_WEIGHT_A.addr) →
      (s.answers off = true → weightOk b v = false → exec (.vcWeightWrite b v) s = .next s.meterRefuse) ∧
      (s.writable off v = true → weightOk b v = true → isConfig off = true → s.bit Reg.CFG_CTL.local_write_en = true →
        exec (.vcWeightWrite b v) s = .next ((s.schWrite off v).noteConfig off v))) ∧
    (∀ (off : BitVec 29) (v : W32), isMeterReg off.toNat = true → off.toNat % 4 = 0 →
      (s.answers off.toNat = true → s.meterOk off.toNat v = false → exec (.meterConfigWrite off v) s = .next s.meterRefuse) ∧
      (s.writable off.toNat v = true → s.meterOk off.toNat v = true → isConfig off.toNat = true →
        s.bit Reg.CFG_CTL.local_write_en = true →
        exec (.meterConfigWrite off v) s = .next ((s.schWrite off.toNat v).noteConfig off.toNat v))) ∧
    exec .meterRefillTick s = .next (s.refillTick State.meterGo) ∧
    (∀ (p : Port) (e : BitVec 8) (v : W32) off u, off = Reg.SCH_GATE_SHADOW.addr p.toNat (2 * e.toNat + 1) →
      s.writable off v = true → isConfig off = false →
      (s.shadowLocked (objGate p.toNat) = true → exec (.gateShadowEntryStore p e v) s = .next (s.regAccess off)) ∧
      (s.shadowLocked (objGate p.toNat) = false → u = s.storeFields off v →
        ∀ d, d = (u.reg (Reg.SCH_GATE_SHADOW.addr p.toNat (2 * e.toNat))).toNat →
        ∀ b x y, b = u.gateShadow.read { } p.toNat →
        x = { b with ent := b.ent.put e.toNat (BitVec.ofNat 256 (d + v.toNat % 2 ^ 8 * 2 ^ 32)) } →
        y = { b with ent := b.ent.del e.toNat } →
        (512 ≤ d → exec (.gateShadowEntryStore p e v) s =
          .next { u with gateShadow := u.gateShadow.write { } p.toNat x }) ∧
        (d < 512 → exec (.gateShadowEntryStore p e v) s = .next ((({ u with
          gateShadow := u.gateShadow.write { } p.toNat y } : State).setFld (Reg.SCH_GATE_ACT_STATUS.err_entry p.toNat) e.toNat).raise
            Reg.SCH_INT_STATUS.gate_shadow_err)))) ∧
    (∀ (p : Port) (v : W32), s.writable (Reg.SCH_GATE_ACT_STATUS.addr p.toNat) v = true →
      isConfig (Reg.SCH_GATE_ACT_STATUS.addr p.toNat) = false →
      (∀ u, v.getLsbD 6 = true → v.getLsbD 7 = false → s.armSoft (objGate p.toNat) (s.pair (Reg.SCH_GATE_ACT_LO.value p.toNat))
          (s.gateActive.read { } p.toNat) (s.gateShadow.read { } p.toNat) (s.fld (Reg.SCH_GATE_LEN.shadow p.toNat) + 1) = (u, true) →
        exec (.schGateArm p v) s = .next u) ∧
      (v.getLsbD 6 = false → v.getLsbD 7 = true →
        exec (.schGateCancel p v) s = .next (s.cancelSoft (objGate p.toNat)))) ∧
    (∀ p : Port, exec (.gateEntryBoundary p) s = .next (s.setReg (Reg.SCH_GATE_STATE.addr p.toNat) (s.gateState p))) ∧
    (∀ (p : Port) (vc : BitVec 3) (x : BitVec 64) k f, s.headFrame p vc.toNat = some (k, f) → vc ≠ 0 →
      s.fld Reg.SCH_ARB_CFG.starve_limit ≠ 0 → s.fld Reg.SCH_ARB_CFG.starve_limit * 1600000 < x.toNat →
      s.sch.starved.get (p.toNat * 8 + vc.toNat) ≠ some k →
      exec (.gateStarve p vc x) s = .next (((({ s with
        sch.starved := s.sch.starved.put (p.toNat * 8 + vc.toNat) k } : State).setFld Reg.SCH_STARVE.port p.toNat).setFld
          Reg.SCH_STARVE.vc vc.toNat).raise Reg.SCH_INT_STATUS.gate_starve))

/-! ### Collectives -/

/-- R220 to R223 and R351: a GROUP_REC of the manager is queued, one of another node answered NOT_MANAGER; the queue
admits a group whose record passes every check, binding its tree, or refuses it with the check's cause; a teardown of the
right generation drains its slot; a drained slot is freed. -/
def Obligations.GroupRecords : Prop :=
  ∀ s : State,
    (∀ (p : Port) (f : Frame) u k, f.ftype = ftMgmt → f.opcode = mgGroupRec → f.dclass = true → s.parked p f 0 = some (u, k) →
      u.mine f = true → ∀ v, v = u.freeBuf k →
      (v.isManager f.snode f.swSrc = true → v.cnj.cfgq.length < 256 → exec (.groupRec p f true) s =
        .next { v with cnj.cfgq := v.cnj.cfgq ++
          [⟨decide (f.payload.length = 8), f.payload, some (.mgmt p f.snode f.swSrc (mgTag f))⟩] }) ∧
      (v.isManager f.snode f.swSrc = false → exec (.groupRec p f true) s = .next (v.cfgReply p f 11)) ∧
      exec (.groupRec p f false) s =
        .next ((v.count (Reg.CORE_CNT_DATA_ERROR.value (dieOf p))).raise Reg.CORE_INT_STATUS.data_error)) ∧
    (∀ r rest v, s.bit Reg.CNJ_CTL.admit_en = true → s.cfgqDue = true → takeRecord true s.cnj.cfgq = none →
      takeRecord false s.cnj.cfgq = some (r, rest) → v = { s with cnj.cfgq := rest, cnj.cfgqAt := some s.ft } →
      (∀ g x y, v.admitTrouble r.bytes = none → g = numAt r.bytes 0 2 → x = groupOf r.bytes →
        y = { valid := true, bound := true, partition := x.partition, group := BitVec.ofNat 14 g, mask := x.mask, flags := allReport } →
        exec .cfgqAdmission s = .next ((((v.setTree x.tree.toNat y).setGroup g x).count Reg.CNJ_CNT_ADMIT.value).replyGroup
          r.replyTo r.bytes 0 0)) ∧
      (∀ st cause, v.admitTrouble r.bytes = some (st, cause) → exec .cfgqAdmission s =
        .next (((v.count Reg.CNJ_CNT_ADMIT_REFUSED.value).raise Reg.CNJ_INT_STATUS.admit_refused).replyGroup r.replyTo r.bytes st cause))) ∧
    (∀ r rest v g, s.cfgqDue = true → takeRecord true s.cnj.cfgq = some (r, rest) →
      v = { s with cnj.cfgq := rest, cnj.cfgqAt := some s.ft } → g = numAt r.bytes 0 2 % 2 ^ 14 →
      numAt r.bytes 2 1 = (v.group g).gen.toNat → (v.group g).state ≠ .free → numAt r.bytes 3 1 / 4 % 2 = 0 →
      exec .cfgqTeardown s = .next ((v.setGroup g { v.group g with
        state := .draining, replyTo := (v.group g).replyTo ++ r.replyTo.toList }).drainWaiting g)) ∧
    (∀ g : BitVec 14, s.drained g.toNat = true → (s.group g.toNat).replyTo = [] → exec (.groupDrained g) s =
      .next ((((s.setTree (s.group g.toNat).tree.toNat { }).setGroup g.toNat { gen := (s.group g.toNat).gen }).count
        Reg.CNJ_CNT_TEARDOWN.value).raise Reg.CNJ_INT_STATUS.drained))

/-- R226 to R234, R240, R241 and Table 10-5: the first BEGIN of next_cseq opens the collective; lines of a segment are
taken and its FINAL step tried; exponents are taken in EXPONENT; an ALL_GATHER relays and an ALL_TO_ALL delivers;
ABORT_REQ aborts with its own code. -/
def Obligations.CollectiveFrames : Prop :=
  ∀ (p : Port) (f : Frame) (s u : State) (g : Nat), s.collAt u p f → g = f.group.toNat →
    (isBegin f = true → (u.group g).opened.contains f.cseq = false → f.cseq = (u.group g).nextCseq →
      (u.group g).state = .admitted → u.coll g f.cseq = none → (u.group g).opened.length < (u.group g).cDepth →
      (u.group g).membersOk p f.members.toNat = true → f.sideband = false → u.openTrouble g f = none →
      descPath f.payload = 0 → descKind f.payload ≠ kindA2a →
      ∀ c : Coll, c = { gen := (u.group g).gen, desc := f.payload, sig := f.w7, begins := [(p, f.w7, f.members.toNat)],
                        excluded := portsMask ((maskPorts (u.group g).mask).filter fun q => u.fence q ≠ 0 || !u.isUp q),
                        timerFrom := u.ft } →
      ∀ v, v = (u.setColl g f.cseq c).setGroup g { u.group g with
        nextCseq := f.cseq + 1, opened := (u.group g).opened ++ [f.cseq] } → (v.livePorts g c).isEmpty = false →
      exec (.collBegin p f true) s = .next ((v.freeCells p f.vc f.cells).settle g)) ∧
    (∀ c, f.ftype = ftContrib → u.contributes p f c →
      (∀ x faults io late v, f.opcode = opData → descKind c.desc < kindGather → linesFit c.desc f = true →
        c.done.get f.segment.toNat = none → u.seg g f.cseq f.segment.toNat = some x → x.state = .collect →
        u.tileMoving g f.segment.toNat = false →
        takeLines p faults io ((List.range (f.payload.length / 256)).map (lineFrame f)) u = (v, false) →
        exec (.contribData p f true faults io late) s =
          .next (((((v.lastSeen p f).tryFinal g f.cseq f.segment.toNat late)).freeCells p f.vc f.cells).settle g)) ∧
      (∀ faults io late, f.opcode = opData → descKind c.desc = kindGather → linesFit c.desc f = true →
        exec (.contribData p f true faults io late) s = .next (((u.gatherIn p f c).freeCells p f.vc f.cells).settle g)) ∧
      (∀ faults io late, f.opcode = opData → descKind c.desc = kindA2a →
        exec (.contribData p f true faults io late) s = .next (((u.a2aIn p f c).freeCells p f.vc f.cells).settle g)) ∧
      (∀ x, f.opcode = opExp → descKind c.desc < kindGather → linesFit c.desc f = true →
        c.done.get f.segment.toNat = none → u.seg g f.cseq f.segment.toNat = some x → x.state = .exponent →
        x.expFrom.getLsbD p.toNat = false → u.tileMoving g f.segment.toNat = false →
        exec (.exp p f true) s =
          .next (((u.takeExp g f.cseq f.segment.toNat c x p f).freeCells p f.vc f.cells).settle g))) ∧
    (∀ c, f.ftype = ftCollCtl → f.opcode = opAbortReq → u.isOpen p f c →
      exec (.abortReq p f true) s = .next (((u.abortColl g f.cseq f.abortCode (requestedCause f.abortCode) (portBit p)).freeCells
        p f.vc f.cells).settle g))

/-- R230, R232, R234, R236, R237, R239 and R244: what a group does by itself. A segment whose frames wait takes its slots;
a mismatch of signatures, a RESEND that is not answered and a collective's timer abort it with the ports they name;
deferred lines are asked for again when half of the quota is free; a segment whose copies have all left is DONE. -/
def Obligations.CollectiveTimers : Prop :=
  ∀ (s : State) (g : BitVec 14) (cseq : BitVec 16) (c : Coll), s.coll g.toNat cseq = some c →
    (∀ seg : BitVec 24, s.seg g.toNat cseq seg.toNat = none → ((s.group g.toNat).held.any fun h =>
        h.frame.ftype == ftContrib && h.frame.cseq == cseq && h.frame.segment == seg) = true →
      c.done.get seg.toNat = none → s.tileMoving g.toNat seg.toNat = false → s.slotsFree g.toNat c.desc seg.toNat = true →
      exec (.segmentSlotsAvailable g cseq seg) s = .next ((s.startSeg g.toNat cseq c seg.toNat).settle g.toNat)) ∧
    (∀ t, c.mismatchAt = some t → t + 1600000 ≤ s.ft → exec (.signatureCollectEnd g cseq) s =
      .next ((s.abortColl g.toNat cseq abSignature 1 (minority c)).settle g.toNat)) ∧
    (∀ r t, c.resends = [r] → r.cause = 0 → r.left = some t → t + (s.group g.toNat).resendTimeout * 1600 ≤ s.ft →
      exec (.resendTimeout g cseq) s =
        .next ((s.abortColl g.toNat cseq abLink 4 (portsMask [r.port]) r.segment.toNat).settle g.toNat)) ∧
    ((s.group g.toNat).deferrals ≠ [] → 2 * s.groupCells g.toNat < (s.group g.toNat).quota →
      exec (.deferralResend g) s = .next ((s.group g.toNat).deferrals.foldl (fun s e => s.resendDeferred g.toNat e)
        (s.setGroup g.toNat { s.group g.toNat with deferrals := [] }))) ∧
    (c.timerFrom + (s.group g.toNat).timeout * 16000 ≤ s.ft → exec (.collectiveTimeout g cseq) s =
      .next ((s.abortColl g.toNat cseq abTimeout 0
        (portsMask ((s.livePorts g.toNat c).filter fun p => s.awaitsPort g.toNat cseq c p))).settle g.toNat)) ∧
    (∀ (seg : BitVec 24) x, descKind c.desc ≠ kindA2a → s.seg g.toNat cseq seg.toNat = some x → x.state = .emit →
      s.copiesLeft (fun f => resultOf g cseq f && f.segment == seg) = false → s.pmuRuns = false →
      exec (.segmentDone g cseq seg) s =
        .next (((s.delSeg g.toNat cseq seg.toNat).markDone g.toNat cseq seg.toNat).settle g.toNat))

/-- R245: an abort ends the collective: neither it nor a segment of it is left, its cseq is open no more, and the abort is
counted in the almanac and raised. A move that ends puts the spare in the tile's place (R214). -/
def Obligations.AbortsAndMoves : Prop :=
  (∀ (s : State) (g : Nat) (cseq : BitVec 16) (c : Coll) (code cause seg : Nat) (ports : BitVec 512),
    s.coll g cseq = some c → ∀ t, t = s.abortColl g cseq code cause ports seg →
      t.coll g cseq = none ∧ (∀ n, n < 2 ^ 24 → t.seg g cseq n = none) ∧ (t.group g).opened.contains cseq = false ∧
      t.bit Reg.CNJ_INT_STATUS.coll_abort = true ∧ t.alm.seq = s.alm.seq + 1) ∧
  ∀ (s : State) (t : BitVec 6), s.cnj.moving.contains t.toNat = true → s.cnj.resetWait.contains t.toNat = false →
    s.cnj.segs = [] → exec (.tileMoveComplete t) s = .next ((({ s with
      cnj.spareOf := s.cnj.spareOf.put (tileDie t.toNat) t.toNat, cnj.moving := s.cnj.moving.filter (· ≠ t.toNat) } : State).actionDone
        1 t.toNat).raise Reg.CNJ_INT_STATUS.tile_moved).settleAll

/-! ### Accession and stack memory -/

/-- R252: a DPA is the stack's number times 0xC_0000_0000 and the stack address, whose 4 KiB page lies in the channel that
its bits 16 to 12 name; it fits in 40 bits. Every DPA below 0x90_0000_0000 is one of these, and one at or above it names
no memory: an access to it stops by name. Mirror rings and the aperture use DPAs as well. -/
def Obligations.PhysicalAddresses : Prop :=
  (∀ k a d : Nat, k < 12 → a < 0xC00000000 → d = k * 0xC00000000 + a → d < 2 ^ 40 ∧ dpaStack d = k ∧
    dpaChannel d = 32 * k + a / 2 ^ 12 % 32 ∧ dpaDie d = k / 3) ∧
  (∀ d, d < 0x9000000000 → ∃ k a, k < 12 ∧ a < 0xC00000000 ∧ d = k * 0xC00000000 + a) ∧
  (∀ (dpa : BitVec 40) (sub : BitVec 8) (b d : W64) (io : ChannelIo) (s : State),
    0x9000000000 ≤ dpa.toNat → exec (.accessionAtomic dpa sub b d io) s = .fault .absentDpa) ∧
  (∀ (r : Requester) (off : BitVec 24) (size : BitVec 4) (io : ChannelIo) (s : State),
    s.answers Reg.STK_CTL.addr = true → s.bit Reg.STK_CTL.aperture_en = true →
    0x9000000000 < s.apertureDpa off.toNat + size.toNat → exec (.apertureRead r off size io) s = .fault .absentDpa) ∧
  ∀ (s : State) (base : Nat), s.ringFits base = true → base < 0x9000000000

/-- R261 to R263 and Table 11-7: an accession command on a line of a usable region that meets no bad word and whose
engine's units agree is performed and answered. Reads change no byte of memory; SET_A and WRITE_LANES change only the
metadata, or the lanes, of their line. How lanes lie in a line: log 16. -/
def Obligations.AccessionCommands : Prop :=
  ∀ (r : BitVec 12) (l : BitVec 30) (io : ChannelIo) (s : State), io.corrected = 0 → io.disagree = 0 → s.pmuRuns = false →
    s.regionUsable r.toNat l.toNat = true → ∀ ld md, ld = s.lineDpa r.toNat l.toNat → md = s.metaDpa r.toNat l.toNat →
    (∀ n : BitVec 30, l.toNat + n.toNat ≤ s.regionLines r.toNat → s.accHold (.clear r.toNat l.toNat n.toNat) io = none →
      exec (.clear r l n io) s = .next ((clearLines r.toNat n.toNat l.toNat s).emit (.accession 0 []))) ∧
    (∀ a, s.accHold (.setA r.toNat l.toNat a) io = none → ∃ t, exec (.setA r l a io) s = .next t ∧
      t = ((s.storeMem md (metaBytes a (s.lineMeta r.toNat l.toNat).2.1 (s.lineMeta r.toNat l.toNat).2.2)).countLine ld).emit
        (.accession 0 []) ∧ ∀ x, (x < md ∨ md + 64 ≤ x) → t.byteAt x = s.byteAt x) ∧
    (s.accHold (.readLanes r.toNat l.toNat) io = none → ∃ t, exec (.readLanes r l io) s = .next t ∧ t.stk.mem = s.stk.mem ∧
      t = (s.countLine ld).emit (.accession 0 (s.bytesAt ld (laneBytes (s.regionFmt r.toNat)) ++ s.bytesAt md 64))) ∧
    (∀ lanes full, full = (List.range (elemsPerLine (s.regionFmt r.toNat))).map (fun i => lanes.getD i 0) →
      s.accHold (.writeLanes r.toNat l.toNat full) io = none → ∃ t, exec (.writeLanes r l lanes io) s = .next t ∧
        t = ((s.storeMem ld (full.flatMap fun v => leBytes 8 v.toNat)).countLine ld).emit (.accession 0 []) ∧
        ∀ x, (x < ld ∨ ld + 8 * full.length ≤ x) → t.byteAt x = s.byteAt x) ∧
    (∀ bs sc sats, resultLine (s.regionW0 r.toNat) (s.regionW1 r.toNat) (s.lineMeta r.toNat l.toNat).1
        (s.lineMeta r.toNat l.toNat).2.2 (s.lineLanes r.toNat l.toNat) = (bs, sc, sats) →
      s.accHold (.readFmt r.toNat l.toNat) io = none → exec (.readFmt r l io) s =
        .next ((s.countLine ld).emit (.accession 0 (bs ++ sc ++ leBytes 4 0 ++ leBytes 4 sats)))) ∧
    (∀ (part : BitVec 12) (fmt : BitVec 3) data scales u x clamps, fmt.toNat = s.regionFmt r.toNat → part = s.regionPart r.toNat →
      s.accAdd r.toNat l.toNat [(data, scales)] = (u, .done x clamps 0) →
      (isSum (awOp (s.regionW0 r.toNat)) = true → s.accHold (.add r.toNat l.toNat part fmt.toNat data scales) io = none →
        exec (.accessionAdd r l part fmt data scales io) s = .next (u.emit (.accession 0 (leBytes 4 clamps ++ leBytes 4 0)))) ∧
      (isSum (awOp (s.regionW0 r.toNat)) = false → s.accHold (.merge r.toNat l.toNat part fmt.toNat data scales) io = none →
        exec (.merge r l part fmt data scales io) s = .next (u.emit (.accession 0 (leBytes 4 clamps ++ leBytes 4 0)))))

/-- R261 and Table 12-3: ATOMIC on a word of stack memory answers the old word and stores the new one: no byte outside the
word changes. -/
def Obligations.AccessionAtomicWord : Prop :=
  ∀ (dpa : BitVec 40) (sub : BitVec 8) (b c v : W64) (io : ChannelIo) (s : State) (d : Nat), d = dpa.toNat / 8 * 8 → d < dpaEnd →
    io.corrected = 0 → io.disagree = 0 → s.accHold (.atomic d sub b c) io = none →
    atomicNew sub (BitVec.ofNat 64 (numAt (s.bytesAt d 8) 0 8)) b c = some v →
    ∃ t, exec (.accessionAtomic dpa sub b c io) s = .next t ∧ t.bytesAt d 8 = leBytes 8 v.toNat ∧
      (∀ a, (a < d ∨ d + 8 ≤ a) → t.byteAt a = s.byteAt a) ∧
      t.out.getLast? = some (.accession 0 (s.bytesAt d 8))

/-- R256, R259, R260, R263, R268 to R270 and R273: what happens to stack memory and its regions by time and by register. A
mended page lets its accesses go on; levels leak; an engine is restored; a region is installed, removed and cleared; a
zero fill leaves zeros; the aperture answers the bytes of its window. -/
def Obligations.StackCommands : Prop :=
  ∀ s : State,
    (∀ (dpa : BitVec 40) w as, s.stk.pages.get (dpa.toNat / 4096) = some (w, as) →
      ∀ u, u = { s with stk.pages := s.stk.pages.del (dpa.toNat / 4096) } →
      exec (.pageMendDone dpa true) s =
        .next ((as.foldl State.accessAgain (u.pageMended (dpa.toNat / 4096))).emitWaiting) ∧
      exec (.pageMendDone dpa false) s = .next (((as.drop 1).foldl State.accessAgain (u.pageLost w as)).emitWaiting)) ∧
    (s.bit Reg.STK_CTL.lb_en = true → exec .lbLeak s = .next ((List.range 384).foldl (fun s ch =>
      s.setFld (Reg.STK_LB.level ch) (s.fld (Reg.STK_LB.level ch) - 1)) s)) ∧
    (∀ (st : BitVec 4) (c : BitVec 5) (v : W32) ch, v.getLsbD 1 = true → st.toNat < 12 → ch = 32 * st.toNat + c.toNat →
      s.writable (Reg.STK_ENG.addr ch) v = true → isConfig (Reg.STK_ENG.addr ch) = false →
      exec (.engineRestore st c v) s = .next (s.setFld (Reg.STK_ENG.bypass ch) 0)) ∧
    (∀ (v : W32) u r, v.getLsbD 14 = true → s.writable Reg.STK_REGION_CMD.addr v = true →
      isConfig Reg.STK_REGION_CMD.addr = false → u = s.storeFields Reg.STK_REGION_CMD.addr v → r = Reg.STK_REGION_CMD.region.of v →
      (Reg.STK_REGION_CMD.op.of v = 0 → u.regionValid r = false → u.regionRangeBad r = false → u.regionWordsBad r = false →
        exec (.regionInstall v) s = .next ((((((u.setFld (Reg.STK_REGION_W0.valid r) 1).setFld (Reg.STK_REGION_W0.busy r) 0).startClearing
          r).reconfigured u)).setFld Reg.STK_REGION_CMD.status 2)) ∧
      (Reg.STK_REGION_CMD.op.of v = 1 → u.regionBusy r = false → u.stk.clearing.contains r = false →
        exec (.regionRemove v) s = .next ((((u.setFld (Reg.STK_REGION_W0.valid r) 0).setFld (Reg.STK_REGION_W0.clear_done r) 0).reconfigured
          u).setFld Reg.STK_REGION_CMD.status 1)) ∧
      (Reg.STK_REGION_CMD.op.of v = 2 → u.regionValid r = true → u.regionBusy r = false → u.stk.clearing.contains r = false →
        exec (.regionClearAll v) s = .next ((u.startClearing r).setFld Reg.STK_REGION_CMD.status 2)) ∧
      (Reg.STK_REGION_CMD.op.of v = 1 → u.regionBusy r = true → exec (.regionRemove v) s =
        .next ((u.setFld Reg.STK_REGION_CMD.status 3).raise Reg.STK_INT_STATUS.region_refused))) ∧
    (∀ r : BitVec 12, s.stk.clearing.contains r.toNat = true → exec (.regionClearDone r) s = .next (s.clearEnds r.toNat)) ∧
    (s.bit Reg.STK_STATUS.fill_busy = true → ∃ t, exec .zeroFillDone s = .next t ∧ t.bit Reg.STK_STATUS.fill_busy = false ∧
      t.bit Reg.STK_STATUS.fill_done = true ∧ t.stk.fillPending = false ∧
      ∀ d, t.byteAt d = if s.keptByFill d then s.byteAt d else 0) ∧
    (∀ (q : Requester) (off : BitVec 24) (size : BitVec 4) (io : ChannelIo), s.answers Reg.STK_CTL.addr = true →
      (s.bit Reg.STK_CTL.aperture_en = false →
        exec (.apertureRead q off size io) s = .next (s.emit (.aperture (List.replicate size.toNat 0xFF)))) ∧
      (s.bit Reg.STK_CTL.aperture_en = true → io.corrected = 0 → s.pmuRuns = false → ∀ d, d = s.apertureDpa off.toNat →
        d + size.toNat ≤ dpaEnd → s.holdPage d size.toNat io (.aperture q off.toNat size.toNat) = none →
        exec (.apertureRead q off size io) s = .next (s.emit (.aperture (s.bytesAt d size.toNat)))))

/-! ### The memory endpoint -/

/-- R276, R278 to R280 and R286: a request that is performed. LOAD answers the bytes of the window; STORE stores its
payload at the address it names and nowhere else, and is answered when its channel accepts it; ATOMIC answers the old word
and stores the new one; REDUCE_INTO is one read-modify-write of its target. -/
def Obligations.MemoryRequests : Prop :=
  ∀ (p : Port) (f : Frame) (x : Stamp) (io : ChannelIo) (q : MemReq) (s w : State), s.performs w p f x io q →
    ∀ die, die = dpaDie q.dpa →
    (f.opcode = reqLoad → exec (.load p f x true io) s = .next ((((w.countRead q.dpa (loadSize f)).count
      Reg.MSF_CNT_LOAD.value).pmuEvent 0x12 0x01 die).answer die q rspData 0 (w.bytesAt q.dpa (loadSize f)))) ∧
    (f.opcode = reqStore → ∃ t, exec (.store p f x true io) s = .next t ∧
      (∀ i, i < f.payload.length → t.byteAt (q.dpa + i) = f.payload.getD i 0) ∧
      (∀ a, (a < q.dpa ∨ q.dpa + f.payload.length ≤ a) → t.byteAt a = w.byteAt a) ∧
      t.msf.writes.read [] (dpaChannel q.dpa) = w.msf.writes.read [] (dpaChannel q.dpa) ++ [.one q 0]) ∧
    (∀ v, f.opcode = reqAtomic → f.memMod ≠ 2 → atomicNew f.memMod (BitVec.ofNat 64 (numAt (w.bytesAt q.dpa 8) 0 8))
        (BitVec.ofNat 64 (numAt f.payload 0 8)) 0 = some v →
      ∀ u, u = (((w.storeMem q.dpa (leBytes 8 v.toNat)).pmuEvent 0x10 0x03 (dpaStack q.dpa)).count Reg.MSF_CNT_ATOMIC.value).pmuEvent
        0x12 0x01 die →
      ∀ old, old = leBytes 8 (BitVec.ofNat 64 (numAt (w.bytesAt q.dpa 8) 0 8)).toNat →
      exec (.atomic p f x true io) s = .next ((u.answer die q rspData 0 old).filterPut die q rspData 0 old)) ∧
    (f.opcode = reqReduce → redRegion f = false → exec (.reduceInto p f x true io) s = .next (w.redWindow die [q] q)) ∧
    (f.opcode = reqReduce → redRegion f = true → w.redRegionOk f = true →
      exec (.reduceInto p f x true io) s = .next (w.redRegionOne die (redLine f).1 (redLine f).2 q))

/-- R145, R149, R274, R276, R283, R285 and R443: the other ways of a request that has left its meter. FENCE is answered at
once where nothing earlier is outstanding; STORE_MCAST is replicated by its tree; one that breaks a condition is answered
NACK with its reason and changes no memory; a request for a node passes through. R15, R131 and Table 6-1: a MEM_RSP for a
node is routed by its coordinates; one for this spine answers the request that waits for it, or is counted late. -/
def Obligations.MemoryWaysAndResponses : Prop :=
  (∀ (p : Port) (f : Frame) (x : Stamp) (s u v : State) (k : Nat) (q : MemReq), s.leavesMeter u p f x k → f.ftype = ftMemReq →
    v = u.countLookup (dieOf p) f → q = { serial := v.msf.serial, port := p, frame := f } →
    ∀ w, w = ({ v with msf.serial := v.msf.serial + 1 } : State) →
    (f.dclass = true → f.opcode = reqFence → v.memWay f = .fence → w.windowSize ≤ f.address.toNat →
      (w.freeBuf k).fenceReady q = true →
      exec (.memFence p f x true) s = .next ((w.freeBuf k).answerFence q)) ∧
    (∀ t, f.dclass = true → f.opcode = reqMcast → v.memWay f = .tree t → exec (.storeMcast p f x true) s = .next (w.mcastIn k q t)) ∧
    (∀ r, f.dclass = true → v.memWay f = .nack r → r ≠ nkIndex → ∀ t, t = (w.freeBuf k).nack (dieOf p) q r →
      t.stk.mem = v.stk.mem ∧ (knownReq f.opcode = false → exec (.memReqBadOpcode p f x true) s = .next t) ∧
      (f.opcode = reqLoad → ∀ io, exec (.load p f x true io) s = .next t) ∧
      (f.opcode = reqStore → ∀ io, exec (.store p f x true io) s = .next t)) ∧
    (f.dclass = false → reqForm f = false → exec (.memReqPassThrough p f x) s = .next (u.forwardBuf k p f)) ∧
    (∀ t, f.dclass = false → reqForm f = true → u.offer (thruRange (dieOf (u.route f.dnode)) f) ⟨0, p, f, 0⟩
        (u.bit Reg.MSF_CTL.combine_thru_en) = (t, false) →
      exec (.memReqPassThrough p f x) s = .next (t.forwardBuf k p f))) ∧
  (∀ (p : Port) (f : Frame) (x : Stamp) (s u : State) (k : Nat), s.parked p f x = some (u, k) → f.ftype = ftMemRsp →
    (f.dclass = false → exec (.memRspForward p f x) s = .next (u.forwardBuf k p f)) ∧
    (f.dclass = true → u.mine f = true → x = BitVec.ofInt 80 s.ft16 →
      exec (.memRspToSpine p f true) s = .next ((u.freeBuf k).ownAnswer f.seq f.opcode f.status.toNat f.payload)) ∧
    (f.dclass = true → u.mine f = true → x = BitVec.ofInt 80 s.ft16 →
      (u.freeBuf k).msf.thrus.find? (fun r => r.seq == f.seq) = none → (u.freeBuf k).seqThread f.seq = none →
      exec (.memRspToSpine p f true) s = .next ((u.freeBuf k).count Reg.MSF_CNT_LATE_RSP.value)))

/-- R277, R281, R283 and R286 to R291: what the endpoint does later. A channel accepts its oldest write; a ready FENCE and
a final multicast are answered; the combining counters clear, entries flush after merge_window and close after idle_close;
a merged request that is not answered in time fails; records of the filter expire; a word of the access table is written.
-/
def Obligations.MemoryEvents : Prop :=
  ∀ s : State,
    (∀ (ch : BitVec 9) q st rest, s.msf.writes.read [] ch.toNat = .one q st :: rest → exec (.stackWriteAccepted ch) s =
      .next (({ s with msf.writes := s.msf.writes.write [] ch.toNat rest } : State).answer (dpaDie q.dpa) q rspAck st [])) ∧
    (∀ (serial : Nat) q, s.msf.fences.find? (fun q => q.serial = serial) = some q → s.fenceReady q = true →
      exec (.fenceAnswered serial) s = .next (s.answerFence q)) ∧
    (∀ (serial : Nat) m u, s.msf.mcasts.get serial = some m → s.mcastFinal serial = true → m.thread = none →
      u = ({ s with msf.mcasts := s.msf.mcasts.del serial } : State) →
      exec (.mcastUnreachedFinal serial) s = .next (if m.unreached = 0 then u.answer (dieOf m.req.port) m.req rspAck 0 []
        else u.answer (dieOf m.req.port) m.req rspAck 4 (leBytes 64 m.unreached.toNat))) ∧
    exec .combineTriggerClear s = .next { s with msf.combCount := [] } ∧
    (∀ (id : Nat) (io : ChannelIo) c, s.msf.combs.find? (fun c => c.id = id) = some c →
      (c.qs ≠ [] → c.first + s.mergeWindow ≤ s.ft → exec (.combineFlush id io) s = .next (s.flushComb c io)) ∧
      (c.qs = [] → c.lastAt + s.idleClose ≤ s.ft → exec (.combineIdleClose id) s =
        .next { s with msf.combs := s.msf.combs.filter fun x => x.id ≠ c.id })) ∧
    (∀ (seq : BitVec 24) r, s.msf.thrus.find? (fun r => r.seq == seq) = some r →
      r.at_ + s.fld Reg.MSF_RSP_TIMEOUT.timeout * 1600000 ≤ s.ft → exec (.combineRspTimeout seq) s = .next (s.combTimeout r)) ∧
    (∀ die : BitVec 2, exec (.filterRecordExpiry die) s = .next { s with
      msf.filters := s.msf.filters.filter fun r => !(r.die == die) || decide (s.ft < r.at_ + s.filterWindow) }) ∧
    (∀ (n : BitVec 8) (w : BitVec 2) (v : W32), w.toNat < 3 → s.answers (accessOff n.toNat w.toNat) = true →
      s.bit Reg.CFG_CTL.local_write_en = true →
      (s.accessRefused n.toNat w.toNat v = true →
        exec (.accessEntryWrite n w v) s = .next (s.raise Reg.MSF_INT_STATUS.access_refused)) ∧
      (s.accessRefused n.toNat w.toNat v = false → ∃ t, exec (.accessEntryWrite n w v) s = .next t ∧
        t.reg (accessOff n.toNat w.toNat) = (s.storeFields (accessOff n.toNat w.toNat) v).reg (accessOff n.toNat w.toNat) ∧
        t.bit Reg.CFG_STATUS.drift = true ∧ t.bit Reg.CFG_INT_STATUS.local_write = true))

/-! ### The orrery -/

/-- R296, R297, R302 and R303: a scalar instruction that issues writes its result to register d, counts, and moves to the
next word (CONST and CONSTH by two); a branch goes to its target inside the program, or to the next word. Register s0
reads 0 and keeps nothing. -/
def Obligations.ScalarInstructions : Prop :=
  (∀ (x : Thread) (r q : BitVec 5) (v : W64), (x.put 0 v) = x ∧ x.get 0 = 0 ∧ (r ≠ 0 → (x.put r v).get r = v) ∧
    (q ≠ r → (x.put r v).get q = x.get q)) ∧
  ∀ (t : BitVec 14) (s : State) (p : Prog) (w k : W32) (x : Thread) (a b : W64) (d : W64 → State), x = s.thread t.toNat →
    a = x.get (fA w) → b = x.get (fB w) → (∀ v, d v = s.setThread t.toNat ((x.put (fD w) v).step)) →
    (s.at_ t.toNat .add p w k → exec (.oAdd t) s = .next (d (a + b))) ∧
    (s.at_ t.toNat .sub p w k → exec (.oSub t) s = .next (d (a - b))) ∧
    (s.at_ t.toNat .and p w k → exec (.oAnd t) s = .next (d (a &&& b))) ∧
    (s.at_ t.toNat .or p w k → exec (.oOr t) s = .next (d (a ||| b))) ∧
    (s.at_ t.toNat .xor p w k → exec (.oXor t) s = .next (d (a ^^^ b))) ∧
    (s.at_ t.toNat .shl p w k → exec (.oShl t) s = .next (d (a <<< (b.toNat % 64)))) ∧
    (s.at_ t.toNat .shr p w k → exec (.oShr t) s = .next (d (a >>> (b.toNat % 64)))) ∧
    (s.at_ t.toNat .sra p w k → exec (.oSra t) s = .next (d (a.sshiftRight (b.toNat % 64)))) ∧
    (s.at_ t.toNat .slt p w k → exec (.oSlt t) s = .next (d (if a.toInt < b.toInt then 1 else 0))) ∧
    (s.at_ t.toNat .sltu p w k → exec (.oSltu t) s = .next (d (if a.toNat < b.toNat then 1 else 0))) ∧
    (s.at_ t.toNat .min p w k → exec (.oMin t) s = .next (d (if b.toInt < a.toInt then b else a))) ∧
    (s.at_ t.toNat .max p w k → exec (.oMax t) s = .next (d (if a.toInt < b.toInt then b else a))) ∧
    (s.at_ t.toNat .mul p w k → exec (.oMul t) s = .next (d (a * b))) ∧
    (s.at_ t.toNat .mulh p w k → exec (.oMulh t) s = .next (d (BitVec.ofInt 64 (a.toInt * b.toInt / 2 ^ 64)))) ∧
    (s.at_ t.toNat .srr p w k → exec (.oSrr t) s = .next (d (srr a.toInt b.toInt))) ∧
    (s.at_ t.toNat .popc p w k → exec (.oPopc t) s =
      .next (d (BitVec.ofNat 64 ((List.range 64).filter fun i => a.getLsbD i).length))) ∧
    (s.at_ t.toNat .addi p w k → exec (.oAddi t) s = .next (d (a + BitVec.ofInt 64 (fSimm w)))) ∧
    (s.at_ t.toNat .andi p w k → exec (.oAndi t) s = .next (d (a &&& BitVec.ofNat 64 (fImm w)))) ∧
    (s.at_ t.toNat .ori p w k → exec (.oOri t) s = .next (d (a ||| BitVec.ofNat 64 (fImm w)))) ∧
    (s.at_ t.toNat .xori p w k → exec (.oXori t) s = .next (d (a ^^^ BitVec.ofNat 64 (fImm w)))) ∧
    (s.at_ t.toNat .shli p w k → exec (.oShli t) s = .next (d (a <<< fImm6 w))) ∧
    (s.at_ t.toNat .shri p w k → exec (.oShri t) s = .next (d (a >>> fImm6 w))) ∧
    (s.at_ t.toNat .srai p w k → exec (.oSrai t) s = .next (d (a.sshiftRight (fImm6 w)))) ∧
    (s.at_ t.toNat .slti p w k → exec (.oSlti t) s = .next (d (if a.toInt < fSimm w then 1 else 0))) ∧
    (s.at_ t.toNat .time p w k → exec (.oTime t) s = .next (d (BitVec.ofNat 64 s.ft))) ∧
    (s.at_ t.toNat .self p w k → exec (.oSelf t) s = .next (d (BitVec.ofNat 64 t.toNat))) ∧
    (s.at_ t.toNat .const p w k → exec (.oConst t) s =
      .next (s.setThread t.toNat ((x.put (fD w) (BitVec.ofInt 64 k.toInt)).step 2))) ∧
    (s.at_ t.toNat .consth p w k → exec (.oConsth t) s =
      .next (s.setThread t.toNat ((x.put (fD w) (k ++ (x.get (fD w)).setWidth 32)).step 2))) ∧
    (s.at_ t.toNat .setfar p w k → exec (.oSetfar t) s =
      .next (s.setThread t.toNat ({ x with far := x.far.set (fImm w) a } : Thread).step)) ∧
    (∀ go : Int → State, (∀ i, go i = if 0 ≤ i ∧ i < (p.code.length : Int) then s.setThread t.toNat (x.goto i.toNat)
        else s.faultThread t.toNat faultIllegal) → ∀ c, c = x.get (fD w) → ∀ to', to' = (x.pc : Int) + 1 + fSimm w →
      (s.at_ t.toNat .beq p w k → exec (.oBeq t) s = .next (if c = a then go to' else s.setThread t.toNat x.step)) ∧
      (s.at_ t.toNat .bne p w k → exec (.oBne t) s = .next (if c = a then s.setThread t.toNat x.step else go to')) ∧
      (s.at_ t.toNat .blt p w k → exec (.oBlt t) s = .next (if c.toInt < a.toInt then go to' else s.setThread t.toNat x.step)) ∧
      (s.at_ t.toNat .bge p w k → exec (.oBge t) s = .next (if c.toInt < a.toInt then s.setThread t.toNat x.step else go to')) ∧
      (s.at_ t.toNat .bltu p w k → exec (.oBltu t) s = .next (if c.toNat < a.toNat then go to' else s.setThread t.toNat x.step)) ∧
      (s.at_ t.toNat .bgeu p w k → exec (.oBgeu t) s = .next (if c.toNat < a.toNat then s.setThread t.toNat x.step else go to')) ∧
      (s.at_ t.toNat .jmp p w k → exec (.oJmp t) s = .next (go ((x.pc : Int) + 1 + fOff w))) ∧
      (s.at_ t.toNat .jr p w k → exec (.oJr t) s = .next (go (a.toNat : Int))) ∧
      (s.at_ t.toNat .jal p w k → 0 ≤ to' → to' < (p.code.length : Int) → exec (.oJal t) s =
        .next (s.setThread t.toNat ((x.put (fD w) (BitVec.ofNat 64 (x.pc + 1))).goto to'.toNat))))

/-- R303: a vector instruction that issues writes its lanes and moves on: lane by lane the lanes that m_en lets it write,
a comparison every bit of the mask, VSEL by the mask, VRED a scalar, VSORT sixteen pairs by their keys. -/
def Obligations.VectorInstructions : Prop :=
  ∀ (t : BitVec 14) (s : State) (p : Prog) (w k : W32) (x : Thread) (ls : List Nat) (a b : Nat → W64), s.pmuRuns = false →
    x = s.thread t.toNat → ls = (List.range 16).filter (fun i => !fMen w || x.mask.getLsbD i) → (∀ i, a i = x.vget (fA w) i) →
    (∀ i, b i = if fSb w then x.get (fB w) else x.vget (fB w) i) →
    (∀ v : (Nat → W64) → State, (∀ f, v f = s.setThread t.toNat (x.vputs (fD w) (ls.map fun i => (i, f i))).step) →
      (s.at_ t.toNat .vadd p w k → exec (.oVadd t) s = .next (v fun i => a i + b i)) ∧
      (s.at_ t.toNat .vsub p w k → exec (.oVsub t) s = .next (v fun i => a i - b i)) ∧
      (s.at_ t.toNat .vand p w k → exec (.oVand t) s = .next (v fun i => a i &&& b i)) ∧
      (s.at_ t.toNat .vor p w k → exec (.oVor t) s = .next (v fun i => a i ||| b i)) ∧
      (s.at_ t.toNat .vxor p w k → exec (.oVxor t) s = .next (v fun i => a i ^^^ b i)) ∧
      (s.at_ t.toNat .vmin p w k → exec (.oVmin t) s = .next (v fun i => smin (a i) (b i))) ∧
      (s.at_ t.toNat .vmax p w k → exec (.oVmax t) s = .next (v fun i => smax (a i) (b i))) ∧
      (s.at_ t.toNat .vshl p w k → exec (.oVshl t) s = .next (v fun i => a i <<< ((b i).toNat % 64))) ∧
      (s.at_ t.toNat .vsra p w k → exec (.oVsra t) s = .next (v fun i => (a i).sshiftRight ((b i).toNat % 64))) ∧
      (s.at_ t.toNat .vmul p w k → exec (.oVmul t) s = .next (v fun i => a i * b i)) ∧
      (s.at_ t.toNat .vmulq p w k → exec (.oVmulq t) s = .next (v fun i => srr ((a i).toInt * (b i).toInt) (fImm6 w))) ∧
      (s.at_ t.toNat .vsrr p w k → exec (.oVsrr t) s = .next (v fun i => srr (a i).toInt (b i).toInt))) ∧
    (∀ new, new = ls.map (fun i => (i, vclampLane (a i) (b i))) → ∀ m, m = new.foldl (fun (m : BitVec 16) e =>
        if e.2 = a e.1 then m else m ||| ((1 : BitVec 16) <<< e.1)) 0 →
      s.at_ t.toNat .vclamp p w k → exec (.oVclamp t) s =
        .next (s.setThread t.toNat ({ x.vputs (fD w) new with mask := m } : Thread).step)) ∧
    (∀ (c : (Nat → Bool) → State) (m : (Nat → Bool) → BitVec 16), (∀ f, m f = (List.range 16).foldl (fun (m : BitVec 16) i =>
        if f i then m ||| ((1 : BitVec 16) <<< i) else m) 0) →
      (∀ f, c f = s.setThread t.toNat ({ x with mask := m f } : Thread).step) →
      (s.at_ t.toNat .vclt p w k → exec (.oVclt t) s = .next (c fun i => (a i).slt (b i))) ∧
      (s.at_ t.toNat .vceq p w k → exec (.oVceq t) s = .next (c fun i => a i == b i)) ∧
      (s.at_ t.toNat .vcle p w k → exec (.oVcle t) s = .next (c fun i => !(b i).slt (a i)))) ∧
    (s.at_ t.toNat .vsel p w k → exec (.oVsel t) s = .next (s.setThread t.toNat (x.vputs (fD w) ((List.range 16).map fun i =>
      (i, if x.mask.getLsbD i then a i else x.vget (fB w) i))).step)) ∧
    (s.at_ t.toNat .vred p w k → exec (.oVred t) s =
      .next (s.setThread t.toNat (x.put (fD w) (vred (fFn w % 4) (ls.map a))).step)) ∧
    (s.at_ t.toNat .vbcast p w k → exec (.oVbcast t) s =
      .next (s.setThread t.toNat (x.vset (fD w) (List.replicate 16 (x.get (fA w)))).step)) ∧
    (s.at_ t.toNat .vget p w k → exec (.oVget t) s = .next (s.setThread t.toNat (x.put (fD w) (a (fFn w % 16))).step)) ∧
    (s.at_ t.toNat .vput p w k → exec (.oVput t) s =
      .next (s.setThread t.toNat (x.vput (fD w) (fFn w % 16) (x.get (fA w))).step)) ∧
    (s.at_ t.toNat .mset p w k → exec (.oMset t) s =
      .next (s.setThread t.toNat ({ x with mask := (x.get (fA w)).setWidth 16 } : Thread).step)) ∧
    (s.at_ t.toNat .mget p w k → exec (.oMget t) s = .next (s.setThread t.toNat (x.put (fD w) (x.mask.setWidth 64)).step)) ∧
    (s.at_ t.toNat .popm p w k → exec (.oPopm t) s =
      .next (s.setThread t.toNat (x.put (fD w) (BitVec.ofNat 64 (popcount x.mask))).step)) ∧
    (s.at_ t.toNat .mnot p w k → exec (.oMnot t) s = .next (s.setThread t.toNat ({ x with mask := ~~~x.mask } : Thread).step)) ∧
    (∀ es, es = ((x.vlanes (fA w)).zip (x.vlanes (fB w))).foldl (fun l e => insertPair e l) [] →
      s.at_ t.toNat .vsort p w k → exec (.oVsort t) s =
        .next (s.setThread t.toNat ((x.vset (fD w) (es.map (·.1))).vset (fB w) (es.map (·.2))).step))

/-- R298, R299, R301, R303 and R304: a load from scratch fills its register with the bytes there, by its width and sign; a
store to scratch changes its bytes alone; an AMO answers the old word and stores the new one; vector loads and stores,
gathers and scatters do so with each of their accesses. A misaligned address faults with ALIGN. -/
def Obligations.MemoryInstructions : Prop :=
  ∀ (t : BitVec 14) (s : State) (p : Prog) (w k : W32) (x : Thread) (io : ChannelIo) (c o : Nat), x = s.thread t.toNat →
    (∀ n sg, ∀ a : Acc, a = { lane := 0, addr := x.iAddr w, n := n } →
      s.places t.toNat x p reqLoad (fun a => loadMod a.n) [a] false = .ok [(a, .scratch c o)] →
      ∀ v, v = loadValue n sg (leNat ((List.range n).map fun i => s.ory.scratch.read 0 (2 ^ 18 * c + o + i))) →
      (n = 8 → sg = false → s.at_ t.toNat .ld p w k → exec (.oLd t io) s = .next (s.setThread t.toNat (x.put (fD w) v).step)) ∧
      (n = 4 → sg = true → s.at_ t.toNat .lw p w k → exec (.oLw t io) s = .next (s.setThread t.toNat (x.put (fD w) v).step)) ∧
      (n = 2 → sg = true → s.at_ t.toNat .lh p w k → exec (.oLh t io) s = .next (s.setThread t.toNat (x.put (fD w) v).step)) ∧
      (n = 1 → sg = false → s.at_ t.toNat .lbu p w k → exec (.oLbu t io) s = .next (s.setThread t.toNat (x.put (fD w) v).step))) ∧
    (∀ n, ∀ a : Acc, a = { lane := 0, addr := x.iAddr w, n := n, data := leBytes n (x.get (fD w)).toNat } →
      s.places t.toNat x p reqStore (fun _ => 0) [a] true = .ok [(a, .scratch c o)] → x.posted.length ≤ 16 →
      ∀ u, u = ({ s.setThread t.toNat x.step with
        ory.scratch := writeBytes s.ory.scratch (2 ^ 18 * c + o) (leBytes n (x.get (fD w)).toNat) } : State) →
      (n = 8 → s.at_ t.toNat .st p w k → exec (.oSt t io) s = .next u) ∧
      (n = 4 → s.at_ t.toNat .stw p w k → exec (.oStw t io) s = .next u) ∧
      (n = 2 → s.at_ t.toNat .sth p w k → exec (.oSth t io) s = .next u)) ∧
    (∀ a : Acc, a.n = 8 → a.lane = 0 → fFn w < 7 → fFn w ≠ 2 → a.addr = x.get (fA w) → a.data = leBytes 8 (x.get (fB w)).toNat →
      s.places t.toNat x p reqAtomic (fun _ => fFn w) [a] true = .ok [(a, .scratch c o)] →
      ∀ old v, old = BitVec.ofNat 64 (leNat ((List.range 8).map fun i => s.ory.scratch.read 0 (2 ^ 18 * c + o + i))) →
      atomicNew (BitVec.ofNat 8 (fFn w)) old (x.get (fB w)) (x.get (fD w)) = some v → s.at_ t.toNat .amo p w k →
      exec (.oAmo t io) s = .next (({ s with
        ory.scratch := writeBytes s.ory.scratch (2 ^ 18 * c + o) (leBytes 8 v.toNat) } : State).setThread t.toNat
          (x.put (fD w) old).step)) ∧
    (∀ a : Acc, x.vecAccs (x.iAddr w) [] = [a] → a.n = 128 → a.lane = 0 →
      s.places t.toNat x p reqLoad (fun a => loadMod a.n) [a] false = .ok [(a, .scratch c o)] → s.at_ t.toNat .vld p w k →
      exec (.oVld t io) s = .next (s.setThread t.toNat (x.fill (fD w) true false 0
        ((List.range 128).map fun i => s.ory.scratch.read 0 (2 ^ 18 * c + o + i))).step)) ∧
    (∀ a : Acc, x.vecAccs (x.iAddr w) (laneList (x.vlanes (fD w))) = [a] → x.posted.length ≤ 16 →
      s.places t.toNat x p reqStore (fun _ => 0) [a] true = .ok [(a, .scratch c o)] → s.at_ t.toNat .vst p w k →
      exec (.oVst t io) s = .next { s.setThread t.toNat x.step with
        ory.scratch := writeBytes s.ory.scratch (2 ^ 18 * c + o) a.data }) ∧
    (x.laneAccs w = [] → (s.at_ t.toNat .vgather p w k → exec (.oVgather t io) s = .next (s.setThread t.toNat x.step)) ∧
      (x.posted.length ≤ 16 → s.at_ t.toNat .vscatter p w k → exec (.oVscatter t io) s = .next (s.setThread t.toNat x.step))) ∧
    (∀ a : Acc, x.laneAccs w = [a] → a.n = 8 → s.places t.toNat x p reqLoad (fun a => loadMod a.n) [a] false = .ok [(a, .scratch c o)] →
      s.at_ t.toNat .vgather p w k → exec (.oVgather t io) s = .next (s.setThread t.toNat (x.vput (fD w) a.lane
        (BitVec.ofNat 64 (numAt ((List.range 8).map fun i => s.ory.scratch.read 0 (2 ^ 18 * c + o + i)) 0 8))).step)) ∧
    (∀ a : Acc, x.laneAccs w = [a] → x.posted.length ≤ 16 → s.places t.toNat x p reqStore (fun _ => 0) [a] true = .ok [(a, .scratch c o)] →
      s.at_ t.toNat .vscatter p w k → exec (.oVscatter t io) s = .next { s.setThread t.toNat x.step with
        ory.scratch := writeBytes s.ory.scratch (2 ^ 18 * c + o) a.data }) ∧
    (s.at_ t.toNat .ld p w k → (x.iAddr w).toNat % 8 ≠ 0 →
      exec (.oLd t io) s = .next (s.faultThread t.toNat faultAlign (x.iAddr w)))

/-- R306, R307, R310, R315 and R316: WAIT makes a thread wait, and the oldest token for it wakes it with its four words;
RELEASE ends the chunk it names; POST queues a token; FENCE begins a new epoch once the posted stores are answered; HALT,
FAULT and TIMER; timers fire, queues take what waits, and a thread out of budget or at no instruction faults: it starts
again, and the fault is recorded and raised. -/
def Obligations.SystemInstructions : Prop :=
  (∀ (s : State) (t code user : Nat) (addr : W64), (s.thread t).chunk = none → ∀ u, u = s.faultThread t code addr user →
    u.ory.threads = s.ory.threads.del t ∧ u.alm.seq = s.alm.seq + 1 ∧ u.bit Reg.ORY_INT_STATUS.thread_fault = true ∧
    u.bit Reg.ORY_FAULT.valid = true) ∧
  ∀ (t : BitVec 14) (s : State) (p : Prog) (w k : W32) (x : Thread) (q : List Token), x = s.thread t.toNat →
    q = s.ory.tokens.read [] (thrCore t.toNat) →
    (s.at_ t.toNat .wait p w k → x.badStore = none → x.chunk = none → p.unloading = none →
      exec (.oWait t) s = .next (s.setThread t.toNat { x with waiting := some (fD w) })) ∧
    (∀ d h hs, x.waiting = some d → s.bit Reg.ORY_CTL.orrery_en = true → s.coreIn (thrCore t.toNat) = true → x.stopped = false →
      s.thrProg t.toNat = some p → p.suspended = false → q = h :: hs → s.tokenFor t.toNat h = true → s.pmuRuns = false →
      exec (.oWaitWake t) s =
        .next (({ s with ory.tokens := s.ory.tokens.write [] (thrCore t.toNat) hs } : State).setThread t.toNat (x.take d h))) ∧
    (∀ h, s.at_ t.toNat .release p w k → x.badStore = none → x.chunk = some h → h.w1 = x.get (fA w) → s.chunkHeld h = true →
      ∀ u v, u = s.setThread t.toNat { x with chunk := none } →
      v = (u.count Reg.ORY_CNT_RELEASE.value).releaseChunk h →
      exec (.oRelease t) s = .next (v.setThread t.toNat ((v.thread t.toNat).put (fD w) 0).step)) ∧
    (s.at_ t.toNat .release p w k → x.badStore = none → x.chunk = none → exec (.oRelease t) s =
      .next ((s.count Reg.ORY_CNT_STALE.value).setThread t.toNat (x.put (fD w) 1).step)) ∧
    (∀ (u : Nat) (r : List Token) (h : Token), s.at_ t.toNat .post p w k → (x.get (fA w)).toNat / 2 ^ 14 % 2 = 0 →
      u = (x.get (fA w)).toNat % 2 ^ 14 → s.coreIn (thrCore u) = true → s.thrSlot u = s.thrSlot t.toNat →
      r = s.ory.tokens.read [] (thrCore u) → h = ⟨some u, (s.thrSlot t.toNat).getD 0,
        BitVec.ofNat 64 (2 + x.partition.toNat * 2 ^ 4), 0, x.get (fB w), BitVec.ofNat 64 t.toNat⟩ →
      (r.length < tokenRoom → exec (.oPost t) s = .next (({ s with
        ory.tokens := s.ory.tokens.write [] (thrCore u) (r ++ [h]) } : State).setThread t.toNat (x.put (fD w) 0).step)) ∧
      (tokenRoom ≤ r.length → exec (.oPost t) s =
        .next ((s.count Reg.ORY_CNT_POST_FULL.value).setThread t.toNat (x.put (fD w) 1).step))) ∧
    (s.at_ t.toNat .fence p w k → x.badStore = none → ∀ y : Thread, y = { x with epoch := x.epoch + 1 } →
      (x.posted = [] → exec (.oFence t) s = .next (s.setThread t.toNat y.step)) ∧
      (x.posted ≠ [] → exec (.oFence t) s = .next (s.setThread t.toNat { y with fencing := true }))) ∧
    (s.at_ t.toNat .halt p w k → x.chunk = none → p.unloading = none → ∀ y : Thread, y = { x with halted := true } →
      exec (.oHalt t) s = .next (s.setThread t.toNat y.step)) ∧
    (s.at_ t.toNat .fault p w k → exec (.oFault t) s = .next (s.faultThread t.toNat faultExplicit 0 (fB w).toNat)) ∧
    (s.at_ t.toNat .timer p w k → exec (.oTimer t) s =
      .next ((s.setTimer t.toNat (x.get (fA w)) (x.get (fB w))).setThread t.toNat x.step)) ∧
    (∀ m h, s.ory.timers.find? (fun m => m.thread = t.toNat && decide (m.due ≤ s.ft)) = some m → q.length < tokenRoom →
      s.coreIn (thrCore t.toNat) = true → h = ⟨some t.toNat, (s.thrSlot t.toNat).getD 0,
        BitVec.ofNat 64 (3 + x.partition.toNat * 2 ^ 4), 0, m.payload, 0⟩ →
      exec (.timerTokenFire t) s = .next { s with
        ory.timers := s.ory.timers.erase m, ory.tokens := s.ory.tokens.write [] (thrCore t.toNat) (q ++ [h]) }) ∧
    (∀ (c : BitVec 8) h hs, s.ory.tileTokens = (c.toNat, h) :: hs → (s.ory.tokens.read [] c.toNat).length < tokenRoom →
      exec (.tokenQueueRoom c) s = .next { s with
        ory.tokens := s.ory.tokens.write [] c.toNat (s.ory.tokens.read [] c.toNat ++ [h]), ory.tileTokens := hs }) ∧
    (s.threadReady t.toNat = true → s.thrProg t.toNat = some p →
      (p.overBudget x = true → exec (.budgetExceeded t) s = .next (s.faultThread t.toNat faultBudget)) ∧
      (p.opAt x.pc = none → exec (.illegalInstruction t) s = .next (s.faultThread t.toNat faultIllegal)))

/-- R312 to R316: a program that faults too often is suspended; a watchdog is an input of its core; the three operations
of ORY_PROG_CMD, of which a load takes the staged image if it passes its checks, an unload ends when every thread has
stopped or after 1 ms, and a resume starts the threads again. -/
def Obligations.Programs : Prop :=
  ∀ s : State,
    (∀ (n : BitVec 6) p, s.ory.progs.get n.toNat = some p → s.fld Reg.ORY_CTL.fault_limit ≠ 0 → p.suspended = false →
      s.fld Reg.ORY_CTL.fault_limit < (p.faults.filter fun f => decide (s.ft < f + 16000000000)).length →
      exec (.programSuspend n) s = .next (({ s with ory.progs := s.ory.progs.put n.toNat { p with suspended := true } } : State).raise
        Reg.ORY_INT_STATUS.prog_suspended)) ∧
    (∀ t : BitVec 14, s.threadReady t.toNat = true → s.ory.watchdogs = [] → ∀ u, u = s.albedo 2 (thrCore t.toNat) 9 →
      u.ory.watchdogs = [] → exec (.issueWatchdog t) s =
        .next { u with ory.watchdogs := SMap.write [] [] (thrCore t.toNat / 4) [u.ft] }) ∧
    (∀ (v : W32) u, v.getLsbD 18 = true → s.writable Reg.ORY_PROG_CMD.addr v = true → isConfig Reg.ORY_PROG_CMD.addr = false →
      s.bit Reg.ORY_PROG_CMD.busy = false → u = s.storeFields Reg.ORY_PROG_CMD.addr v →
      (∀ b x st, Reg.ORY_PROG_CMD.op.of v = 0 → b = stageBytes u.cfg.progStage (u.fld Reg.ORY_PROG_LEN.bytes) →
        ({ u.setFld Reg.ORY_PROG_CMD.busy 1 with ory.loadTo := none } : State).progCheck b = (st, some x) →
        exec (.oryProgLoad v) s = .next { u.setFld Reg.ORY_PROG_CMD.busy 1 with ory.loadTo := none, ory.loading := some x }) ∧
      (Reg.ORY_PROG_CMD.op.of v = 1 → u.progSlot (v.toNat % 2 ^ 16) = none → exec (.oryProgUnload v) s = .next (u.progEnd 4)) ∧
      (∀ n p, Reg.ORY_PROG_CMD.op.of v = 1 → u.progSlot (v.toNat % 2 ^ 16) = some (n, p) → u.progBound p.id = false →
        exec (.oryProgUnload v) s = .next (u.beginUnload (v.toNat % 2 ^ 16) true none).1) ∧
      (∀ n p, Reg.ORY_PROG_CMD.op.of v = 2 → u.progSlot (v.toNat % 2 ^ 16) = some (n, p) → exec (.oryProgResume v) s =
        .next (({ u with
          ory.progs := u.ory.progs.put n { p with suspended := false, faults := [] }
          ory.threads := u.ory.threads.filter fun e => !p.idx.contains (thrIndex e.1) } : State).progEnd 1))) ∧
    (∀ n p, s.ory.loading = some (n, p) → s.ory.loadTo = none → ∀ u, u = (s.startProgram n p).reconfigured s →
      exec .programLoadDone s = .next (({ u with ory.loadTo := none, ory.loading := none } : State).progEnd 1)) ∧
    (∀ n p f, s.ory.progs = [(n, p)] → p.unloading = some f → f + 16000000 ≤ s.ft → p.unloadTo = none →
      exec .unloadForceStop s = .next (if p.unloadCmd then ((s.dropProgram n p).reconfigured s).progEnd 1
        else (s.dropProgram n p).reconfigured s))

/-! ### Health, power and temperature -/

/-- R320 to R328 and R331: an input lowers its element's score by its weight, and a score at or above suspect leaves the
state; recovery raises scores; a spare group gains a token; a commanded restore and expulsion, a score written, and the
clearing of the breaker. -/
def Obligations.ScoresAndExpulsions : Prop :=
  ∀ s : State,
    (∀ (c : BitVec 3) (x : BitVec 10) (i : BitVec 5), inputClass i.toNat c.toNat = true → x.toNat < elemCount c.toNat → i.toNat ≠ 3 →
      i.toNat ≠ 6 → c.toNat ≠ 1 → s.bit Reg.HLT_CTL.albedo_en = true → ∀ e n, e = s.elemAt c.toNat x.toNat →
      n = e.score - s.fld (Reg.HLT_WEIGHT.weight i.toNat) → e.state = .ok → e.capped = false → s.fld Reg.HLT_THRESH.suspect ≤ n →
      ∃ t, exec (.albedoInput c x i) s = .next t ∧ t.elemAt c.toNat x.toNat = { e with lastInput := i.toNat, score := n } ∧
        (∀ d y, elemKey d y ≠ elemKey c.toNat x.toNat → t.elemAt d y = s.elemAt d y) ∧
        t = { s with hlt.elems := t.hlt.elems }) ∧
    (exec .scoreRecovery s = .next (if s.bit Reg.HLT_CTL.albedo_en then s.hlt.elems.foldl (fun t e =>
        let x := t.elemAt (e.1 / 1024) (e.1 % 1024)
        if x.score < 1023 then t.setScore (e.1 / 1024) (e.1 % 1024) (min 1023 (x.score + t.fld Reg.HLT_RECOVER.step)) else t) s
      else s)) ∧
    (∀ (g : BitVec 7) p, g.toNat ≤ 100 → p = s.fld (Reg.HLT_BUDGET_CFG.refill (groupClass g.toNat)) * 60 * second → p ≠ 0 →
      s.hlt.refillAt.read 0 g.toNat + p ≤ s.ft → ∀ u : State, u = { s with hlt.refillAt := s.hlt.refillAt.write 0 g.toNat s.ft } →
      exec (.budgetRefill g) s = .next (if s.groupTokens g.toNat < s.fld (Reg.HLT_BUDGET_CFG.burst (groupClass g.toNat)) then
        (u.setFld (Reg.HLT_BUDGET_TOK.tokens g.toNat) (s.groupTokens g.toNat + 1)).retryGroup g.toNat else u)) ∧
    (∀ x : BitVec 10, (s.elemAt 5 x.toNat).state = .expelling → (s.elemAt 5 x.toNat).started = true →
      exec (.expulsionComplete 5 x) s = .next ((s.setFence (BitVec.ofNat 9 x.toNat)
        (if s.bit Reg.HLT_CTL.link_isolate then 2 else 1)).actionDone 5 x.toNat)) ∧
    (∀ x : BitVec 10, (s.elemAt 2 x.toNat).state = .expelling → (s.elemAt 2 x.toNat).started = true →
      exec (.expulsionComplete 2 x) s = .next ((s.coreLeaves x.toNat).actionDone 2 x.toNat)) ∧
    (∀ v : W32, v.getLsbD 1 = true → s.writable Reg.HLT_BREAKER.addr v = true → isConfig Reg.HLT_BREAKER.addr = false →
      ∀ u : State, u = { s.setReg Reg.HLT_BREAKER.addr 0 with hlt.grants := [] } →
      exec (.breakerClear v) s = .next ((List.range 101).foldl (fun t g => t.retryGroup g) u)) ∧
    (∀ (v : W32) u c x, v.getLsbD 2 = true → s.writable Reg.HLT_ELEM_CMD.addr v = true → isConfig Reg.HLT_ELEM_CMD.addr = false →
      u = s.storeFields Reg.HLT_ELEM_CMD.addr v → u.selected = some (c, x) →
      (v.toNat % 4 = 0 → exec (.elemScoreReset v) s = .next ((u.setScore c x 1023).setFld Reg.HLT_ELEM_CMD.status 1)) ∧
      (v.toNat % 4 = 1 → (u.elemAt c x).state = .expelled → exec (.elemRestore v) s = .next (u.restoreElem c x)) ∧
      (v.toNat % 4 = 1 → (u.elemAt c x).state ≠ .expelled →
        exec (.elemRestore v) s = .next (u.setFld Reg.HLT_ELEM_CMD.status 3)) ∧
      (v.toNat % 4 = 2 → (u.elemAt c x).state = .ok → ∀ g, elemGroup c x = some g → u.spareAvailable c x = true →
        exec (.elemExpel v) s = .next (((u.setElemAt c x { u.elemAt c x with
          state := .expelling, started := false, holdReason := 0, manual := true }).setFld Reg.HLT_ELEM_CMD.status 2).nextAction g)) ∧
      (v.toNat % 4 = 2 → (u.elemAt c x).state = .ok → elemGroup c x = none →
        exec (.elemExpel v) s = .next (u.setFld Reg.HLT_ELEM_CMD.status 4))) ∧
    (∀ (g : BitVec 14) (q : BitVec 16) (k : BitVec 24) x a, s.seg g.toNat q k.toNat = some x → x.audit.bind Audit.waitFrom = some a →
      a + max 1 (s.fld Reg.HLT_AUDIT_CFG.audit_wait) * 160 ≤ s.ft →
      exec (.auditWaitExpiry g q k) s = .next ((s.abandonAudit g.toNat q k.toNat x).settle g.toNat))

/-- R333 to R338: the governor keeps the last eight samples and moves its throttles; crit_run at 1,000 is raised; a
reading is shown; 105 C puts every throttle at its maximum until every die has been below 100 C for 1 ms; 110 C snaps the
latches and asserts THERMTRIP_N. -/
def Obligations.PowerAndTemperature : Prop :=
  ∀ s : State,
    (∀ (dom : List Nat) (pkg : Nat) (used : List Nat), ∃ t, exec (.governorRun dom pkg used) s = .next t ∧
      t.hlt.power = ((List.range 6).map (fun n => dom.getD n 0), pkg) :: s.hlt.power.take 7 ∧
      (∀ k, k < 16 → t.hlt.ceilings.read 0 k = min 640 (used.getD k 0 + 64)) ∧
      (s.hlt.critHold = true → t.fld Reg.HLT_THROTTLE.orrery = 56 ∧ t.fld Reg.HLT_THROTTLE.accession = 48 ∧
        t.fld Reg.HLT_THROTTLE.tiles = 48)) ∧
    (s.hlt.critRun = 1000 → exec .powerCrit s = .next (s.raise Reg.HLT_INT_STATUS.power_crit)) ∧
    (∀ tj st : List Int, ∃ t, exec (.temperatureRead tj st) s = .next t ∧
      (∀ d, d < 5 → t.fld (Reg.HLT_TJ_MAX.temp d) = wrap 16 (tj.getD d 0)) ∧
      (∀ k, k < 12 → t.fld (Reg.HLT_STACK_TEMP.temp k) = wrap 16 (st.getD k 0)) ∧
      (∀ d, d < 5 → t.hlt.hot105.read 0 d = if 10500 ≤ tj.getD d 0 then min 3 (s.hlt.hot105.read 0 d + 1) else 0) ∧
      (∀ d, d < 5 → t.hlt.hot110.read 0 d = if 11000 ≤ tj.getD d 0 then min 3 (s.hlt.hot110.read 0 d + 1) else 0)) ∧
    (s.hlt.hot105.any (fun e => 3 ≤ e.2) = true → s.hlt.critHold = false →
      ∃ t, exec .thermalCrit s = .next t ∧ t.hlt.critHold = true ∧ t.bit Reg.HLT_INT_STATUS.thermal_crit = true ∧
        t.fld Reg.HLT_THROTTLE.orrery = 56 ∧ t.fld Reg.HLT_THROTTLE.accession = 48 ∧ t.fld Reg.HLT_THROTTLE.tiles = 48) ∧
    (∀ a, s.hlt.coolSince = some a → s.hlt.critHold = true → a + 16000000 ≤ s.ft →
      exec .thermalCritRelease s = .next { s with hlt.critHold := false }) ∧
    (s.hlt.hot110.any (fun e => 3 ≤ e.2) = true → s.hlt.thermtripOn = false →
      ∃ t, exec .thermtrip s = .next t ∧ t.hlt.thermtripOn = true ∧ t.trn.dark = true ∧
        t.reg Reg.TRN_UMBRA_STAT.addr = 0xFFFFFFFF ∧ t.out.getLast? = some (.pin .thermtripN true))

/-! ### Configuration -/

/-- R343, R348 to R353, R355 and R356: the folio is applied or is BAD; an amendment is staged, is cancelled, arrives in
fragments, or is abandoned; the colophon is computed and reported; a check unit runs. -/
def Obligations.FolioAndAmendments : Prop :=
  ∀ s : State,
    (s.fld Reg.GLB_STATUS.boot = 2 →
      (s.flashFolio = none → exec .folioApply s = .next (s.verifyFail.folioBad ⟨0, 0, 1⟩ [])) ∧
      (∀ b, s.flashFolio = some b → s.folioErr b = none → exec .folioApply s = .next (s.folioGood b)) ∧
      (∀ b e, s.flashFolio = some b → s.folioErr b = some e → e ≠ ⟨0, 0, 1⟩ → ∃ t, exec .folioApply s = .next t ∧
        t = (s.noteProgSig b e).folioBad e (cableDuplicate b).toList ∧ t.fld Reg.GLB_STATUS.boot = 5 ∧
        t.fld Reg.CFG_STATUS.folio_state = 3)) ∧
    (s.bit Reg.CFG_STATUS.colophon_busy = true → exec .colophonRecomputeDone s = .next
      ((((s.putDigest Reg.CFG_COLOPHON.addr (s.digest 1)).putDigest Reg.CFG_LOCAL_DIGEST.addr (s.digest 0)).setFld
        Reg.CFG_STATUS.colophon_busy 0).raise Reg.CFG_INT_STATUS.colophon_ready)) ∧
    (∀ (v : W32) u, s.writable Reg.CFG_AMEND_CMD.addr v = true → isConfig Reg.CFG_AMEND_CMD.addr = false → v.getLsbD 1 = true →
      u = s.storeFields Reg.CFG_AMEND_CMD.addr v →
      (v.getLsbD 0 = false → u.bit Reg.CFG_STATUS.staging_busy = false → ∀ b,
        b = stageBytes u.cfg.amendStage (u.fld Reg.CFG_AMEND_LEN.bytes) → u.amendTrouble b = none →
        exec (.cfgAmendStage v) s = .next (u.stageAmend b).1 ∧ (u.stageAmend b).1.cfg.pendingAmend =
          some { image := b, tAct := imgTAct b, epoch := BitVec.ofNat 32 (imgEpoch b) }) ∧
      (v.getLsbD 0 = true → ∀ a, u.cfg.pendingAmend = some a → (u.act objAmend).pending = true →
        u.ft + u.fld Reg.EPH_ACT_LEAD.value ≤ (u.act objAmend).tAct → ∃ t, exec (.cfgAmendCancel v) s = .next t ∧
        t.cfg.pendingAmend = none ∧ t = ((u.setAct objAmend { u.act objAmend with
          pending := false, state := 0, reason := arNone }).dropAmendment acStaged .amendmentCancelled))) ∧
    (∀ (p : Port) (f : Frame) u k w, f.ftype = ftMgmt → f.dclass = true → s.parked p f 0 = some (u, k) → u.mine f = true →
      w = u.freeBuf k →
      (f.opcode = mgAmendFrag → w.bit Reg.CFG_CTL.mgmt_amend_en = false →
        exec (.amendFrag p f true) s = .next (w.cfgReply p f acFormat)) ∧
      (f.opcode = mgAmendFrag → w.bit Reg.CFG_CTL.mgmt_amend_en = true →
        fragWay (w.cfg.transfers.get xfAmend) (.fabric p f.snode f.swSrc (mgTag f)) f.w5.toNat f.w6.toNat f.payload.length 0x800000
          true = .taken false → ∀ x, x = w.fragTaken xfAmend (.fabric p f.snode f.swSrc (mgTag f)) f.w5.toNat f.w6.toNat
          f.payload.length → exec (.amendFrag p f true) s = .next ((({ x with
            cfg.amendStage := stagePut x.cfg.amendStage f.w5.toNat f.payload } : State).setFld Reg.CFG_STATUS.staging_busy 1).cfgReply
              p f 0)) ∧
      (f.opcode = mgAmendCancel → exec (.mgmtAmendCancel p f true) s = .next (if w.isManager f.snode f.swSrc then
        w.cancelAmend.1.cfgReply p f w.cancelAmend.2 else w.cfgReply p f acNotManager)) ∧
      (f.opcode = mgColophon → w.bit Reg.CFG_CTL.query_en = true →
        exec (.mgmtColophonQuery p f true) s = .next (w.cfgReply p f 0 w.colophonReport))) ∧
    exec .transferIdleTimeout s = .next ((((s.transferIdle 0).transferIdle 1).transferIdle 2).transferIdle 3) ∧
    (∀ k x, s.cfg.transfers.get k = some x → x.answer = none → x.at_ + 1600000000 ≤ s.ft →
      (s.transferIdle k).cfg.transfers.get k = none) ∧
    (∀ (n : BitVec 5) (v : W32) u c, s.writable (Reg.CFG_CU_CTL.addr n.toNat) v = true →
      isConfig (Reg.CFG_CU_CTL.addr n.toNat) = false → (Reg.CFG_CU_CTL.go n.toNat).of v = 1 →
      u = s.storeFields (Reg.CFG_CU_CTL.addr n.toNat) v → u.cfg.cuJobs.get n.toNat = none →
      (u.cuParams n.toNat = none → exec (.checkUnitJob n v) s = .next (u.cuEnds n.toNat 3 1)) ∧
      (∀ w po ini re inv, u.cuParams n.toNat = some (w, po, ini, re, inv) → u.pair (Reg.CFG_CU_LEN_LO.value n.toNat) ≠ 0 →
        u.pair (Reg.CFG_CU_SRC_LO.value n.toNat) + u.pair (Reg.CFG_CU_LEN_LO.value n.toNat) ≤
          (if u.bit (Reg.CFG_CU_CTL.src n.toNat) then flashSize else dpaEnd) →
        c = ({ flash := u.bit (Reg.CFG_CU_CTL.src n.toNat), src := u.pair (Reg.CFG_CU_SRC_LO.value n.toNat), w := w, poly := po,
               len := u.pair (Reg.CFG_CU_LEN_LO.value n.toNat), init := ini, refl := re, inv := inv,
               compare := u.bit (Reg.CFG_CU_CTL.compare_en n.toNat),
               expect := u.pair (Reg.CFG_CU_EXPECT_LO.value n.toNat) } : CuJob) → ∀ x : State,
        x = { u with cfg.cuJobs := u.cfg.cuJobs.put n.toNat c } → exec (.checkUnitJob n v) s = .next
          ((x.setFld (Reg.CFG_CU_STATUS.state n.toNat) 1).setFld (Reg.CFG_CU_STATUS.error n.toNat) 0))) ∧
    (∀ (n : BitVec 5) c r, s.cfg.cuJobs.get n.toNat = some c → c.flash = true → c.compare = false →
      r = crc ((List.range c.len).map fun k => s.flashAt (c.src + k)) c.w c.poly c.init c.refl c.inv →
      exec (.checkUnitDone n false) s = .next ((s.setPair (Reg.CFG_CU_RESULT_LO.value n.toNat) r).cuEnds n.toNat 2 0))

/-! ### Management -/

/-- Table 16-3, with R363 to R365 and R388: each standard command that its transport may run answers on that transport.
The layouts of inputs and answers follow CXL 3.1 (log 47). -/
def Obligations.StandardCommands : Prop :=
  ∀ (s : State) (tp : Transport),
    (s.archWay tp 0x0001 = .run → exec (.identify tp) s = .next (s.archReply tp 0x0001 0 identifyBytes)) ∧
    (s.archWay tp 0x0002 = .run → exec (.backgroundOperationStatus tp) s =
      .next (s.draw.archReply tp 0x0002 0 (s.backgroundStatus tp))) ∧
    (∀ k : Byte, k.toNat < 4 → s.archWay tp 0x0100 = .run →
      exec (.getEventRecords tp [k]) s = .next (s.archReply tp 0x0100 0 (s.eventAnswer k.toNat))) ∧
    (∀ (k : Byte) (h : List Byte), k.toNat < 4 → h.length = 2 → s.archWay tp 0x0101 = .run → ∀ e es,
      s.eventLog k.toNat = e :: es → numAt h 0 2 = e.handle.toNat → s.arc.logOverflow.get k.toNat = none →
      exec (.clearEventRecords tp ([k, 0, 1, 0, 0, 0] ++ h)) s = .next (({ s with
        arc.eventLogs := s.arc.eventLogs.write [] k.toNat es,
        arc.logOverflow := s.arc.logOverflow.del k.toNat } : State).archReply tp 0x0101 0 [])) ∧
    (s.archWay tp 0x0102 = .run →
      exec (.getEventInterruptPolicy tp) s = .next (s.archReply tp 0x0102 0 s.arc.eventPolicy)) ∧
    (∀ x : List Byte, x.length = 4 → s.archWay tp 0x0103 = .run → exec (.setEventInterruptPolicy tp x) s =
      .next (({ s with arc.eventPolicy := x } : State).archReply tp 0x0103 0 [])) ∧
    (s.archWay tp 0x0200 = .run → exec (.getFwInfo tp) s = .next (s.archReply tp 0x0200 0 s.fwInfo)) ∧
    (∀ x : List Byte, s.archWay tp 0x0201 = .run → 128 ≤ x.length → s.xfOpen xfFirmware = false → numAt x 0 1 = 1 →
      numAt x 4 4 = 0 → (x.drop 128).length ≤ 0x4000000 → exec (.transferFw tp x) s =
        .next (((s.fwPut 0 (x.drop 128)).fragTaken xfFirmware tp 0 0 (x.drop 128).length).archReply tp 0x0201 0 [])) ∧
    (∀ x b : List Byte, s.archWay tp 0x0202 = .run → x.length = 2 → numAt x 0 1 = 1 → numAt x 1 1 = 1 → s.goodFw = some b → ∀ u : State, u = { s with sec.fwStaged := true } →
      (u.archReply tp 0x0202 0 []).fld Reg.GLB_STATUS.boot ≠ 4 →
      exec (.activateFw tp x) s = .next (u.archReply tp 0x0202 0 [])) ∧
    (s.archWay tp 0x0300 = .run → exec (.getTimestamp tp) s = .next (s.archReply tp 0x0300 0 (leBytes 8 (s.ft / 16)))) ∧
    (∀ x, s.archWay tp 0x0301 = .refused → exec (.setTimestamp tp x) s = .next (s.archReply tp 0x0301 rcUnsupported [0xFE])) ∧
    (s.archWay tp 0x0400 = .run → exec (.getSupportedLogs tp) s =
      .next (s.archReply tp 0x0400 0 (leBytes 2 1 ++ leBytes 6 0 ++ celId ++ leBytes 4 celBytes.length))) ∧
    (∀ x : List Byte, s.archWay tp 0x0401 = .run → x.length = 24 → x.take 16 = celId →
      numAt x 16 4 + numAt x 20 4 ≤ celBytes.length →
      exec (.getLog tp x) s = .next (s.archReply tp 0x0401 0 (sliceBytes celBytes (numAt x 16 4) (numAt x 20 4)))) ∧
    (s.archWay tp 0x4000 = .run → exec (.identifyMemoryDevice tp) s = .next (s.archReply tp 0x4000 0 s.memoryDevice)) ∧
    (s.archWay tp 0x4200 = .run → exec (.getHealthInfo tp) s = .next (s.draw.archReply tp 0x4200 0 s.healthInfo)) ∧
    (∀ op, s.archWay tp op = .refused →
      exec (.unsupportedCommand tp op) s = .next (s.archReply tp op rcUnsupported [0xFE]))

/-- Table 16-4, with R366, R372, R374 and R375: each command of the device that its transport may run. -/
def Obligations.DeviceCommands : Prop :=
  ∀ (s : State) (tp : Transport) (x : List Byte),
    (∀ o n bs, s.archWay tp 0xC000 = .run → 8 ≤ x.length → o = numAt x 0 4 → n = numAt x 4 4 → bs = x.drop 8 →
      o + bs.length ≠ n → fragWay (s.cfg.transfers.get xfAmend) tp o n bs.length 0x800000 false = .taken false → ∀ u,
      u = s.fragTaken xfAmend tp o n bs.length → exec (.amendTransfer tp x) s = .next ((({ u with
        cfg.amendStage := stagePut u.cfg.amendStage o bs } : State).setFld Reg.CFG_STATUS.staging_busy 1).archReply tp 0xC000 0 [])) ∧
    (s.archWay tp 0xC001 = .run → exec (.amendCancel tp) s =
      .next (s.cancelAmend.1.archReply tp 0xC001 0 [BitVec.ofNat 8 s.cancelAmend.2])) ∧
    (s.archWay tp 0xC002 = .run → s.inBackground tp = false → exec (.groupRecord tp x) s =
      .next ((s.startBackground tp 0xC002).queueRecord x (some (.command tp)))) ∧
    (s.archWay tp 0xC003 = .run → exec (.colophonQuery tp) s = .next (s.archReply tp 0xC003 0 s.colophonReport)) ∧
    (∀ o n bs, s.archWay tp 0xC004 = .run → 8 ≤ x.length → o = numAt x 0 4 → n = numAt x 4 4 → bs = x.drop 8 →
      fragWay (s.cfg.transfers.get xfProgram) tp o n bs.length 262144 false = .taken false →
      s.bit Reg.ORY_PROG_CMD.busy = false → ∀ u, u = s.fragTaken xfProgram tp o n bs.length →
      exec (.programTransfer tp x) s = .next (({ u with
        cfg.progStage := stagePut u.cfg.progStage o bs } : State).archReply tp 0xC004 0 [])) ∧
    (∀ u c, s.archWay tp 0xC005 = .run → x.length = 2 → s.beginUnload (numAt x 0 2) false (some tp) = (u, some c) →
      exec (.programUnload tp x) s = .next (u.archReply tp 0xC005 0 [BitVec.ofNat 8 c])) ∧
    (∀ o n bs, s.archWay tp 0xC006 = .run → 8 ≤ x.length → o = numAt x 0 4 → n = numAt x 4 4 → bs = x.drop 8 →
      fragWay (s.cfg.transfers.get xfFolio) tp o n bs.length 0x8000000 false = .taken false →
      s.backgroundOf 0xC006 = false → ∀ u, u = s.fragTaken xfFolio tp o n bs.length →
      exec (.folioTransfer tp x) s = .next (({ u with
        cfg.flash.folio := flashPut (if o = 0 then [] else u.cfg.flash.folio) o bs } : State).archReply tp 0xC006 0 [])) ∧
    (∀ e k, s.arc.background.find? (fun e => e.2.opcode = 0xC006) = some (k, e) →
      exec .folioVerifyDone s = .next ((if s.folioVerdict = 1 then s.verifyFail else s).endBackground e.tp 0xC006 0
        [BitVec.ofNat 8 s.folioVerdict])) ∧
    (s.archWay tp 0xC007 = .run → x.length = 10 → exec (.almanacRead tp x) s = .next (s.archReply tp 0xC007 0
      (((s.almanacFrom (numAt x 0 8)).take (min (numAt x 8 2) (almanacLimit tp))).flatMap AlmRec.bytes))) ∧
    (s.archWay tp 0xC008 = .run → x.length = 4 → numAt x 0 4 < 768 →
      exec (.summaryRead tp x) s = .next (s.archReply tp 0xC008 0 (s.summaryBlock (numAt x 0 4)))) ∧
    (s.archWay tp 0xC009 = .run → x.length = 4 → numAt x 0 2 + numAt x 2 2 ≤ 647 → exec (.sensorRead tp x) s =
      .next (s.archReply tp 0xC009 0 ((List.range (numAt x 2 2)).flatMap fun k =>
        leBytes 4 (s.reg (sensorOff (numAt x 0 2 + k))).toNat))) ∧
    (∀ o n, s.archWay tp 0xC00A = .run → x.length = 6 → o = numAt x 0 4 → n = numAt x 4 2 → o % 4 = 0 → n ≤ 256 →
      o + 4 * n ≤ 0x20000000 → s.apertureAbsent o n = false → exec (.regRead tp x) s = .next
        ((State.readWords (Machine.Requester.ofTransport tp) n o s).1.archReply tp 0xC00A 0 (State.readWords (Machine.Requester.ofTransport tp) n o s).2)) ∧
    (∀ o, s.archWay tp 0xC00B = .run → x.length = 8 → o = numAt x 0 4 → o % 4 = 0 → o < 0x20000000 →
      o ≠ Reg.GLB_RESET_CMD.addr → exec (.regWrite tp x) s = .next ((s.writeWord (Machine.Requester.ofTransport tp) o
        (BitVec.ofNat 32 (numAt x 4 4))).archReply tp 0xC00B 0 [])) ∧
    (s.archWay tp 0xC00C = .run → x.length = 4 → numAt x 0 4 = 0x52455345 →
      exec (.deviceReset tp x) s = .next ((s.archReply tp 0xC00C 0 []).startDeviceReset))

/-- R369 to R376: what the Archivist does by time and by its port: the SRAM ring is copied, a summary is written, sensors
are read, the watchdog lapses, an alert is acknowledged, and a frame to the port is taken. How fragments of the port
become a command: log 67. -/
def Obligations.ArchivistEvents : Prop :=
  ∀ s : State,
    (s.almanacHome = true → s.alm.copied < s.alm.seq → s.alm.seq = s.alm.copied + s.alm.uncopied.length →
      exec .almanacCopy s = .next { s with
        alm.stack := (s.alm.uncopied ++ s.alm.stack).take 1048576, alm.copied := s.alm.seq }) ∧
    (s.archRuns = true → s.summaryDue = true → ∃ t, exec .summaryWrite s = .next t ∧ t = s.writeSummary ∧
      t.arc.summarySeq = s.arc.summarySeq + 1 ∧ t.arc.summaryTo = s.alm.seq ∧ t.arc.summaryAt = s.ft) ∧
    (∀ (tj : List Int) (rails : List W32), s.archRuns = true → ∃ t, exec (.sensorSample tj rails) s = .next t ∧
      (∀ n y, n < 640 → tj[n]? = some y → t.fld (Reg.GLB_SENSOR.temp n) = wrap 16 y) ∧
      (∀ r w, r < 7 → rails[r]? = some w → t.reg (Reg.GLB_RAIL.addr r) = w)) ∧
    (s.archRuns = true → ∃ t, exec .archivistWatchdogLapse s = .next t ∧ t.bit Reg.GLB_STATUS.arch_hung = true ∧
      t.bit Reg.GLB_INT_STATUS.arch_hung = true ∧ t.alm.seq = s.alm.seq + 1 ∧ t.archRuns = false) ∧
    (∀ v : W32, Reg.GLB_CTL.alert_ack.of v = 1 → s.eph.state.drives = false →
      exec (.alertAck v) s = .next (s.writeGlbCtl v)) ∧
    (∀ (src : BitVec 48) (body : List Byte) op tag, s.bit Reg.GLB_CTL.oob_en = true → 2 ≤ s.fld Reg.GLB_STATUS.boot →
      16 ≤ body.length → body.length ≤ 1040 → numAt body 8 4 = 0 → tag = BitVec.ofNat 16 (numAt body 0 2) →
      op = BitVec.ofNat 16 (numAt body 2 2) →
      (numAt body 4 1 = 0 → exec (.oobFrame s.oobMac src 0x88B5 body) s = .next { s with arc.oobRx := some {
        mac := src, tag := tag, command := op, bytes := (body.drop 16).take (numAt body 12 4) } }) ∧
      (numAt body 4 1 = 2 → op = 0x0001 → numAt body 12 4 = 0 → ∀ u : State, u = { s with arc.oobRx := none } →
        u.archWay (.oob src tag) 0x0001 = .run → exec (.oobFrame s.oobMac src 0x88B5 body) s =
          .next (u.archReply (.oob src tag) 0x0001 0 identifyBytes)))

/-- R293, R361, R362, R367 and R369: a decoder commits or is in error; a CXL.mem read answers the bytes of its word, a
write stores them and changes no other byte; an address that no decoder claims reads all-ones; the CDAT's bytes sum to
zero; a host-link reset resets the host interface and leaves memory; the link trains. The form of decoders and the layout
of the CDAT: log 52 and 54. -/
def Obligations.HostInterface : Prop :=
  ∀ s : State,
    (s.bit Reg.GLB_STATUS.host_up = true →
      (∀ (n : BitVec 2) (b z : W64) (w g x : Nat) (p : W64) d, d = (⟨b, z, w, g, x, p, false, false⟩ : HdmDecoder) →
        exec (.hdmDecoderCommit n b z w g x p) s = .next { s with
          hdm := s.hdm.write { } n.toNat { d with committed := s.decoderOk n.toNat d, error := !s.decoderOk n.toNat d } }) ∧
      (∀ (a : W64) (io : ChannelIo), s.hpaDpa a = none →
        exec (.cxlMemRead a io) s = .next ((s.hdmUnclaimed a).emit (.memData a (List.replicate 64 0xFF))) ∧
        ∀ bs, exec (.cxlMemWrite a bs io) s = .next ((s.hdmUnclaimed a).emit (.memDone a))) ∧
      (∀ (a : W64) (io : ChannelIo) d, s.hpaDpa a = some d → io.corrected = 0 → s.pmuRuns = false →
        s.holdPage d 64 io (.cxlRead a) = none →
        exec (.cxlMemRead a io) s = .next (s.emit (.memData a (s.bytesAt d 64)))) ∧
      (∀ (a : W64) (bs : List Byte) (io : ChannelIo) d, s.hpaDpa a = some d → bs.length = 64 →
        s.holdWords d [] io (.cxlWrite a bs) = none → ∃ t, exec (.cxlMemWrite a bs io) s = .next t ∧
        t = (s.storeMem d bs).emit (.memDone a) ∧ t.bytesAt d 64 = bs ∧
        ∀ x, (x < d ∨ d + 64 ≤ x) → t.byteAt x = s.byteAt x) ∧
      exec .cdatRead s = .next (s.emit (.doe s.cdat)) ∧ s.cdat.foldl (fun a b => a + b) (0 : Byte) = 0) ∧
    (∃ t, exec .hostLinkReset s = .next t ∧ t.bit Reg.GLB_STATUS.host_up = false ∧ t.hdm = [] ∧ t.msixEnable = false ∧
      t.pwr.perst = true ∧ t.sec.spdm = 0 ∧ t.stk.mem = s.stk.mem ∧ t.links = s.links ∧ t.eph = s.eph) ∧
    (∀ (w : BitVec 3) (r : BitVec 2) (m : Bool), s.pwr.perst = true → s.pwr.resetting = false → 1 ≤ w.toNat → w.toNat ≤ 3 →
      r.toNat ≤ 2 → ∃ t, exec (.perstNDeassert w r m) s = .next t ∧ t.pwr.perst = false ∧
      t.bit Reg.GLB_STATUS.host_up = true ∧ t.fld Reg.GLB_STATUS.host_width = w.toNat ∧
      t.fld Reg.GLB_STATUS.host_rate = r.toNat ∧ t.msixEnable = m)

/-! ### Security -/

/-- R384 and R390 to R392: an owner record is installed, or refused for its signature; debug is unlocked, or refused where
it is disabled; each SPDM request in its turn is answered, and any other with an error. SPDM messages follow DSP0274 (log
61); a device that has no owner installs in slot 0 (log 63). -/
def Obligations.SecurityCommands : Prop :=
  ∀ s : State,
    (∀ (v : W32) u b, s.writable Reg.SEC_OWNER_CMD.addr v = true → isConfig Reg.SEC_OWNER_CMD.addr = false →
      s.bit Reg.SEC_OWNER_CMD.busy = false → Reg.SEC_OWNER_CMD.go.of v = 1 → u = s.storeFields Reg.SEC_OWNER_CMD.addr v →
      b = u.secObject →
      (Reg.SEC_OWNER_CMD.op.of v = 0 → u.bit Reg.SEC_STATUS.owner = false →
        (recordVerifies b roleOwner ctxOwner b = false → exec (.ownerInstall v) s = .next (u.verifyFail.ownerEnds 2)) ∧
        (recordVerifies b roleOwner ctxOwner b = true → ownerFormatOk b = false →
          exec (.ownerInstall v) s = .next (u.ownerEnds 3)) ∧
        (recordVerifies b roleOwner ctxOwner b = true → ownerFormatOk b = true → exec (.ownerInstall v) s =
          .next ((({ u with cfg.flash.owner0 := b } : State).setFld Reg.SEC_STATUS.install_pending 1).ownerEnds 1))) ∧
      (Reg.SEC_OWNER_CMD.op.of v = 1 →
        (u.bit Reg.SEC_CTL.debug_auth_en = false → exec (.debugAuthorization v) s = .next (u.ownerEnds 6)) ∧
        (u.bit Reg.SEC_CTL.debug_auth_en = true → signerOk b 64 = true → signedBy (sliceBytes b 64 57) ctxDebug b = true →
          u.debugFormat b = true → exec (.debugAuthorization v) s = .next ((((u.setFld Reg.SEC_STATUS.debug_unlocked 1).setFld
            Reg.SEC_STATUS.alias_ready 0).raise Reg.SEC_INT_STATUS.debug_unlock).ownerEnds 1)))) ∧
    (∀ req : List Byte,
      (s.spdmReady spVersion 0 req → exec (.getVersion req) s = .next (({ s with
        sec.spdm := 1, sec.spdmA := req ++ versionAnswer, sec.spdmB := [], sec.spdmL := [] } : State).emit (.doe versionAnswer))) ∧
      (s.spdmReady spCapabilities 1 req → exec (.getCapabilities req) s = .next (({ s.draw with
        sec.spdm := 2, sec.spdmA := s.sec.spdmA ++ req ++ s.capabilitiesAnswer } : State).emit (.doe s.capabilitiesAnswer))) ∧
      (s.spdmReady spAlgorithms 2 req → 32 ≤ req.length → exec (.negotiateAlgorithms req) s = .next (({ s with
        sec.spdm := 3, sec.spdmA := s.sec.spdmA ++ req ++ algorithmsAnswer req } : State).emit (.doe (algorithmsAnswer req)))) ∧
      (s.spdmReady spDigests 3 req → exec (.getDigests req) s = .next (({ s with
        sec.spdmB := s.sec.spdmB ++ req ++ s.digestsAnswer } : State).emit (.doe s.digestsAnswer))) ∧
      (∀ a, s.spdmReady spCertificate 3 req → s.noIdentity = false → req.length = 8 → spdmParam1 req % 16 = 0 →
        numAt req 4 2 < s.chain.length → a = s.certificateAnswer (numAt req 4 2) (numAt req 6 2) →
        exec (.getCertificate req) s = .next (({ s with sec.spdmB := s.sec.spdmB ++ req ++ a } : State).emit (.doe a))) ∧
      (∀ b, s.spdmReady spChallenge 3 req → s.noAlias = false → req.length = 44 → spdmParam1 req % 16 = 0 → spdmParam2 req = 0 →
        b = s.challengeBody req → exec (.challenge req) s = .next (({ s.draw with sec.spdmB := [] } : State).emit
          (.doe (b ++ s.aliasSig "responder-challenge_auth signing" (s.sec.spdmA ++ s.sec.spdmB ++ req ++ b))))) ∧
      (∀ bs l, s.spdmReady spMeasurements 3 req → s.noAlias = false → spdmParam1 req % 2 = 0 → req.length = 12 →
        s.blocks (spdmParam2 req) = some bs → l = s.measurementsBody (spdmParam2 req) bs (sliceBytes req 4 8) →
        exec (.getMeasurements req) s = .next (({ s.draw with sec.spdmL := s.sec.spdmL ++ req ++ l } : State).emit (.doe l))) ∧
      (∀ c, c = spdmCode req → spdmKnown.contains c = false → s.spdmReady c 0 req →
        exec (.spdmUnsupportedRequest req) s = .next (s.emit (.doe (spdmError 0x07 c)))))

/-! ### Resets and the PMU -/

/-- R386, R388, R397 to R407 and R431: what each reset leaves and starts. -/
def Obligations.ResetsAndSupply : Prop :=
  ∀ s : State,
    (s.pwr.porst = false → ∃ t, exec .porstNAssert s = .next t ∧ t.pwr.porst = true ∧ t.fld Reg.GLB_STATUS.boot = 0 ∧
      t.eph.acc = 0 ∧ t.trn.dark = true ∧ t.links = [] ∧ t.stk.mem = s.stk.mem ∧ t.cfg.flash = s.cfg.flash) ∧
    (∀ mJ : Nat, s.pwr.porst = true → s.pwr.supplyLost = false → ∃ t, exec (.porstNDeassert mJ) s = .next t ∧
      t.pwr.porst = false ∧ t.fld Reg.GLB_STATUS.boot = 1 ∧ t.stk.mem = s.stk.mem ∧
      (3000 ≤ mJ → t.pwr.reserveOk = true) ∧ (mJ < 3000 → t.pwr.reserveOk = s.pwr.reserveOk)) ∧
    (∀ u, s.fld Reg.GLB_STATUS.boot = 1 → u = s.deriveIdentity →
      (∀ b, u.goodFw = some b → exec .firmwareVerifyDone s = .next (u.firmwareStarts b)) ∧
      (u.goodFw = none → exec .firmwareVerifyDone s = .next u.verifyFw.1.enterRecovery)) ∧
    (∀ ok : BitVec 12, s.fld Reg.GLB_STATUS.boot = 3 → s.fld Reg.STK_STATUS.stack_ok = 0 → ok ≠ 0 →
      ∃ t, exec (.stackTrained ok) s = .next t ∧ t.fld Reg.STK_STATUS.stack_ok = ok.toNat ∧
      (s.stk.fillPending = true → t.bit Reg.STK_STATUS.fill_busy = true) ∧
      (s.stk.fillPending = false → t.bit Reg.STK_STATUS.fill_done = true) ∧
      (ok ≠ 0xFFF → t.bit Reg.STK_INT_STATUS.stack_fail = true)) ∧
    (∀ mJ : Nat, s.held = false → 1 ≤ s.fld Reg.GLB_STATUS.boot → s.pwr.reserveOk = false → 3000 ≤ mJ →
      exec (.reserveRecheck mJ) s = .next ({ s with pwr.reserveOk := true } : State).releaseReady) ∧
    (s.pwr.supplyLost = false → ∃ t, exec .supplyLoss s = .next t ∧ t.pwr.supplyLost = true ∧
      t.fld Reg.GLB_STATUS.boot = 0 ∧ t.eph.acc = 0 ∧ t.trn.dark = true ∧ t.alm.stack = [] ∧ t.cfg.flash = s.cfg.flash) ∧
    (∀ mJ : Nat, s.pwr.supplyLost = true → s.pwr.porst = false → ∃ t, exec (.supplyRestored mJ) s = .next t ∧
      t.pwr.supplyLost = false ∧ t.fld Reg.GLB_STATUS.boot = 1) ∧
    (s.held = false → exec .vinLow s = .next (s.log 0x00 .vinLow)) ∧
    (s.held = false → s.pwr.refclkBad = false → ∃ t, exec .refclkFault s = .next t ∧ t.pwr.refclkBad = true ∧
      t.trn.dark = true ∧ t.bit Reg.GLB_STATUS.alert = true ∧ t.alm = s.alm ∧ t.stk.mem = s.stk.mem) ∧
    (∀ v : W32, s.writable Reg.GLB_RESET_CMD.addr v = true → isConfig Reg.GLB_RESET_CMD.addr = false →
      Reg.GLB_RESET_CMD.go.of v = 1 → Reg.GLB_RESET_CMD.key.of v = 0x5253 →
      (s.deaf = true → exec (.glbResetCmd v) s = .next s) ∧
      (s.deaf = false → s.pwr.resetting = false → ∃ t, exec (.glbResetCmd v) s = .next t ∧ t.fld Reg.GLB_STATUS.boot = 1 ∧
        t.eph.acc = s.eph.acc ∧ t.eph.state = .acquire ∧ t.trn.dark = true ∧ t.links = [] ∧
        t.pwr.resetting = true ∧ t.pwr.deviceReset = true))

/-- R413: freeze written as 1 stops every programmable and ledger counter, and 0 starts them again; while frozen nothing
is counted, so every counter keeps its value; with freeze_on_ovf an overflow of a programmable counter sets freeze. Beside
it R411, R412 and R415: software writes a counter by its pair, and slots are entered in the ledger while ledger_en is 1.
-/
def Obligations.PmuCounters : Prop :=
  ∀ s : State,
    (∀ v : W32, s.writable Reg.PMU_CTL.addr v = true → isConfig Reg.PMU_CTL.addr = false → ∃ t, exec (.pmuFreeze v) s = .next t ∧
      t = s.storeFields Reg.PMU_CTL.addr v ∧ t.bit Reg.PMU_CTL.freeze = decide (Reg.PMU_CTL.freeze.of v = 1) ∧
      (Reg.PMU_CTL.freeze.of v = 1 → t.pmuRuns = false) ∧
      (Reg.PMU_CTL.freeze.of v = 0 → Reg.PMU_CTL.global_en.of v = 1 → t.pmuRuns = true) ∧
      ∀ o, o ≠ Reg.PMU_CTL.addr → t.reg o = s.reg o) ∧
    (s.bit Reg.PMU_CTL.freeze = true →
      (∀ b e x vc k g, s.pmuEvent b e x vc k g = s) ∧ (∀ e c k, s.ledgerAdd e c k = s) ∧
      ∀ src k th, exec (.pmuCounterOverflow src k th) s = .next s) ∧
    (∀ (b e : BitVec 8) (x : BitVec 10) vc (k : Nat) th, 1 ≤ e.toNat → e.toNat ≤ pmuEvents b.toNat → b ≠ 0x14 →
      ∃ t, exec (.pmuCounterOverflow (.event b e x vc) k th) s = .next t ∧
      t = s.pmuEvent b.toNat e.toNat x.toNat (vc.map BitVec.toNat) k none ∧
      (s.pmuRuns = true → s.bit Reg.PMU_CTL.freeze_on_ovf = true → ∀ n, n < 64 →
        s.pmuMatches n b.toNat e.toNat x.toNat (vc.map BitVec.toNat) = true →
        2 ^ 48 ≤ s.pair (Reg.PMU_CNT_LO.value n) + k → t.bit Reg.PMU_CTL.freeze = true)) ∧
    (∀ (off : BitVec 29) (v : W32), isPmuCounter off.toNat = true → s.answers off.toNat = true →
      (isLow off.toNat = true → exec (.pmuCounterWrite off v) s =
        .next { s with heldLow := s.heldLow.put (latchKey .host off.toNat) v }) ∧
      (isLow off.toNat = false → ∀ a, s.heldLow.get (latchKey .host (off.toNat - 4)) = some a →
        exec (.pmuCounterWrite off v) s = .next (({ s with
          heldLow := s.heldLow.del (latchKey .host (off.toNat - 4)) } : State).writePair (off.toNat - 4) a v))) ∧
    (∀ (e : BitVec 9) (c : BitVec 3) (k : Nat) (th : Option (BitVec 14 × BitVec 16 × BitVec 15)) f, e.toNat < 288 → c.toNat < 5 →
      f = ledgerLo e.toNat c.toNat → s.pmuRuns = true → s.bit Reg.PMU_CTL.ledger_en = true →
      (s.pair f + k < 2 ^ 48 → exec (.pmuCounterOverflow (.ledger e c) k th) s = .next (s.setPair f (s.pair f + k))) ∧
      (2 ^ 48 ≤ s.pair f + k → exec (.pmuCounterOverflow (.ledger e c) k th) s =
        .next (((s.setPair f ((s.pair f + k) % 2 ^ 48)).setFld ⟨Reg.PMU_SL_OVF.addr e.toNat, c.toNat, 1⟩ 1).raise
          Reg.PMU_INT_STATUS.ledger_ovf)))
end

