-- ==== Sys2Proof/Laws/Kept.lean ====
section
/-!
SUPPORT. What most operations leave as it is: the queue of waiting commands, and the timing counter with its rate (R36).
One lemma for each operation says so; only a few (Laws/Clock.lean) change any of it.
-/

namespace Sys2Proof.Machine
/-- What most commands leave as it is: the queue, and the timing counter with its rate. -/
structure Kept where
  pending : List Instr
  adj : Int
  integ : Int
  acc : BitVec 112
def State.kept (s : State) : Kept := ⟨s.pending, s.eph.adj, s.eph.integ, s.eph.acc⟩
@[simp] theorem State.kept_mk (pending : List Instr) (out : List Output) (fresh : Nat) (regs : SMap W32) (latches : SMap W32) (heldLow : SMap W32) (alm : Almanac) (msixEnable : Bool) (hdm : SMap HdmDecoder) (swAddr : BitVec 11) (eph : Ephemeris) (ptime : SMap PortTime) (pulses : SMap Pulse) (acts : SMap Act) (gateActive : SMap Bank) (gateShadow : SMap Bank) (calActive : Bank) (calShadow : Bank) (opt : Optics) (trn : Transit) (links : SMap Link) (fwd : Forwarding) (bufs : SMap Buf) (flows : SMap Flow) (queues : SMap (List Nat)) (originWait : List OriginWait) (cores : SMap DieCore) (mirSeen : SMap Nat) (sch : Scheduling) (cnj : Conjunction) (stk : StackMem) (msf : MsfUnit) (ory : Orrery) (hlt : Health) (cfg : ConfigUnit) (arc : Archive) (sec : Security) (pwr : Power) :
    (State.mk pending out fresh regs latches heldLow alm msixEnable hdm swAddr eph ptime pulses acts gateActive gateShadow calActive calShadow opt trn links fwd bufs flows queues originWait cores mirSeen sch cnj stk msf ory hlt cfg arc sec pwr).kept = ⟨pending, eph.adj, eph.integ, eph.acc⟩ := rfl
@[simp] theorem State.kept_eta (s : State) : (⟨s.pending, s.eph.adj, s.eph.integ, s.eph.acc⟩ : Kept) = s.kept := rfl
@[simp] theorem ite_kept (c : Prop) [Decidable c] (a b : State) : (if c then a else b).kept = if c then a.kept else b.kept := by split <;> rfl
@[simp] theorem ite_fst {α β : Type} (c : Prop) [Decidable c] (a b : α × β) : (if c then a else b).1 = if c then a.1 else b.1 := by split <;> rfl
@[simp] theorem foldl_kept {α : Type} (f : State → α → State) (h : ∀ s a, (f s a).kept = s.kept) (l : List α) (s : State) : (l.foldl f s).kept = s.kept := by
  induction l generalizing s with
  | nil => rfl
  | cons a l ih => simp [ih, h]
theorem foldl_keeps {α : Type} (f : State → α → State) (h : ∀ s a, (f s a).kept = s.kept) (l : List α) (s : State) : (l.foldl f s).kept = s.kept := foldl_kept f h l s
theorem foldl_fst_keeps {α β : Type} (f : State × β → α → State × β) (h : ∀ s a, (f s a).1.kept = s.1.kept)
    (l : List α) (s : State × β) : (l.foldl f s).1.kept = s.1.kept := by
  induction l generalizing s with
  | nil => rfl
  | cons a l ih => simp [ih, h]
theorem findSome_keeps {α : Type} {s t : State} (f : α → Option State) (h : ∀ a t, f a = some t → t.kept = s.kept)
    (l : List α) (e : l.findSome? f = some t) : t.kept = s.kept := by
  obtain ⟨a, -, ha⟩ := List.exists_of_findSome?_eq_some e
  exact h a t ha
theorem keeps_trans {s t u : State} (h2 : u.kept = t.kept) (h1 : t.kept = s.kept) : u.kept = s.kept := h2.trans h1
theorem keeps_of_eq {β : Type} {s t : State} {b : β} {p : State × β} (h : p = (t, b)) (k : p.1.kept = s.kept) :
    t.kept = s.kept := by
  subst h; exact k
end Sys2Proof.Machine
end

