-- ==== Sys2Proof/Laws/KeepOps.lean ====
section
/-!
SUPPORT. What leaves the queue and the timing counter as they are: the named operations, egress and stack memory.
-/

set_option linter.unusedSimpArgs false

namespace Sys2Proof.Machine

/-! ### Ops -/

@[simp] theorem State.draw_keeps (s : State) :
    (State.draw s).kept = s.kept := by
  simp [State.draw]

@[simp] theorem State.emit_keeps (s : State) (a1 : Output) :
    (State.emit s a1).kept = s.kept := by
  simp [State.emit]

@[simp] theorem State.setAct_keeps (s : State) (a1 : Nat) (a2 : Act) :
    (State.setAct s a1 a2).kept = s.kept := by
  simp [State.setAct]

@[simp] theorem State.setCore_keeps (s : State) (a1 : Nat) (a2 : DieCore) :
    (State.setCore s a1 a2).kept = s.kept := by
  simp [State.setCore]

@[simp] theorem State.setElem_keeps (s : State) (a1 : Nat) (a2 : Nat) (a3 : Element) :
    (State.setElem s a1 a2 a3).kept = s.kept := by
  simp [State.setElem]

@[simp] theorem State.setEngine_keeps (s : State) (a1 : Nat) (a2 : Engine) :
    (State.setEngine s a1 a2).kept = s.kept := by
  simp [State.setEngine]

@[simp] theorem State.setReg_keeps (s : State) (a1 : Nat) (a2 : W32) :
    (State.setReg s a1 a2).kept = s.kept := by
  simp [State.setReg]

@[simp] theorem State.setFld_keeps (s : State) (a1 : Fld) (a2 : Nat) :
    (State.setFld s a1 a2).kept = s.kept := by
  simp [State.setFld]

@[simp] theorem State.setHeater_keeps (s : State) (a1 : Nat) (a2 : Nat) (a3 : Heater) :
    (State.setHeater s a1 a2 a3).kept = s.kept := by
  simp [State.setHeater]

@[simp] theorem State.setLine_keeps (s : State) (a1 : Nat) (a2 : Nat) (a3 : Line) :
    (State.setLine s a1 a2 a3).kept = s.kept := by
  simp [State.setLine]

@[simp] theorem State.setLink_keeps (s : State) (a1 : Port) (a2 : Link) :
    (State.setLink s a1 a2).kept = s.kept := by
  simp [State.setLink]

@[simp] theorem State.setPair_keeps (s : State) (a1 : Fld) (a2 : Nat) :
    (State.setPair s a1 a2).kept = s.kept := by
  simp [State.setPair]

@[simp] theorem State.setPlane_keeps (s : State) (a1 : Nat) (a2 : Plane) :
    (State.setPlane s a1 a2).kept = s.kept := by
  simp [State.setPlane]

@[simp] theorem State.setTime_keeps (s : State) (a1 : Port) (a2 : PortTime) :
    (State.setTime s a1 a2).kept = s.kept := by
  simp [State.setTime]

/-! ### Flags -/

@[simp] theorem State.addEvent_keeps (s : State) (a1 : Nat) (a2 : EventRec) :
    (State.addEvent s a1 a2).kept = s.kept := by
  simp [State.addEvent]

@[simp] theorem State.alertFrom_keeps (s : State) (a1 : State) :
    (State.alertFrom s a1).kept = s.kept := by
  simp [State.alertFrom]

@[simp] theorem State.count_keeps (s : State) (a1 : Fld) (a2 : Nat) :
    (State.count s a1 a2).kept = s.kept := by
  simp [State.count]

@[simp] theorem State.sendMsix_keeps (s : State) (a1 : Nat) :
    (State.sendMsix s a1).kept = s.kept := by
  simp [State.sendMsix]

@[simp] theorem State.msixFrom_keeps (s : State) (a1 : State) (a2 : Nat) :
    (State.msixFrom s a1 a2).kept = s.kept := by
  simp [State.msixFrom]

@[simp] theorem State.raise_keeps (s : State) (a1 : Fld) :
    (State.raise s a1).kept = s.kept := by
  simp [State.raise]

@[simp] theorem State.logSev_keeps (s : State) (a1 : Nat) (a2 : BitVec 8) (a3 : AlmEvent) (a4 : Nat) (a5 : List Nat) :
    (State.logSev s a1 a2 a3 a4 a5).kept = s.kept := by
  simp [State.logSev]

@[simp] theorem State.log_keeps (s : State) (a1 : BitVec 8) (a2 : AlmEvent) (a3 : Nat) (a4 : List Nat) :
    (State.log s a1 a2 a3 a4).kept = s.kept := by
  simp [State.log]

@[simp] theorem State.pmuSample_keeps (s : State) (a1 : Nat) (a2 : Nat) (a3 : Nat) (a4 : Option (Nat × Nat × Nat)) :
    (State.pmuSample s a1 a2 a3 a4).kept = s.kept := by
  simp [State.pmuSample]

@[simp] theorem State.pmuAdd_keeps (s : State) (a1 : Nat) (a2 : Nat) (a3 : Nat) (a4 : Nat) (a5 : Option (Nat × Nat × Nat)) :
    (State.pmuAdd s a1 a2 a3 a4 a5).kept = s.kept := by
  simp [State.pmuAdd]

@[simp] theorem State.pmuEvent_keeps (s : State) (a1 : Nat) (a2 : Nat) (a3 : Nat) (a4 : Option Nat) (a5 : Nat) (a6 : Option (Nat × Nat × Nat)) :
    (State.pmuEvent s a1 a2 a3 a4 a5 a6).kept = s.kept := by
  simp [State.pmuEvent]

@[simp] theorem State.regAccess_keeps (s : State) (a1 : Nat) :
    (State.regAccess s a1).kept = s.kept := by
  simp [State.regAccess]

/-! ### Egress -/

@[simp] theorem State.countSpill_keeps (s : State) (a1 : Nat) (a2 : Nat) :
    (State.countSpill s a1 a2).kept = s.kept := by
  simp [State.countSpill]

@[simp] theorem State.freeCells_keeps (s : State) (a1 : Port) (a2 : BitVec 3) (a3 : Nat) :
    (State.freeCells s a1 a2 a3).kept = s.kept := by
  simp [State.freeCells]

@[simp] theorem State.freeBuf_keeps (s : State) (a1 : Nat) :
    (State.freeBuf s a1).kept = s.kept := by
  unfold State.freeBuf
  (repeat' split) <;> simp

@[simp] theorem State.wake_keeps (s : State) (a1 : Nat) (a2 : Port) (a3 : BitVec 3) :
    (State.wake s a1 a2 a3).kept = s.kept := by
  unfold State.wake
  exact foldl_keeps _ (by intro s x; dsimp only; split <;> simp) _ _


@[simp] theorem State.takeCells_keeps (s : State) (a1 : Nat) (a2 : Port) (a3 : BitVec 3) (a4 : List (BitVec 24)) :
    (State.takeCells s a1 a2 a3 a4).kept = s.kept := by
  simp [State.takeCells]

@[simp] theorem State.dropDest_keeps (s : State) (a1 : Nat) (a2 : Port) :
    (State.dropDest s a1 a2).kept = s.kept := by
  unfold State.dropDest
  try simp
  (repeat' split) <;> (try simp only [Prod.ext_iff] at *) <;> (try repeat cases ‹_ ∧ _›) <;> (try subst_vars) <;> simp

@[simp] theorem State.newDest_keeps (s : State) (a1 : Nat) (a2 : Nat) (a3 : Port) (a4 : Frame) :
    (State.newDest s a1 a2 a3 a4).1.kept = s.kept := by
  simp [State.newDest]

@[simp] theorem State.spillBuf_keeps (s : State) (a1 : Nat) :
    (State.spillBuf s a1).kept = s.kept := by
  unfold State.spillBuf
  split <;> simp

@[simp] theorem spillDown_keeps (a0 : Nat) (a1 : Nat) (s : State) :
    (spillDown a0 a1 s).kept = s.kept := by
  induction a1 generalizing s with
  | zero => simp [spillDown]
  | succ n ih =>
    unfold spillDown
    split
    · simp
    · split <;> simp [ih]


@[simp] theorem State.putBuf_keeps (s : State) (a1 : Nat) (a2 : Nat) (a3 : Buf) :
    (State.putBuf s a1 a2 a3).1.kept = s.kept := by
  simp [State.putBuf]

@[simp] theorem newDests_keeps (a0 : Nat) (a1 : Nat) (a2 : List (Port × Frame)) (s : State) :
    (newDests a0 a1 a2 s).1.kept = s.kept := by
  induction a2 generalizing s with
  | nil => simp [newDests]
  | cons c cs ih => obtain ⟨p, f⟩ := c; simp [newDests, ih]


theorem State.place_keeps (s t : State) (d : Nat) (i : Option Port) (vc : BitVec 3) (st : Stamp) (n : Nat) (o : Owner)
    (cs : List (Port × Frame)) (h : s.place d i vc st n o cs = some t) :
    t.kept = s.kept := by
  unfold State.place at h
  split at h
  · cases h
  · simp only [Option.some.injEq] at h
    subst h
    simp


@[simp] theorem State.originateRaw_keeps (s : State) (a1 : Nat) (a2 : Owner) (a3 : List (Port × Frame)) :
    (State.originateRaw s a1 a2 a3).kept = s.kept := by
  unfold State.originateRaw
  split
  · simp
  · split
    · simp
    · split
      · next h => exact State.place_keeps _ _ _ _ _ _ _ _ _ h
      · simp


@[simp] theorem State.sendVc0_keeps (s : State) (a1 : Port) (a2 : Frame) (a3 : TxFill) :
    (State.sendVc0 s a1 a2 a3).kept = s.kept := by
  unfold State.sendVc0
  try simp
  (repeat' split) <;> (try simp only [Prod.ext_iff] at *) <;> (try repeat cases ‹_ ∧ _›) <;> (try subst_vars) <;> simp

/-! ### Stack -/

@[simp] theorem State.accRefuse_keeps (s : State) (a1 : Nat) :
    (State.accRefuse s a1).kept = s.kept := by
  simp [State.accRefuse]

@[simp] theorem State.countLine_keeps (s : State) (a1 : Nat) :
    (State.countLine s a1).kept = s.kept := by
  simp [State.countLine]

@[simp] theorem State.linePerformed_keeps (s : State) (a1 : Nat) :
    (State.linePerformed s a1).kept = s.kept := by
  simp [State.linePerformed]

@[simp] theorem State.storeMem_keeps (s : State) (a1 : Nat) (a2 : List Byte) :
    (State.storeMem s a1 a2).kept = s.kept := by
  simp [State.storeMem]

@[simp] theorem State.putLanes_keeps (s : State) (a1 : Nat) (a2 : Nat) (a3 : List W64) :
    (State.putLanes s a1 a2 a3).kept = s.kept := by
  simp [State.putLanes]

@[simp] theorem State.putMeta_keeps (s : State) (a1 : Nat) (a2 : Nat) (a3 : List Int) (a4 : Nat) (a5 : BitVec 8) :
    (State.putMeta s a1 a2 a3 a4 a5).kept = s.kept := by
  simp [State.putMeta]

@[simp] theorem State.accAdd_keeps (s : State) (a1 : Nat) (a2 : Nat) (a3 : List (List Byte × List Byte)) :
    (State.accAdd s a1 a2 a3).1.kept = s.kept := by
  simp [State.accAdd]

@[simp] theorem State.countRead_keeps (s : State) (a1 : Nat) (a2 : Nat) :
    (State.countRead s a1 a2).kept = s.kept := by
  simp [State.countRead]

@[simp] theorem clearLines_keeps (a0 : Nat) (a1 : Nat) (a2 : Nat) (s : State) :
    (clearLines a0 a1 a2 s).kept = s.kept := by
  induction a1 generalizing a2 s with
  | zero => simp [clearLines]
  | succ n ih => simp [clearLines, ih]


@[simp] theorem State.accession_keeps (s : State) (a1 : AccCmd) :
    (State.accession s a1).1.kept = s.kept := by
  unfold State.accession
  try simp
  (repeat' split) <;> (try simp only [Prod.ext_iff] at *) <;> (try repeat cases ‹_ ∧ _›) <;> (try subst_vars) <;> simp

@[simp] theorem State.bucketAdd_keeps (s : State) (a1 : Nat) (a2 : Nat) :
    (State.bucketAdd s a1 a2).kept = s.kept := by
  simp [State.bucketAdd]

@[simp] theorem State.engineStep_keeps (s : State) (a1 : Nat) (a2 : Nat) :
    (State.engineStep s a1 a2).1.kept = s.kept := by
  simp [State.engineStep]

theorem State.holdWords_keeps (s t : State) (dpa : Nat) (ws : List Nat) (io : ChannelIo) (a : Access)
    (h : s.holdWords dpa ws io a = some t) : t.kept = s.kept := by
  unfold State.holdWords at h
  dsimp only at h
  split at h
  · simp only [Option.some.injEq] at h; subst h; simp
  · split at h
    · simp only [Option.some.injEq] at h; subst h; simp
    · cases h


theorem State.holdPage_keeps (s t : State) (dpa n : Nat) (io : ChannelIo) (a : Access)
    (h : s.holdPage dpa n io a = some t) : t.kept = s.kept := State.holdWords_keeps _ _ _ _ _ _ h


@[simp] theorem State.mediaEvent_keeps (s : State) (a1 : Nat) (a2 : Nat) :
    (State.mediaEvent s a1 a2).kept = s.kept := by
  simp [State.mediaEvent]

@[simp] theorem State.wordsCorrected_keeps (s : State) (a1 : Nat) (a2 : Nat) :
    (State.wordsCorrected s a1 a2).kept = s.kept := by
  simp [State.wordsCorrected]

end Sys2Proof.Machine
end

