-- ==== Sys2Proof/Laws/KeepCore.lean ====
section
/-!
SUPPORT. What leaves the queue and the timing counter as they are: the operations that the units share.
-/

set_option linter.unusedSimpArgs false

namespace Sys2Proof.Machine

/-! ### Health -/

@[simp] theorem State.elemEnds_keeps (s : State) (a1 : Nat) (a2 : Nat) (a3 : Elem) (a4 : Nat) :
    (State.elemEnds s a1 a2 a3 a4).kept = s.kept := by
  simp [State.elemEnds]

@[simp] theorem State.setElemAt_keeps (s : State) (a1 : Nat) (a2 : Nat) (a3 : Elem) :
    (State.setElemAt s a1 a2 a3).kept = s.kept := by
  simp [State.setElemAt]

@[simp] theorem State.beginAction_keeps (s : State) (a1 : Nat) (a2 : Nat) :
    (State.beginAction s a1 a2).kept = s.kept := by
  unfold State.beginAction
  try simp
  (repeat' split) <;> (try simp only [Prod.ext_iff] at *) <;> (try repeat cases ‹_ ∧ _›) <;> (try subst_vars) <;> simp

@[simp] theorem State.nextAction_keeps (s : State) (a1 : Nat) :
    (State.nextAction s a1).kept = s.kept := by
  unfold State.nextAction
  (repeat' split) <;> simp

@[simp] theorem State.actionAborted_keeps (s : State) (a1 : Nat) (a2 : Nat) :
    (State.actionAborted s a1 a2).kept = s.kept := by
  unfold State.actionAborted
  split <;> simp

@[simp] theorem State.actionDone_keeps (s : State) (a1 : Nat) (a2 : Nat) :
    (State.actionDone s a1 a2).kept = s.kept := by
  unfold State.actionDone
  split <;> simp

@[simp] theorem State.evidence_keeps (s : State) (a1 : Nat) :
    (State.evidence s a1).kept = s.kept := by
  simp [State.evidence]

@[simp] theorem State.freezeBreaker_keeps (s : State) (a1 : Nat) (a2 : Nat) :
    (State.freezeBreaker s a1 a2).kept = s.kept := by
  simp [State.freezeBreaker]

@[simp] theorem State.grantExpulsion_keeps (s : State) (a1 : Nat) (a2 : Nat) (a3 : Nat) :
    (State.grantExpulsion s a1 a2 a3).kept = s.kept := by
  simp [State.grantExpulsion]

@[simp] theorem State.holdElem_keeps (s : State) (a1 : Nat) (a2 : Nat) (a3 : Nat) :
    (State.holdElem s a1 a2 a3).kept = s.kept := by
  simp [State.holdElem]

@[simp] theorem State.requestExpulsion_keeps (s : State) (a1 : Nat) (a2 : Nat) :
    (State.requestExpulsion s a1 a2).kept = s.kept := by
  unfold State.requestExpulsion
  (repeat' split) <;> simp

@[simp] theorem State.moveElem_keeps (s : State) (a1 : Nat) (a2 : Nat) :
    (State.moveElem s a1 a2).kept = s.kept := by
  unfold State.moveElem
  try simp
  (repeat' split) <;> (try simp only [Prod.ext_iff] at *) <;> (try repeat cases ‹_ ∧ _›) <;> (try subst_vars) <;> simp

@[simp] theorem State.setCap_keeps (s : State) (a1 : Nat) (a2 : Nat) (a3 : Bool) :
    (State.setCap s a1 a2 a3).kept = s.kept := by
  simp [State.setCap]

@[simp] theorem State.setScore_keeps (s : State) (a1 : Nat) (a2 : Nat) (a3 : Nat) :
    (State.setScore s a1 a2 a3).kept = s.kept := by
  simp [State.setScore]

@[simp] theorem State.albedo_keeps (s : State) (a1 : Nat) (a2 : Nat) (a3 : Nat) :
    (State.albedo s a1 a2 a3).kept = s.kept := by
  unfold State.albedo
  try simp
  (repeat' split) <;> (try simp only [Prod.ext_iff] at *) <;> (try repeat cases ‹_ ∧ _›) <;> (try subst_vars) <;> simp

@[simp] theorem State.retryGroup_keeps (s : State) (a1 : Nat) :
    (State.retryGroup s a1).kept = s.kept := by
  simp [State.retryGroup]

/-! ### CollCore -/

@[simp] theorem State.bumpHandle_keeps (s : State) (a1 : Nat) (a2 : BitVec 16) (a3 : Nat) :
    (State.bumpHandle s a1 a2 a3).kept = s.kept := by
  simp [State.bumpHandle]

@[simp] theorem State.delSeg_keeps (s : State) (a1 : Nat) (a2 : BitVec 16) (a3 : Nat) :
    (State.delSeg s a1 a2 a3).kept = s.kept := by
  simp [State.delSeg]

@[simp] theorem State.setGroup_keeps (s : State) (a1 : Nat) (a2 : Group) :
    (State.setGroup s a1 a2).kept = s.kept := by
  simp [State.setGroup]

@[simp] theorem State.freeHeld_keeps (s : State) (a1 : Nat) (a2 : HeldFrame → Bool) :
    (State.freeHeld s a1 a2).kept = s.kept := by
  simp [State.freeHeld]

@[simp] theorem State.keepRecord_keeps (s : State) (a1 : List Byte) :
    (State.keepRecord s a1).kept = s.kept := by
  simp [State.keepRecord]

@[simp] theorem State.releaseRegion_keeps (s : State) (a1 : Coll) :
    (State.releaseRegion s a1).kept = s.kept := by
  simp [State.releaseRegion]

@[simp] theorem State.toPorts_keeps (s : State) (a1 : Frame) (a2 : List Port) :
    (State.toPorts s a1 a2).kept = s.kept := by
  simp [State.toPorts]

@[simp] theorem State.abortColl_keeps (s : State) (a1 : Nat) (a2 : BitVec 16) (a3 : Nat) (a4 : Nat) (a5 : BitVec 512) (a6 : Nat) :
    (State.abortColl s a1 a2 a3 a4 a5 a6).kept = s.kept := by
  unfold State.abortColl
  split <;> simp

@[simp] theorem State.collPortLost_keeps (s : State) (a1 : Port) (a2 : Bool) :
    (State.collPortLost s a1 a2).kept = s.kept := by
  simp [State.collPortLost]

@[simp] theorem State.setColl_keeps (s : State) (a1 : Nat) (a2 : BitVec 16) (a3 : Coll) :
    (State.setColl s a1 a2 a3).kept = s.kept := by
  simp [State.setColl]

@[simp] theorem State.openAborted_keeps (s : State) (a1 : Nat) (a2 : Nat) (a3 : Nat) (a4 : BitVec 512) (a5 : List Byte) (a6 : W32) (a7 : List (Port × W32 × Nat)) :
    (State.openAborted s a1 a2 a3 a4 a5 a6 a7).kept = s.kept := by
  simp [State.openAborted]

@[simp] theorem State.resendLeft_keeps (s : State) (a1 : Port) (a2 : Frame) :
    (State.resendLeft s a1 a2).kept = s.kept := by
  unfold State.resendLeft
  (repeat' split) <;> simp

@[simp] theorem State.setSeg_keeps (s : State) (a1 : Nat) (a2 : BitVec 16) (a3 : Nat) (a4 : Segment) :
    (State.setSeg s a1 a2 a3 a4).kept = s.kept := by
  simp [State.setSeg]

/-! ### OryCore -/

@[simp] theorem State.setThread_keeps (s : State) (a1 : Nat) (a2 : Thread) :
    (State.setThread s a1 a2).kept = s.kept := by
  simp [State.setThread]

@[simp] theorem State.awaitDone_keeps (s : State) (a1 : Nat) (a2 : BitVec 24) (a3 : List Byte) :
    (State.awaitDone s a1 a2 a3).kept = s.kept := by
  unfold State.awaitDone
  try simp
  (repeat' split) <;> (try simp only [Prod.ext_iff] at *) <;> (try repeat cases ‹_ ∧ _›) <;> (try subst_vars) <;> simp

@[simp] theorem State.restartThread_keeps (s : State) (a1 : Nat) :
    (State.restartThread s a1).kept = s.kept := by
  simp [State.restartThread]

@[simp] theorem State.faultThread_keeps (s : State) (a1 : Nat) (a2 : Nat) (a3 : W64) (a4 : Nat) :
    (State.faultThread s a1 a2 a3 a4).kept = s.kept := by
  unfold State.faultThread
  try simp
  repeat (any_goals (split <;> (try simp only [Prod.ext_iff] at *) <;> (try repeat cases ‹_ ∧ _›) <;> (try subst_vars) <;> (try simp)))
  all_goals (try simp (disch := ((intros; repeat' split) <;> (try simp))))

@[simp] theorem State.postedDone_keeps (s : State) (a1 : Nat) (a2 : Nat) (a3 : Option Nat) :
    (State.postedDone s a1 a2 a3).kept = s.kept := by
  unfold State.postedDone
  try simp
  (repeat' split) <;> (try simp only [Prod.ext_iff] at *) <;> (try repeat cases ‹_ ∧ _›) <;> (try subst_vars) <;> simp

/-! ### MsfCore -/

@[simp] theorem State.sendRsp_keeps (s : State) (a1 : Nat) (a2 : Port) (a3 : Frame) :
    (State.sendRsp s a1 a2 a3).kept = s.kept := by
  unfold State.sendRsp
  split <;> simp

@[simp] theorem State.answer_keeps (s : State) (a1 : Nat) (a2 : MemReq) (a3 : BitVec 8) (a4 : Nat) (a5 : List Byte) :
    (State.answer s a1 a2 a3 a4 a5).kept = s.kept := by
  simp [State.answer]

@[simp] theorem State.ackAll_keeps (s : State) (a1 : Nat) (a2 : BitVec 8) (a3 : Nat) (a4 : List MemReq) :
    (State.ackAll s a1 a2 a3 a4).kept = s.kept := by
  unfold State.ackAll
  split
  · simp
  · generalize hs : List.foldl (fun s q => State.answer s a1 q rspAck a3 []) s (a4.filter fun q => q.frame.swSrc) = u
    have hu : u.kept = s.kept := by subst hs; exact foldl_keeps _ (fun s q => by simp) _ _
    rw [← hu]
    refine foldl_keeps _ ?_ _ _
    intro s g
    refine foldl_keeps _ ?_ _ _
    intro s c
    split <;> simp


@[simp] theorem State.nack_keeps (s : State) (a1 : Nat) (a2 : MemReq) (a3 : Nat) :
    (State.nack s a1 a2 a3).kept = s.kept := by
  simp [State.nack]

@[simp] theorem State.pathFailTo_keeps (s : State) (a1 : Nat) (a2 : Frame) (a3 : Port) (a4 : Nat) :
    (State.pathFailTo s a1 a2 a3 a4).kept = s.kept := by
  unfold State.pathFailTo
  try simp
  (repeat' split) <;> (try simp only [Prod.ext_iff] at *) <;> (try repeat cases ‹_ ∧ _›) <;> (try subst_vars) <;> simp

@[simp] theorem State.ownAnswer_keeps (s : State) (a1 : BitVec 24) (a2 : BitVec 8) (a3 : Nat) (a4 : List Byte) :
    (State.ownAnswer s a1 a2 a3 a4).kept = s.kept := by
  unfold State.ownAnswer
  (repeat' split) <;> simp

@[simp] theorem State.takeSeq_keeps (s : State) :
    (State.takeSeq s).1.kept = s.kept := by
  simp [State.takeSeq]

/-! ### Loss -/

@[simp] theorem State.copyLost_keeps (s : State) (a1 : Nat) (a2 : Port) :
    (State.copyLost s a1 a2).kept = s.kept := by
  unfold State.copyLost
  try simp
  (repeat' split) <;> (try simp only [Prod.ext_iff] at *) <;> (try repeat cases ‹_ ∧ _›) <;> (try subst_vars) <;> simp

@[simp] theorem State.countLoss_keeps (s : State) (a1 : Port) (a2 : LossCause) :
    (State.countLoss s a1 a2).kept = s.kept := by
  unfold State.countLoss
  split <;> simp

@[simp] theorem State.ctlLost_keeps (s : State) (a1 : Frame) (a2 : Port) (a3 : LossCause) :
    (State.ctlLost s a1 a2 a3).kept = s.kept := by
  unfold State.ctlLost
  split <;> simp

@[simp] theorem State.resultLost_keeps (s : State) (a1 : Frame) (a2 : Port) (a3 : LossCause) :
    (State.resultLost s a1 a2 a3).kept = s.kept := by
  unfold State.resultLost
  try simp
  (repeat' split) <;> (try simp only [Prod.ext_iff] at *) <;> (try repeat cases ‹_ ∧ _›) <;> (try subst_vars) <;> simp

@[simp] theorem State.lose_keeps (s : State) (a1 : LossCause) (a2 : Nat) (a3 : Port) (a4 : Option Port) (a5 : Owner) (a6 : Frame) :
    (State.lose s a1 a2 a3 a4 a5 a6).kept = s.kept := by
  unfold State.lose
  (repeat' split) <;> simp

@[simp] theorem State.loseDest_keeps (s : State) (a1 : LossCause) (a2 : Nat) (a3 : Port) :
    (State.loseDest s a1 a2 a3).kept = s.kept := by
  unfold State.loseDest
  (repeat' split) <;> simp

@[simp] theorem State.loseAll_keeps (s : State) (a1 : LossCause) (a2 : Port) :
    (State.loseAll s a1 a2).kept = s.kept := by
  unfold State.loseAll
  try simp
  repeat (any_goals (split <;> (try simp only [Prod.ext_iff] at *) <;> (try repeat cases ‹_ ∧ _›) <;> (try subst_vars) <;> (try simp)))
  all_goals (try simp (disch := ((intros; repeat' split) <;> (try simp))))

@[simp] theorem State.originate_keeps (s : State) (a1 : Nat) (a2 : Owner) (a3 : List (Port × Frame)) :
    (State.originate s a1 a2 a3).kept = s.kept := by
  simp [State.originate]

/-! ### Activate -/

@[simp] theorem State.arm_keeps (s : State) (a1 : Nat) (a2 : Nat) (a3 : Option (Bank × Bank × Nat)) :
    (State.arm s a1 a2 a3).1.kept = s.kept := by
  unfold State.arm
  try simp
  (repeat' split) <;> (try simp only [Prod.ext_iff] at *) <;> (try repeat cases ‹_ ∧ _›) <;> (try subst_vars) <;> simp

@[simp] theorem State.armPhase_keeps (s : State) (a1 : Nat) (a2 : Nat) (a3 : Bank) (a4 : Bank) (a5 : Nat) :
    (State.armPhase s a1 a2 a3 a4 a5).kept = s.kept := by
  simp [State.armPhase]

@[simp] theorem State.showBank_keeps (s : State) (a1 : Nat) (a2 : Nat) (a3 : Nat) (a4 : Bank) :
    (State.showBank s a1 a2 a3 a4).kept = s.kept := by
  simp [State.showBank]

@[simp] theorem State.showCal_keeps (s : State) :
    (State.showCal s).kept = s.kept := by
  simp [State.showCal]

@[simp] theorem State.fillCal_keeps (s : State) (a1 : List (BitVec 256)) :
    (State.fillCal s a1).kept = s.kept := by
  simp [State.fillCal]

@[simp] theorem State.showGates_keeps (s : State) (a1 : Nat) :
    (State.showGates s a1).kept = s.kept := by
  simp [State.showGates]

@[simp] theorem State.fillGates_keeps (s : State) (a1 : Nat) (a2 : List (BitVec 256)) :
    (State.fillGates s a1 a2).kept = s.kept := by
  simp [State.fillGates]

@[simp] theorem State.armFolio_keeps (s : State) :
    (State.armFolio s).kept = s.kept := by
  simp [State.armFolio]

@[simp] theorem State.cancel_keeps (s : State) (a1 : Nat) :
    (State.cancel s a1).1.kept = s.kept := by
  simp [State.cancel]

/-! ### Mirror -/

@[simp] theorem State.mirrorPut_keeps (s : State) (a1 : Nat) (a2 : List Byte) :
    (State.mirrorPut s a1 a2).kept = s.kept := by
  simp [State.mirrorPut]

@[simp] theorem State.mirror_keeps (s : State) (a1 : Bool) (a2 : Port) (a3 : Frame) (a4 : Stamp) (a5 : Nat) (a6 : Nat) :
    (State.mirror s a1 a2 a3 a4 a5 a6).kept = s.kept := by
  simp [State.mirror]

@[simp] theorem State.mirrorTree_keeps (s : State) (a1 : Port) (a2 : Frame) (a3 : Stamp) (a4 : Nat) (a5 : Nat) :
    (State.mirrorTree s a1 a2 a3 a4 a5).kept = s.kept := by
  simp [State.mirrorTree]

/-! ### Ephemeris -/

@[simp] theorem State.setPulse_keeps (s : State) (a1 : Nat) (a2 : Pulse) :
    (State.setPulse s a1 a2).kept = s.kept := by
  simp [State.setPulse]

@[simp] theorem State.drivePulse_keeps (s : State) (a1 : BitVec 2) (a2 : Bool) :
    (State.drivePulse s a1 a2).kept = s.kept := by
  simp [State.drivePulse]

@[simp] theorem State.pulsesOff_keeps (s : State) :
    (State.pulsesOff s).kept = s.kept := by
  simp [State.pulsesOff]

@[simp] theorem State.stopCalendar_keeps (s : State) :
    (State.stopCalendar s).kept = s.kept := by
  simp [State.stopCalendar]

@[simp] theorem State.setTimeState_keeps (s : State) (a1 : TimeState) :
    (State.setTimeState s a1).kept = s.kept := by
  simp [State.setTimeState]

@[simp] theorem State.enterLocked_keeps (s : State) :
    (State.enterLocked s).kept = s.kept := by
  simp [State.enterLocked]

@[simp] theorem State.afterSample_keeps (s : State) (a1 : Int) :
    (State.afterSample s a1).kept = s.kept := by
  unfold State.afterSample
  try simp
  (repeat' split) <;> (try simp only [Prod.ext_iff] at *) <;> (try repeat cases ‹_ ∧ _›) <;> (try subst_vars) <;> simp

@[simp] theorem State.dropResident_keeps (s : State) :
    (State.dropResident s).kept = s.kept := by
  simp [State.dropResident]

@[simp] theorem State.refreshParent_keeps (s : State) :
    (State.refreshParent s).kept = s.kept := by
  simp [State.refreshParent]

@[simp] theorem State.timeDrop_keeps (s : State) (a1 : Port) :
    (State.timeDrop s a1).kept = s.kept := by
  simp [State.timeDrop]

/-! ### Lanes -/

@[simp] theorem State.sendNotice_keeps (s : State) (a1 : BitVec 8) (a2 : BitVec 4) (a3 : BitVec 32) (a4 : Nat) :
    (State.sendNotice s a1 a2 a3 a4).kept = s.kept := by
  simp [State.sendNotice]

@[simp] theorem State.announce_keeps (s : State) (a1 : BitVec 4) (a2 : Nat) :
    (State.announce s a1 a2).kept = s.kept := by
  simp [State.announce]

@[simp] theorem State.refreshPlane_keeps (s : State) (a1 : Nat) :
    (State.refreshPlane s a1).kept = s.kept := by
  simp [State.refreshPlane]

@[simp] theorem State.refreshTransit_keeps (s : State) (a1 : Option Nat) :
    (State.refreshTransit s a1).kept = s.kept := by
  unfold State.refreshTransit
  split <;> simp

@[simp] theorem State.setTransitLine_keeps (s : State) (a1 : Port) (a2 : Nat) :
    (State.setTransitLine s a1 a2).kept = s.kept := by
  simp [State.setTransitLine]

@[simp] theorem State.abortCutover_keeps (s : State) (a1 : Nat) (a2 : Nat) :
    (State.abortCutover s a1 a2).kept = s.kept := by
  unfold State.abortCutover
  (repeat' split) <;> simp

/-! ### LinkCore -/

@[simp] theorem State.ackTo_keeps (s : State) (a1 : Port) (a2 : BitVec 15) :
    (State.ackTo s a1 a2).kept = s.kept := by
  simp [State.ackTo]

@[simp] theorem State.sendRetryReq_keeps (s : State) (a1 : Port) (a2 : Nat) :
    (State.sendRetryReq s a1 a2).kept = s.kept := by
  simp [State.sendRetryReq]

@[simp] theorem State.hopErr_keeps (s : State) (a1 : Port) (a2 : Nat) :
    (State.hopErr s a1 a2).kept = s.kept := by
  unfold State.hopErr
  split <;> simp

@[simp] theorem State.takeLimit_keeps (s : State) (a1 : Port) (a2 : BitVec 3) (a3 : BitVec 24) :
    (State.takeLimit s a1 a2 a3).kept = s.kept := by
  simp [State.takeLimit]

@[simp] theorem State.takeHeader_keeps (s : State) (a1 : Port) (a2 : Frame) :
    (State.takeHeader s a1 a2).kept = s.kept := by
  simp [State.takeHeader]

@[simp] theorem State.takeLseq_keeps (s : State) (a1 : Port) (a2 : Frame) :
    (State.takeLseq s a1 a2).kept = s.kept := by
  simp [State.takeLseq]

@[simp] theorem State.linkIn_keeps (s : State) (a1 : Port) (a2 : Frame) :
    (State.linkIn s a1 a2).1.kept = s.kept := by
  simp [State.linkIn]

@[simp] theorem State.passCells_keeps (s : State) (a1 : Port) (a2 : BitVec 3) (a3 : Nat) :
    (State.passCells s a1 a2 a3).kept = s.kept := by
  simp [State.passCells]

@[simp] theorem State.ingress_keeps (s : State) (a1 : Port) (a2 : Frame) (a3 : Option Stamp) :
    (State.ingress s a1 a2 a3).1.kept = s.kept := by
  unfold State.ingress
  try simp
  (repeat' split) <;> (try simp only [Prod.ext_iff] at *) <;> (try repeat cases ‹_ ∧ _›) <;> (try subst_vars) <;> simp

@[simp] theorem State.consume_keeps (s : State) (a1 : Port) (a2 : Frame) (a3 : State → State) (ha3 : ∀ t, (a3 t).kept = t.kept) :
    (State.consume s a1 a2 a3).kept = s.kept := by
  unfold State.consume
  try simp [ha3]
  (repeat' split) <;> (try simp only [Prod.ext_iff] at *) <;> (try repeat cases ‹_ ∧ _›) <;> (try subst_vars) <;> simp [ha3]

@[simp] theorem State.linkDown_keeps (s : State) (a1 : Port) (a2 : Nat) :
    (State.linkDown s a1 a2).kept = s.kept := by
  unfold State.linkDown
  try simp
  (repeat' split) <;> (try simp only [Prod.ext_iff] at *) <;> (try repeat cases ‹_ ∧ _›) <;> (try subst_vars) <;> simp

@[simp] theorem State.startTraining_keeps (s : State) (a1 : Port) :
    (State.startTraining s a1).kept = s.kept := by
  simp [State.startTraining]

@[simp] theorem State.tryUp_keeps (s : State) (a1 : Port) :
    (State.tryUp s a1).kept = s.kept := by
  simp [State.tryUp]

/-! ### ConfigCore -/

@[simp] theorem State.dropAmendment_keeps (s : State) (a1 : Nat) (a2 : AlmEvent) :
    (State.dropAmendment s a1 a2).kept = s.kept := by
  unfold State.dropAmendment
  split <;> simp

@[simp] theorem State.noteConfig_keeps (s : State) (a1 : Nat) (a2 : W32) :
    (State.noteConfig s a1 a2).kept = s.kept := by
  unfold State.noteConfig
  try simp
  (repeat' split) <;> (try simp only [Prod.ext_iff] at *) <;> (try repeat cases ‹_ ∧ _›) <;> (try subst_vars) <;> simp

@[simp] theorem State.configWrite_keeps (s : State) (a1 : Nat) (a2 : W32) (a3 : State → State) (ha3 : ∀ t, (a3 t).kept = t.kept) :
    (State.configWrite s a1 a2 a3).kept = s.kept := by
  simp [State.configWrite, ha3]

@[simp] theorem State.regWrite_keeps (s : State) (a1 : Nat) (a2 : W32) (a3 : State → State) (ha3 : ∀ t, (a3 t).kept = t.kept) :
    (State.regWrite s a1 a2 a3).kept = s.kept := by
  simp [State.regWrite, ha3]

@[simp] theorem State.storeFields_keeps (s : State) (a1 : Nat) (a2 : W32) :
    (State.storeFields s a1 a2).kept = s.kept := by
  unfold State.storeFields
  split <;> simp

/-! ### ArcCore -/

@[simp] theorem State.mgmtSend_keeps (s : State) (a1 : BitVec 8) (a2 : Port) (a3 : Node) (a4 : Bool) (a5 : BitVec 16) (a6 : Nat) (a7 : Nat) (a8 : Nat) (a9 : List Byte) :
    (State.mgmtSend s a1 a2 a3 a4 a5 a6 a7 a8 a9).kept = s.kept := by
  simp [State.mgmtSend]

@[simp] theorem State.archReply_keeps (s : State) (a1 : Transport) (a2 : BitVec 16) (a3 : Nat) (a4 : List Byte) :
    (State.archReply s a1 a2 a3 a4).kept = s.kept := by
  unfold State.archReply
  split <;> simp

@[simp] theorem State.cfgReply_keeps (s : State) (a1 : Port) (a2 : Frame) (a3 : Nat) (a4 : List Byte) :
    (State.cfgReply s a1 a2 a3 a4).kept = s.kept := by
  simp [State.cfgReply]

@[simp] theorem State.endBackground_keeps (s : State) (a1 : Transport) (a2 : BitVec 16) (a3 : Nat) (a4 : List Byte) :
    (State.endBackground s a1 a2 a3 a4).kept = s.kept := by
  unfold State.endBackground
  split <;> simp

@[simp] theorem State.replyGroup_keeps (s : State) (a1 : Option ReplyTo) (a2 : List Byte) (a3 : Nat) (a4 : Nat) :
    (State.replyGroup s a1 a2 a3 a4).kept = s.kept := by
  unfold State.replyGroup
  split <;> simp

@[simp] theorem State.startBackground_keeps (s : State) (a1 : Transport) (a2 : BitVec 16) :
    (State.startBackground s a1 a2).kept = s.kept := by
  simp [State.startBackground]

end Sys2Proof.Machine
end

