-- ==== Sys2Proof/Laws/KeepLink.lean ====
section
/-!
SUPPORT. What leaves the queue and the timing counter as they are: time, links, meters and forwarding tables.
-/

set_option linter.unusedSimpArgs false

namespace Sys2Proof.Machine

/-! ### Time -/

@[simp] theorem State.answerPdelay_keeps (s : State) (a1 : Port) (a2 : Frame) (a3 : Stamp) :
    (State.answerPdelay s a1 a2 a3).kept = s.kept := by
  simp [State.answerPdelay]

@[simp] theorem State.pulseMiss_keeps (s : State) (a1 : Nat) :
    (State.pulseMiss s a1).kept = s.kept := by
  simp [State.pulseMiss]

@[simp] theorem State.armPulse_keeps (s : State) (a1 : Nat) :
    (State.armPulse s a1).kept = s.kept := by
  simp [State.armPulse]

@[simp] theorem State.relaySync_keeps (s : State) (a1 : Port) (a2 : Frame) (a3 : Stamp) :
    (State.relaySync s a1 a2 a3).kept = s.kept := by
  simp [State.relaySync]

@[simp] theorem State.startPdelay_keeps (s : State) (a1 : Port) :
    (State.startPdelay s a1).kept = s.kept := by
  simp [State.startPdelay]

@[simp] theorem State.takePdelay_keeps (s : State) (a1 : Port) (a2 : Frame) (a3 : Int) :
    (State.takePdelay s a1 a2 a3).kept = s.kept := by
  unfold State.takePdelay
  try simp
  (repeat' split) <;> (try simp only [Prod.ext_iff] at *) <;> (try repeat cases ‹_ ∧ _›) <;> (try subst_vars) <;> simp

@[simp] theorem State.writePulseCtl_keeps (s : State) (a1 : Nat) (a2 : W32) :
    (State.writePulseCtl s a1 a2).kept = s.kept := by
  simp [State.writePulseCtl]

/-! ### Link -/

@[simp] theorem State.linkCtlIn_keeps (s : State) (a1 : Port) (a2 : Frame) (a3 : BitVec 8) (a4 : State → State) (ha4 : ∀ t, (a4 t).kept = t.kept) :
    (State.linkCtlIn s a1 a2 a3 a4).kept = s.kept := by
  simp [State.linkCtlIn, ha4]

@[simp] theorem State.replayFrom_keeps (s : State) (a1 : Port) (a2 : BitVec 15) :
    (State.replayFrom s a1 a2).kept = s.kept := by
  simp [State.replayFrom]

@[simp] theorem State.setFence_keeps (s : State) (a1 : Port) (a2 : Nat) :
    (State.setFence s a1 a2).kept = s.kept := by
  simp [State.setFence]

@[simp] theorem State.takeCredit_keeps (s : State) (a1 : Port) (a2 : Frame) :
    (State.takeCredit s a1 a2).kept = s.kept := by
  simp [State.takeCredit]

@[simp] theorem State.takeHello_keeps (s : State) (a1 : Port) (a2 : Frame) :
    (State.takeHello s a1 a2).kept = s.kept := by
  simp [State.takeHello]

@[simp] theorem State.writeLnkCtl_keeps (s : State) (a1 : Port) (a2 : W32) :
    (State.writeLnkCtl s a1 a2).kept = s.kept := by
  simp [State.writeLnkCtl]

/-! ### SwitchCore -/

@[simp] theorem State.attach_keeps (s : State) (a1 : Nat) (a2 : Port) (a3 : Frame) :
    (State.attach s a1 a2 a3).kept = s.kept := by
  unfold State.attach
  split <;> simp

@[simp] theorem State.dirDrop_keeps (s : State) :
    (State.dirDrop s).kept = s.kept := by
  simp [State.dirDrop]

@[simp] theorem State.sendOn_keeps (s : State) (a1 : Nat) (a2 : Port) (a3 : Port) (a4 : Frame) :
    (State.sendOn s a1 a2 a3 a4).kept = s.kept := by
  simp [State.sendOn]

@[simp] theorem State.forwardBuf_keeps (s : State) (a1 : Nat) (a2 : Port) (a3 : Frame) :
    (State.forwardBuf s a1 a2 a3).kept = s.kept := by
  unfold State.forwardBuf
  split <;> simp

@[simp] theorem State.noPath_keeps (s : State) (a1 : Port) (a2 : Frame) :
    (State.noPath s a1 a2).kept = s.kept := by
  simp [State.noPath]

@[simp] theorem State.park_keeps (s : State) (a1 : Port) (a2 : Frame) (a3 : Stamp) :
    (State.park s a1 a2 a3).1.kept = s.kept := by
  simp [State.park]

@[simp] theorem State.routed_keeps (s : State) (a1 : Port) (a2 : Frame) (a3 : Stamp) (a4 : State → Nat → State) (a5 : State → Nat → State) (ha4 : ∀ t x1, (a4 t x1).kept = t.kept) (ha5 : ∀ t x1, (a5 t x1).kept = t.kept) :
    (State.routed s a1 a2 a3 a4 a5).kept = s.kept := by
  unfold State.routed
  try simp [ha4, ha5]
  (repeat' split) <;> (try simp only [Prod.ext_iff] at *) <;> (try repeat cases ‹_ ∧ _›) <;> (try subst_vars) <;> simp [ha4, ha5]

/-! ### Meters -/

@[simp] theorem State.bulkMeter_keeps (s : State) (a1 : Frame) :
    (State.bulkMeter s a1).1.kept = s.kept := by
  simp [State.bulkMeter]

@[simp] theorem State.fixBuckets_keeps (s : State) (a1 : Nat) :
    (State.fixBuckets s a1).kept = s.kept := by
  unfold State.fixBuckets
  (repeat' split) <;> simp

@[simp] theorem State.reqMeter_keeps (s : State) (a1 : Frame) :
    (State.reqMeter s a1).1.kept = s.kept := by
  simp [State.reqMeter]

@[simp] theorem State.meter_keeps (s : State) (a1 : Frame) :
    (State.meter s a1).1.kept = s.kept := by
  simp [State.meter]

@[simp] theorem State.meterEntry_keeps (s : State) (a1 : List Hold) (a2 : Hold) (a3 : State → Hold → State) (ha3 : ∀ t x1, (a3 t x1).kept = t.kept) :
    (State.meterEntry s a1 a2 a3).1.kept = s.kept := by
  unfold State.meterEntry
  try simp [ha3]
  (repeat' split) <;> (try simp only [Prod.ext_iff] at *) <;> (try repeat cases ‹_ ∧ _›) <;> (try subst_vars) <;> simp [ha3]

@[simp] theorem State.setHold_keeps (s : State) (a1 : Nat) (a2 : List Hold) :
    (State.setHold s a1 a2).kept = s.kept := by
  simp [State.setHold]

@[simp] theorem State.meterIn_keeps (s : State) (a1 : Hold) (a2 : State → Hold → State) (ha2 : ∀ t x1, (a2 t x1).kept = t.kept) :
    (State.meterIn s a1 a2).kept = s.kept := by
  unfold State.meterIn
  try simp [ha2]
  (repeat' split) <;> (try simp only [Prod.ext_iff] at *) <;> (try repeat cases ‹_ ∧ _›) <;> (try subst_vars) <;> simp [ha2]

@[simp] theorem State.refillAll_keeps (s : State) :
    (State.refillAll s).kept = s.kept := by
  simp [State.refillAll]

@[simp] theorem releaseHeld_keeps (a0 : State → Hold → State) (a1 : List Hold) (a2 : List Hold) (s : State) (ha0 : ∀ t x1, (a0 t x1).kept = t.kept) :
    (releaseHeld a0 a1 a2 s).1.kept = s.kept := by
  induction a2 generalizing a1 s with
  | nil => simp [releaseHeld]
  | cons h hs ih =>
    have := State.meterEntry_keeps s a1 h a0 ha0
    unfold releaseHeld
    split <;> (next hq => rw [hq] at this; simp_all)


@[simp] theorem State.refillTick_keeps (s : State) (a1 : State → Hold → State) (ha1 : ∀ t x1, (a1 t x1).kept = t.kept) :
    (State.refillTick s a1).kept = s.kept := by
  simp [State.refillTick, ha1]

@[simp] theorem State.schWrite_keeps (s : State) (a1 : Nat) (a2 : W32) :
    (State.schWrite s a1 a2).kept = s.kept := by
  simp [State.schWrite]

/-! ### FwdCore -/

@[simp] theorem State.putEntry_keeps (s : State) (a1 : Nat) (a2 : CatEntry) :
    (State.putEntry s a1 a2).kept = s.kept := by
  simp [State.putEntry]

@[simp] theorem State.catInsert_keeps (s : State) (a1 : Nat) (a2 : CatEntry) :
    (State.catInsert s a1 a2).1.kept = s.kept := by
  simp [State.catInsert]

@[simp] theorem State.announceNode_keeps (s : State) (a1 : Nat) (a2 : BitVec 16) (a3 : Port) (a4 : Bool) (a5 : Nat) :
    (State.announceNode s a1 a2 a3 a4 a5).kept = s.kept := by
  unfold State.announceNode
  (repeat' split) <;> simp

@[simp] theorem State.setTree_keeps (s : State) (a1 : Nat) (a2 : Tree) :
    (State.setTree s a1 a2).kept = s.kept := by
  simp [State.setTree]

/-! ### Canon -/

@[simp] theorem State.reconfigured_keeps (s : State) (a1 : State) :
    (State.reconfigured s a1).kept = s.kept := by
  simp [State.reconfigured]

end Sys2Proof.Machine
end

