-- ==== Sys2Proof/Laws/KeepColl.lean ====
section
/-!
SUPPORT. What leaves the queue and the timing counter as they are: segments and frames of collectives.
-/

set_option linter.unusedSimpArgs false

namespace Sys2Proof.Machine

/-! ### CollSeg -/

@[simp] theorem State.regionIssue_keeps (s : State) (a1 : AccCmd) :
    (State.regionIssue s a1).kept = s.kept := by
  unfold State.regionIssue
  try simp
  (repeat' split) <;> (try simp only [Prod.ext_iff] at *) <;> (try repeat cases ‹_ ∧ _›) <;> (try subst_vars) <;> simp

@[simp] theorem State.clearRegionLines_keeps (s : State) (a1 : List Byte) (a2 : Nat) (a3 : Nat) :
    (State.clearRegionLines s a1 a2 a3).kept = s.kept := by
  simp [State.clearRegionLines]

@[simp] theorem State.sendResend_keeps (s : State) (a1 : Nat) (a2 : BitVec 16) (a3 : Port) (a4 : Nat) (a5 : List Nat) (a6 : Nat) (a7 : Bool) :
    (State.sendResend s a1 a2 a3 a4 a5 a6 a7).kept = s.kept := by
  unfold State.sendResend
  refine foldl_keeps _ ?_ _ _
  intro s r
  dsimp only
  split <;> simp


@[simp] theorem State.setRegionA_keeps (s : State) (a1 : List Byte) (a2 : Nat) (a3 : Segment) :
    (State.setRegionA s a1 a2 a3).kept = s.kept := by
  simp [State.setRegionA]

@[simp] theorem State.restartSeg_keeps (s : State) (a1 : Nat) (a2 : BitVec 16) (a3 : Nat) (a4 : Nat) (a5 : Option Audit) :
    (State.restartSeg s a1 a2 a3 a4 a5).kept = s.kept := by
  unfold State.restartSeg
  split <;> simp

@[simp] theorem State.resultLines_keeps (s : State) (a1 : List Byte) (a2 : Nat) (a3 : Segment) :
    (State.resultLines s a1 a2 a3).1.kept = s.kept := by
  unfold State.resultLines
  refine foldl_fst_keeps _ ?_ _ (s, _)
  intro s l
  obtain ⟨s, ls, k⟩ := s
  dsimp only
  split
  · have h := State.accession_keeps s (.readFmt (descRegion a1) (regionLine a1 a2 l))
    split <;> (next hq => rw [hq] at h; simpa using h)
  · simp


@[simp] theorem State.secondMismatch_keeps (s : State) (a1 : Nat) (a2 : BitVec 16) (a3 : Nat) (a4 : Nat) (a5 : Nat) (a6 : Nat) (a7 : Nat) :
    (State.secondMismatch s a1 a2 a3 a4 a5 a6 a7).1.kept = s.kept := by
  simp [State.secondMismatch]

@[simp] theorem State.replicate_keeps (s : State) (a1 : Nat) (a2 : Nat) (a3 : BitVec 16) (a4 : Frame) (a5 : List Port) :
    (State.replicate s a1 a2 a3 a4 a5).kept = s.kept := by
  simp [State.replicate]

@[simp] theorem State.sendResult_keeps (s : State) (a1 : Nat) (a2 : BitVec 16) (a3 : Nat) (a4 : Frame) :
    (State.sendResult s a1 a2 a3 a4).kept = s.kept := by
  unfold State.sendResult
  (repeat' split) <;> simp

@[simp] theorem State.emitSeg_keeps (s : State) (a1 : Nat) (a2 : BitVec 16) (a3 : Nat) :
    (State.emitSeg s a1 a2 a3).kept = s.kept := by
  unfold State.emitSeg
  try simp
  (repeat' split) <;> (try simp only [Prod.ext_iff] at *) <;> (try repeat cases ‹_ ∧ _›) <;> (try subst_vars) <;> simp

@[simp] theorem State.queueToken_keeps (s : State) (a1 : Nat) (a2 : Token) :
    (State.queueToken s a1 a2).kept = s.kept := by
  simp [State.queueToken]

@[simp] theorem State.wakeProgram_keeps (s : State) (a1 : Nat) (a2 : BitVec 16) (a3 : Coll) (a4 : Nat) (a5 : Segment) :
    (State.wakeProgram s a1 a2 a3 a4 a5).kept = s.kept := by
  unfold State.wakeProgram
  split <;> simp

@[simp] theorem State.afterAudit_keeps (s : State) (a1 : Nat) (a2 : BitVec 16) (a3 : Nat) :
    (State.afterAudit s a1 a2 a3).kept = s.kept := by
  unfold State.afterAudit
  split <;> simp

@[simp] theorem State.compareAudit_keeps (s : State) (a1 : Nat) (a2 : BitVec 16) (a3 : Nat) (a4 : Coll) (a5 : Segment) (a6 : Audit) :
    (State.compareAudit s a1 a2 a3 a4 a5 a6).kept = s.kept := by
  simp [State.compareAudit]

@[simp] theorem State.expDone_keeps (s : State) (a1 : Nat) (a2 : BitVec 16) (a3 : Nat) (a4 : Coll) (a5 : Segment) :
    (State.expDone s a1 a2 a3 a4 a5).kept = s.kept := by
  simp [State.expDone]

@[simp] theorem State.finalizeSeg_keeps (s : State) (a1 : Nat) (a2 : BitVec 16) (a3 : Nat) (a4 : Bool) :
    (State.finalizeSeg s a1 a2 a3 a4).kept = s.kept := by
  unfold State.finalizeSeg
  try simp
  (repeat' split) <;> (try simp only [Prod.ext_iff] at *) <;> (try repeat cases ‹_ ∧ _›) <;> (try subst_vars) <;> simp

@[simp] theorem State.loseLines_keeps (s : State) (a1 : Nat) (a2 : BitVec 16) (a3 : Port) (a4 : Nat) (a5 : BitVec 64) (a6 : Bool) (a7 : Bool) :
    (State.loseLines s a1 a2 a3 a4 a5 a6 a7).kept = s.kept := by
  unfold State.loseLines
  split <;> simp

@[simp] theorem State.lastSeen_keeps (s : State) (a1 : Port) (a2 : Frame) :
    (State.lastSeen s a1 a2).kept = s.kept := by
  unfold State.lastSeen
  try simp
  (repeat' split) <;> (try simp only [Prod.ext_iff] at *) <;> (try repeat cases ‹_ ∧ _›) <;> (try subst_vars) <;> simp

@[simp] theorem State.lineTaken_keeps (s : State) (a1 : Nat) (a2 : BitVec 16) (a3 : Nat) (a4 : Segment) (a5 : Port) (a6 : Frame) (a7 : Nat) :
    (State.lineTaken s a1 a2 a3 a4 a5 a6 a7).kept = s.kept := by
  unfold State.lineTaken
  split <;> simp

@[simp] theorem State.pickAudit_keeps (s : State) (a1 : Nat) (a2 : Nat) (a3 : Nat) :
    (State.pickAudit s a1 a2 a3).1.kept = s.kept := by
  simp [State.pickAudit]

@[simp] theorem State.regionLineIn_keeps (s : State) (a1 : Nat) (a2 : BitVec 16) (a3 : Nat) (a4 : Coll) (a5 : Segment) (a6 : Port) (a7 : Frame) (a8 : ChannelIo) :
    (State.regionLineIn s a1 a2 a3 a4 a5 a6 a7 a8).kept = s.kept := by
  unfold State.regionLineIn
  dsimp only
  split
  · next h => exact State.holdPage_keeps _ _ _ _ _ _ h
  · repeat (any_goals (split <;> (try simp only [Prod.ext_iff] at *) <;> (try repeat cases ‹_ ∧ _›) <;> (try subst_vars) <;> (try simp)))


@[simp] theorem State.startSeg_keeps (s : State) (a1 : Nat) (a2 : BitVec 16) (a3 : Coll) (a4 : Nat) :
    (State.startSeg s a1 a2 a3 a4).kept = s.kept := by
  simp [State.startSeg]

@[simp] theorem State.takeExp_keeps (s : State) (a1 : Nat) (a2 : BitVec 16) (a3 : Nat) (a4 : Coll) (a5 : Segment) (a6 : Port) (a7 : Frame) :
    (State.takeExp s a1 a2 a3 a4 a5 a6 a7).kept = s.kept := by
  simp [State.takeExp]

@[simp] theorem State.tileLine_keeps (s : State) (a1 : Nat) (a2 : BitVec 16) (a3 : Nat) (a4 : Coll) (a5 : Segment) (a6 : Port) (a7 : Frame) (a8 : List AddFault) :
    (State.tileLine s a1 a2 a3 a4 a5 a6 a7 a8).1.kept = s.kept := by
  unfold State.tileLine
  try simp
  (repeat' split) <;> (try simp only [Prod.ext_iff] at *) <;> (try repeat cases ‹_ ∧ _›) <;> (try subst_vars) <;> simp

@[simp] theorem State.takeLine_keeps (s : State) (a1 : Port) (a2 : Frame) (a3 : List AddFault) (a4 : ChannelIo) :
    (State.takeLine s a1 a2 a3 a4).1.kept = s.kept := by
  unfold State.takeLine
  try simp
  (repeat' split) <;> (try simp only [Prod.ext_iff] at *) <;> (try repeat cases ‹_ ∧ _›) <;> (try subst_vars) <;> simp

@[simp] theorem State.tryFinal_keeps (s : State) (a1 : Nat) (a2 : BitVec 16) (a3 : Nat) (a4 : Bool) :
    (State.tryFinal s a1 a2 a3 a4).kept = s.kept := by
  unfold State.tryFinal
  split <;> simp

@[simp] theorem takeLines_keeps (a0 : Port) (a1 : List AddFault) (a2 : ChannelIo) (a3 : List Frame) (s : State) :
    (takeLines a0 a1 a2 a3 s).1.kept = s.kept := by
  induction a3 generalizing a2 s with
  | nil => simp [takeLines]
  | cons f fs ih =>
    have := State.takeLine_keeps s a0 f a1 a2
    unfold takeLines
    split <;> (next hq => rw [hq] at this; simp_all)

/-! ### CollFrame -/

@[simp] theorem State.failColl_keeps (s : State) (a1 : Frame) (a2 : Nat) (a3 : Nat) (a4 : BitVec 512) :
    (State.failColl s a1 a2 a3 a4).kept = s.kept := by
  simp [State.failColl]

@[simp] theorem State.sendPair_keeps (s : State) (a1 : Nat) (a2 : BitVec 16) (a3 : Port) (a4 : Port) (a5 : Nat) (a6 : Nat) (a7 : BitVec 8) (a8 : List Byte) (a9 : List Byte) :
    (State.sendPair s a1 a2 a3 a4 a5 a6 a7 a8 a9).kept = s.kept := by
  unfold State.sendPair
  split <;> simp

@[simp] theorem State.padGap_keeps (s : State) (a1 : Nat) (a2 : BitVec 16) (a3 : Port) (a4 : Port) (a5 : Nat × Nat) :
    (State.padGap s a1 a2 a3 a4 a5).kept = s.kept := by
  unfold State.padGap
  split <;> simp

@[simp] theorem State.padPair_keeps (s : State) (a1 : Nat) (a2 : BitVec 16) (a3 : Port) (a4 : Port) :
    (State.padPair s a1 a2 a3 a4).kept = s.kept := by
  unfold State.padPair
  split <;> simp

@[simp] theorem State.a2aIn_keeps (s : State) (a1 : Port) (a2 : Frame) (a3 : Coll) :
    (State.a2aIn s a1 a2 a3).kept = s.kept := by
  simp [State.a2aIn]

@[simp] theorem State.gatherSeg_keeps (s : State) (a1 : Nat) (a2 : BitVec 16) (a3 : Coll) (a4 : Nat) :
    (State.gatherSeg s a1 a2 a3 a4).kept = s.kept := by
  unfold State.gatherSeg
  split <;> simp

@[simp] theorem State.relayRun_keeps (s : State) (a1 : Frame) (a2 : Segment) (a3 : Nat × Nat) :
    (State.relayRun s a1 a2 a3).kept = s.kept := by
  unfold State.relayRun
  try simp
  (repeat' split) <;> (try simp only [Prod.ext_iff] at *) <;> (try repeat cases ‹_ ∧ _›) <;> (try subst_vars) <;> simp

@[simp] theorem State.gatherIn_keeps (s : State) (a1 : Port) (a2 : Frame) (a3 : Coll) :
    (State.gatherIn s a1 a2 a3).kept = s.kept := by
  unfold State.gatherIn
  try simp
  (repeat' split) <;> (try simp only [Prod.ext_iff] at *) <;> (try repeat cases ‹_ ∧ _›) <;> (try subst_vars) <;> simp

@[simp] theorem State.segmentIn_keeps (s : State) (a1 : Port) (a2 : Frame) (a3 : Coll) (a4 : Segment) (a5 : ContribIn) :
    (State.segmentIn s a1 a2 a3 a4 a5).1.kept = s.kept := by
  unfold State.segmentIn
  try simp
  (repeat' split) <;> (try simp only [Prod.ext_iff] at *) <;> (try repeat cases ‹_ ∧ _›) <;> (try subst_vars) <;> simp

@[simp] theorem State.reduceIn_keeps (s : State) (a1 : Port) (a2 : Frame) (a3 : Coll) (a4 : ContribIn) :
    (State.reduceIn s a1 a2 a3 a4).1.kept = s.kept := by
  unfold State.reduceIn
  try simp
  (repeat' split) <;> (try simp only [Prod.ext_iff] at *) <;> (try repeat cases ‹_ ∧ _›) <;> (try subst_vars) <;> simp

@[simp] theorem State.contribIn_keeps (s : State) (a1 : Port) (a2 : Frame) (a3 : Coll) (a4 : ContribIn) :
    (State.contribIn s a1 a2 a3 a4).1.kept = s.kept := by
  simp [State.contribIn]

@[simp] theorem State.joinColl_keeps (s : State) (a1 : Port) (a2 : Frame) (a3 : Coll) :
    (State.joinColl s a1 a2 a3).kept = s.kept := by
  unfold State.joinColl
  split <;> simp

@[simp] theorem State.completeColl_keeps (s : State) (a1 : Nat) (a2 : BitVec 16) :
    (State.completeColl s a1 a2).kept = s.kept := by
  unfold State.completeColl
  split <;> simp

@[simp] theorem State.openColl_keeps (s : State) (a1 : Port) (a2 : Frame) :
    (State.openColl s a1 a2).kept = s.kept := by
  unfold State.openColl
  try simp
  repeat (any_goals (split <;> (try simp only [Prod.ext_iff] at *) <;> (try repeat cases ‹_ ∧ _›) <;> (try subst_vars) <;> (try simp)))
  all_goals (try simp (disch := ((intros; repeat' split) <;> (try simp))))

@[simp] theorem State.checkedIn_keeps (s : State) (a1 : Port) (a2 : Frame) (a3 : ContribIn) :
    (State.checkedIn s a1 a2 a3).1.kept = s.kept := by
  unfold State.checkedIn
  (repeat' split) <;> simp

@[simp] theorem State.outOfOrder_keeps (s : State) (a1 : Port) (a2 : Nat) :
    (State.outOfOrder s a1 a2).kept = s.kept := by
  unfold State.outOfOrder
  split <;> simp

@[simp] theorem State.staleFrame_keeps (s : State) (a1 : Port) (a2 : Frame) (a3 : Nat) (a4 : Nat) :
    (State.staleFrame s a1 a2 a3 a4).kept = s.kept := by
  simp [State.staleFrame]

@[simp] theorem State.collIn_keeps (s : State) (a1 : Port) (a2 : Frame) (a3 : ContribIn) :
    (State.collIn s a1 a2 a3).1.kept = s.kept := by
  unfold State.collIn
  try simp
  (repeat' split) <;> (try simp only [Prod.ext_iff] at *) <;> (try repeat cases ‹_ ∧ _›) <;> (try subst_vars) <;> simp

@[simp] theorem State.collLost_keeps (s : State) (a1 : Port) (a2 : Frame) :
    (State.collLost s a1 a2).kept = s.kept := by
  unfold State.collLost
  try simp
  (repeat' split) <;> (try simp only [Prod.ext_iff] at *) <;> (try repeat cases ‹_ ∧ _›) <;> (try subst_vars) <;> simp

@[simp] theorem State.dataError_keeps (s : State) (a1 : Nat) :
    (State.dataError s a1).kept = s.kept := by
  simp [State.dataError]

@[simp] theorem State.deferFrame_keeps (s : State) (a1 : Port) (a2 : Frame) :
    (State.deferFrame s a1 a2).kept = s.kept := by
  unfold State.deferFrame
  try simp
  (repeat' split) <;> (try simp only [Prod.ext_iff] at *) <;> (try repeat cases ‹_ ∧ _›) <;> (try subst_vars) <;> simp

@[simp] theorem State.holdFrame_keeps (s : State) (a1 : Port) (a2 : Frame) :
    (State.holdFrame s a1 a2).kept = s.kept := by
  simp [State.holdFrame]

@[simp] theorem settleOnce_keeps (a0 : Nat) (a1 : List HeldFrame) (s : State) :
    (settleOnce a0 a1 s).kept = s.kept := by
  induction a1 generalizing s with
  | nil => simp [settleOnce]
  | cons h hs ih =>
    have := State.collIn_keeps s h.port h.frame { }
    unfold settleOnce
    split
    · split <;> (next hq => rw [hq] at this; simp_all)
    · simp [ih]


@[simp] theorem settleMany_keeps (a0 : Nat) (a1 : Nat) (s : State) :
    (settleMany a0 a1 s).kept = s.kept := by
  induction a1 generalizing s with
  | zero => simp [settleMany]
  | succ n ih => unfold settleMany; dsimp only; split <;> simp [ih]


@[simp] theorem State.settle_keeps (s : State) (a1 : Nat) :
    (State.settle s a1).kept = s.kept := by
  simp [State.settle]

@[simp] theorem State.collArrive_keeps (s : State) (a1 : Port) (a2 : Frame) (a3 : Bool) (a4 : ContribIn) :
    (State.collArrive s a1 a2 a3 a4).kept = s.kept := by
  unfold State.collArrive
  try simp
  (repeat' split) <;> (try simp only [Prod.ext_iff] at *) <;> (try repeat cases ‹_ ∧ _›) <;> (try subst_vars) <;> simp

@[simp] theorem State.markDone_keeps (s : State) (a1 : Nat) (a2 : BitVec 16) (a3 : Nat) :
    (State.markDone s a1 a2 a3).kept = s.kept := by
  unfold State.markDone
  split <;> simp

@[simp] theorem State.settleAll_keeps (s : State) :
    (State.settleAll s).kept = s.kept := by
  simp [State.settleAll]

end Sys2Proof.Machine
end

