-- ==== Sys2Proof/Laws/KeepSwitch.lean ====
section
/-!
SUPPORT. What leaves the queue and the timing counter as they are: forwarding, the switch core and the schedulers.
-/

set_option linter.unusedSimpArgs false

namespace Sys2Proof.Machine

/-! ### Forward -/

@[simp] theorem State.catInstall_keeps (s : State) (a1 : Nat) :
    (State.catInstall s a1).1.kept = s.kept := by
  unfold State.catInstall
  try simp
  (repeat' split) <;> (try simp only [Prod.ext_iff] at *) <;> (try repeat cases ‹_ ∧ _›) <;> (try subst_vars) <;> simp

@[simp] theorem State.catQuery_keeps (s : State) (a1 : Nat) :
    (State.catQuery s a1).1.kept = s.kept := by
  unfold State.catQuery
  split <;> simp

@[simp] theorem State.catRemove_keeps (s : State) (a1 : Nat) :
    (State.catRemove s a1).1.kept = s.kept := by
  unfold State.catRemove
  split <;> simp

@[simp] theorem State.catUnfreeze_keeps (s : State) (a1 : Nat) :
    (State.catUnfreeze s a1).1.kept = s.kept := by
  unfold State.catUnfreeze
  split <;> simp

@[simp] theorem State.mcRefuse_keeps (s : State) (a1 : Nat) :
    (State.mcRefuse s a1).kept = s.kept := by
  simp [State.mcRefuse]

@[simp] theorem State.commitTree_keeps (s : State) (a1 : W32) :
    (State.commitTree s a1).kept = s.kept := by
  simp [State.commitTree]

@[simp] theorem State.idxQuery_keeps (s : State) (a1 : W32) :
    (State.idxQuery s a1).kept = s.kept := by
  unfold State.idxQuery
  try simp
  (repeat' split) <;> (try simp only [Prod.ext_iff] at *) <;> (try repeat cases ‹_ ∧ _›) <;> (try subst_vars) <;> simp

@[simp] theorem State.loadTree_keeps (s : State) (a1 : W32) :
    (State.loadTree s a1).kept = s.kept := by
  simp [State.loadTree]

@[simp] theorem State.police_keeps (s : State) (a1 : Port) (a2 : Frame) (a3 : Nat) :
    (State.police s a1 a2 a3).kept = s.kept := by
  simp [State.police]

@[simp] theorem State.takeAnnounce_keeps (s : State) (a1 : Port) (a2 : Frame) :
    (State.takeAnnounce s a1 a2).kept = s.kept := by
  simp [State.takeAnnounce]

@[simp] theorem State.writeCatCmd_keeps (s : State) (a1 : W32) (a2 : State → Nat → State × Nat) (ha2 : ∀ t x1, (a2 t x1).1.kept = t.kept) :
    (State.writeCatCmd s a1 a2).kept = s.kept := by
  simp [State.writeCatCmd, ha2]

@[simp] theorem State.writeRehash_keeps (s : State) (a1 : W32) :
    (State.writeRehash s a1).kept = s.kept := by
  simp [State.writeRehash]

/-! ### Switch -/

@[simp] theorem State.auditOne_keeps (s : State) (a1 : Nat) (a2 : AuditFinding) :
    (State.auditOne s a1 a2).kept = s.kept := by
  unfold State.auditOne
  try simp
  (repeat' split) <;> (try simp only [Prod.ext_iff] at *) <;> (try repeat cases ‹_ ∧ _›) <;> (try subst_vars) <;> simp

@[simp] theorem State.giveBack_keeps (s : State) (a1 : Port) (a2 : BitVec 3) :
    (State.giveBack s a1 a2).kept = s.kept := by
  simp [State.giveBack]

@[simp] theorem State.setDest_keeps (s : State) (a1 : Nat) (a2 : Port) (a3 : Dest) :
    (State.setDest s a1 a2 a3).kept = s.kept := by
  unfold State.setDest
  split <;> simp

@[simp] theorem State.settleDest_keeps (s : State) (a1 : Nat) (a2 : Port) :
    (State.settleDest s a1 a2).kept = s.kept := by
  unfold State.settleDest
  split <;> simp

@[simp] theorem State.goodCell_keeps (s : State) (a1 : Nat) (a2 : Port) (a3 : Nat) :
    (State.goodCell s a1 a2 a3).kept = s.kept := by
  unfold State.goodCell
  split <;> simp

@[simp] theorem State.pullAgain_keeps (s : State) (a1 : Nat) (a2 : Port) (a3 : Nat) :
    (State.pullAgain s a1 a2 a3).kept = s.kept := by
  unfold State.pullAgain
  split <;> simp

@[simp] theorem State.rejectFree_keeps (s : State) (a1 : Nat) (a2 : Nat) :
    (State.rejectFree s a1 a2).kept = s.kept := by
  simp [State.rejectFree]

@[simp] theorem State.sramCell_keeps (s : State) (a1 : Nat) (a2 : Port) (a3 : Nat) (a4 : SramMem) (a5 : BitVec 256) (a6 : BitVec 16) (a7 : BitVec 16) :
    (State.sramCell s a1 a2 a3 a4 a5 a6 a7).kept = s.kept := by
  unfold State.sramCell
  (repeat' split) <;> simp

@[simp] theorem State.stompBegun_keeps (s : State) (a1 : Port) (a2 : Frame) :
    (State.stompBegun s a1 a2).kept = s.kept := by
  unfold State.stompBegun
  try simp
  (repeat' split) <;> (try simp only [Prod.ext_iff] at *) <;> (try repeat cases ‹_ ∧ _›) <;> (try subst_vars) <;> simp

@[simp] theorem State.trailerFail_keeps (s : State) (a1 : Port) (a2 : Nat) (a3 : Buf) (a4 : Frame) :
    (State.trailerFail s a1 a2 a3 a4).kept = s.kept := by
  simp [State.trailerFail]

@[simp] theorem State.writeMirCtl_keeps (s : State) (a1 : Nat) (a2 : W32) :
    (State.writeMirCtl s a1 a2).kept = s.kept := by
  simp [State.writeMirCtl]

@[simp] theorem pumpOrigin_keeps (a0 a1 : List OriginWait) (s : State) :
    (pumpOrigin a0 a1 s).kept = s.kept := by
  induction a1 generalizing a0 s with
  | nil => simp [pumpOrigin]
  | cons w ws ih =>
    unfold pumpOrigin
    split
    · simp [ih]
    · split
      · simp [ih]
      · split
        · next h => have := State.place_keeps _ _ _ _ _ _ _ _ _ h; simp [ih, this]
        · simp [ih]

/-! ### Sched -/

@[simp] theorem State.armSoft_keeps (s : State) (a1 : Nat) (a2 : Nat) (a3 : Bank) (a4 : Bank) (a5 : Nat) :
    (State.armSoft s a1 a2 a3 a4 a5).1.kept = s.kept := by
  simp [State.armSoft]

@[simp] theorem State.cancelSoft_keeps (s : State) (a1 : Nat) :
    (State.cancelSoft s a1).kept = s.kept := by
  simp [State.cancelSoft]

@[simp] theorem State.meterRefuse_keeps (s : State) :
    (State.meterRefuse s).kept = s.kept := by
  simp [State.meterRefuse]

@[simp] theorem State.transmit_keeps (s : State) (a1 : Port) (a2 : Frame) (a3 : Option Port) (a4 : Owner) (a5 : Nat) :
    (State.transmit s a1 a2 a3 a4 a5).1.kept = s.kept := by
  simp [State.transmit]

@[simp] theorem State.sendHead_keeps (s : State) (a1 : Port) (a2 : Nat) (a3 : Stamp) :
    (State.sendHead s a1 a2 a3).kept = s.kept := by
  unfold State.sendHead
  try simp
  (repeat' split) <;> (try simp only [Prod.ext_iff] at *) <;> (try repeat cases ‹_ ∧ _›) <;> (try subst_vars) <;> simp

@[simp] theorem State.sendTx_keeps (s : State) (a1 : Port) (a2 : Tx) (a3 : List Tx) (a4 : Stamp) :
    (State.sendTx s a1 a2 a3 a4).kept = s.kept := by
  unfold State.sendTx
  try simp
  (repeat' split) <;> (try simp only [Prod.ext_iff] at *) <;> (try repeat cases ‹_ ∧ _›) <;> (try subst_vars) <;> simp

@[simp] theorem purgeQueue_keeps (a0 : Port) (a1 : Nat) (a2 : Nat) (s : State) :
    (purgeQueue a0 a1 a2 s).kept = s.kept := by
  induction a2 generalizing s with
  | zero => simp [purgeQueue]
  | succ n ih =>
    unfold purgeQueue
    split
    · simp
    · split
      · split <;> simp [ih]
      · simp


@[simp] theorem State.serveVcs_keeps (s : State) (a1 : Port) (a2 : Stamp) :
    (State.serveVcs s a1 a2).kept = s.kept := by
  have h := foldl_keeps (fun s v => purgeQueue a1 v (s.queue a1 v).length s) (by intro s v; simp) creditVcs s
  unfold State.serveVcs
  dsimp only
  revert h
  generalize creditVcs.foldl (fun s v => purgeQueue a1 v (s.queue a1 v).length s) s = u
  intro h
  rw [← h]
  split
  · simp
  · generalize arbitrate _ _ _ _ _ _ _ _ = z
    obtain ⟨d, nx, c⟩ := z
    cases c <;> simp


@[simp] theorem State.storeGateEntry_keeps (s : State) (a1 : Nat) (a2 : Nat) (a3 : W32) :
    (State.storeGateEntry s a1 a2 a3).kept = s.kept := by
  simp [State.storeGateEntry]

@[simp] theorem State.writeGateAct_keeps (s : State) (a1 : Nat) (a2 : W32) :
    (State.writeGateAct s a1 a2).kept = s.kept := by
  unfold State.writeGateAct
  try simp
  (repeat' split) <;> (try simp only [Prod.ext_iff] at *) <;> (try repeat cases ‹_ ∧ _›) <;> (try subst_vars) <;> simp

@[simp] theorem State.writeMeter_keeps (s : State) (a1 : Nat) (a2 : W32) :
    (State.writeMeter s a1 a2).kept = s.kept := by
  simp [State.writeMeter]

@[simp] theorem State.writeWeights_keeps (s : State) (a1 : Bool) (a2 : W32) :
    (State.writeWeights s a1 a2).kept = s.kept := by
  simp [State.writeWeights]

@[simp] theorem purgeVc0_keeps (a0 : Port) (a1 : Nat) (s : State) :
    (purgeVc0 a0 a1 s).kept = s.kept := by
  induction a1 generalizing s with
  | zero => simp [purgeVc0]
  | succ n ih =>
    unfold purgeVc0
    split
    · simp
    · split <;> simp [ih]

end Sys2Proof.Machine
end

