-- ==== Sys2Proof/Laws/KeepOptics.lean ====
section
/-!
SUPPORT. What leaves the queue and the timing counter as they are: optics, transit and the commands of collectives.
-/

set_option linter.unusedSimpArgs false

namespace Sys2Proof.Machine

/-! ### Optics -/

@[simp] theorem State.beginCutover_keeps (s : State) (a1 : Nat) (a2 : Nat) (a3 : Nat) (a4 : MoveTrigger) :
    (State.beginCutover s a1 a2 a3 a4).kept = s.kept := by
  simp [State.beginCutover]

@[simp] theorem State.laserLow_keeps (s : State) (a1 : Nat) (a2 : Nat) :
    (State.laserLow s a1 a2).kept = s.kept := by
  simp [State.laserLow]

@[simp] theorem State.placeDuties_keeps (s : State) (a1 : Nat) :
    (State.placeDuties s a1).kept = s.kept := by
  unfold State.placeDuties
  try simp
  repeat (any_goals (split <;> (try simp only [Prod.ext_iff] at *) <;> (try repeat cases ‹_ ∧ _›) <;> (try subst_vars) <;> (try simp)))
  all_goals (try simp (disch := ((intros; repeat' split) <;> (try simp))))

@[simp] theorem State.releaseLatch_keeps (s : State) (a1 : Nat) :
    (State.releaseLatch s a1).kept = s.kept := by
  simp [State.releaseLatch]

@[simp] theorem State.setXt_keeps (s : State) (a1 : Nat) (a2 : Nat) (a3 : Int) :
    (State.setXt s a1 a2 a3).kept = s.kept := by
  simp [State.setXt]

@[simp] theorem State.calDone_keeps (s : State) (a1 : Nat) (a2 : CalResult) :
    (State.calDone s a1 a2).kept = s.kept := by
  simp [State.calDone]

@[simp] theorem State.endStandin_keeps (s : State) (a1 : Nat) :
    (State.endStandin s a1).kept = s.kept := by
  unfold State.endStandin
  split <;> simp

@[simp] theorem State.trigger_keeps (s : State) (a1 : Nat) (a2 : MoveTrigger) :
    (State.trigger s a1 a2).kept = s.kept := by
  simp [State.trigger]

@[simp] theorem State.fadeRules_keeps (s : State) (a1 : Nat) (a2 : Nat) (a3 : BitVec 4) (a4 : PowerReading) (a5 : Int) (a6 : Int) :
    (State.fadeRules s a1 a2 a3 a4 a5 a6).kept = s.kept := by
  unfold State.fadeRules
  try simp
  (repeat' split) <;> (try simp only [Prod.ext_iff] at *) <;> (try repeat cases ‹_ ∧ _›) <;> (try subst_vars) <;> simp

@[simp] theorem State.takeMatrix_keeps (s : State) (a1 : Nat) :
    (State.takeMatrix s a1).kept = s.kept := by
  unfold State.takeMatrix
  try simp
  (repeat' split) <;> (try simp only [Prod.ext_iff] at *) <;> (try repeat cases ‹_ ∧ _›) <;> (try subst_vars) <;> simp

@[simp] theorem State.heaterUpdate_keeps (s : State) (a1 : Nat) (a2 : List HeaterInput) :
    (State.heaterUpdate s a1 a2).kept = s.kept := by
  simp [State.heaterUpdate]

@[simp] theorem State.lockLost_keeps (s : State) (a1 : Nat) (a2 : Nat) :
    (State.lockLost s a1 a2).kept = s.kept := by
  unfold State.lockLost
  try simp
  (repeat' split) <;> (try simp only [Prod.ext_iff] at *) <;> (try repeat cases ‹_ ∧ _›) <;> (try subst_vars) <;> simp

@[simp] theorem State.lockRegained_keeps (s : State) (a1 : Nat) (a2 : Nat) :
    (State.lockRegained s a1 a2).kept = s.kept := by
  unfold State.lockRegained
  try simp
  (repeat' split) <;> (try simp only [Prod.ext_iff] at *) <;> (try repeat cases ‹_ ∧ _›) <;> (try subst_vars) <;> simp

@[simp] theorem State.noTarget_keeps (s : State) (a1 : Nat) (a2 : Nat) (a3 : MoveTrigger) :
    (State.noTarget s a1 a2 a3).kept = s.kept := by
  unfold State.noTarget
  split <;> simp

@[simp] theorem State.powerSample_keeps (s : State) (a1 : Nat) (a2 : Nat) (a3 : PowerReading) :
    (State.powerSample s a1 a2 a3).kept = s.kept := by
  unfold State.powerSample
  try simp
  (repeat' split) <;> (try simp only [Prod.ext_iff] at *) <;> (try repeat cases ‹_ ∧ _›) <;> (try subst_vars) <;> simp

@[simp] theorem State.recalLine_keeps (s : State) (a1 : Nat) (a2 : Nat) :
    (State.recalLine s a1 a2).kept = s.kept := by
  simp [State.recalLine]

@[simp] theorem State.setCutover_keeps (s : State) (a1 : Nat) (a2 : CutOver) :
    (State.setCutover s a1 a2).kept = s.kept := by
  simp [State.setCutover]

@[simp] theorem State.substrate_keeps (s : State) (a1 : Nat) (a2 : List Int) :
    (State.substrate s a1 a2).kept = s.kept := by
  simp [State.substrate]

@[simp] theorem State.writeLaneMove_keeps (s : State) (a1 : Nat) (a2 : W32) :
    (State.writeLaneMove s a1 a2).kept = s.kept := by
  unfold State.writeLaneMove
  try simp
  (repeat' split) <;> (try simp only [Prod.ext_iff] at *) <;> (try repeat cases ‹_ ∧ _›) <;> (try subst_vars) <;> simp

@[simp] theorem State.writeOptCtl_keeps (s : State) (a1 : Nat) (a2 : W32) (a3 : BitVec 36) :
    (State.writeOptCtl s a1 a2 a3).kept = s.kept := by
  simp [State.writeOptCtl]

@[simp] theorem State.writeXtCtl_keeps (s : State) (a1 : Nat) (a2 : W32) :
    (State.writeXtCtl s a1 a2).kept = s.kept := by
  simp [State.writeXtCtl]

/-! ### Transit -/

@[simp] theorem State.returnPorts_keeps (s : State) (a1 : Nat) (a2 : BitVec 512) (a3 : BitVec 512) :
    (State.returnPorts s a1 a2 a3).kept = s.kept := by
  simp [State.returnPorts]

@[simp] theorem State.applyNotices_keeps (s : State) (a1 : BitVec 32 → BitVec 32 → BitVec 32) :
    (State.applyNotices s a1).kept = s.kept := by
  simp [State.applyNotices]

@[simp] theorem State.commitPerm_keeps (s : State) (a1 : W32) :
    (State.commitPerm s a1).kept = s.kept := by
  simp [State.commitPerm]

@[simp] theorem State.releaseAll_keeps (s : State) :
    (State.releaseAll s).kept = s.kept := by
  simp [State.releaseAll]

@[simp] theorem State.shadowErr_keeps (s : State) (a1 : Nat) (a2 : Nat) :
    (State.shadowErr s a1 a2).kept = s.kept := by
  simp [State.shadowErr]

@[simp] theorem State.snapAll_keeps (s : State) :
    (State.snapAll s).kept = s.kept := by
  simp [State.snapAll]

@[simp] theorem State.standIn_keeps (s : State) (a1 : BitVec 4) :
    (State.standIn s a1).kept = s.kept := by
  unfold State.standIn
  try simp
  repeat (any_goals (split <;> (try simp only [Prod.ext_iff] at *) <;> (try repeat cases ‹_ ∧ _›) <;> (try subst_vars) <;> (try simp)))
  all_goals (try simp (disch := ((intros; repeat' split) <;> (try simp))))

@[simp] theorem State.startMapWrite_keeps (s : State) (a1 : BitVec 256) :
    (State.startMapWrite s a1).kept = s.kept := by
  simp [State.startMapWrite]

@[simp] theorem State.storeCalEntry_keeps (s : State) (a1 : Nat) (a2 : W32) :
    (State.storeCalEntry s a1 a2).kept = s.kept := by
  simp [State.storeCalEntry]

@[simp] theorem State.writeCalAct_keeps (s : State) (a1 : W32) :
    (State.writeCalAct s a1).kept = s.kept := by
  simp [State.writeCalAct]

@[simp] theorem State.writePerm_keeps (s : State) (a1 : Nat) (a2 : Nat) (a3 : W32) :
    (State.writePerm s a1 a2 a3).kept = s.kept := by
  simp [State.writePerm]

@[simp] theorem State.writeTrnCtl_keeps (s : State) (a1 : W32) (a2 : BitVec 144) :
    (State.writeTrnCtl s a1 a2).kept = s.kept := by
  simp [State.writeTrnCtl]

@[simp] theorem State.writeUmbraCtl_keeps (s : State) (a1 : W32) :
    (State.writeUmbraCtl s a1).kept = s.kept := by
  simp [State.writeUmbraCtl]

@[simp] theorem State.writeUmbraMap_keeps (s : State) (a1 : Nat) (a2 : W32) :
    (State.writeUmbraMap s a1 a2).kept = s.kept := by
  simp [State.writeUmbraMap]

/-! ### Coll -/

@[simp] theorem State.abandonAudit_keeps (s : State) (a1 : Nat) (a2 : BitVec 16) (a3 : Nat) (a4 : Segment) :
    (State.abandonAudit s a1 a2 a3 a4).kept = s.kept := by
  simp [State.abandonAudit]

@[simp] theorem State.admits_keeps (s : State) (a1 : List Byte) (a2 : Option ReplyTo) :
    (State.admits s a1 a2).kept = s.kept := by
  unfold State.admits
  split <;> simp

@[simp] theorem State.clearCores_keeps (s : State) (a1 : Nat) :
    (State.clearCores s a1).kept = s.kept := by
  simp [State.clearCores]

@[simp] theorem State.drainWaiting_keeps (s : State) (a1 : Nat) :
    (State.drainWaiting s a1).kept = s.kept := by
  simp [State.drainWaiting]

@[simp] theorem State.freeGroup_keeps (s : State) (a1 : Nat) :
    (State.freeGroup s a1).kept = s.kept := by
  simp [State.freeGroup]

@[simp] theorem State.moveSeg_keeps (s : State) (a1 : Nat) (a2 : BitVec 16) (a3 : Nat) (a4 : Nat) (a5 : Nat) (a6 : Segment) :
    (State.moveSeg s a1 a2 a3 a4 a5 a6).kept = s.kept := by
  unfold State.moveSeg
  (repeat' split) <;> simp

@[simp] theorem State.moveTile_keeps (s : State) (a1 : Nat) :
    (State.moveTile s a1).kept = s.kept := by
  unfold State.moveTile
  try simp
  repeat (any_goals (split <;> (try simp only [Prod.ext_iff] at *) <;> (try repeat cases ‹_ ∧ _›) <;> (try subst_vars) <;> (try simp)))
  all_goals (try simp (disch := ((intros; repeat' split) <;> (try simp))))

@[simp] theorem State.tileReset_keeps (s : State) (a1 : Nat) :
    (State.tileReset s a1).kept = s.kept := by
  simp [State.tileReset]

@[simp] theorem State.moveEnds_keeps (s : State) (a1 : Nat) :
    (State.moveEnds s a1).kept = s.kept := by
  simp [State.moveEnds]

@[simp] theorem State.queueRecord_keeps (s : State) (a1 : List Byte) (a2 : Option ReplyTo) :
    (State.queueRecord s a1 a2).kept = s.kept := by
  simp [State.queueRecord]

@[simp] theorem State.resendDeferred_keeps (s : State) (a1 : Nat) (a2 : Deferral) :
    (State.resendDeferred s a1 a2).kept = s.kept := by
  unfold State.resendDeferred
  split <;> simp

@[simp] theorem State.takeGroupRec_keeps (s : State) (a1 : Port) (a2 : Frame) :
    (State.takeGroupRec s a1 a2).kept = s.kept := by
  simp [State.takeGroupRec]

@[simp] theorem State.teardown_keeps (s : State) (a1 : List Byte) (a2 : Option ReplyTo) :
    (State.teardown s a1 a2).kept = s.kept := by
  simp [State.teardown]

end Sys2Proof.Machine
end

