-- ==== Sys2Proof/Laws/KeepMemory.lean ====
section
/-!
SUPPORT. What leaves the queue and the timing counter as they are: the memory endpoint and the instructions of orrery cores.
-/

set_option linter.unusedSimpArgs false

namespace Sys2Proof.Machine

/-! ### MemCore -/

@[simp] theorem State.answerFence_keeps (s : State) (a1 : MemReq) :
    (State.answerFence s a1).kept = s.kept := by
  simp [State.answerFence]

@[simp] theorem State.queueAck_keeps (s : State) (a1 : Nat) (a2 : WriteAck) :
    (State.queueAck s a1 a2).kept = s.kept := by
  simp [State.queueAck]

@[simp] theorem State.doStores_keeps (s : State) (a1 : Nat) (a2 : List MemReq) (a3 : MemReq) :
    (State.doStores s a1 a2 a3).kept = s.kept := by
  simp [State.doStores]

@[simp] theorem State.filterHit_keeps (s : State) (a1 : Nat) (a2 : MemReq) (a3 : FilterRec) :
    (State.filterHit s a1 a2 a3).kept = s.kept := by
  simp [State.filterHit]

@[simp] theorem State.filterPut_keeps (s : State) (a1 : Nat) (a2 : MemReq) (a3 : BitVec 8) (a4 : Nat) (a5 : List Byte) :
    (State.filterPut s a1 a2 a3 a4 a5).kept = s.kept := by
  simp [State.filterPut]

@[simp] theorem State.refuseReq_keeps (s : State) (a1 : Nat) (a2 : MemReq) (a3 : Nat) :
    (State.refuseReq s a1 a2 a3).kept = s.kept := by
  simp [State.refuseReq]

@[simp] theorem State.redRegionOne_keeps (s : State) (a1 : Nat) (a2 : Nat) (a3 : Nat) (a4 : MemReq) :
    (State.redRegionOne s a1 a2 a3 a4).kept = s.kept := by
  unfold State.redRegionOne
  try simp
  (repeat' split) <;> (try simp only [Prod.ext_iff] at *) <;> (try repeat cases ‹_ ∧ _›) <;> (try subst_vars) <;> simp

@[simp] theorem State.refuseAll_keeps (s : State) (a1 : Nat) (a2 : List MemReq) (a3 : Nat) :
    (State.refuseAll s a1 a2 a3).kept = s.kept := by
  simp [State.refuseAll]

@[simp] theorem State.redRegionAll_keeps (s : State) (a1 : Nat) (a2 : List MemReq) (a3 : MemReq) (a4 : Nat) :
    (State.redRegionAll s a1 a2 a3 a4).kept = s.kept := by
  unfold State.redRegionAll
  try simp
  (repeat' split) <;> (try simp only [Prod.ext_iff] at *) <;> (try repeat cases ‹_ ∧ _›) <;> (try subst_vars) <;> simp

@[simp] theorem State.redWindow_keeps (s : State) (a1 : Nat) (a2 : List MemReq) (a3 : MemReq) :
    (State.redWindow s a1 a2 a3).kept = s.kept := by
  simp [State.redWindow]

@[simp] theorem State.doReqs_keeps (s : State) (a1 : Nat) (a2 : List MemReq) (a3 : Nat) :
    (State.doReqs s a1 a2 a3).kept = s.kept := by
  unfold State.doReqs
  try simp
  (repeat' split) <;> (try simp only [Prod.ext_iff] at *) <;> (try repeat cases ‹_ ∧ _›) <;> (try subst_vars) <;> simp

@[simp] theorem State.issueReqs_keeps (s : State) (a1 : Nat) (a2 : List MemReq) (a3 : Access) (a4 : ChannelIo) :
    (State.issueReqs s a1 a2 a3 a4).kept = s.kept := by
  unfold State.issueReqs
  split
  · simp
  · dsimp only
    split
    · next h => exact State.holdWords_keeps _ _ _ _ _ _ h
    · split <;> simp


@[simp] theorem State.sendMerged_keeps (s : State) (a1 : Comb) :
    (State.sendMerged s a1).kept = s.kept := by
  unfold State.sendMerged
  split <;> simp

@[simp] theorem State.setComb_keeps (s : State) (a1 : Comb) :
    (State.setComb s a1).kept = s.kept := by
  simp [State.setComb]

@[simp] theorem State.flushComb_keeps (s : State) (a1 : Comb) (a2 : ChannelIo) :
    (State.flushComb s a1 a2).kept = s.kept := by
  unfold State.flushComb
  split <;> simp

@[simp] theorem State.combAdd_keeps (s : State) (a1 : Nat) (a2 : MemReq) :
    (State.combAdd s a1 a2).kept = s.kept := by
  unfold State.combAdd
  split <;> simp

@[simp] theorem State.countLookup_keeps (s : State) (a1 : Nat) (a2 : Frame) :
    (State.countLookup s a1 a2).kept = s.kept := by
  simp [State.countLookup]

@[simp] theorem State.dropEmpty_keeps (s : State) (a1 : Nat) :
    (State.dropEmpty s a1).kept = s.kept := by
  unfold State.dropEmpty
  split <;> simp

@[simp] theorem State.failReqs_keeps (s : State) (a1 : Nat) (a2 : List MemReq) :
    (State.failReqs s a1 a2).kept = s.kept := by
  simp [State.failReqs]

@[simp] theorem State.offer_keeps (s : State) (a1 : CombAt) (a2 : MemReq) (a3 : Bool) :
    (State.offer s a1 a2 a3).1.kept = s.kept := by
  unfold State.offer
  try simp
  repeat (any_goals (split <;> (try simp only [Prod.ext_iff] at *) <;> (try repeat cases ‹_ ∧ _›) <;> (try subst_vars) <;> (try simp)))
  all_goals (try simp (disch := ((intros; repeat' split) <;> (try simp))))

@[simp] theorem State.fenceIn_keeps (s : State) (a1 : MemReq) :
    (State.fenceIn s a1).kept = s.kept := by
  simp [State.fenceIn]

@[simp] theorem State.mcastCopy_keeps (s : State) (a1 : Nat) (a2 : Nat) (a3 : Frame) (a4 : Port) :
    (State.mcastCopy s a1 a2 a3 a4).kept = s.kept := by
  simp [State.mcastCopy]

@[simp] theorem State.ownMcast_keeps (s : State) (a1 : Nat) (a2 : Nat) :
    (State.ownMcast s a1 a2).kept = s.kept := by
  unfold State.ownMcast
  split <;> simp

@[simp] theorem State.mcastIn_keeps (s : State) (a1 : Nat) (a2 : MemReq) (a3 : Tree) :
    (State.mcastIn s a1 a2 a3).kept = s.kept := by
  simp [State.mcastIn]

@[simp] theorem State.ownIn_keeps (s : State) (a1 : MemReq) (a2 : ChannelIo) :
    (State.ownIn s a1 a2).kept = s.kept := by
  unfold State.ownIn
  try simp
  (repeat' split) <;> (try simp only [Prod.ext_iff] at *) <;> (try repeat cases ‹_ ∧ _›) <;> (try subst_vars) <;> simp

@[simp] theorem State.thruIn_keeps (s : State) (a1 : Nat) (a2 : Port) (a3 : Frame) :
    (State.thruIn s a1 a2 a3).kept = s.kept := by
  unfold State.thruIn
  try simp
  (repeat' split) <;> (try simp only [Prod.ext_iff] at *) <;> (try repeat cases ‹_ ∧ _›) <;> (try subst_vars) <;> simp

@[simp] theorem State.memIn_keeps (s : State) (a1 : Hold) :
    (State.memIn s a1).kept = s.kept := by
  unfold State.memIn
  try simp
  (repeat' split) <;> (try simp only [Prod.ext_iff] at *) <;> (try repeat cases ‹_ ∧ _›) <;> (try subst_vars) <;> simp

@[simp] theorem State.meterGo_keeps (s : State) (a1 : Hold) :
    (State.meterGo s a1).kept = s.kept := by
  simp [State.meterGo]

/-! ### Memory -/

@[simp] theorem State.closeComb_keeps (s : State) (a1 : Comb) :
    (State.closeComb s a1).kept = s.kept := by
  simp [State.closeComb]

@[simp] theorem State.combTimeout_keeps (s : State) (a1 : ThruReq) :
    (State.combTimeout s a1).kept = s.kept := by
  simp [State.combTimeout]

@[simp] theorem State.mcastDone_keeps (s : State) (a1 : Nat) (a2 : McastOp) :
    (State.mcastDone s a1 a2).kept = s.kept := by
  unfold State.mcastDone
  split <;> simp

@[simp] theorem State.memArrive_keeps (s : State) (a1 : Port) (a2 : Frame) (a3 : Stamp) (a4 : Bool) (a5 : ChannelIo) :
    (State.memArrive s a1 a2 a3 a4 a5).kept = s.kept := by
  simp [State.memArrive]

@[simp] theorem State.rspIn_keeps (s : State) (a1 : Port) (a2 : Frame) (a3 : Bool) :
    (State.rspIn s a1 a2 a3).kept = s.kept := by
  simp [State.rspIn]

@[simp] theorem State.writeAccepted_keeps (s : State) (a1 : Nat) :
    (State.writeAccepted s a1).kept = s.kept := by
  unfold State.writeAccepted
  (repeat' split) <;> simp

@[simp] theorem State.writeAccess_keeps (s : State) (a1 : Nat) (a2 : Nat) (a3 : W32) :
    (State.writeAccess s a1 a2 a3).kept = s.kept := by
  simp [State.writeAccess]

/-! ### OryDecode -/

@[simp] theorem State.issue_keeps (s : State) (a1 : Nat) (a2 : OryOp) (a3 : Prog → W32 → W32 → State) (ha3 : ∀ x0 x1 x2, (a3 x0 x1 x2).kept = s.kept) :
    (State.issue s a1 a2 a3).kept = s.kept := by
  unfold State.issue
  (repeat' split) <;> simp [ha3]

/-! ### OryAlu -/

@[simp] theorem State.branchTo_keeps (s : State) (a1 : Nat) (a2 : Prog) (a3 : Thread) (a4 : Int) :
    (State.branchTo s a1 a2 a3 a4).kept = s.kept := by
  simp [State.branchTo]

@[simp] theorem State.branchIf_keeps (s : State) (a1 : Nat) (a2 : OryOp) (a3 : W64 → W64 → Bool) :
    (State.branchIf s a1 a2 a3).kept = s.kept := by
  simp [State.branchIf]

@[simp] theorem State.budgetFault_keeps (s : State) (a1 : Nat) :
    (State.budgetFault s a1).kept = s.kept := by
  unfold State.budgetFault
  split <;> simp

@[simp] theorem State.illegal_keeps (s : State) (a1 : Nat) :
    (State.illegal s a1).kept = s.kept := by
  unfold State.illegal
  (repeat' split) <;> simp

@[simp] theorem State.laneOps_keeps (s : State) (a1 : Nat) (a2 : Nat) :
    (State.laneOps s a1 a2).kept = s.kept := by
  simp [State.laneOps]

@[simp] theorem State.scalarI_keeps (s : State) (a1 : Nat) (a2 : OryOp) (a3 : W64 → W32 → W64) :
    (State.scalarI s a1 a2 a3).kept = s.kept := by
  simp [State.scalarI]

@[simp] theorem State.scalarT_keeps (s : State) (a1 : Nat) (a2 : OryOp) (a3 : W64 → W64 → W64) :
    (State.scalarT s a1 a2 a3).kept = s.kept := by
  simp [State.scalarT]

@[simp] theorem State.vcompare_keeps (s : State) (a1 : Nat) (a2 : OryOp) (a3 : W64 → W64 → Bool) :
    (State.vcompare s a1 a2 a3).kept = s.kept := by
  simp [State.vcompare]

@[simp] theorem State.vector_keeps (s : State) (a1 : Nat) (a2 : OryOp) (a3 : W32 → W64 → W64 → W64) :
    (State.vector s a1 a2 a3).kept = s.kept := by
  simp [State.vector]

end Sys2Proof.Machine
end

