-- ==== Sys2Proof/Laws/KeepOrrery.lean ====
section
/-!
SUPPORT. What leaves the queue and the timing counter as they are: memory instructions, tokens and the accession.
-/

set_option linter.unusedSimpArgs false

namespace Sys2Proof.Machine

/-! ### OryMem -/

@[simp] theorem State.regionRead_keeps (s : State) (a1 : Nat) (a2 : Nat) :
    (State.regionRead s a1 a2).1.kept = s.kept := by
  unfold State.regionRead
  try simp
  (repeat' split) <;> (try simp only [Prod.ext_iff] at *) <;> (try repeat cases ‹_ ∧ _›) <;> (try subst_vars) <;> simp

@[simp] theorem State.staleAccess_keeps (s : State) :
    (State.staleAccess s).kept = s.kept := by
  simp [State.staleAccess]

@[simp] theorem State.expsLoad_keeps (s : State) (a1 : Thread) (a2 : Nat) (a3 : Nat) (a4 : Nat) :
    (State.expsLoad s a1 a2 a3 a4).1.kept = s.kept := by
  unfold State.expsLoad
  split <;> simp

@[simp] theorem State.expsStore_keeps (s : State) (a1 : Thread) (a2 : Nat) (a3 : Nat) (a4 : List Byte) :
    (State.expsStore s a1 a2 a3 a4).kept = s.kept := by
  unfold State.expsStore
  split <;> simp

@[simp] theorem State.flushSelf_keeps (s : State) (a1 : Place) :
    (State.flushSelf s a1).kept = s.kept := by
  unfold State.flushSelf
  split <;> simp

@[simp] theorem State.mcastFar_keeps (s : State) (a1 : Nat) (a2 : Frame) (a3 : Tree) :
    (State.mcastFar s a1 a2 a3).kept = s.kept := by
  simp [State.mcastFar]

@[simp] theorem State.placeEngine_keeps (s : State) (a1 : Nat) (a2 : Thread) (a3 : List Place) (a4 : ChannelIo) :
    (State.placeEngine s a1 a2 a3 a4).1.kept = s.kept := by
  unfold State.placeEngine
  try simp
  (repeat' split) <;> (try simp only [Prod.ext_iff] at *) <;> (try repeat cases ‹_ ∧ _›) <;> (try subst_vars) <;> simp

theorem State.placeHold_keeps (s t : State) (k : Nat) (r : List (Nat × List Nat)) (io : ChannelIo)
    (h : s.placeHold k r io = some t) : t.kept = s.kept := by
  unfold State.placeHold at h
  simp only [Option.map_eq_some_iff] at h
  obtain ⟨u, h1, rfl⟩ := h
  have := findSome_keeps _ (fun e t h => State.holdWords_keeps _ _ _ _ _ _ h) _ h1
  simpa using this


@[simp] theorem State.viewLoad_keeps (s : State) (a1 : Thread) (a2 : Nat) (a3 : Nat) (a4 : Nat) :
    (State.viewLoad s a1 a2 a3 a4).1.kept = s.kept := by
  unfold State.viewLoad
  split
  · simp
  · dsimp only
    split
    · simp
    · split <;> simp


@[simp] theorem State.placeLoad_keeps (s : State) (a1 : Thread) (a2 : Prog) (a3 : Place) (a4 : Nat) :
    (State.placeLoad s a1 a2 a3 a4).1.kept = s.kept := by
  unfold State.placeLoad
  cases a3
  case region => dsimp only; split <;> simp
  case stack => exact foldl_fst_keeps _ (by intro s e; simp) _ (s, _)
  all_goals simp


@[simp] theorem State.regionWrite_keeps (s : State) (a1 : Nat) (a2 : Nat) (a3 : Nat) (a4 : List Byte) :
    (State.regionWrite s a1 a2 a3 a4).kept = s.kept := by
  simp [State.regionWrite]

@[simp] theorem State.viewStore_keeps (s : State) (a1 : Thread) (a2 : Nat) (a3 : Nat) (a4 : List Byte) :
    (State.viewStore s a1 a2 a3 a4).kept = s.kept := by
  unfold State.viewStore
  split <;> simp

@[simp] theorem State.placeStore_keeps (s : State) (a1 : Thread) (a2 : Place) (a3 : List Byte) :
    (State.placeStore s a1 a2 a3).kept = s.kept := by
  unfold State.placeStore
  split <;> (try simp)
  exact foldl_fst_keeps _ (by intro s e; simp) _ (s, _)


@[simp] theorem State.sendFar_keeps (s : State) (a1 : Nat) (a2 : Frame) :
    (State.sendFar s a1 a2).kept = s.kept := by
  simp [State.sendFar]

@[simp] theorem State.oryAmo_keeps (s : State) (a1 : Nat) (a2 : Prog) (a3 : W32) (a4 : ChannelIo) :
    (State.oryAmo s a1 a2 a3 a4).kept = s.kept := by
  unfold State.oryAmo
  dsimp only
  split
  · simp
  · split
    · split
      · simp
      · split
        · next h => exact keeps_trans (State.placeHold_keeps _ _ _ _ _ h) (by simp)
        · split
          · next h => exact keeps_of_eq h (by simp)
          · next h =>
            refine keeps_trans ?_ (keeps_of_eq h (by simp))
            clear h
            have acc : ∀ (t : State) (d : Nat), (match t.accession (.atomic d (BitVec.ofNat 8 (fFn a3)) ((s.thread a1).get (fB a3)) ((s.thread a1).get (fD a3))) with | (s', .done old _ _) => s'.setThread a1 ((s.thread a1).put (fD a3) (BitVec.ofNat 64 (leNat old))).step | (s', _) => s').kept = t.kept := by
              intro t d
              have k := State.accession_keeps t (.atomic d (BitVec.ofNat 8 (fFn a3)) ((s.thread a1).get (fB a3)) ((s.thread a1).get (fD a3)))
              split <;> (next h => rw [h] at k; simpa using k)
            rename_i a pl hp hn o hq r u
            clear hp hq hn
            cases pl
            case node => simp
            case nacked => simp
            case region => exact acc _ _
            case stack ps q =>
              cases ps with
              | nil => dsimp only; split <;> simp
              | cons e es =>
                dsimp only
                split
                · next h => exact keeps_trans (acc _ _) (keeps_trans (by simp) (keeps_of_eq h (by simp)))
                · next h => exact keeps_trans (by simp) (keeps_of_eq h (by simp))
            all_goals (dsimp only; split <;> simp)
    · simp


@[simp] theorem State.oryLoad_keeps (s : State) (a1 : Nat) (a2 : Prog) (a3 : BitVec 5) (a4 : Bool) (a5 : Nat) (a6 : Bool) (a7 : List Acc) (a8 : ChannelIo) :
    (State.oryLoad s a1 a2 a3 a4 a5 a6 a7 a8).kept = s.kept := by
  unfold State.oryLoad
  dsimp only
  split
  · simp
  · split
    · simp
    · split
      · next h => exact keeps_trans (State.placeHold_keeps _ _ _ _ _ h) (by simp)
      · split
        · next h => exact keeps_of_eq h (by simp)
        · next h =>
          refine keeps_trans ?_ (keeps_of_eq h (by simp))
          clear h
          have k := foldl_fst_keeps (loadOne a2 a3 a4 a6) (by
            intro s e; obtain ⟨a, pl⟩ := e; unfold loadOne; cases pl <;> simp)
          rename_i ps _ _ _ _ _ _ u
          have k := k ps (u, s.thread a1, [])
          split <;> exact keeps_trans (by simp) k


@[simp] theorem State.storeOne_keeps (s : State) (a1 : Nat) (a2 : Thread) (a3 : Acc × Place) :
    (State.storeOne s a1 a2 a3).kept = s.kept := by
  have aux : ∀ (u : State) (y : Thread) (id c : Nat) (pl : Place), (((u.setThread a1 y).placeStore a2 pl a3.1.data).queueAck c (.thread a1 id)).kept = u.kept := by
    intro u y id c pl; simp
  obtain ⟨a, pl⟩ := a3
  unfold State.storeOne
  cases pl <;> dsimp only
  case node => simp
  case tree => simp
  case nacked => simp
  all_goals split
  all_goals first
    | exact keeps_trans (aux _ _ _ _ _) (by simp)
    | simp


@[simp] theorem State.oryStore_keeps (s : State) (a1 : Nat) (a2 : Prog) (a3 : List Acc) (a4 : ChannelIo) :
    (State.oryStore s a1 a2 a3 a4).kept = s.kept := by
  unfold State.oryStore
  dsimp only
  split
  · simp
  · split
    · simp
    · split
      · simp
      · split
        · next h => exact keeps_trans (State.placeHold_keeps _ _ _ _ _ h) (by simp)
        · split
          · next h => exact keeps_of_eq h (by simp)
          · next h => exact keeps_trans (by simp) (keeps_of_eq h (by simp))


@[simp] theorem State.scalarLoad_keeps (s : State) (a1 : Nat) (a2 : OryOp) (a3 : Nat) (a4 : Bool) (a5 : ChannelIo) :
    (State.scalarLoad s a1 a2 a3 a4 a5).kept = s.kept := by
  simp [State.scalarLoad]

@[simp] theorem State.scalarStore_keeps (s : State) (a1 : Nat) (a2 : OryOp) (a3 : Nat) (a4 : ChannelIo) :
    (State.scalarStore s a1 a2 a3 a4).kept = s.kept := by
  simp [State.scalarStore]

/-! ### OryTok -/

@[simp] theorem State.dropProgram_keeps (s : State) (a1 : Nat) (a2 : Prog) :
    (State.dropProgram s a1 a2).kept = s.kept := by
  simp [State.dropProgram]

@[simp] theorem State.progEnd_keeps (s : State) (a1 : Nat) :
    (State.progEnd s a1).kept = s.kept := by
  simp [State.progEnd]

@[simp] theorem State.tryUnload_keeps (s : State) (a1 : Nat) (a2 : Bool) :
    (State.tryUnload s a1 a2).kept = s.kept := by
  unfold State.tryUnload
  (repeat' split) <;> simp

@[simp] theorem State.beginUnload_keeps (s : State) (a1 : Nat) (a2 : Bool) (a3 : Option Transport) :
    (State.beginUnload s a1 a2 a3).1.kept = s.kept := by
  unfold State.beginUnload
  split <;> simp

@[simp] theorem State.fireTimer_keeps (s : State) (a1 : Nat) :
    (State.fireTimer s a1).kept = s.kept := by
  unfold State.fireTimer
  split <;> simp

@[simp] theorem State.releaseChunk_keeps (s : State) (a1 : Token) :
    (State.releaseChunk s a1).kept = s.kept := by
  unfold State.releaseChunk
  try simp
  (repeat' split) <;> (try simp only [Prod.ext_iff] at *) <;> (try repeat cases ‹_ ∧ _›) <;> (try subst_vars) <;> simp

@[simp] theorem State.implicitRelease_keeps (s : State) (a1 : Nat) :
    (State.implicitRelease s a1).kept = s.kept := by
  unfold State.implicitRelease
  try simp
  (repeat' split) <;> (try simp only [Prod.ext_iff] at *) <;> (try repeat cases ‹_ ∧ _›) <;> (try subst_vars) <;> simp

@[simp] theorem State.postToken_keeps (s : State) (a1 : Nat) (a2 : W64) (a3 : W64) :
    (State.postToken s a1 a2 a3).1.kept = s.kept := by
  simp [State.postToken]

@[simp] theorem State.progCmd_keeps (s : State) (a1 : W32) (a2 : Nat) (a3 : State → State) (ha3 : ∀ t, (a3 t).kept = t.kept) :
    (State.progCmd s a1 a2 a3).kept = s.kept := by
  simp [State.progCmd, ha3]

@[simp] theorem State.queueRoom_keeps (s : State) (a1 : Nat) :
    (State.queueRoom s a1).kept = s.kept := by
  unfold State.queueRoom
  (repeat' split) <;> simp

@[simp] theorem State.releaseBy_keeps (s : State) (a1 : Nat) (a2 : W64) :
    (State.releaseBy s a1 a2).1.kept = s.kept := by
  unfold State.releaseBy
  try simp
  (repeat' split) <;> (try simp only [Prod.ext_iff] at *) <;> (try repeat cases ‹_ ∧ _›) <;> (try subst_vars) <;> simp

@[simp] theorem State.resume_keeps (s : State) (a1 : Nat) :
    (State.resume s a1).kept = s.kept := by
  unfold State.resume
  split <;> simp

@[simp] theorem State.setTimer_keeps (s : State) (a1 : Nat) (a2 : W64) (a3 : W64) :
    (State.setTimer s a1 a2 a3).kept = s.kept := by
  simp [State.setTimer]

@[simp] theorem State.stopUnloading_keeps (s : State) (a1 : Nat) :
    (State.stopUnloading s a1).kept = s.kept := by
  unfold State.stopUnloading
  (repeat' split) <;> simp

@[simp] theorem State.storeFault_keeps (s : State) (a1 : Nat) (a2 : State → State) (ha2 : ∀ t, (a2 t).kept = t.kept) :
    (State.storeFault s a1 a2).kept = s.kept := by
  unfold State.storeFault
  split <;> simp [ha2]

@[simp] theorem State.suspend_keeps (s : State) (a1 : Nat) :
    (State.suspend s a1).kept = s.kept := by
  unfold State.suspend
  split <;> simp

@[simp] theorem State.takeToken_keeps (s : State) (a1 : Nat) :
    (State.takeToken s a1).kept = s.kept := by
  unfold State.takeToken
  try simp
  (repeat' split) <;> (try simp only [Prod.ext_iff] at *) <;> (try repeat cases ‹_ ∧ _›) <;> (try subst_vars) <;> simp

/-! ### Accession -/

theorem State.accHold_keeps (s t : State) (c : AccCmd) (io : ChannelIo)
    (h : s.accHold c io = some t) : t.kept = s.kept := by
  unfold State.accHold at h
  split at h
  · cases h
  · dsimp only at h
    split at h
    · next h1 =>
      simp only [Option.some.injEq] at h; subst h
      split at h1
      · cases h1
      · exact State.holdPage_keeps _ _ _ _ _ _ h1
    · split at h
      · next h2 =>
        simp only [Option.some.injEq] at h; subst h
        simp only [Option.bind_eq_some_iff] at h2
        obtain ⟨d, -, h2⟩ := h2
        exact State.holdPage_keeps _ _ _ _ _ _ h2
      · exact findSome_keeps _ (fun e t h => State.holdWords_keeps _ _ _ _ _ _ h) _ h


@[simp] theorem State.accPerform_keeps (s : State) (a1 : AccCmd) (a2 : ChannelIo) :
    (State.accPerform s a1 a2).kept = s.kept := by
  unfold State.accPerform
  try simp
  (repeat' split) <;> (try simp only [Prod.ext_iff] at *) <;> (try repeat cases ‹_ ∧ _›) <;> (try subst_vars) <;> simp

@[simp] theorem State.accCommand_keeps (s : State) (a1 : AccCmd) (a2 : ChannelIo) :
    (State.accCommand s a1 a2).kept = s.kept := by
  unfold State.accCommand
  split
  · next h => exact State.accHold_keeps _ _ _ _ h
  · simp


@[simp] theorem State.apertureGo_keeps (s : State) (a1 : Nat) (a2 : Nat) (a3 : ChannelIo) :
    (State.apertureGo s a1 a2 a3).kept = s.kept := by
  simp [State.apertureGo]

@[simp] theorem State.regionStatus_keeps (s : State) (a1 : Nat) :
    (State.regionStatus s a1).kept = s.kept := by
  simp [State.regionStatus]

@[simp] theorem State.clearEnds_keeps (s : State) (a1 : Nat) :
    (State.clearEnds s a1).kept = s.kept := by
  simp [State.clearEnds]

@[simp] theorem State.startClearing_keeps (s : State) (a1 : Nat) :
    (State.startClearing s a1).kept = s.kept := by
  simp [State.startClearing]

@[simp] theorem State.regionClearAll_keeps (s : State) (a1 : Nat) :
    (State.regionClearAll s a1).kept = s.kept := by
  simp [State.regionClearAll]

@[simp] theorem State.regionInstall_keeps (s : State) (a1 : Nat) :
    (State.regionInstall s a1).kept = s.kept := by
  simp [State.regionInstall]

@[simp] theorem State.regionRemove_keeps (s : State) (a1 : Nat) :
    (State.regionRemove s a1).kept = s.kept := by
  simp [State.regionRemove]

@[simp] theorem State.writeRegionCmd_keeps (s : State) (a1 : W32) :
    (State.writeRegionCmd s a1).kept = s.kept := by
  unfold State.writeRegionCmd
  (repeat' split) <;> simp

@[simp] theorem State.zeroMemory_keeps (s : State) :
    (State.zeroMemory s).kept = s.kept := by
  simp [State.zeroMemory]

end Sys2Proof.Machine
end

