-- ==== Sys2Proof/Laws/KeepHealth.lean ====
section
/-!
SUPPORT. What leaves the queue and the timing counter as they are: albedo, keys and program loading.
-/

set_option linter.unusedSimpArgs false

namespace Sys2Proof.Machine

/-! ### Albedo -/

@[simp] theorem State.retryAll_keeps (s : State) :
    (State.retryAll s).kept = s.kept := by
  unfold State.retryAll
  exact foldl_keeps _ (by intro s g; simp) _ _


@[simp] theorem State.clearBreaker_keeps (s : State) :
    (State.clearBreaker s).kept = s.kept := by
  simp [State.clearBreaker]

@[simp] theorem State.moveToken_keeps (s : State) (a1 : Nat) (a2 : Token) :
    (State.moveToken s a1 a2).kept = s.kept := by
  simp [State.moveToken]

@[simp] theorem State.moveTokens_keeps (s : State) (a1 : List Nat) (a2 : List Token) :
    (State.moveTokens s a1 a2).kept = s.kept := by
  simp [State.moveTokens]

@[simp] theorem State.stopThread_keeps (s : State) (a1 : Nat) :
    (State.stopThread s a1).kept = s.kept := by
  simp [State.stopThread]

@[simp] theorem State.coreLeaves_keeps (s : State) (a1 : Nat) :
    (State.coreLeaves s a1).kept = s.kept := by
  simp [State.coreLeaves]

@[simp] theorem State.elemStatus_keeps (s : State) (a1 : Nat) :
    (State.elemStatus s a1).kept = s.kept := by
  simp [State.elemStatus]

@[simp] theorem State.expelDone_keeps (s : State) (a1 : Nat) (a2 : Nat) :
    (State.expelDone s a1 a2).kept = s.kept := by
  unfold State.expelDone
  split <;> simp

@[simp] theorem State.expelElem_keeps (s : State) (a1 : Nat) (a2 : Nat) :
    (State.expelElem s a1 a2).kept = s.kept := by
  unfold State.expelElem
  (repeat' split) <;> simp

@[simp] theorem State.throttleUp_keeps (s : State) (a1 : Nat × Fld × Nat) :
    (State.throttleUp s a1).kept = s.kept := by
  simp [State.throttleUp]

@[simp] theorem State.govern_keeps (s : State) :
    (State.govern s).kept = s.kept := by
  unfold State.govern
  try simp
  (repeat' split) <;> (try simp only [Prod.ext_iff] at *) <;> (try repeat cases ‹_ ∧ _›) <;> (try subst_vars) <;> simp

@[simp] theorem State.showPower_keeps (s : State) (a1 : Fld) (a2 : Fld) (a3 : Nat) :
    (State.showPower s a1 a2 a3).kept = s.kept := by
  simp [State.showPower]

@[simp] theorem State.throttleMax_keeps (s : State) :
    (State.throttleMax s).kept = s.kept := by
  simp [State.throttleMax]

@[simp] theorem State.governorRun_keeps (s : State) (a1 : List Nat) (a2 : Nat) (a3 : List Nat) :
    (State.governorRun s a1 a2 a3).kept = s.kept := by
  simp [State.governorRun]

@[simp] theorem State.heatStack_keeps (s : State) (a1 : Nat) (a2 : Int) :
    (State.heatStack s a1 a2).kept = s.kept := by
  simp [State.heatStack]

@[simp] theorem State.quarantine_keeps (s : State) (a1 : Nat) :
    (State.quarantine s a1).kept = s.kept := by
  simp [State.quarantine]

@[simp] theorem State.slewDie_keeps (s : State) (a1 : Nat) (a2 : Int) :
    (State.slewDie s a1 a2).kept = s.kept := by
  simp [State.slewDie]

@[simp] theorem State.throttleDie_keeps (s : State) (a1 : Nat) (a2 : Int) :
    (State.throttleDie s a1 a2).kept = s.kept := by
  simp [State.throttleDie]

@[simp] theorem State.warnDie_keeps (s : State) (a1 : Nat) (a2 : Int) :
    (State.warnDie s a1 a2).kept = s.kept := by
  simp [State.warnDie]

@[simp] theorem State.readTemps_keeps (s : State) (a1 : List Int) (a2 : List Int) :
    (State.readTemps s a1 a2).kept = s.kept := by
  simp [State.readTemps]

@[simp] theorem State.recoverScores_keeps (s : State) :
    (State.recoverScores s).kept = s.kept := by
  simp [State.recoverScores]

@[simp] theorem State.refillGroup_keeps (s : State) (a1 : Nat) :
    (State.refillGroup s a1).kept = s.kept := by
  simp [State.refillGroup]

@[simp] theorem State.restored_keeps (s : State) (a1 : Nat) (a2 : Nat) :
    (State.restored s a1 a2).kept = s.kept := by
  unfold State.restored
  split <;> simp

@[simp] theorem State.restoreElem_keeps (s : State) (a1 : Nat) (a2 : Nat) :
    (State.restoreElem s a1 a2).kept = s.kept := by
  unfold State.restoreElem
  try simp
  (repeat' split) <;> (try simp only [Prod.ext_iff] at *) <;> (try repeat cases ‹_ ∧ _›) <;> (try subst_vars) <;> simp

@[simp] theorem State.watchdog_keeps (s : State) (a1 : Nat) :
    (State.watchdog s a1).kept = s.kept := by
  simp [State.watchdog]

@[simp] theorem State.writeElemCmd_keeps (s : State) (a1 : W32) :
    (State.writeElemCmd s a1).kept = s.kept := by
  unfold State.writeElemCmd
  try simp
  (repeat' split) <;> (try simp only [Prod.ext_iff] at *) <;> (try repeat cases ‹_ ∧ _›) <;> (try subst_vars) <;> simp

/-! ### Keys -/

@[simp] theorem State.verifyFail_keeps (s : State) :
    (State.verifyFail s).kept = s.kept := by
  simp [State.verifyFail]

/-! ### OryLoad -/

@[simp] theorem State.loadEnds_keeps (s : State) (a1 : Nat) :
    (State.loadEnds s a1).kept = s.kept := by
  unfold State.loadEnds
  try simp
  (repeat' split) <;> (try simp only [Prod.ext_iff] at *) <;> (try repeat cases ‹_ ∧ _›) <;> (try subst_vars) <;> simp

@[simp] theorem State.beginLoad_keeps (s : State) (a1 : List Byte) (a2 : Option Transport) :
    (State.beginLoad s a1 a2).kept = s.kept := by
  unfold State.beginLoad
  try simp
  (repeat' split) <;> (try simp only [Prod.ext_iff] at *) <;> (try repeat cases ‹_ ∧ _›) <;> (try subst_vars) <;> simp

@[simp] theorem State.startProgram_keeps (s : State) (a1 : Nat) (a2 : Prog) :
    (State.startProgram s a1 a2).kept = s.kept := by
  simp [State.startProgram]

@[simp] theorem State.loadNow_keeps (s : State) (a1 : List Byte) :
    (State.loadNow s a1).1.kept = s.kept := by
  unfold State.loadNow
  split <;> simp

end Sys2Proof.Machine
end

