-- ==== Sys2Proof/Laws/KeepConfig.lean ====
section
/-!
SUPPORT. What leaves the queue and the timing counter as they are: the configuration and its transfers.
-/

set_option linter.unusedSimpArgs false

namespace Sys2Proof.Machine

/-! ### Sections -/

@[simp] theorem State.addRegion_keeps (s : State) (a1 : Bool) (a2 : List Byte) :
    (State.addRegion s a1 a2).kept = s.kept := by
  simp [State.addRegion]

@[simp] theorem State.applyWords_keeps (s : State) (a1 : Nat → Nat → Nat) (a2 : Nat) (a3 : Nat) (a4 : List Byte) :
    (State.applyWords s a1 a2 a3 a4).kept = s.kept := by
  simp [State.applyWords]

@[simp] theorem State.applyAccess_keeps (s : State) (a1 : List Byte) :
    (State.applyAccess s a1).kept = s.kept := by
  simp [State.applyAccess]

@[simp] theorem State.applyCable_keeps (s : State) (a1 : List Byte) :
    (State.applyCable s a1).kept = s.kept := by
  simp [State.applyCable]

@[simp] theorem State.applyManagers_keeps (s : State) (a1 : List (List Byte)) :
    (State.applyManagers s a1).kept = s.kept := by
  simp [State.applyManagers]

@[simp] theorem State.applyParts_keeps (s : State) (a1 : List Byte) :
    (State.applyParts s a1).kept = s.kept := by
  simp [State.applyParts]

@[simp] theorem State.putPerm_keeps (s : State) (a1 : Nat) (a2 : List Byte) :
    (State.putPerm s a1 a2).kept = s.kept := by
  simp [State.putPerm]

@[simp] theorem State.putSection_keeps (s : State) (a1 : Nat) (a2 : Nat) (a3 : List Byte) :
    (State.putSection s a1 a2 a3).kept = s.kept := by
  simp [State.putSection]

@[simp] theorem State.applyPerms_keeps (s : State) (a1 : Nat) (a2 : List Byte) :
    (State.applyPerms s a1 a2).kept = s.kept := by
  simp [State.applyPerms]

@[simp] theorem State.applyPools_keeps (s : State) (a1 : List Byte) :
    (State.applyPools s a1).kept = s.kept := by
  simp [State.applyPools]

@[simp] theorem State.dropRegion_keeps (s : State) (a1 : Nat) :
    (State.dropRegion s a1).kept = s.kept := by
  simp [State.dropRegion]

@[simp] theorem State.applyRegions_keeps (s : State) (a1 : Bool) (a2 : Nat) (a3 : List Byte) :
    (State.applyRegions s a1 a2 a3).kept = s.kept := by
  simp [State.applyRegions]

@[simp] theorem State.putRegEntry_keeps (s : State) (a1 : Nat) (a2 : Nat) (a3 : W32) :
    (State.putRegEntry s a1 a2 a3).kept = s.kept := by
  simp [State.putRegEntry]

@[simp] theorem State.applyRegs_keeps (s : State) (a1 : State → Nat → W32 → State) (a2 : Nat) (a3 : List Byte) (ha1 : ∀ t x1 x2, (a1 t x1 x2).kept = t.kept) :
    (State.applyRegs s a1 a2 a3).kept = s.kept := by
  simp [State.applyRegs, ha1]

@[simp] theorem State.applyTrees_keeps (s : State) (a1 : Nat) (a2 : List Byte) :
    (State.applyTrees s a1 a2).kept = s.kept := by
  simp [State.applyTrees]

@[simp] theorem State.applyUmbra_keeps (s : State) (a1 : List Byte) :
    (State.applyUmbra s a1).kept = s.kept := by
  simp [State.applyUmbra]

@[simp] theorem State.applyXtalk_keeps (s : State) (a1 : List Byte) :
    (State.applyXtalk s a1).kept = s.kept := by
  simp [State.applyXtalk]

@[simp] theorem State.rebuildIndex_keeps (s : State) :
    (State.rebuildIndex s).kept = s.kept := by
  unfold State.rebuildIndex
  try simp
  (repeat' split) <;> (try simp only [Prod.ext_iff] at *) <;> (try repeat cases ‹_ ∧ _›) <;> (try subst_vars) <;> simp

@[simp] theorem State.applyData_keeps (s : State) (a1 : State → Nat → W32 → State) (a2 : Bool) (a3 : List Byte) (ha1 : ∀ t x1 x2, (a1 t x1 x2).kept = t.kept) :
    (State.applyData s a1 a2 a3).kept = s.kept := by
  simp [State.applyData, ha1]

@[simp] theorem State.maskedReg_keeps (s : State) (a1 : Nat) (a2 : W32) :
    (State.maskedReg s a1 a2).kept = s.kept := by
  simp [State.maskedReg]

/-! ### Content -/

@[simp] theorem State.viewOf_keeps (s : State) (a1 : List Byte) :
    (State.viewOf s a1).kept = s.kept := by
  simp [State.viewOf]

@[simp] theorem loadAll_keeps (s : State) (a1 : Nat) (a2 : List (List Byte)) :
    (loadAll s a1 a2).1.kept = s.kept := by
  induction a2 generalizing a1 s with
  | nil => simp [loadAll]
  | cons b bs ih =>
    have := State.loadNow_keeps s b
    unfold loadAll
    split <;> (next hq => rw [hq] at this; simp_all)

/-! ### ConfigApply -/

@[simp] theorem State.setAmendErr_keeps (s : State) (a1 : ContentErr) :
    (State.setAmendErr s a1).kept = s.kept := by
  simp [State.setAmendErr]

@[simp] theorem State.amendRefused_keeps (s : State) (a1 : Nat) (a2 : Option ContentErr) (a3 : List Nat) :
    (State.amendRefused s a1 a2 a3).kept = s.kept := by
  unfold State.amendRefused
  split <;> simp

@[simp] theorem State.cfgEffect_keeps (s : State) (a1 : Nat) (a2 : W32) :
    (State.cfgEffect s a1 a2).kept = s.kept := by
  unfold State.cfgEffect
  (repeat' split) <;> simp

@[simp] theorem State.amendReg_keeps (s : State) (a1 : Nat) (a2 : W32) :
    (State.amendReg s a1 a2).kept = s.kept := by
  simp [State.amendReg]

@[simp] theorem State.armRefused_keeps (s : State) (a1 : Nat) (a2 : Nat) :
    (State.armRefused s a1 a2).kept = s.kept := by
  simp [State.armRefused]

@[simp] theorem State.cableMoves_keeps (s : State) (a1 : State) :
    (State.cableMoves s a1).kept = s.kept := by
  unfold State.cableMoves
  try simp
  repeat (any_goals (split <;> (try simp only [Prod.ext_iff] at *) <;> (try repeat cases ‹_ ∧ _›) <;> (try subst_vars) <;> (try simp)))
  all_goals (try simp (disch := ((intros; repeat' split) <;> (try simp))))

@[simp] theorem State.cancelAmend_keeps (s : State) :
    (State.cancelAmend s).1.kept = s.kept := by
  unfold State.cancelAmend
  try simp
  (repeat' split) <;> (try simp only [Prod.ext_iff] at *) <;> (try repeat cases ‹_ ∧ _›) <;> (try subst_vars) <;> simp

@[simp] theorem State.exclude_keeps (s : State) (a1 : Nat) (a2 : Nat) :
    (State.exclude s a1 a2).kept = s.kept := by
  simp [State.exclude]

@[simp] theorem State.coldElems_keeps (s : State) (a1 : List Byte) :
    (State.coldElems s a1).kept = s.kept := by
  simp [State.coldElems]

@[simp] theorem State.fillCarried_keeps (s : State) (a1 : List Byte) :
    (State.fillCarried s a1).kept = s.kept := by
  unfold State.fillCarried
  split <;> simp

@[simp] theorem State.hasFired_keeps (s : State) (a1 : Nat) (a2 : Bool) :
    (State.hasFired s a1 a2).kept = s.kept := by
  simp [State.hasFired]

@[simp] theorem State.loadPrograms_keeps (s : State) (a1 : List Byte) :
    (State.loadPrograms s a1).kept = s.kept := by
  simp [State.loadPrograms]

@[simp] theorem State.fireAmend_keeps (s : State) (a1 : Amendment) (a2 : Bool) :
    (State.fireAmend s a1 a2).kept = s.kept := by
  simp [State.fireAmend]

@[simp] theorem State.fireCal_keeps (s : State) (a1 : Nat) (a2 : Bool) :
    (State.fireCal s a1 a2).kept = s.kept := by
  simp [State.fireCal]

@[simp] theorem State.fireGates_keeps (s : State) (a1 : Nat) (a2 : Nat) (a3 : Bool) :
    (State.fireGates s a1 a2 a3).kept = s.kept := by
  simp [State.fireGates]

@[simp] theorem State.fireOne_keeps (s : State) (a1 : Nat) (a2 : Act) :
    (State.fireOne s a1 a2).kept = s.kept := by
  unfold State.fireOne
  (repeat' split) <;> simp

@[simp] theorem State.hostTrains_keeps (s : State) :
    (State.hostTrains s).kept = s.kept := by
  unfold State.hostTrains
  split <;> simp

@[simp] theorem State.folioBad_keeps (s : State) (a1 : ContentErr) (a2 : List Nat) :
    (State.folioBad s a1 a2).kept = s.kept := by
  simp [State.folioBad]

@[simp] theorem State.queueGroups_keeps (s : State) (a1 : List Byte) :
    (State.queueGroups s a1).kept = s.kept := by
  simp [State.queueGroups]

@[simp] theorem State.refence_keeps (s : State) :
    (State.refence s).kept = s.kept := by
  simp [State.refence]

@[simp] theorem State.startCalibration_keeps (s : State) :
    (State.startCalibration s).kept = s.kept := by
  simp [State.startCalibration]

@[simp] theorem State.folioGood_keeps (s : State) (a1 : List Byte) :
    (State.folioGood s a1).kept = s.kept := by
  simp [State.folioGood]

@[simp] theorem State.hostDown_keeps (s : State) :
    (State.hostDown s).kept = s.kept := by
  simp [State.hostDown]

@[simp] theorem State.noteProgSig_keeps (s : State) (a1 : List Byte) (a2 : ContentErr) :
    (State.noteProgSig s a1 a2).kept = s.kept := by
  simp [State.noteProgSig]

@[simp] theorem State.releaseAmendment_keeps (s : State) :
    (State.releaseAmendment s).kept = s.kept := by
  unfold State.releaseAmendment
  split <;> simp

@[simp] theorem State.stageAmend_keeps (s : State) (a1 : List Byte) :
    (State.stageAmend s a1).1.kept = s.kept := by
  unfold State.stageAmend
  try simp
  (repeat' split) <;> (try simp only [Prod.ext_iff] at *) <;> (try repeat cases ‹_ ∧ _›) <;> (try subst_vars) <;> simp

@[simp] theorem fireDue_keeps (a0 : Nat) (s : State) :
    (fireDue a0 s).kept = s.kept := by
  fun_induction fireDue a0 s <;> simp_all

/-! ### Transfers -/

@[simp] theorem State.amendTransferFails_keeps (s : State) :
    (State.amendTransferFails s).kept = s.kept := by
  simp [State.amendTransferFails]

@[simp] theorem State.fragDone_keeps (s : State) (a1 : Nat) (a2 : Nat) (a3 : List Byte) :
    (State.fragDone s a1 a2 a3).kept = s.kept := by
  unfold State.fragDone
  split <;> simp

@[simp] theorem State.fragTaken_keeps (s : State) (a1 : Nat) (a2 : Transport) (a3 : Nat) (a4 : Nat) (a5 : Nat) :
    (State.fragTaken s a1 a2 a3 a4 a5).kept = s.kept := by
  simp [State.fragTaken]

@[simp] theorem State.amendFragment_keeps (s : State) (a1 : Transport) (a2 : Nat) (a3 : Nat) (a4 : List Byte) (a5 : Bool) :
    (State.amendFragment s a1 a2 a3 a4 a5).1.kept = s.kept := by
  unfold State.amendFragment
  split <;> simp

@[simp] theorem State.transferIdle_keeps (s : State) (a1 : Nat) :
    (State.transferIdle s a1).kept = s.kept := by
  unfold State.transferIdle
  split <;> simp

/-! ### ConfigRows -/

@[simp] theorem State.cfgWriteEffect_keeps (s : State) (a1 : Nat) (a2 : W32) :
    (State.cfgWriteEffect s a1 a2).kept = s.kept := by
  simp [State.cfgWriteEffect]

@[simp] theorem State.cfgWrite_keeps (s : State) (a1 : Nat) (a2 : W32) :
    (State.cfgWrite s a1 a2).kept = s.kept := by
  unfold State.cfgWrite
  (repeat' split) <;> simp

@[simp] theorem State.fired_keeps (s : State) :
    (State.fired s).kept = s.kept := by
  simp [State.fired]

@[simp] theorem State.mgmtIn_keeps (s : State) (a1 : BitVec 8) (a2 : Port) (a3 : Frame) (a4 : Bool) (a5 : State → State) (ha5 : ∀ t, (a5 t).kept = t.kept) :
    (State.mgmtIn s a1 a2 a3 a4 a5).kept = s.kept := by
  simp [State.mgmtIn, ha5]

@[simp] theorem State.putDigest_keeps (s : State) (a1 : Nat → Nat) (a2 : List Byte) :
    (State.putDigest s a1 a2).kept = s.kept := by
  simp [State.putDigest]

@[simp] theorem State.takeAmendFrag_keeps (s : State) (a1 : Port) (a2 : Frame) :
    (State.takeAmendFrag s a1 a2).kept = s.kept := by
  simp [State.takeAmendFrag]

@[simp] theorem State.writeAmendCmd_keeps (s : State) (a1 : W32) :
    (State.writeAmendCmd s a1).kept = s.kept := by
  simp [State.writeAmendCmd]

end Sys2Proof.Machine
end

