-- ==== Sys2Proof/Laws/KeepArchive.lean ====
section
/-!
SUPPORT. What leaves the queue and the timing counter as they are: the Archivist, the host link and check units.
-/

set_option linter.unusedSimpArgs false

namespace Sys2Proof.Machine

/-! ### Archive -/

@[simp] theorem State.acknowledge_keeps (s : State) :
    (State.acknowledge s).kept = s.kept := by
  simp [State.acknowledge]

@[simp] theorem State.almanacCopy_keeps (s : State) :
    (State.almanacCopy s).kept = s.kept := by
  simp [State.almanacCopy]

@[simp] theorem State.archCmd_keeps (s : State) (a1 : Transport) (a2 : BitVec 16) (a3 : State → State) (ha3 : ∀ t, (a3 t).kept = t.kept) :
    (State.archCmd s a1 a2 a3).kept = s.kept := by
  unfold State.archCmd
  split <;> simp [ha3]

@[simp] theorem State.sensors_keeps (s : State) (a1 : List Int) (a2 : List W32) :
    (State.sensors s a1 a2).kept = s.kept := by
  unfold State.sensors
  have h1 := foldl_keeps (fun (s : State) (n : Nat) => match a1[n]? with
    | some t => s.setFld (Reg.GLB_SENSOR.temp n) (wrap 16 t)
    | none => s) (by intro s n; split <;> simp) (List.range 640) s
  have h2 := foldl_keeps (fun (s : State) (r : Nat) => match a2[r]? with
    | some w => s.setReg (Reg.GLB_RAIL.addr r) w
    | none => s) (by intro s n; split <;> simp) (List.range 7) ((List.range 640).foldl (fun (s : State) (n : Nat) => match a1[n]? with
    | some t => s.setFld (Reg.GLB_SENSOR.temp n) (wrap 16 t)
    | none => s) s)
  exact h2.trans h1


@[simp] theorem State.writeGlbCtl_keeps (s : State) (a1 : W32) :
    (State.writeGlbCtl s a1).kept = s.kept := by
  simp [State.writeGlbCtl]

@[simp] theorem State.writeIntStatus_keeps (s : State) (a1 : Nat) (a2 : W32) :
    (State.writeIntStatus s a1 a2).kept = s.kept := by
  simp [State.writeIntStatus]

@[simp] theorem State.writeSummary_keeps (s : State) :
    (State.writeSummary s).kept = s.kept := by
  simp [State.writeSummary]

/-! ### ArchiveStd -/

@[simp] theorem State.archDone_keeps (s : State) (a1 : Transport) (a2 : BitVec 16) (a3 : List Byte) :
    (State.archDone s a1 a2 a3).kept = s.kept := by
  simp [State.archDone]

@[simp] theorem State.clearEvents_keeps (s : State) (a1 : Nat) (a2 : Bool) (a3 : List Nat) :
    (State.clearEvents s a1 a2 a3).1.kept = s.kept := by
  simp [State.clearEvents]

/-! ### ArchiveCmd -/

@[simp] theorem State.amendTransfer_keeps (s : State) (a1 : Transport) (a2 : Nat) (a3 : Nat) (a4 : List Byte) :
    (State.amendTransfer s a1 a2 a3 a4).kept = s.kept := by
  simp [State.amendTransfer]

@[simp] theorem State.repeatAnswer_keeps (s : State) (a1 : Transport) (a2 : BitVec 16) (a3 : Option (Nat × List Byte)) :
    (State.repeatAnswer s a1 a2 a3).kept = s.kept := by
  unfold State.repeatAnswer
  split <;> simp

@[simp] theorem State.folioTransfer_keeps (s : State) (a1 : Transport) (a2 : Nat) (a3 : Nat) (a4 : List Byte) :
    (State.folioTransfer s a1 a2 a3 a4).kept = s.kept := by
  unfold State.folioTransfer
  split <;> simp

@[simp] theorem State.programTransfer_keeps (s : State) (a1 : Transport) (a2 : Nat) (a3 : Nat) (a4 : List Byte) :
    (State.programTransfer s a1 a2 a3 a4).kept = s.kept := by
  unfold State.programTransfer
  split <;> simp

@[simp] theorem State.transferCmd_keeps (s : State) (a1 : Transport) (a2 : BitVec 16) (a3 : List Byte) (a4 : State → Nat → Nat → List Byte → State) (ha4 : ∀ t x1 x2 x3, (a4 t x1 x2 x3).kept = t.kept) :
    (State.transferCmd s a1 a2 a3 a4).kept = s.kept := by
  simp [State.transferCmd, ha4]

/-! ### HostLink -/

@[simp] theorem State.cxlReadFails_keeps (s : State) (a1 : W64) (a2 : Nat) :
    (State.cxlReadFails s a1 a2).kept = s.kept := by
  simp [State.cxlReadFails]

@[simp] theorem State.cxlReads_keeps (s : State) (a1 : W64) (a2 : Nat) (a3 : ChannelIo) :
    (State.cxlReads s a1 a2 a3).kept = s.kept := by
  simp [State.cxlReads]

@[simp] theorem State.cxlWrites_keeps (s : State) (a1 : W64) (a2 : Nat) (a3 : List Byte) :
    (State.cxlWrites s a1 a2 a3).kept = s.kept := by
  simp [State.cxlWrites]

@[simp] theorem State.dropCxl_keeps (s : State) :
    (State.dropCxl s).kept = s.kept := by
  simp [State.dropCxl]

@[simp] theorem State.dropMailbox_keeps (s : State) :
    (State.dropMailbox s).kept = s.kept := by
  unfold State.dropMailbox
  split <;> simp

@[simp] theorem State.hdmUnclaimed_keeps (s : State) (a1 : W64) :
    (State.hdmUnclaimed s a1).kept = s.kept := by
  simp [State.hdmUnclaimed]

@[simp] theorem State.resetHostLink_keeps (s : State) :
    (State.resetHostLink s).kept = s.kept := by
  simp [State.resetHostLink]

/-! ### CheckUnit -/

@[simp] theorem State.cuEnds_keeps (s : State) (a1 : Nat) (a2 : Nat) (a3 : Nat) :
    (State.cuEnds s a1 a2 a3).kept = s.kept := by
  simp [State.cuEnds]

@[simp] theorem State.cuResult_keeps (s : State) (a1 : Nat) (a2 : CuJob) :
    (State.cuResult s a1 a2).kept = s.kept := by
  simp [State.cuResult]

@[simp] theorem State.cuStart_keeps (s : State) (a1 : Nat) :
    (State.cuStart s a1).kept = s.kept := by
  unfold State.cuStart
  split <;> simp

@[simp] theorem State.writeCuCtl_keeps (s : State) (a1 : Nat) (a2 : W32) :
    (State.writeCuCtl s a1 a2).kept = s.kept := by
  simp [State.writeCuCtl]

/-! ### Mend -/

@[simp] theorem State.accessAgain_keeps (s : State) (a1 : Access) :
    (State.accessAgain s a1).kept = s.kept := by
  unfold State.accessAgain
  dsimp only
  split <;> (try simp) <;> split <;> (try simp) <;> (try split) <;> (try simp)
  all_goals (first
    | (next h => exact State.holdPage_keeps _ _ _ _ _ _ h)
    | (next h => exact State.holdWords_keeps _ _ _ _ _ _ h))


@[simp] theorem State.restartFor_keeps (s : State) (a1 : Nat) (a2 : BitVec 16) (a3 : Nat) (a4 : Option (Port × Nat)) :
    (State.restartFor s a1 a2 a3 a4).kept = s.kept := by
  unfold State.restartFor
  split <;> simp

@[simp] theorem State.accessFails_keeps (s : State) (a1 : Access) (a2 : Nat) :
    (State.accessFails s a1 a2).kept = s.kept := by
  unfold State.accessFails
  (repeat' split) <;> simp

@[simp] theorem State.emitWaiting_keeps (s : State) :
    (State.emitWaiting s).kept = s.kept := by
  unfold State.emitWaiting
  refine foldl_keeps _ ?_ _ _
  intro s e
  dsimp only
  split
  · split <;> simp
  · simp


@[simp] theorem State.pageLost_keeps (s : State) (a1 : Nat) (a2 : List Access) :
    (State.pageLost s a1 a2).kept = s.kept := by
  unfold State.pageLost
  split <;> simp

@[simp] theorem State.pageMended_keeps (s : State) (a1 : Nat) :
    (State.pageMended s a1).kept = s.kept := by
  simp [State.pageMended]

end Sys2Proof.Machine
end

