-- ==== Sys2Proof/Laws/KeepReset.lean ====
section
/-!
SUPPORT. What leaves the queue and the timing counter as they are: security, resets and register access.
-/

set_option linter.unusedSimpArgs false

namespace Sys2Proof.Machine

/-! ### Secure -/

@[simp] theorem State.showKeys_keeps (s : State) (a1 : List Byte) :
    (State.showKeys s a1).kept = s.kept := by
  simp [State.showKeys]

@[simp] theorem State.chooseOwner_keeps (s : State) :
    (State.chooseOwner s).kept = s.kept := by
  unfold State.chooseOwner
  split <;> simp

@[simp] theorem State.ownerEnds_keeps (s : State) (a1 : Nat) :
    (State.ownerEnds s a1).kept = s.kept := by
  simp [State.ownerEnds]

@[simp] theorem State.debugAuth_keeps (s : State) :
    (State.debugAuth s).kept = s.kept := by
  simp [State.debugAuth]

@[simp] theorem State.localMac_keeps (s : State) (a1 : List Byte) :
    (State.localMac s a1).kept = s.kept := by
  simp [State.localMac]

@[simp] theorem State.deriveIdentity_keeps (s : State) :
    (State.deriveIdentity s).kept = s.kept := by
  simp [State.deriveIdentity]

@[simp] theorem State.verifyFw_keeps (s : State) :
    (State.verifyFw s).1.kept = s.kept := by
  unfold State.verifyFw
  split <;> simp

@[simp] theorem State.fwComplete_keeps (s : State) (a1 : Transport) :
    (State.fwComplete s a1).kept = s.kept := by
  simp [State.fwComplete]

@[simp] theorem State.fwPut_keeps (s : State) (a1 : Nat) (a2 : List Byte) :
    (State.fwPut s a1 a2).kept = s.kept := by
  simp [State.fwPut]

@[simp] theorem State.fwContinue_keeps (s : State) (a1 : Transport) (a2 : Transfer) (a3 : Nat) (a4 : List Byte) (a5 : Bool) :
    (State.fwContinue s a1 a2 a3 a4 a5).kept = s.kept := by
  simp [State.fwContinue]

@[simp] theorem State.installOwner_keeps (s : State) :
    (State.installOwner s).kept = s.kept := by
  simp [State.installOwner]

@[simp] theorem State.measureFw_keeps (s : State) (a1 : List Byte) :
    (State.measureFw s a1).kept = s.kept := by
  simp [State.measureFw]

@[simp] theorem State.transferFw_keeps (s : State) (a1 : Transport) (a2 : List Byte) :
    (State.transferFw s a1 a2).kept = s.kept := by
  unfold State.transferFw
  try simp
  (repeat' split) <;> (try simp only [Prod.ext_iff] at *) <;> (try repeat cases ‹_ ∧ _›) <;> (try subst_vars) <;> simp

@[simp] theorem State.writeOwnerCmd_keeps (s : State) (a1 : W32) :
    (State.writeOwnerCmd s a1).kept = s.kept := by
  simp [State.writeOwnerCmd]

/-! ### Spdm -/

@[simp] theorem State.spdmFail_keeps (s : State) (a1 : Nat) (a2 : Nat) :
    (State.spdmFail s a1 a2).kept = s.kept := by
  simp [State.spdmFail]

@[simp] theorem State.spdmIn_keeps (s : State) (a1 : Nat) (a2 : Nat) (a3 : List Byte) (a4 : State → State) (ha4 : ∀ t, (a4 t).kept = t.kept) :
    (State.spdmIn s a1 a2 a3 a4).kept = s.kept := by
  simp [State.spdmIn, ha4]

/-! ### Reset -/

@[simp] theorem State.abortAll_keeps (s : State) :
    (State.abortAll s).kept = s.kept := by
  simp [State.abortAll]

@[simp] theorem State.bootStart_keeps (s : State) :
    (State.bootStart s).kept = s.kept := by
  simp [State.bootStart]

@[simp] theorem State.deviceBase_keeps (s : State) :
    (State.deviceBase s).kept = s.kept := by
  simp [State.deviceBase]

@[simp] theorem State.pinsFrom_keeps (s : State) (a1 : State) :
    (State.pinsFrom s a1).kept = s.kept := by
  simp [State.pinsFrom]

@[simp] theorem State.sendLast_keeps (s : State) :
    (State.sendLast s).kept = s.kept := by
  simp [State.sendLast]

@[simp] theorem State.startDeviceReset_keeps (s : State) :
    (State.startDeviceReset s).kept = s.kept := by
  simp [State.startDeviceReset]

@[simp] theorem State.activateFw_keeps (s : State) (a1 : Transport) (a2 : List Byte) :
    (State.activateFw s a1 a2).kept = s.kept := by
  have h := State.verifyFw_keeps s
  unfold State.activateFw
  dsimp only
  split
  · simp
  · split
    · simp
    · split
      · simp
      · split
        · simp
        · split
          · next e => rw [e] at h; simpa using h
          · next e => rw [e] at h; rw [← h]; split <;> simp


@[simp] theorem State.checkReserve_keeps (s : State) (a1 : Nat) :
    (State.checkReserve s a1).kept = s.kept := by
  simp [State.checkReserve]

@[simp] theorem State.coldStart_keeps (s : State) (a1 : Nat) :
    (State.coldStart s a1).kept = s.kept := by
  simp [State.coldStart]

@[simp] theorem State.enterRecovery_keeps (s : State) :
    (State.enterRecovery s).kept = s.kept := by
  simp [State.enterRecovery]

@[simp] theorem State.firmwareStarts_keeps (s : State) (a1 : List Byte) :
    (State.firmwareStarts s a1).kept = s.kept := by
  simp [State.firmwareStarts]

@[simp] theorem State.loseMemory_keeps (s : State) :
    (State.loseMemory s).kept = s.kept := by
  simp [State.loseMemory]

@[simp] theorem State.releaseReady_keeps (s : State) :
    (State.releaseReady s).kept = s.kept := by
  simp [State.releaseReady]

@[simp] theorem State.writeResetCmd_keeps (s : State) (a1 : W32) :
    (State.writeResetCmd s a1).kept = s.kept := by
  simp [State.writeResetCmd]

/-! ### RegView -/

@[simp] theorem State.clearRead_keeps (s : State) (a1 : Nat) :
    (State.clearRead s a1).kept = s.kept := by
  unfold State.clearRead
  split <;> simp

@[simp] theorem State.readReg_keeps (s : State) (a1 : Requester) (a2 : Nat) :
    (State.readReg s a1 a2).1.kept = s.kept := by
  unfold State.readReg
  (repeat' split) <;> simp

@[simp] theorem State.answerRead_keeps (s : State) (a1 : Requester) (a2 : Nat) :
    (State.answerRead s a1 a2).kept = s.kept := by
  simp [State.answerRead]

/-! ### Pmu -/

@[simp] theorem State.ledgerAdd_keeps (s : State) (a1 : Nat) (a2 : Nat) (a3 : Nat) :
    (State.ledgerAdd s a1 a2 a3).kept = s.kept := by
  simp [State.ledgerAdd]

/-! ### RegWrite -/

@[simp] theorem State.apertureWord_keeps (s : State) (a1 : Nat) :
    (State.apertureWord s a1).1.kept = s.kept := by
  simp [State.apertureWord]

@[simp] theorem State.cfgPair_keeps (s : State) (a1 : Nat) (a2 : W32) (a3 : W32) :
    (State.cfgPair s a1 a2 a3).kept = s.kept := by
  unfold State.cfgPair
  (repeat' split) <;> simp

@[simp] theorem State.holdLow_keeps (s : State) (a1 : Requester) (a2 : Nat) (a3 : W32) :
    (State.holdLow s a1 a2 a3).kept = s.kept := by
  simp [State.holdLow]

@[simp] theorem State.performCfg_keeps (s : State) (a1 : Nat) (a2 : W32) :
    (State.performCfg s a1 a2).kept = s.kept := by
  unfold State.performCfg
  (repeat' split) <;> simp

@[simp] theorem State.writeCat_keeps (s : State) (a1 : W32) :
    (State.writeCat s a1).kept = s.kept := by
  unfold State.writeCat
  split <;> simp

@[simp] theorem State.performFwd_keeps (s : State) (a1 : Nat) (a2 : W32) :
    (State.performFwd s a1 a2).kept = s.kept := by
  simp [State.performFwd]

@[simp] theorem State.performHlt_keeps (s : State) (a1 : Nat) (a2 : W32) :
    (State.performHlt s a1 a2).kept = s.kept := by
  simp [State.performHlt]

@[simp] theorem State.performOpt_keeps (s : State) (a1 : Nat) (a2 : W32) :
    (State.performOpt s a1 a2).kept = s.kept := by
  simp [State.performOpt]

@[simp] theorem State.writeShadow_keeps (s : State) (a1 : Nat) (a2 : Nat) (a3 : W32) :
    (State.writeShadow s a1 a2 a3).kept = s.kept := by
  simp [State.writeShadow]

@[simp] theorem State.performSch_keeps (s : State) (a1 : Nat) (a2 : W32) :
    (State.performSch s a1 a2).kept = s.kept := by
  unfold State.performSch
  try simp
  (repeat' split) <;> (try simp only [Prod.ext_iff] at *) <;> (try repeat cases ‹_ ∧ _›) <;> (try subst_vars) <;> simp

@[simp] theorem State.performStk_keeps (s : State) (a1 : Nat) (a2 : W32) :
    (State.performStk s a1 a2).kept = s.kept := by
  unfold State.performStk
  (repeat' split) <;> simp

@[simp] theorem State.performTrn_keeps (s : State) (a1 : Nat) (a2 : W32) :
    (State.performTrn s a1 a2).kept = s.kept := by
  unfold State.performTrn
  (repeat' split) <;> simp

@[simp] theorem State.writeProg_keeps (s : State) (a1 : W32) :
    (State.writeProg s a1).kept = s.kept := by
  unfold State.writeProg
  try simp
  (repeat' split) <;> (try simp only [Prod.ext_iff] at *) <;> (try repeat cases ‹_ ∧ _›) <;> (try subst_vars) <;> simp

@[simp] theorem State.perform_keeps (s : State) (a1 : Nat) (a2 : W32) :
    (State.perform s a1 a2).kept = s.kept := by
  unfold State.perform
  (repeat' split) <;> simp

@[simp] theorem State.readWords_keeps (a0 : Requester) (a1 : Nat) (a2 : Nat) (s : State) :
    (State.readWords a0 a1 a2 s).1.kept = s.kept := by
  induction a1 generalizing a2 s with
  | zero => simp [State.readWords]
  | succ n ih => unfold State.readWords; dsimp only; split <;> simp [ih]


@[simp] theorem State.regReadCmd_keeps (s : State) (a1 : Transport) (a2 : List Byte) :
    (State.regReadCmd s a1 a2).kept = s.kept := by
  simp [State.regReadCmd]

@[simp] theorem State.writePlain_keeps (s : State) (a1 : Nat) (a2 : W32) :
    (State.writePlain s a1 a2).kept = s.kept := by
  unfold State.writePlain
  (repeat' split) <;> simp

@[simp] theorem State.writeStage_keeps (s : State) (a1 : Nat) (a2 : W32) (a3 : Stage) :
    (State.writeStage s a1 a2 a3).kept = s.kept := by
  unfold State.writeStage
  split <;> simp

end Sys2Proof.Machine
end

