-- ==== Sys2Proof/Laws/Clock.lean ====
section
/-!
SUPPORT. What changes the rate or the timing counter: samples of the servo (R48), EPH_FREQ_ADJ, steps, cold resets and the
tick. Each leaves the queue and keeps the clamps of R36; those that leave the counter as well are `Slewed`.
-/

namespace Sys2Proof.Machine

/-- From s to t the queue stays, and the clamps of R36 hold if they held. -/
structure Moved (s t : State) : Prop where
  pending : t.pending = s.pending
  clamped : s.clamped → t.clamped

/-- From s to t the counter stays as well. -/
structure Slewed (s t : State) : Prop extends Moved s t where
  acc : t.eph.acc = s.eph.acc

theorem Moved.refl (s : State) : Moved s s := ⟨rfl, id⟩

theorem Moved.trans {s t u : State} (h : Moved s t) (k : Moved t u) : Moved s u :=
  ⟨k.pending.trans h.pending, fun c => k.clamped (h.clamped c)⟩

theorem Slewed.refl (s : State) : Slewed s s := ⟨Moved.refl s, rfl⟩

theorem Slewed.trans {s t u : State} (h : Slewed s t) (k : Slewed t u) : Slewed s u :=
  ⟨h.toMoved.trans k.toMoved, k.acc.trans h.acc⟩

theorem Slewed.of_kept {s t : State} (h : t.kept = s.kept) : Slewed s t := by
  injection h with hp ha hi hc
  refine ⟨⟨hp, fun c => ?_⟩, hc⟩
  unfold State.clamped at *
  rw [ha, hi]; exact c

theorem Moved.of_kept {s t : State} (h : t.kept = s.kept) : Moved s t := (Slewed.of_kept h).toMoved

theorem clampInt_bounds (v : Int) : -(2 ^ 36) ≤ clampInt v (-adjClamp) adjClamp ∧ clampInt v (-adjClamp) adjClamp ≤ 2 ^ 36 := by
  unfold clampInt adjClamp
  split
  · omega
  · split <;> omega

theorem State.servo_slewed (s : State) (e tw : Int) : Slewed s (s.servo e tw) := by
  unfold State.servo
  split
  · exact Slewed.refl s
  · dsimp only
    split
    · refine ⟨⟨rfl, fun h => ⟨?_, h.2⟩⟩, rfl⟩
      show -(2 ^ 36) ≤ (if 0 < e then -adjClamp else adjClamp) ∧ (if 0 < e then -adjClamp else adjClamp) ≤ 2 ^ 36
      unfold adjClamp
      split <;> decide
    · exact ⟨⟨rfl, fun _ => ⟨clampInt_bounds _, clampInt_bounds _⟩⟩, rfl⟩

theorem State.stepTime_moved (s : State) (e : Int) : Moved s (s.stepTime e) := by
  unfold State.stepTime
  exact Moved.trans (t := { s with
    eph.acc := BitVec.ofInt 112 ((s.eph.acc.toNat : Int) - e * (2 ^ 32 : Nat)), eph.lastRx := none, eph.lockCount := 0 })
    ⟨rfl, id⟩ (Moved.of_kept (by simp))

theorem State.takeSample_moved (s : State) (e tRx : Int) : Moved s (s.takeSample e tRx) := by
  unfold State.takeSample
  dsimp only
  refine Moved.trans (t := if s.eph.state = .free then ({ s with eph.outliers := 0 } : State).setTimeState .acquire
    else { s with eph.outliers := 0 }) (Moved.of_kept (by simp)) ?_
  generalize (if s.eph.state = .free then ({ s with eph.outliers := 0 } : State).setTimeState .acquire
    else { s with eph.outliers := 0 }) = u
  split
  · exact State.stepTime_moved u e
  · split
    · exact Moved.of_kept (by simp)
    · rename_i t0 _
      refine Moved.trans (t := ({ u with eph.lastRx := some tRx } : State)) (Moved.of_kept (by simp)) ?_
      exact (State.servo_slewed _ e (sar (tRx - t0) 16)).toMoved.trans (Moved.of_kept (by simp))

theorem State.sample_moved (s : State) (e tRx : Int) : Moved s (s.sample e tRx) := by
  unfold State.sample
  dsimp only
  split
  · split
    · exact Moved.of_kept (by simp)
    · exact Moved.trans (Moved.of_kept (by simp)) (State.takeSample_moved _ e tRx)
  · exact Moved.trans (Moved.of_kept (by simp)) (State.takeSample_moved _ e tRx)

theorem State.takeSync_moved (s : State) (p : Port) (f : Frame) (tRx : Stamp) : Moved s (s.takeSync p f tRx) := by
  unfold State.takeSync
  (repeat' split)
  · exact Moved.of_kept (by simp)
  · exact Moved.of_kept (by simp)
  · dsimp only
    split
    · exact Moved.of_kept (by simp)
    · split
      · exact Moved.of_kept (by simp)
      · refine Moved.trans ?_ (Moved.of_kept (State.pmuEvent_keeps ..))
        refine Moved.trans ?_ (State.sample_moved _ _ _)
        exact Moved.of_kept (by simp)

theorem State.ppsSource_moved (s : State) (c : Stamp) : Moved s (s.ppsSource c) := by
  unfold State.ppsSource
  split
  · dsimp only
    split
    · exact Moved.trans (Moved.of_kept (by simp)) (State.stepTime_moved _ _)
    · exact Moved.trans (Moved.of_kept (by simp)) (State.sample_moved _ _ _)
  · split
    · exact Moved.refl s
    · exact Moved.trans (Moved.of_kept (by simp)) (State.sample_moved _ _ _)

theorem State.enterHoldover_slewed (s : State) : Slewed s s.enterHoldover := by
  unfold State.enterHoldover
  refine Slewed.trans (t := { s with eph.adj := s.eph.integ, eph.holdoverAt := s.ft }) ?_ (Slewed.of_kept (by simp))
  exact ⟨⟨rfl, fun h => ⟨h.2, h.2⟩⟩, rfl⟩

theorem State.writePair_slewed (s : State) (lo : Nat) (a b : W32) : Slewed s (s.writePair lo a b) := by
  unfold State.writePair
  split
  · split
    · exact Slewed.refl s
    · exact ⟨⟨rfl, fun h => ⟨clampInt_bounds _, h.2⟩⟩, rfl⟩
  · split
    · exact Slewed.of_kept (by simp)
    · dsimp only
      split <;> exact Slewed.of_kept (by simp)

theorem State.writeHigh_slewed (s : State) (r : Requester) (lo : Nat) (v : W32) : Slewed s (s.writeHigh r lo v) := by
  unfold State.writeHigh
  exact Slewed.trans (Slewed.of_kept (by simp)) (State.writePair_slewed _ _ _ _)

theorem State.writeWord_slewed (s : State) (r : Requester) (off : Nat) (v : W32) : Slewed s (s.writeWord r off v) := by
  unfold State.writeWord
  split
  · exact Slewed.refl s
  · split
    · exact Slewed.of_kept (by simp)
    · split
      · exact Slewed.of_kept (by simp)
      · split
        · exact State.writeHigh_slewed _ _ _ _
        · split
          · exact Slewed.refl s
          · exact Slewed.of_kept (by simp)

theorem State.regWriteCmd_slewed (s : State) (tp : Transport) (input : List Byte) : Slewed s (s.regWriteCmd tp input) := by
  unfold State.regWriteCmd
  dsimp only
  split
  · exact Slewed.of_kept (by simp)
  · split
    · exact Slewed.of_kept (by simp)
    · split
      · refine Slewed.of_kept ?_
        simp only [State.archDone_keeps]
        split
        · simp
        · rfl
      · split
        · exact Slewed.trans (Slewed.of_kept (by simp)) (State.writeWord_slewed _ _ _ _)
        · exact Slewed.trans (State.writeWord_slewed ..) (Slewed.of_kept (State.archDone_keeps ..))

theorem State.archCmd_slewed (s : State) (tp : Transport) (op : BitVec 16) (rule : State → State) (h : Slewed s (rule s)) :
    Slewed s (s.archCmd tp op rule) := by
  unfold State.archCmd
  split
  · exact Slewed.refl s
  · exact Slewed.of_kept (by simp)
  · exact Slewed.of_kept (by simp)
  · exact h

theorem State.consume_moved (s : State) (p : Port) (f : Frame) (g : State → State) (h : ∀ t, Moved t (g t)) :
    Moved s (s.consume p f g) := by
  have hi := State.ingress_keeps s p f none
  unfold State.consume
  split
  · rename_i e
    rw [e] at hi
    exact Moved.of_kept hi
  · rename_i e
    rw [e] at hi
    exact Moved.trans (Moved.of_kept ((State.freeCells_keeps ..).trans hi)) (h _)

theorem State.coldReset_kept (s : State) : s.coldReset.kept = ⟨s.pending, 0, 0, 0⟩ := by
  unfold State.coldReset
  simp [State.coldBase, State.reset]

theorem State.coldReset_moved (s : State) : Moved s s.coldReset := by
  have h := State.coldReset_kept s
  injection h with hp ha hi hc
  refine ⟨hp, fun _ => ?_⟩
  unfold State.clamped
  rw [ha, hi]; decide

theorem State.advance_moved (s : State) : Moved s s.advance := ⟨rfl, id⟩

theorem State.tick_moved (s : State) : Moved s s.tick := by
  unfold State.tick
  split
  · exact Moved.refl s
  · exact Moved.trans (State.advance_moved s) (Moved.of_kept (by simp))

end Sys2Proof.Machine
end

