-- ==== Sys2Proof/Laws/Map.lean ====
section
/-!
SUPPORT. Laws of the sparse maps: what is read back after a store, for every list, and the canonical form that stores keep.
-/

namespace Sys2Proof.Machine

@[simp] theorem SMap.read_nil {α : Type} (d : α) (k : Nat) : SMap.read d [] k = d := rfl

theorem SMap.write_eq {α : Type} [DecidableEq α] (d : α) (m : SMap α) (k : Nat) (v : α) :
    m.write d k v = if v = d then m.del k else m.put k v := by
  cases m <;> rfl

theorem SMap.del_cons {α : Type} (e : Nat × α) (m : SMap α) (k : Nat) :
    SMap.del (e :: m) k = if e.1 = k then m.del k else e :: m.del k := by
  unfold SMap.del
  by_cases h : e.1 = k <;> simp [h]

theorem SMap.read_del_same {α : Type} (d : α) (m : SMap α) (k : Nat) : (m.del k).read d k = d := by
  induction m with
  | nil => rfl
  | cons e m ih =>
    rw [SMap.del_cons]
    split
    · exact ih
    · rename_i h
      simp [SMap.read, Ne.symm h, ih]

theorem SMap.read_del_ne {α : Type} (d : α) (m : SMap α) {k j : Nat} (h : j ≠ k) : (m.del k).read d j = m.read d j := by
  induction m with
  | nil => rfl
  | cons e m ih =>
    rw [SMap.del_cons]
    split
    · rename_i hk
      subst hk
      simp [SMap.read, h, ih]
    · simp [SMap.read, ih]

theorem SMap.read_put_same {α : Type} (d : α) (m : SMap α) (k : Nat) (v : α) : (m.put k v).read d k = v := by
  induction m with
  | nil => simp [SMap.put, SMap.read]
  | cons e m ih =>
    obtain ⟨k', v'⟩ := e
    unfold SMap.put
    split
    · simp [SMap.read]
    · split
      · simp [SMap.read]
      · rename_i _ h
        simp [SMap.read, h, ih]

theorem SMap.read_put_ne {α : Type} (d : α) (m : SMap α) {k j : Nat} (v : α) (h : j ≠ k) :
    (m.put k v).read d j = m.read d j := by
  induction m with
  | nil => simp [SMap.put, SMap.read, h]
  | cons e m ih =>
    obtain ⟨k', v'⟩ := e
    unfold SMap.put
    split
    · simp [SMap.read, h]
    · split
      · rename_i _ hk
        subst hk
        simp [SMap.read, h]
      · simp [SMap.read, ih]

/-- A stored value is read back. -/
@[simp] theorem SMap.read_write_same {α : Type} [DecidableEq α] (d : α) (m : SMap α) (k : Nat) (v : α) :
    (m.write d k v).read d k = v := by
  rw [SMap.write_eq]
  split
  · rename_i h; rw [h]; exact SMap.read_del_same d m k
  · exact SMap.read_put_same d m k v

/-- A store leaves every other key, under any default. -/
theorem SMap.read_write_ne {α : Type} [DecidableEq α] (d d' : α) (m : SMap α) {k j : Nat} (v : α) (h : j ≠ k) :
    (m.write d k v).read d' j = m.read d' j := by
  rw [SMap.write_eq]
  split
  · exact SMap.read_del_ne d' m h
  · exact SMap.read_put_ne d' m v h

/-! ### The canonical form -/

theorem SMap.risesFrom_le {α : Type} {lo lo' : Nat} (m : SMap α) (h : lo' ≤ lo) (hm : SMap.risesFrom lo m = true) :
    SMap.risesFrom lo' m = true := by
  cases m with
  | nil => rfl
  | cons e m =>
    simp only [SMap.risesFrom, Bool.and_eq_true, decide_eq_true_eq] at *
    exact ⟨by omega, hm.2⟩

theorem SMap.risesFrom_del {α : Type} (k : Nat) (m : SMap α) (lo : Nat) (hm : SMap.risesFrom lo m = true) :
    SMap.risesFrom lo (m.del k) = true := by
  induction m generalizing lo with
  | nil => exact hm
  | cons e m ih =>
    simp only [SMap.risesFrom, Bool.and_eq_true, decide_eq_true_eq] at hm
    rw [SMap.del_cons]
    split
    · exact SMap.risesFrom_le _ (by omega) (ih (e.1 + 1) hm.2)
    · simp only [SMap.risesFrom, Bool.and_eq_true, decide_eq_true_eq]
      exact ⟨hm.1, ih (e.1 + 1) hm.2⟩

theorem SMap.risesFrom_put {α : Type} (k : Nat) (v : α) (m : SMap α) (lo : Nat) (h : lo ≤ k)
    (hm : SMap.risesFrom lo m = true) : SMap.risesFrom lo (m.put k v) = true := by
  induction m generalizing lo with
  | nil => simp [SMap.put, SMap.risesFrom, h]
  | cons e m ih =>
    obtain ⟨k', v'⟩ := e
    simp only [SMap.risesFrom, Bool.and_eq_true, decide_eq_true_eq] at hm
    unfold SMap.put
    split
    · simp only [SMap.risesFrom, Bool.and_eq_true, decide_eq_true_eq]
      exact ⟨h, by omega, hm.2⟩
    · split
      · rename_i _ hk
        subst hk
        simp only [SMap.risesFrom, Bool.and_eq_true, decide_eq_true_eq]
        exact ⟨h, hm.2⟩
      · simp only [SMap.risesFrom, Bool.and_eq_true, decide_eq_true_eq]
        exact ⟨hm.1, ih (k' + 1) (by omega) hm.2⟩

theorem SMap.mem_put {α : Type} {k : Nat} {v : α} {m : SMap α} {e : Nat × α} (h : e ∈ m.put k v) : e = (k, v) ∨ e ∈ m := by
  induction m with
  | nil => simp [SMap.put] at h; exact .inl h
  | cons a m ih =>
    obtain ⟨k', v'⟩ := a
    unfold SMap.put at h
    split at h
    · simp at h ⊢; exact h
    · split at h
      · simp at h ⊢; rcases h with h | h <;> simp [h]
      · simp at h ⊢
        rcases h with h | h
        · exact .inr (.inl h)
        · rcases ih h with h | h <;> simp [h]

/-- A store keeps the canonical form. -/
theorem SMap.wf_write {α : Type} [DecidableEq α] (d : Nat → α) (m : SMap α) (k : Nat) (v : α) (h : SMap.wf d m = true) :
    SMap.wf d (m.write (d k) k v) = true := by
  rw [SMap.write_eq]
  simp only [SMap.wf, SMap.rises, Bool.and_eq_true, List.all_eq_true, decide_eq_true_eq] at *
  split
  · exact ⟨SMap.risesFrom_del k m 0 h.1, fun e he => h.2 e (List.mem_filter.mp he).1⟩
  · rename_i hv
    refine ⟨SMap.risesFrom_put k v m 0 (Nat.zero_le _) h.1, fun e he => ?_⟩
    rcases SMap.mem_put he with rfl | he
    · exact hv
    · exact h.2 e he

end Sys2Proof.Machine
end

