-- ==== Sys2Proof/Laws/State.lean ====
section
/-!
SUPPORT. Each named update of the state leaves every field but its own.
-/

namespace Sys2Proof.Machine

/-! ### setReg -/

@[simp] theorem State.setReg_pending (s : State) (a : Nat) (v : W32) : (s.setReg a v).pending = s.pending := rfl
@[simp] theorem State.setReg_out (s : State) (a : Nat) (v : W32) : (s.setReg a v).out = s.out := rfl
@[simp] theorem State.setReg_fresh (s : State) (a : Nat) (v : W32) : (s.setReg a v).fresh = s.fresh := rfl
@[simp] theorem State.setReg_latches (s : State) (a : Nat) (v : W32) : (s.setReg a v).latches = s.latches := rfl
@[simp] theorem State.setReg_heldLow (s : State) (a : Nat) (v : W32) : (s.setReg a v).heldLow = s.heldLow := rfl
@[simp] theorem State.setReg_alm (s : State) (a : Nat) (v : W32) : (s.setReg a v).alm = s.alm := rfl
@[simp] theorem State.setReg_msixEnable (s : State) (a : Nat) (v : W32) : (s.setReg a v).msixEnable = s.msixEnable := rfl
@[simp] theorem State.setReg_hdm (s : State) (a : Nat) (v : W32) : (s.setReg a v).hdm = s.hdm := rfl
@[simp] theorem State.setReg_swAddr (s : State) (a : Nat) (v : W32) : (s.setReg a v).swAddr = s.swAddr := rfl
@[simp] theorem State.setReg_eph (s : State) (a : Nat) (v : W32) : (s.setReg a v).eph = s.eph := rfl
@[simp] theorem State.setReg_ptime (s : State) (a : Nat) (v : W32) : (s.setReg a v).ptime = s.ptime := rfl
@[simp] theorem State.setReg_pulses (s : State) (a : Nat) (v : W32) : (s.setReg a v).pulses = s.pulses := rfl
@[simp] theorem State.setReg_acts (s : State) (a : Nat) (v : W32) : (s.setReg a v).acts = s.acts := rfl
@[simp] theorem State.setReg_gateActive (s : State) (a : Nat) (v : W32) : (s.setReg a v).gateActive = s.gateActive := rfl
@[simp] theorem State.setReg_gateShadow (s : State) (a : Nat) (v : W32) : (s.setReg a v).gateShadow = s.gateShadow := rfl
@[simp] theorem State.setReg_calActive (s : State) (a : Nat) (v : W32) : (s.setReg a v).calActive = s.calActive := rfl
@[simp] theorem State.setReg_calShadow (s : State) (a : Nat) (v : W32) : (s.setReg a v).calShadow = s.calShadow := rfl
@[simp] theorem State.setReg_opt (s : State) (a : Nat) (v : W32) : (s.setReg a v).opt = s.opt := rfl
@[simp] theorem State.setReg_trn (s : State) (a : Nat) (v : W32) : (s.setReg a v).trn = s.trn := rfl
@[simp] theorem State.setReg_links (s : State) (a : Nat) (v : W32) : (s.setReg a v).links = s.links := rfl
@[simp] theorem State.setReg_fwd (s : State) (a : Nat) (v : W32) : (s.setReg a v).fwd = s.fwd := rfl
@[simp] theorem State.setReg_bufs (s : State) (a : Nat) (v : W32) : (s.setReg a v).bufs = s.bufs := rfl
@[simp] theorem State.setReg_flows (s : State) (a : Nat) (v : W32) : (s.setReg a v).flows = s.flows := rfl
@[simp] theorem State.setReg_queues (s : State) (a : Nat) (v : W32) : (s.setReg a v).queues = s.queues := rfl
@[simp] theorem State.setReg_originWait (s : State) (a : Nat) (v : W32) : (s.setReg a v).originWait = s.originWait := rfl
@[simp] theorem State.setReg_cores (s : State) (a : Nat) (v : W32) : (s.setReg a v).cores = s.cores := rfl
@[simp] theorem State.setReg_mirSeen (s : State) (a : Nat) (v : W32) : (s.setReg a v).mirSeen = s.mirSeen := rfl
@[simp] theorem State.setReg_sch (s : State) (a : Nat) (v : W32) : (s.setReg a v).sch = s.sch := rfl
@[simp] theorem State.setReg_cnj (s : State) (a : Nat) (v : W32) : (s.setReg a v).cnj = s.cnj := rfl
@[simp] theorem State.setReg_stk (s : State) (a : Nat) (v : W32) : (s.setReg a v).stk = s.stk := rfl
@[simp] theorem State.setReg_msf (s : State) (a : Nat) (v : W32) : (s.setReg a v).msf = s.msf := rfl
@[simp] theorem State.setReg_ory (s : State) (a : Nat) (v : W32) : (s.setReg a v).ory = s.ory := rfl
@[simp] theorem State.setReg_hlt (s : State) (a : Nat) (v : W32) : (s.setReg a v).hlt = s.hlt := rfl
@[simp] theorem State.setReg_cfg (s : State) (a : Nat) (v : W32) : (s.setReg a v).cfg = s.cfg := rfl
@[simp] theorem State.setReg_arc (s : State) (a : Nat) (v : W32) : (s.setReg a v).arc = s.arc := rfl
@[simp] theorem State.setReg_sec (s : State) (a : Nat) (v : W32) : (s.setReg a v).sec = s.sec := rfl
@[simp] theorem State.setReg_pwr (s : State) (a : Nat) (v : W32) : (s.setReg a v).pwr = s.pwr := rfl

/-! ### setFld -/

@[simp] theorem State.setFld_pending (s : State) (f : Fld) (v : Nat) : (s.setFld f v).pending = s.pending := rfl
@[simp] theorem State.setFld_out (s : State) (f : Fld) (v : Nat) : (s.setFld f v).out = s.out := rfl
@[simp] theorem State.setFld_fresh (s : State) (f : Fld) (v : Nat) : (s.setFld f v).fresh = s.fresh := rfl
@[simp] theorem State.setFld_latches (s : State) (f : Fld) (v : Nat) : (s.setFld f v).latches = s.latches := rfl
@[simp] theorem State.setFld_heldLow (s : State) (f : Fld) (v : Nat) : (s.setFld f v).heldLow = s.heldLow := rfl
@[simp] theorem State.setFld_alm (s : State) (f : Fld) (v : Nat) : (s.setFld f v).alm = s.alm := rfl
@[simp] theorem State.setFld_msixEnable (s : State) (f : Fld) (v : Nat) : (s.setFld f v).msixEnable = s.msixEnable := rfl
@[simp] theorem State.setFld_hdm (s : State) (f : Fld) (v : Nat) : (s.setFld f v).hdm = s.hdm := rfl
@[simp] theorem State.setFld_swAddr (s : State) (f : Fld) (v : Nat) : (s.setFld f v).swAddr = s.swAddr := rfl
@[simp] theorem State.setFld_eph (s : State) (f : Fld) (v : Nat) : (s.setFld f v).eph = s.eph := rfl
@[simp] theorem State.setFld_ptime (s : State) (f : Fld) (v : Nat) : (s.setFld f v).ptime = s.ptime := rfl
@[simp] theorem State.setFld_pulses (s : State) (f : Fld) (v : Nat) : (s.setFld f v).pulses = s.pulses := rfl
@[simp] theorem State.setFld_acts (s : State) (f : Fld) (v : Nat) : (s.setFld f v).acts = s.acts := rfl
@[simp] theorem State.setFld_gateActive (s : State) (f : Fld) (v : Nat) : (s.setFld f v).gateActive = s.gateActive := rfl
@[simp] theorem State.setFld_gateShadow (s : State) (f : Fld) (v : Nat) : (s.setFld f v).gateShadow = s.gateShadow := rfl
@[simp] theorem State.setFld_calActive (s : State) (f : Fld) (v : Nat) : (s.setFld f v).calActive = s.calActive := rfl
@[simp] theorem State.setFld_calShadow (s : State) (f : Fld) (v : Nat) : (s.setFld f v).calShadow = s.calShadow := rfl
@[simp] theorem State.setFld_opt (s : State) (f : Fld) (v : Nat) : (s.setFld f v).opt = s.opt := rfl
@[simp] theorem State.setFld_trn (s : State) (f : Fld) (v : Nat) : (s.setFld f v).trn = s.trn := rfl
@[simp] theorem State.setFld_links (s : State) (f : Fld) (v : Nat) : (s.setFld f v).links = s.links := rfl
@[simp] theorem State.setFld_fwd (s : State) (f : Fld) (v : Nat) : (s.setFld f v).fwd = s.fwd := rfl
@[simp] theorem State.setFld_bufs (s : State) (f : Fld) (v : Nat) : (s.setFld f v).bufs = s.bufs := rfl
@[simp] theorem State.setFld_flows (s : State) (f : Fld) (v : Nat) : (s.setFld f v).flows = s.flows := rfl
@[simp] theorem State.setFld_queues (s : State) (f : Fld) (v : Nat) : (s.setFld f v).queues = s.queues := rfl
@[simp] theorem State.setFld_originWait (s : State) (f : Fld) (v : Nat) : (s.setFld f v).originWait = s.originWait := rfl
@[simp] theorem State.setFld_cores (s : State) (f : Fld) (v : Nat) : (s.setFld f v).cores = s.cores := rfl
@[simp] theorem State.setFld_mirSeen (s : State) (f : Fld) (v : Nat) : (s.setFld f v).mirSeen = s.mirSeen := rfl
@[simp] theorem State.setFld_sch (s : State) (f : Fld) (v : Nat) : (s.setFld f v).sch = s.sch := rfl
@[simp] theorem State.setFld_cnj (s : State) (f : Fld) (v : Nat) : (s.setFld f v).cnj = s.cnj := rfl
@[simp] theorem State.setFld_stk (s : State) (f : Fld) (v : Nat) : (s.setFld f v).stk = s.stk := rfl
@[simp] theorem State.setFld_msf (s : State) (f : Fld) (v : Nat) : (s.setFld f v).msf = s.msf := rfl
@[simp] theorem State.setFld_ory (s : State) (f : Fld) (v : Nat) : (s.setFld f v).ory = s.ory := rfl
@[simp] theorem State.setFld_hlt (s : State) (f : Fld) (v : Nat) : (s.setFld f v).hlt = s.hlt := rfl
@[simp] theorem State.setFld_cfg (s : State) (f : Fld) (v : Nat) : (s.setFld f v).cfg = s.cfg := rfl
@[simp] theorem State.setFld_arc (s : State) (f : Fld) (v : Nat) : (s.setFld f v).arc = s.arc := rfl
@[simp] theorem State.setFld_sec (s : State) (f : Fld) (v : Nat) : (s.setFld f v).sec = s.sec := rfl
@[simp] theorem State.setFld_pwr (s : State) (f : Fld) (v : Nat) : (s.setFld f v).pwr = s.pwr := rfl

/-! ### setPair -/

@[simp] theorem State.setPair_pending (s : State) (f : Fld) (v : Nat) : (s.setPair f v).pending = s.pending := rfl
@[simp] theorem State.setPair_out (s : State) (f : Fld) (v : Nat) : (s.setPair f v).out = s.out := rfl
@[simp] theorem State.setPair_fresh (s : State) (f : Fld) (v : Nat) : (s.setPair f v).fresh = s.fresh := rfl
@[simp] theorem State.setPair_latches (s : State) (f : Fld) (v : Nat) : (s.setPair f v).latches = s.latches := rfl
@[simp] theorem State.setPair_heldLow (s : State) (f : Fld) (v : Nat) : (s.setPair f v).heldLow = s.heldLow := rfl
@[simp] theorem State.setPair_alm (s : State) (f : Fld) (v : Nat) : (s.setPair f v).alm = s.alm := rfl
@[simp] theorem State.setPair_msixEnable (s : State) (f : Fld) (v : Nat) : (s.setPair f v).msixEnable = s.msixEnable := rfl
@[simp] theorem State.setPair_hdm (s : State) (f : Fld) (v : Nat) : (s.setPair f v).hdm = s.hdm := rfl
@[simp] theorem State.setPair_swAddr (s : State) (f : Fld) (v : Nat) : (s.setPair f v).swAddr = s.swAddr := rfl
@[simp] theorem State.setPair_eph (s : State) (f : Fld) (v : Nat) : (s.setPair f v).eph = s.eph := rfl
@[simp] theorem State.setPair_ptime (s : State) (f : Fld) (v : Nat) : (s.setPair f v).ptime = s.ptime := rfl
@[simp] theorem State.setPair_pulses (s : State) (f : Fld) (v : Nat) : (s.setPair f v).pulses = s.pulses := rfl
@[simp] theorem State.setPair_acts (s : State) (f : Fld) (v : Nat) : (s.setPair f v).acts = s.acts := rfl
@[simp] theorem State.setPair_gateActive (s : State) (f : Fld) (v : Nat) : (s.setPair f v).gateActive = s.gateActive := rfl
@[simp] theorem State.setPair_gateShadow (s : State) (f : Fld) (v : Nat) : (s.setPair f v).gateShadow = s.gateShadow := rfl
@[simp] theorem State.setPair_calActive (s : State) (f : Fld) (v : Nat) : (s.setPair f v).calActive = s.calActive := rfl
@[simp] theorem State.setPair_calShadow (s : State) (f : Fld) (v : Nat) : (s.setPair f v).calShadow = s.calShadow := rfl
@[simp] theorem State.setPair_opt (s : State) (f : Fld) (v : Nat) : (s.setPair f v).opt = s.opt := rfl
@[simp] theorem State.setPair_trn (s : State) (f : Fld) (v : Nat) : (s.setPair f v).trn = s.trn := rfl
@[simp] theorem State.setPair_links (s : State) (f : Fld) (v : Nat) : (s.setPair f v).links = s.links := rfl
@[simp] theorem State.setPair_fwd (s : State) (f : Fld) (v : Nat) : (s.setPair f v).fwd = s.fwd := rfl
@[simp] theorem State.setPair_bufs (s : State) (f : Fld) (v : Nat) : (s.setPair f v).bufs = s.bufs := rfl
@[simp] theorem State.setPair_flows (s : State) (f : Fld) (v : Nat) : (s.setPair f v).flows = s.flows := rfl
@[simp] theorem State.setPair_queues (s : State) (f : Fld) (v : Nat) : (s.setPair f v).queues = s.queues := rfl
@[simp] theorem State.setPair_originWait (s : State) (f : Fld) (v : Nat) : (s.setPair f v).originWait = s.originWait := rfl
@[simp] theorem State.setPair_cores (s : State) (f : Fld) (v : Nat) : (s.setPair f v).cores = s.cores := rfl
@[simp] theorem State.setPair_mirSeen (s : State) (f : Fld) (v : Nat) : (s.setPair f v).mirSeen = s.mirSeen := rfl
@[simp] theorem State.setPair_sch (s : State) (f : Fld) (v : Nat) : (s.setPair f v).sch = s.sch := rfl
@[simp] theorem State.setPair_cnj (s : State) (f : Fld) (v : Nat) : (s.setPair f v).cnj = s.cnj := rfl
@[simp] theorem State.setPair_stk (s : State) (f : Fld) (v : Nat) : (s.setPair f v).stk = s.stk := rfl
@[simp] theorem State.setPair_msf (s : State) (f : Fld) (v : Nat) : (s.setPair f v).msf = s.msf := rfl
@[simp] theorem State.setPair_ory (s : State) (f : Fld) (v : Nat) : (s.setPair f v).ory = s.ory := rfl
@[simp] theorem State.setPair_hlt (s : State) (f : Fld) (v : Nat) : (s.setPair f v).hlt = s.hlt := rfl
@[simp] theorem State.setPair_cfg (s : State) (f : Fld) (v : Nat) : (s.setPair f v).cfg = s.cfg := rfl
@[simp] theorem State.setPair_arc (s : State) (f : Fld) (v : Nat) : (s.setPair f v).arc = s.arc := rfl
@[simp] theorem State.setPair_sec (s : State) (f : Fld) (v : Nat) : (s.setPair f v).sec = s.sec := rfl
@[simp] theorem State.setPair_pwr (s : State) (f : Fld) (v : Nat) : (s.setPair f v).pwr = s.pwr := rfl

/-! ### setLink -/

@[simp] theorem State.setLink_pending (s : State) (p : Port) (l : Link) : (s.setLink p l).pending = s.pending := rfl
@[simp] theorem State.setLink_out (s : State) (p : Port) (l : Link) : (s.setLink p l).out = s.out := rfl
@[simp] theorem State.setLink_fresh (s : State) (p : Port) (l : Link) : (s.setLink p l).fresh = s.fresh := rfl
@[simp] theorem State.setLink_regs (s : State) (p : Port) (l : Link) : (s.setLink p l).regs = s.regs := rfl
@[simp] theorem State.setLink_latches (s : State) (p : Port) (l : Link) : (s.setLink p l).latches = s.latches := rfl
@[simp] theorem State.setLink_heldLow (s : State) (p : Port) (l : Link) : (s.setLink p l).heldLow = s.heldLow := rfl
@[simp] theorem State.setLink_alm (s : State) (p : Port) (l : Link) : (s.setLink p l).alm = s.alm := rfl
@[simp] theorem State.setLink_msixEnable (s : State) (p : Port) (l : Link) : (s.setLink p l).msixEnable = s.msixEnable := rfl
@[simp] theorem State.setLink_hdm (s : State) (p : Port) (l : Link) : (s.setLink p l).hdm = s.hdm := rfl
@[simp] theorem State.setLink_swAddr (s : State) (p : Port) (l : Link) : (s.setLink p l).swAddr = s.swAddr := rfl
@[simp] theorem State.setLink_eph (s : State) (p : Port) (l : Link) : (s.setLink p l).eph = s.eph := rfl
@[simp] theorem State.setLink_ptime (s : State) (p : Port) (l : Link) : (s.setLink p l).ptime = s.ptime := rfl
@[simp] theorem State.setLink_pulses (s : State) (p : Port) (l : Link) : (s.setLink p l).pulses = s.pulses := rfl
@[simp] theorem State.setLink_acts (s : State) (p : Port) (l : Link) : (s.setLink p l).acts = s.acts := rfl
@[simp] theorem State.setLink_gateActive (s : State) (p : Port) (l : Link) : (s.setLink p l).gateActive = s.gateActive := rfl
@[simp] theorem State.setLink_gateShadow (s : State) (p : Port) (l : Link) : (s.setLink p l).gateShadow = s.gateShadow := rfl
@[simp] theorem State.setLink_calActive (s : State) (p : Port) (l : Link) : (s.setLink p l).calActive = s.calActive := rfl
@[simp] theorem State.setLink_calShadow (s : State) (p : Port) (l : Link) : (s.setLink p l).calShadow = s.calShadow := rfl
@[simp] theorem State.setLink_opt (s : State) (p : Port) (l : Link) : (s.setLink p l).opt = s.opt := rfl
@[simp] theorem State.setLink_trn (s : State) (p : Port) (l : Link) : (s.setLink p l).trn = s.trn := rfl
@[simp] theorem State.setLink_fwd (s : State) (p : Port) (l : Link) : (s.setLink p l).fwd = s.fwd := rfl
@[simp] theorem State.setLink_bufs (s : State) (p : Port) (l : Link) : (s.setLink p l).bufs = s.bufs := rfl
@[simp] theorem State.setLink_flows (s : State) (p : Port) (l : Link) : (s.setLink p l).flows = s.flows := rfl
@[simp] theorem State.setLink_queues (s : State) (p : Port) (l : Link) : (s.setLink p l).queues = s.queues := rfl
@[simp] theorem State.setLink_originWait (s : State) (p : Port) (l : Link) : (s.setLink p l).originWait = s.originWait := rfl
@[simp] theorem State.setLink_cores (s : State) (p : Port) (l : Link) : (s.setLink p l).cores = s.cores := rfl
@[simp] theorem State.setLink_mirSeen (s : State) (p : Port) (l : Link) : (s.setLink p l).mirSeen = s.mirSeen := rfl
@[simp] theorem State.setLink_sch (s : State) (p : Port) (l : Link) : (s.setLink p l).sch = s.sch := rfl
@[simp] theorem State.setLink_cnj (s : State) (p : Port) (l : Link) : (s.setLink p l).cnj = s.cnj := rfl
@[simp] theorem State.setLink_stk (s : State) (p : Port) (l : Link) : (s.setLink p l).stk = s.stk := rfl
@[simp] theorem State.setLink_msf (s : State) (p : Port) (l : Link) : (s.setLink p l).msf = s.msf := rfl
@[simp] theorem State.setLink_ory (s : State) (p : Port) (l : Link) : (s.setLink p l).ory = s.ory := rfl
@[simp] theorem State.setLink_hlt (s : State) (p : Port) (l : Link) : (s.setLink p l).hlt = s.hlt := rfl
@[simp] theorem State.setLink_cfg (s : State) (p : Port) (l : Link) : (s.setLink p l).cfg = s.cfg := rfl
@[simp] theorem State.setLink_arc (s : State) (p : Port) (l : Link) : (s.setLink p l).arc = s.arc := rfl
@[simp] theorem State.setLink_sec (s : State) (p : Port) (l : Link) : (s.setLink p l).sec = s.sec := rfl
@[simp] theorem State.setLink_pwr (s : State) (p : Port) (l : Link) : (s.setLink p l).pwr = s.pwr := rfl

/-! ### setTime -/

@[simp] theorem State.setTime_pending (s : State) (p : Port) (x : PortTime) : (s.setTime p x).pending = s.pending := rfl
@[simp] theorem State.setTime_out (s : State) (p : Port) (x : PortTime) : (s.setTime p x).out = s.out := rfl
@[simp] theorem State.setTime_fresh (s : State) (p : Port) (x : PortTime) : (s.setTime p x).fresh = s.fresh := rfl
@[simp] theorem State.setTime_regs (s : State) (p : Port) (x : PortTime) : (s.setTime p x).regs = s.regs := rfl
@[simp] theorem State.setTime_latches (s : State) (p : Port) (x : PortTime) : (s.setTime p x).latches = s.latches := rfl
@[simp] theorem State.setTime_heldLow (s : State) (p : Port) (x : PortTime) : (s.setTime p x).heldLow = s.heldLow := rfl
@[simp] theorem State.setTime_alm (s : State) (p : Port) (x : PortTime) : (s.setTime p x).alm = s.alm := rfl
@[simp] theorem State.setTime_msixEnable (s : State) (p : Port) (x : PortTime) : (s.setTime p x).msixEnable = s.msixEnable := rfl
@[simp] theorem State.setTime_hdm (s : State) (p : Port) (x : PortTime) : (s.setTime p x).hdm = s.hdm := rfl
@[simp] theorem State.setTime_swAddr (s : State) (p : Port) (x : PortTime) : (s.setTime p x).swAddr = s.swAddr := rfl
@[simp] theorem State.setTime_eph (s : State) (p : Port) (x : PortTime) : (s.setTime p x).eph = s.eph := rfl
@[simp] theorem State.setTime_pulses (s : State) (p : Port) (x : PortTime) : (s.setTime p x).pulses = s.pulses := rfl
@[simp] theorem State.setTime_acts (s : State) (p : Port) (x : PortTime) : (s.setTime p x).acts = s.acts := rfl
@[simp] theorem State.setTime_gateActive (s : State) (p : Port) (x : PortTime) : (s.setTime p x).gateActive = s.gateActive := rfl
@[simp] theorem State.setTime_gateShadow (s : State) (p : Port) (x : PortTime) : (s.setTime p x).gateShadow = s.gateShadow := rfl
@[simp] theorem State.setTime_calActive (s : State) (p : Port) (x : PortTime) : (s.setTime p x).calActive = s.calActive := rfl
@[simp] theorem State.setTime_calShadow (s : State) (p : Port) (x : PortTime) : (s.setTime p x).calShadow = s.calShadow := rfl
@[simp] theorem State.setTime_opt (s : State) (p : Port) (x : PortTime) : (s.setTime p x).opt = s.opt := rfl
@[simp] theorem State.setTime_trn (s : State) (p : Port) (x : PortTime) : (s.setTime p x).trn = s.trn := rfl
@[simp] theorem State.setTime_links (s : State) (p : Port) (x : PortTime) : (s.setTime p x).links = s.links := rfl
@[simp] theorem State.setTime_fwd (s : State) (p : Port) (x : PortTime) : (s.setTime p x).fwd = s.fwd := rfl
@[simp] theorem State.setTime_bufs (s : State) (p : Port) (x : PortTime) : (s.setTime p x).bufs = s.bufs := rfl
@[simp] theorem State.setTime_flows (s : State) (p : Port) (x : PortTime) : (s.setTime p x).flows = s.flows := rfl
@[simp] theorem State.setTime_queues (s : State) (p : Port) (x : PortTime) : (s.setTime p x).queues = s.queues := rfl
@[simp] theorem State.setTime_originWait (s : State) (p : Port) (x : PortTime) : (s.setTime p x).originWait = s.originWait := rfl
@[simp] theorem State.setTime_cores (s : State) (p : Port) (x : PortTime) : (s.setTime p x).cores = s.cores := rfl
@[simp] theorem State.setTime_mirSeen (s : State) (p : Port) (x : PortTime) : (s.setTime p x).mirSeen = s.mirSeen := rfl
@[simp] theorem State.setTime_sch (s : State) (p : Port) (x : PortTime) : (s.setTime p x).sch = s.sch := rfl
@[simp] theorem State.setTime_cnj (s : State) (p : Port) (x : PortTime) : (s.setTime p x).cnj = s.cnj := rfl
@[simp] theorem State.setTime_stk (s : State) (p : Port) (x : PortTime) : (s.setTime p x).stk = s.stk := rfl
@[simp] theorem State.setTime_msf (s : State) (p : Port) (x : PortTime) : (s.setTime p x).msf = s.msf := rfl
@[simp] theorem State.setTime_ory (s : State) (p : Port) (x : PortTime) : (s.setTime p x).ory = s.ory := rfl
@[simp] theorem State.setTime_hlt (s : State) (p : Port) (x : PortTime) : (s.setTime p x).hlt = s.hlt := rfl
@[simp] theorem State.setTime_cfg (s : State) (p : Port) (x : PortTime) : (s.setTime p x).cfg = s.cfg := rfl
@[simp] theorem State.setTime_arc (s : State) (p : Port) (x : PortTime) : (s.setTime p x).arc = s.arc := rfl
@[simp] theorem State.setTime_sec (s : State) (p : Port) (x : PortTime) : (s.setTime p x).sec = s.sec := rfl
@[simp] theorem State.setTime_pwr (s : State) (p : Port) (x : PortTime) : (s.setTime p x).pwr = s.pwr := rfl

/-! ### setAct -/

@[simp] theorem State.setAct_pending (s : State) (k : Nat) (x : Act) : (s.setAct k x).pending = s.pending := rfl
@[simp] theorem State.setAct_out (s : State) (k : Nat) (x : Act) : (s.setAct k x).out = s.out := rfl
@[simp] theorem State.setAct_fresh (s : State) (k : Nat) (x : Act) : (s.setAct k x).fresh = s.fresh := rfl
@[simp] theorem State.setAct_regs (s : State) (k : Nat) (x : Act) : (s.setAct k x).regs = s.regs := rfl
@[simp] theorem State.setAct_latches (s : State) (k : Nat) (x : Act) : (s.setAct k x).latches = s.latches := rfl
@[simp] theorem State.setAct_heldLow (s : State) (k : Nat) (x : Act) : (s.setAct k x).heldLow = s.heldLow := rfl
@[simp] theorem State.setAct_alm (s : State) (k : Nat) (x : Act) : (s.setAct k x).alm = s.alm := rfl
@[simp] theorem State.setAct_msixEnable (s : State) (k : Nat) (x : Act) : (s.setAct k x).msixEnable = s.msixEnable := rfl
@[simp] theorem State.setAct_hdm (s : State) (k : Nat) (x : Act) : (s.setAct k x).hdm = s.hdm := rfl
@[simp] theorem State.setAct_swAddr (s : State) (k : Nat) (x : Act) : (s.setAct k x).swAddr = s.swAddr := rfl
@[simp] theorem State.setAct_eph (s : State) (k : Nat) (x : Act) : (s.setAct k x).eph = s.eph := rfl
@[simp] theorem State.setAct_ptime (s : State) (k : Nat) (x : Act) : (s.setAct k x).ptime = s.ptime := rfl
@[simp] theorem State.setAct_pulses (s : State) (k : Nat) (x : Act) : (s.setAct k x).pulses = s.pulses := rfl
@[simp] theorem State.setAct_gateActive (s : State) (k : Nat) (x : Act) : (s.setAct k x).gateActive = s.gateActive := rfl
@[simp] theorem State.setAct_gateShadow (s : State) (k : Nat) (x : Act) : (s.setAct k x).gateShadow = s.gateShadow := rfl
@[simp] theorem State.setAct_calActive (s : State) (k : Nat) (x : Act) : (s.setAct k x).calActive = s.calActive := rfl
@[simp] theorem State.setAct_calShadow (s : State) (k : Nat) (x : Act) : (s.setAct k x).calShadow = s.calShadow := rfl
@[simp] theorem State.setAct_opt (s : State) (k : Nat) (x : Act) : (s.setAct k x).opt = s.opt := rfl
@[simp] theorem State.setAct_trn (s : State) (k : Nat) (x : Act) : (s.setAct k x).trn = s.trn := rfl
@[simp] theorem State.setAct_links (s : State) (k : Nat) (x : Act) : (s.setAct k x).links = s.links := rfl
@[simp] theorem State.setAct_fwd (s : State) (k : Nat) (x : Act) : (s.setAct k x).fwd = s.fwd := rfl
@[simp] theorem State.setAct_bufs (s : State) (k : Nat) (x : Act) : (s.setAct k x).bufs = s.bufs := rfl
@[simp] theorem State.setAct_flows (s : State) (k : Nat) (x : Act) : (s.setAct k x).flows = s.flows := rfl
@[simp] theorem State.setAct_queues (s : State) (k : Nat) (x : Act) : (s.setAct k x).queues = s.queues := rfl
@[simp] theorem State.setAct_originWait (s : State) (k : Nat) (x : Act) : (s.setAct k x).originWait = s.originWait := rfl
@[simp] theorem State.setAct_cores (s : State) (k : Nat) (x : Act) : (s.setAct k x).cores = s.cores := rfl
@[simp] theorem State.setAct_mirSeen (s : State) (k : Nat) (x : Act) : (s.setAct k x).mirSeen = s.mirSeen := rfl
@[simp] theorem State.setAct_sch (s : State) (k : Nat) (x : Act) : (s.setAct k x).sch = s.sch := rfl
@[simp] theorem State.setAct_cnj (s : State) (k : Nat) (x : Act) : (s.setAct k x).cnj = s.cnj := rfl
@[simp] theorem State.setAct_stk (s : State) (k : Nat) (x : Act) : (s.setAct k x).stk = s.stk := rfl
@[simp] theorem State.setAct_msf (s : State) (k : Nat) (x : Act) : (s.setAct k x).msf = s.msf := rfl
@[simp] theorem State.setAct_ory (s : State) (k : Nat) (x : Act) : (s.setAct k x).ory = s.ory := rfl
@[simp] theorem State.setAct_hlt (s : State) (k : Nat) (x : Act) : (s.setAct k x).hlt = s.hlt := rfl
@[simp] theorem State.setAct_cfg (s : State) (k : Nat) (x : Act) : (s.setAct k x).cfg = s.cfg := rfl
@[simp] theorem State.setAct_arc (s : State) (k : Nat) (x : Act) : (s.setAct k x).arc = s.arc := rfl
@[simp] theorem State.setAct_sec (s : State) (k : Nat) (x : Act) : (s.setAct k x).sec = s.sec := rfl
@[simp] theorem State.setAct_pwr (s : State) (k : Nat) (x : Act) : (s.setAct k x).pwr = s.pwr := rfl

/-! ### setCore -/

@[simp] theorem State.setCore_pending (s : State) (d : Nat) (c : DieCore) : (s.setCore d c).pending = s.pending := rfl
@[simp] theorem State.setCore_out (s : State) (d : Nat) (c : DieCore) : (s.setCore d c).out = s.out := rfl
@[simp] theorem State.setCore_fresh (s : State) (d : Nat) (c : DieCore) : (s.setCore d c).fresh = s.fresh := rfl
@[simp] theorem State.setCore_regs (s : State) (d : Nat) (c : DieCore) : (s.setCore d c).regs = s.regs := rfl
@[simp] theorem State.setCore_latches (s : State) (d : Nat) (c : DieCore) : (s.setCore d c).latches = s.latches := rfl
@[simp] theorem State.setCore_heldLow (s : State) (d : Nat) (c : DieCore) : (s.setCore d c).heldLow = s.heldLow := rfl
@[simp] theorem State.setCore_alm (s : State) (d : Nat) (c : DieCore) : (s.setCore d c).alm = s.alm := rfl
@[simp] theorem State.setCore_msixEnable (s : State) (d : Nat) (c : DieCore) : (s.setCore d c).msixEnable = s.msixEnable := rfl
@[simp] theorem State.setCore_hdm (s : State) (d : Nat) (c : DieCore) : (s.setCore d c).hdm = s.hdm := rfl
@[simp] theorem State.setCore_swAddr (s : State) (d : Nat) (c : DieCore) : (s.setCore d c).swAddr = s.swAddr := rfl
@[simp] theorem State.setCore_eph (s : State) (d : Nat) (c : DieCore) : (s.setCore d c).eph = s.eph := rfl
@[simp] theorem State.setCore_ptime (s : State) (d : Nat) (c : DieCore) : (s.setCore d c).ptime = s.ptime := rfl
@[simp] theorem State.setCore_pulses (s : State) (d : Nat) (c : DieCore) : (s.setCore d c).pulses = s.pulses := rfl
@[simp] theorem State.setCore_acts (s : State) (d : Nat) (c : DieCore) : (s.setCore d c).acts = s.acts := rfl
@[simp] theorem State.setCore_gateActive (s : State) (d : Nat) (c : DieCore) : (s.setCore d c).gateActive = s.gateActive := rfl
@[simp] theorem State.setCore_gateShadow (s : State) (d : Nat) (c : DieCore) : (s.setCore d c).gateShadow = s.gateShadow := rfl
@[simp] theorem State.setCore_calActive (s : State) (d : Nat) (c : DieCore) : (s.setCore d c).calActive = s.calActive := rfl
@[simp] theorem State.setCore_calShadow (s : State) (d : Nat) (c : DieCore) : (s.setCore d c).calShadow = s.calShadow := rfl
@[simp] theorem State.setCore_opt (s : State) (d : Nat) (c : DieCore) : (s.setCore d c).opt = s.opt := rfl
@[simp] theorem State.setCore_trn (s : State) (d : Nat) (c : DieCore) : (s.setCore d c).trn = s.trn := rfl
@[simp] theorem State.setCore_links (s : State) (d : Nat) (c : DieCore) : (s.setCore d c).links = s.links := rfl
@[simp] theorem State.setCore_fwd (s : State) (d : Nat) (c : DieCore) : (s.setCore d c).fwd = s.fwd := rfl
@[simp] theorem State.setCore_bufs (s : State) (d : Nat) (c : DieCore) : (s.setCore d c).bufs = s.bufs := rfl
@[simp] theorem State.setCore_flows (s : State) (d : Nat) (c : DieCore) : (s.setCore d c).flows = s.flows := rfl
@[simp] theorem State.setCore_queues (s : State) (d : Nat) (c : DieCore) : (s.setCore d c).queues = s.queues := rfl
@[simp] theorem State.setCore_originWait (s : State) (d : Nat) (c : DieCore) : (s.setCore d c).originWait = s.originWait := rfl
@[simp] theorem State.setCore_mirSeen (s : State) (d : Nat) (c : DieCore) : (s.setCore d c).mirSeen = s.mirSeen := rfl
@[simp] theorem State.setCore_sch (s : State) (d : Nat) (c : DieCore) : (s.setCore d c).sch = s.sch := rfl
@[simp] theorem State.setCore_cnj (s : State) (d : Nat) (c : DieCore) : (s.setCore d c).cnj = s.cnj := rfl
@[simp] theorem State.setCore_stk (s : State) (d : Nat) (c : DieCore) : (s.setCore d c).stk = s.stk := rfl
@[simp] theorem State.setCore_msf (s : State) (d : Nat) (c : DieCore) : (s.setCore d c).msf = s.msf := rfl
@[simp] theorem State.setCore_ory (s : State) (d : Nat) (c : DieCore) : (s.setCore d c).ory = s.ory := rfl
@[simp] theorem State.setCore_hlt (s : State) (d : Nat) (c : DieCore) : (s.setCore d c).hlt = s.hlt := rfl
@[simp] theorem State.setCore_cfg (s : State) (d : Nat) (c : DieCore) : (s.setCore d c).cfg = s.cfg := rfl
@[simp] theorem State.setCore_arc (s : State) (d : Nat) (c : DieCore) : (s.setCore d c).arc = s.arc := rfl
@[simp] theorem State.setCore_sec (s : State) (d : Nat) (c : DieCore) : (s.setCore d c).sec = s.sec := rfl
@[simp] theorem State.setCore_pwr (s : State) (d : Nat) (c : DieCore) : (s.setCore d c).pwr = s.pwr := rfl

/-! ### setEngine -/

@[simp] theorem State.setEngine_pending (s : State) (f : Nat) (x : Engine) : (s.setEngine f x).pending = s.pending := rfl
@[simp] theorem State.setEngine_out (s : State) (f : Nat) (x : Engine) : (s.setEngine f x).out = s.out := rfl
@[simp] theorem State.setEngine_fresh (s : State) (f : Nat) (x : Engine) : (s.setEngine f x).fresh = s.fresh := rfl
@[simp] theorem State.setEngine_regs (s : State) (f : Nat) (x : Engine) : (s.setEngine f x).regs = s.regs := rfl
@[simp] theorem State.setEngine_latches (s : State) (f : Nat) (x : Engine) : (s.setEngine f x).latches = s.latches := rfl
@[simp] theorem State.setEngine_heldLow (s : State) (f : Nat) (x : Engine) : (s.setEngine f x).heldLow = s.heldLow := rfl
@[simp] theorem State.setEngine_alm (s : State) (f : Nat) (x : Engine) : (s.setEngine f x).alm = s.alm := rfl
@[simp] theorem State.setEngine_msixEnable (s : State) (f : Nat) (x : Engine) : (s.setEngine f x).msixEnable = s.msixEnable := rfl
@[simp] theorem State.setEngine_hdm (s : State) (f : Nat) (x : Engine) : (s.setEngine f x).hdm = s.hdm := rfl
@[simp] theorem State.setEngine_swAddr (s : State) (f : Nat) (x : Engine) : (s.setEngine f x).swAddr = s.swAddr := rfl
@[simp] theorem State.setEngine_eph (s : State) (f : Nat) (x : Engine) : (s.setEngine f x).eph = s.eph := rfl
@[simp] theorem State.setEngine_ptime (s : State) (f : Nat) (x : Engine) : (s.setEngine f x).ptime = s.ptime := rfl
@[simp] theorem State.setEngine_pulses (s : State) (f : Nat) (x : Engine) : (s.setEngine f x).pulses = s.pulses := rfl
@[simp] theorem State.setEngine_acts (s : State) (f : Nat) (x : Engine) : (s.setEngine f x).acts = s.acts := rfl
@[simp] theorem State.setEngine_gateActive (s : State) (f : Nat) (x : Engine) : (s.setEngine f x).gateActive = s.gateActive := rfl
@[simp] theorem State.setEngine_gateShadow (s : State) (f : Nat) (x : Engine) : (s.setEngine f x).gateShadow = s.gateShadow := rfl
@[simp] theorem State.setEngine_calActive (s : State) (f : Nat) (x : Engine) : (s.setEngine f x).calActive = s.calActive := rfl
@[simp] theorem State.setEngine_calShadow (s : State) (f : Nat) (x : Engine) : (s.setEngine f x).calShadow = s.calShadow := rfl
@[simp] theorem State.setEngine_trn (s : State) (f : Nat) (x : Engine) : (s.setEngine f x).trn = s.trn := rfl
@[simp] theorem State.setEngine_links (s : State) (f : Nat) (x : Engine) : (s.setEngine f x).links = s.links := rfl
@[simp] theorem State.setEngine_fwd (s : State) (f : Nat) (x : Engine) : (s.setEngine f x).fwd = s.fwd := rfl
@[simp] theorem State.setEngine_bufs (s : State) (f : Nat) (x : Engine) : (s.setEngine f x).bufs = s.bufs := rfl
@[simp] theorem State.setEngine_flows (s : State) (f : Nat) (x : Engine) : (s.setEngine f x).flows = s.flows := rfl
@[simp] theorem State.setEngine_queues (s : State) (f : Nat) (x : Engine) : (s.setEngine f x).queues = s.queues := rfl
@[simp] theorem State.setEngine_originWait (s : State) (f : Nat) (x : Engine) : (s.setEngine f x).originWait = s.originWait := rfl
@[simp] theorem State.setEngine_cores (s : State) (f : Nat) (x : Engine) : (s.setEngine f x).cores = s.cores := rfl
@[simp] theorem State.setEngine_mirSeen (s : State) (f : Nat) (x : Engine) : (s.setEngine f x).mirSeen = s.mirSeen := rfl
@[simp] theorem State.setEngine_sch (s : State) (f : Nat) (x : Engine) : (s.setEngine f x).sch = s.sch := rfl
@[simp] theorem State.setEngine_cnj (s : State) (f : Nat) (x : Engine) : (s.setEngine f x).cnj = s.cnj := rfl
@[simp] theorem State.setEngine_stk (s : State) (f : Nat) (x : Engine) : (s.setEngine f x).stk = s.stk := rfl
@[simp] theorem State.setEngine_msf (s : State) (f : Nat) (x : Engine) : (s.setEngine f x).msf = s.msf := rfl
@[simp] theorem State.setEngine_ory (s : State) (f : Nat) (x : Engine) : (s.setEngine f x).ory = s.ory := rfl
@[simp] theorem State.setEngine_hlt (s : State) (f : Nat) (x : Engine) : (s.setEngine f x).hlt = s.hlt := rfl
@[simp] theorem State.setEngine_cfg (s : State) (f : Nat) (x : Engine) : (s.setEngine f x).cfg = s.cfg := rfl
@[simp] theorem State.setEngine_arc (s : State) (f : Nat) (x : Engine) : (s.setEngine f x).arc = s.arc := rfl
@[simp] theorem State.setEngine_sec (s : State) (f : Nat) (x : Engine) : (s.setEngine f x).sec = s.sec := rfl
@[simp] theorem State.setEngine_pwr (s : State) (f : Nat) (x : Engine) : (s.setEngine f x).pwr = s.pwr := rfl
@[simp] theorem State.setEngine_opt_heaters (s : State) (f : Nat) (x : Engine) : (s.setEngine f x).opt.heaters = s.opt.heaters := rfl
@[simp] theorem State.setEngine_opt_lines (s : State) (f : Nat) (x : Engine) : (s.setEngine f x).opt.lines = s.opt.lines := rfl

/-! ### setLine -/

@[simp] theorem State.setLine_pending (s : State) (f n : Nat) (l : Line) : (s.setLine f n l).pending = s.pending := rfl
@[simp] theorem State.setLine_out (s : State) (f n : Nat) (l : Line) : (s.setLine f n l).out = s.out := rfl
@[simp] theorem State.setLine_fresh (s : State) (f n : Nat) (l : Line) : (s.setLine f n l).fresh = s.fresh := rfl
@[simp] theorem State.setLine_regs (s : State) (f n : Nat) (l : Line) : (s.setLine f n l).regs = s.regs := rfl
@[simp] theorem State.setLine_latches (s : State) (f n : Nat) (l : Line) : (s.setLine f n l).latches = s.latches := rfl
@[simp] theorem State.setLine_heldLow (s : State) (f n : Nat) (l : Line) : (s.setLine f n l).heldLow = s.heldLow := rfl
@[simp] theorem State.setLine_alm (s : State) (f n : Nat) (l : Line) : (s.setLine f n l).alm = s.alm := rfl
@[simp] theorem State.setLine_msixEnable (s : State) (f n : Nat) (l : Line) : (s.setLine f n l).msixEnable = s.msixEnable := rfl
@[simp] theorem State.setLine_hdm (s : State) (f n : Nat) (l : Line) : (s.setLine f n l).hdm = s.hdm := rfl
@[simp] theorem State.setLine_swAddr (s : State) (f n : Nat) (l : Line) : (s.setLine f n l).swAddr = s.swAddr := rfl
@[simp] theorem State.setLine_eph (s : State) (f n : Nat) (l : Line) : (s.setLine f n l).eph = s.eph := rfl
@[simp] theorem State.setLine_ptime (s : State) (f n : Nat) (l : Line) : (s.setLine f n l).ptime = s.ptime := rfl
@[simp] theorem State.setLine_pulses (s : State) (f n : Nat) (l : Line) : (s.setLine f n l).pulses = s.pulses := rfl
@[simp] theorem State.setLine_acts (s : State) (f n : Nat) (l : Line) : (s.setLine f n l).acts = s.acts := rfl
@[simp] theorem State.setLine_gateActive (s : State) (f n : Nat) (l : Line) : (s.setLine f n l).gateActive = s.gateActive := rfl
@[simp] theorem State.setLine_gateShadow (s : State) (f n : Nat) (l : Line) : (s.setLine f n l).gateShadow = s.gateShadow := rfl
@[simp] theorem State.setLine_calActive (s : State) (f n : Nat) (l : Line) : (s.setLine f n l).calActive = s.calActive := rfl
@[simp] theorem State.setLine_calShadow (s : State) (f n : Nat) (l : Line) : (s.setLine f n l).calShadow = s.calShadow := rfl
@[simp] theorem State.setLine_trn (s : State) (f n : Nat) (l : Line) : (s.setLine f n l).trn = s.trn := rfl
@[simp] theorem State.setLine_links (s : State) (f n : Nat) (l : Line) : (s.setLine f n l).links = s.links := rfl
@[simp] theorem State.setLine_fwd (s : State) (f n : Nat) (l : Line) : (s.setLine f n l).fwd = s.fwd := rfl
@[simp] theorem State.setLine_bufs (s : State) (f n : Nat) (l : Line) : (s.setLine f n l).bufs = s.bufs := rfl
@[simp] theorem State.setLine_flows (s : State) (f n : Nat) (l : Line) : (s.setLine f n l).flows = s.flows := rfl
@[simp] theorem State.setLine_queues (s : State) (f n : Nat) (l : Line) : (s.setLine f n l).queues = s.queues := rfl
@[simp] theorem State.setLine_originWait (s : State) (f n : Nat) (l : Line) : (s.setLine f n l).originWait = s.originWait := rfl
@[simp] theorem State.setLine_cores (s : State) (f n : Nat) (l : Line) : (s.setLine f n l).cores = s.cores := rfl
@[simp] theorem State.setLine_mirSeen (s : State) (f n : Nat) (l : Line) : (s.setLine f n l).mirSeen = s.mirSeen := rfl
@[simp] theorem State.setLine_sch (s : State) (f n : Nat) (l : Line) : (s.setLine f n l).sch = s.sch := rfl
@[simp] theorem State.setLine_cnj (s : State) (f n : Nat) (l : Line) : (s.setLine f n l).cnj = s.cnj := rfl
@[simp] theorem State.setLine_stk (s : State) (f n : Nat) (l : Line) : (s.setLine f n l).stk = s.stk := rfl
@[simp] theorem State.setLine_msf (s : State) (f n : Nat) (l : Line) : (s.setLine f n l).msf = s.msf := rfl
@[simp] theorem State.setLine_ory (s : State) (f n : Nat) (l : Line) : (s.setLine f n l).ory = s.ory := rfl
@[simp] theorem State.setLine_hlt (s : State) (f n : Nat) (l : Line) : (s.setLine f n l).hlt = s.hlt := rfl
@[simp] theorem State.setLine_cfg (s : State) (f n : Nat) (l : Line) : (s.setLine f n l).cfg = s.cfg := rfl
@[simp] theorem State.setLine_arc (s : State) (f n : Nat) (l : Line) : (s.setLine f n l).arc = s.arc := rfl
@[simp] theorem State.setLine_sec (s : State) (f n : Nat) (l : Line) : (s.setLine f n l).sec = s.sec := rfl
@[simp] theorem State.setLine_pwr (s : State) (f n : Nat) (l : Line) : (s.setLine f n l).pwr = s.pwr := rfl
@[simp] theorem State.setLine_opt_engines (s : State) (f n : Nat) (l : Line) : (s.setLine f n l).opt.engines = s.opt.engines := rfl
@[simp] theorem State.setLine_opt_heaters (s : State) (f n : Nat) (l : Line) : (s.setLine f n l).opt.heaters = s.opt.heaters := rfl

/-! ### setHeater -/

@[simp] theorem State.setHeater_pending (s : State) (f h : Nat) (x : Heater) : (s.setHeater f h x).pending = s.pending := rfl
@[simp] theorem State.setHeater_out (s : State) (f h : Nat) (x : Heater) : (s.setHeater f h x).out = s.out := rfl
@[simp] theorem State.setHeater_fresh (s : State) (f h : Nat) (x : Heater) : (s.setHeater f h x).fresh = s.fresh := rfl
@[simp] theorem State.setHeater_regs (s : State) (f h : Nat) (x : Heater) : (s.setHeater f h x).regs = s.regs := rfl
@[simp] theorem State.setHeater_latches (s : State) (f h : Nat) (x : Heater) : (s.setHeater f h x).latches = s.latches := rfl
@[simp] theorem State.setHeater_heldLow (s : State) (f h : Nat) (x : Heater) : (s.setHeater f h x).heldLow = s.heldLow := rfl
@[simp] theorem State.setHeater_alm (s : State) (f h : Nat) (x : Heater) : (s.setHeater f h x).alm = s.alm := rfl
@[simp] theorem State.setHeater_msixEnable (s : State) (f h : Nat) (x : Heater) : (s.setHeater f h x).msixEnable = s.msixEnable := rfl
@[simp] theorem State.setHeater_hdm (s : State) (f h : Nat) (x : Heater) : (s.setHeater f h x).hdm = s.hdm := rfl
@[simp] theorem State.setHeater_swAddr (s : State) (f h : Nat) (x : Heater) : (s.setHeater f h x).swAddr = s.swAddr := rfl
@[simp] theorem State.setHeater_eph (s : State) (f h : Nat) (x : Heater) : (s.setHeater f h x).eph = s.eph := rfl
@[simp] theorem State.setHeater_ptime (s : State) (f h : Nat) (x : Heater) : (s.setHeater f h x).ptime = s.ptime := rfl
@[simp] theorem State.setHeater_pulses (s : State) (f h : Nat) (x : Heater) : (s.setHeater f h x).pulses = s.pulses := rfl
@[simp] theorem State.setHeater_acts (s : State) (f h : Nat) (x : Heater) : (s.setHeater f h x).acts = s.acts := rfl
@[simp] theorem State.setHeater_gateActive (s : State) (f h : Nat) (x : Heater) : (s.setHeater f h x).gateActive = s.gateActive := rfl
@[simp] theorem State.setHeater_gateShadow (s : State) (f h : Nat) (x : Heater) : (s.setHeater f h x).gateShadow = s.gateShadow := rfl
@[simp] theorem State.setHeater_calActive (s : State) (f h : Nat) (x : Heater) : (s.setHeater f h x).calActive = s.calActive := rfl
@[simp] theorem State.setHeater_calShadow (s : State) (f h : Nat) (x : Heater) : (s.setHeater f h x).calShadow = s.calShadow := rfl
@[simp] theorem State.setHeater_trn (s : State) (f h : Nat) (x : Heater) : (s.setHeater f h x).trn = s.trn := rfl
@[simp] theorem State.setHeater_links (s : State) (f h : Nat) (x : Heater) : (s.setHeater f h x).links = s.links := rfl
@[simp] theorem State.setHeater_fwd (s : State) (f h : Nat) (x : Heater) : (s.setHeater f h x).fwd = s.fwd := rfl
@[simp] theorem State.setHeater_bufs (s : State) (f h : Nat) (x : Heater) : (s.setHeater f h x).bufs = s.bufs := rfl
@[simp] theorem State.setHeater_flows (s : State) (f h : Nat) (x : Heater) : (s.setHeater f h x).flows = s.flows := rfl
@[simp] theorem State.setHeater_queues (s : State) (f h : Nat) (x : Heater) : (s.setHeater f h x).queues = s.queues := rfl
@[simp] theorem State.setHeater_originWait (s : State) (f h : Nat) (x : Heater) : (s.setHeater f h x).originWait = s.originWait := rfl
@[simp] theorem State.setHeater_cores (s : State) (f h : Nat) (x : Heater) : (s.setHeater f h x).cores = s.cores := rfl
@[simp] theorem State.setHeater_mirSeen (s : State) (f h : Nat) (x : Heater) : (s.setHeater f h x).mirSeen = s.mirSeen := rfl
@[simp] theorem State.setHeater_sch (s : State) (f h : Nat) (x : Heater) : (s.setHeater f h x).sch = s.sch := rfl
@[simp] theorem State.setHeater_cnj (s : State) (f h : Nat) (x : Heater) : (s.setHeater f h x).cnj = s.cnj := rfl
@[simp] theorem State.setHeater_stk (s : State) (f h : Nat) (x : Heater) : (s.setHeater f h x).stk = s.stk := rfl
@[simp] theorem State.setHeater_msf (s : State) (f h : Nat) (x : Heater) : (s.setHeater f h x).msf = s.msf := rfl
@[simp] theorem State.setHeater_ory (s : State) (f h : Nat) (x : Heater) : (s.setHeater f h x).ory = s.ory := rfl
@[simp] theorem State.setHeater_hlt (s : State) (f h : Nat) (x : Heater) : (s.setHeater f h x).hlt = s.hlt := rfl
@[simp] theorem State.setHeater_cfg (s : State) (f h : Nat) (x : Heater) : (s.setHeater f h x).cfg = s.cfg := rfl
@[simp] theorem State.setHeater_arc (s : State) (f h : Nat) (x : Heater) : (s.setHeater f h x).arc = s.arc := rfl
@[simp] theorem State.setHeater_sec (s : State) (f h : Nat) (x : Heater) : (s.setHeater f h x).sec = s.sec := rfl
@[simp] theorem State.setHeater_pwr (s : State) (f h : Nat) (x : Heater) : (s.setHeater f h x).pwr = s.pwr := rfl
@[simp] theorem State.setHeater_opt_engines (s : State) (f h : Nat) (x : Heater) : (s.setHeater f h x).opt.engines = s.opt.engines := rfl
@[simp] theorem State.setHeater_opt_lines (s : State) (f h : Nat) (x : Heater) : (s.setHeater f h x).opt.lines = s.opt.lines := rfl

/-! ### setPlane -/

@[simp] theorem State.setPlane_pending (s : State) (c : Nat) (x : Plane) : (s.setPlane c x).pending = s.pending := rfl
@[simp] theorem State.setPlane_out (s : State) (c : Nat) (x : Plane) : (s.setPlane c x).out = s.out := rfl
@[simp] theorem State.setPlane_fresh (s : State) (c : Nat) (x : Plane) : (s.setPlane c x).fresh = s.fresh := rfl
@[simp] theorem State.setPlane_regs (s : State) (c : Nat) (x : Plane) : (s.setPlane c x).regs = s.regs := rfl
@[simp] theorem State.setPlane_latches (s : State) (c : Nat) (x : Plane) : (s.setPlane c x).latches = s.latches := rfl
@[simp] theorem State.setPlane_heldLow (s : State) (c : Nat) (x : Plane) : (s.setPlane c x).heldLow = s.heldLow := rfl
@[simp] theorem State.setPlane_alm (s : State) (c : Nat) (x : Plane) : (s.setPlane c x).alm = s.alm := rfl
@[simp] theorem State.setPlane_msixEnable (s : State) (c : Nat) (x : Plane) : (s.setPlane c x).msixEnable = s.msixEnable := rfl
@[simp] theorem State.setPlane_hdm (s : State) (c : Nat) (x : Plane) : (s.setPlane c x).hdm = s.hdm := rfl
@[simp] theorem State.setPlane_swAddr (s : State) (c : Nat) (x : Plane) : (s.setPlane c x).swAddr = s.swAddr := rfl
@[simp] theorem State.setPlane_eph (s : State) (c : Nat) (x : Plane) : (s.setPlane c x).eph = s.eph := rfl
@[simp] theorem State.setPlane_ptime (s : State) (c : Nat) (x : Plane) : (s.setPlane c x).ptime = s.ptime := rfl
@[simp] theorem State.setPlane_pulses (s : State) (c : Nat) (x : Plane) : (s.setPlane c x).pulses = s.pulses := rfl
@[simp] theorem State.setPlane_acts (s : State) (c : Nat) (x : Plane) : (s.setPlane c x).acts = s.acts := rfl
@[simp] theorem State.setPlane_gateActive (s : State) (c : Nat) (x : Plane) : (s.setPlane c x).gateActive = s.gateActive := rfl
@[simp] theorem State.setPlane_gateShadow (s : State) (c : Nat) (x : Plane) : (s.setPlane c x).gateShadow = s.gateShadow := rfl
@[simp] theorem State.setPlane_calActive (s : State) (c : Nat) (x : Plane) : (s.setPlane c x).calActive = s.calActive := rfl
@[simp] theorem State.setPlane_calShadow (s : State) (c : Nat) (x : Plane) : (s.setPlane c x).calShadow = s.calShadow := rfl
@[simp] theorem State.setPlane_opt (s : State) (c : Nat) (x : Plane) : (s.setPlane c x).opt = s.opt := rfl
@[simp] theorem State.setPlane_links (s : State) (c : Nat) (x : Plane) : (s.setPlane c x).links = s.links := rfl
@[simp] theorem State.setPlane_fwd (s : State) (c : Nat) (x : Plane) : (s.setPlane c x).fwd = s.fwd := rfl
@[simp] theorem State.setPlane_bufs (s : State) (c : Nat) (x : Plane) : (s.setPlane c x).bufs = s.bufs := rfl
@[simp] theorem State.setPlane_flows (s : State) (c : Nat) (x : Plane) : (s.setPlane c x).flows = s.flows := rfl
@[simp] theorem State.setPlane_queues (s : State) (c : Nat) (x : Plane) : (s.setPlane c x).queues = s.queues := rfl
@[simp] theorem State.setPlane_originWait (s : State) (c : Nat) (x : Plane) : (s.setPlane c x).originWait = s.originWait := rfl
@[simp] theorem State.setPlane_cores (s : State) (c : Nat) (x : Plane) : (s.setPlane c x).cores = s.cores := rfl
@[simp] theorem State.setPlane_mirSeen (s : State) (c : Nat) (x : Plane) : (s.setPlane c x).mirSeen = s.mirSeen := rfl
@[simp] theorem State.setPlane_sch (s : State) (c : Nat) (x : Plane) : (s.setPlane c x).sch = s.sch := rfl
@[simp] theorem State.setPlane_cnj (s : State) (c : Nat) (x : Plane) : (s.setPlane c x).cnj = s.cnj := rfl
@[simp] theorem State.setPlane_stk (s : State) (c : Nat) (x : Plane) : (s.setPlane c x).stk = s.stk := rfl
@[simp] theorem State.setPlane_msf (s : State) (c : Nat) (x : Plane) : (s.setPlane c x).msf = s.msf := rfl
@[simp] theorem State.setPlane_ory (s : State) (c : Nat) (x : Plane) : (s.setPlane c x).ory = s.ory := rfl
@[simp] theorem State.setPlane_hlt (s : State) (c : Nat) (x : Plane) : (s.setPlane c x).hlt = s.hlt := rfl
@[simp] theorem State.setPlane_cfg (s : State) (c : Nat) (x : Plane) : (s.setPlane c x).cfg = s.cfg := rfl
@[simp] theorem State.setPlane_arc (s : State) (c : Nat) (x : Plane) : (s.setPlane c x).arc = s.arc := rfl
@[simp] theorem State.setPlane_sec (s : State) (c : Nat) (x : Plane) : (s.setPlane c x).sec = s.sec := rfl
@[simp] theorem State.setPlane_pwr (s : State) (c : Nat) (x : Plane) : (s.setPlane c x).pwr = s.pwr := rfl
@[simp] theorem State.setPlane_trn_elements (s : State) (c : Nat) (x : Plane) : (s.setPlane c x).trn.elements = s.trn.elements := rfl
@[simp] theorem State.setPlane_trn_committed (s : State) (c : Nat) (x : Plane) : (s.setPlane c x).trn.committed = s.trn.committed := rfl
@[simp] theorem State.setPlane_trn_calRunning (s : State) (c : Nat) (x : Plane) : (s.setPlane c x).trn.calRunning = s.trn.calRunning := rfl
@[simp] theorem State.setPlane_trn_calEntry (s : State) (c : Nat) (x : Plane) : (s.setPlane c x).trn.calEntry = s.trn.calEntry := rfl
@[simp] theorem State.setPlane_trn_suspMask (s : State) (c : Nat) (x : Plane) : (s.setPlane c x).trn.suspMask = s.trn.suspMask := rfl
@[simp] theorem State.setPlane_trn_notices (s : State) (c : Nat) (x : Plane) : (s.setPlane c x).trn.notices = s.trn.notices := rfl
@[simp] theorem State.setPlane_trn_transitCarrier (s : State) (c : Nat) (x : Plane) : (s.setPlane c x).trn.transitCarrier = s.trn.transitCarrier := rfl
@[simp] theorem State.setPlane_trn_umbraMap (s : State) (c : Nat) (x : Plane) : (s.setPlane c x).trn.umbraMap = s.trn.umbraMap := rfl
@[simp] theorem State.setPlane_trn_umbraWrite (s : State) (c : Nat) (x : Plane) : (s.setPlane c x).trn.umbraWrite = s.trn.umbraWrite := rfl
@[simp] theorem State.setPlane_trn_releasePending (s : State) (c : Nat) (x : Plane) : (s.setPlane c x).trn.releasePending = s.trn.releasePending := rfl
@[simp] theorem State.setPlane_trn_dark (s : State) (c : Nat) (x : Plane) : (s.setPlane c x).trn.dark = s.trn.dark := rfl
@[simp] theorem State.setPlane_trn_boundaryAt (s : State) (c : Nat) (x : Plane) : (s.setPlane c x).trn.boundaryAt = s.trn.boundaryAt := rfl
@[simp] theorem State.setPlane_trn_quiet (s : State) (c : Nat) (x : Plane) : (s.setPlane c x).trn.quiet = s.trn.quiet := rfl
@[simp] theorem State.setPlane_trn_rxBack (s : State) (c : Nat) (x : Plane) : (s.setPlane c x).trn.rxBack = s.trn.rxBack := rfl

/-! ### setElem -/

@[simp] theorem State.setElem_pending (s : State) (c e : Nat) (x : Element) : (s.setElem c e x).pending = s.pending := rfl
@[simp] theorem State.setElem_out (s : State) (c e : Nat) (x : Element) : (s.setElem c e x).out = s.out := rfl
@[simp] theorem State.setElem_fresh (s : State) (c e : Nat) (x : Element) : (s.setElem c e x).fresh = s.fresh := rfl
@[simp] theorem State.setElem_regs (s : State) (c e : Nat) (x : Element) : (s.setElem c e x).regs = s.regs := rfl
@[simp] theorem State.setElem_latches (s : State) (c e : Nat) (x : Element) : (s.setElem c e x).latches = s.latches := rfl
@[simp] theorem State.setElem_heldLow (s : State) (c e : Nat) (x : Element) : (s.setElem c e x).heldLow = s.heldLow := rfl
@[simp] theorem State.setElem_alm (s : State) (c e : Nat) (x : Element) : (s.setElem c e x).alm = s.alm := rfl
@[simp] theorem State.setElem_msixEnable (s : State) (c e : Nat) (x : Element) : (s.setElem c e x).msixEnable = s.msixEnable := rfl
@[simp] theorem State.setElem_hdm (s : State) (c e : Nat) (x : Element) : (s.setElem c e x).hdm = s.hdm := rfl
@[simp] theorem State.setElem_swAddr (s : State) (c e : Nat) (x : Element) : (s.setElem c e x).swAddr = s.swAddr := rfl
@[simp] theorem State.setElem_eph (s : State) (c e : Nat) (x : Element) : (s.setElem c e x).eph = s.eph := rfl
@[simp] theorem State.setElem_ptime (s : State) (c e : Nat) (x : Element) : (s.setElem c e x).ptime = s.ptime := rfl
@[simp] theorem State.setElem_pulses (s : State) (c e : Nat) (x : Element) : (s.setElem c e x).pulses = s.pulses := rfl
@[simp] theorem State.setElem_acts (s : State) (c e : Nat) (x : Element) : (s.setElem c e x).acts = s.acts := rfl
@[simp] theorem State.setElem_gateActive (s : State) (c e : Nat) (x : Element) : (s.setElem c e x).gateActive = s.gateActive := rfl
@[simp] theorem State.setElem_gateShadow (s : State) (c e : Nat) (x : Element) : (s.setElem c e x).gateShadow = s.gateShadow := rfl
@[simp] theorem State.setElem_calActive (s : State) (c e : Nat) (x : Element) : (s.setElem c e x).calActive = s.calActive := rfl
@[simp] theorem State.setElem_calShadow (s : State) (c e : Nat) (x : Element) : (s.setElem c e x).calShadow = s.calShadow := rfl
@[simp] theorem State.setElem_opt (s : State) (c e : Nat) (x : Element) : (s.setElem c e x).opt = s.opt := rfl
@[simp] theorem State.setElem_links (s : State) (c e : Nat) (x : Element) : (s.setElem c e x).links = s.links := rfl
@[simp] theorem State.setElem_fwd (s : State) (c e : Nat) (x : Element) : (s.setElem c e x).fwd = s.fwd := rfl
@[simp] theorem State.setElem_bufs (s : State) (c e : Nat) (x : Element) : (s.setElem c e x).bufs = s.bufs := rfl
@[simp] theorem State.setElem_flows (s : State) (c e : Nat) (x : Element) : (s.setElem c e x).flows = s.flows := rfl
@[simp] theorem State.setElem_queues (s : State) (c e : Nat) (x : Element) : (s.setElem c e x).queues = s.queues := rfl
@[simp] theorem State.setElem_originWait (s : State) (c e : Nat) (x : Element) : (s.setElem c e x).originWait = s.originWait := rfl
@[simp] theorem State.setElem_cores (s : State) (c e : Nat) (x : Element) : (s.setElem c e x).cores = s.cores := rfl
@[simp] theorem State.setElem_mirSeen (s : State) (c e : Nat) (x : Element) : (s.setElem c e x).mirSeen = s.mirSeen := rfl
@[simp] theorem State.setElem_sch (s : State) (c e : Nat) (x : Element) : (s.setElem c e x).sch = s.sch := rfl
@[simp] theorem State.setElem_cnj (s : State) (c e : Nat) (x : Element) : (s.setElem c e x).cnj = s.cnj := rfl
@[simp] theorem State.setElem_stk (s : State) (c e : Nat) (x : Element) : (s.setElem c e x).stk = s.stk := rfl
@[simp] theorem State.setElem_msf (s : State) (c e : Nat) (x : Element) : (s.setElem c e x).msf = s.msf := rfl
@[simp] theorem State.setElem_ory (s : State) (c e : Nat) (x : Element) : (s.setElem c e x).ory = s.ory := rfl
@[simp] theorem State.setElem_hlt (s : State) (c e : Nat) (x : Element) : (s.setElem c e x).hlt = s.hlt := rfl
@[simp] theorem State.setElem_cfg (s : State) (c e : Nat) (x : Element) : (s.setElem c e x).cfg = s.cfg := rfl
@[simp] theorem State.setElem_arc (s : State) (c e : Nat) (x : Element) : (s.setElem c e x).arc = s.arc := rfl
@[simp] theorem State.setElem_sec (s : State) (c e : Nat) (x : Element) : (s.setElem c e x).sec = s.sec := rfl
@[simp] theorem State.setElem_pwr (s : State) (c e : Nat) (x : Element) : (s.setElem c e x).pwr = s.pwr := rfl
@[simp] theorem State.setElem_trn_planes (s : State) (c e : Nat) (x : Element) : (s.setElem c e x).trn.planes = s.trn.planes := rfl
@[simp] theorem State.setElem_trn_committed (s : State) (c e : Nat) (x : Element) : (s.setElem c e x).trn.committed = s.trn.committed := rfl
@[simp] theorem State.setElem_trn_calRunning (s : State) (c e : Nat) (x : Element) : (s.setElem c e x).trn.calRunning = s.trn.calRunning := rfl
@[simp] theorem State.setElem_trn_calEntry (s : State) (c e : Nat) (x : Element) : (s.setElem c e x).trn.calEntry = s.trn.calEntry := rfl
@[simp] theorem State.setElem_trn_suspMask (s : State) (c e : Nat) (x : Element) : (s.setElem c e x).trn.suspMask = s.trn.suspMask := rfl
@[simp] theorem State.setElem_trn_notices (s : State) (c e : Nat) (x : Element) : (s.setElem c e x).trn.notices = s.trn.notices := rfl
@[simp] theorem State.setElem_trn_transitCarrier (s : State) (c e : Nat) (x : Element) : (s.setElem c e x).trn.transitCarrier = s.trn.transitCarrier := rfl
@[simp] theorem State.setElem_trn_umbraMap (s : State) (c e : Nat) (x : Element) : (s.setElem c e x).trn.umbraMap = s.trn.umbraMap := rfl
@[simp] theorem State.setElem_trn_umbraWrite (s : State) (c e : Nat) (x : Element) : (s.setElem c e x).trn.umbraWrite = s.trn.umbraWrite := rfl
@[simp] theorem State.setElem_trn_releasePending (s : State) (c e : Nat) (x : Element) : (s.setElem c e x).trn.releasePending = s.trn.releasePending := rfl
@[simp] theorem State.setElem_trn_dark (s : State) (c e : Nat) (x : Element) : (s.setElem c e x).trn.dark = s.trn.dark := rfl
@[simp] theorem State.setElem_trn_boundaryAt (s : State) (c e : Nat) (x : Element) : (s.setElem c e x).trn.boundaryAt = s.trn.boundaryAt := rfl
@[simp] theorem State.setElem_trn_quiet (s : State) (c e : Nat) (x : Element) : (s.setElem c e x).trn.quiet = s.trn.quiet := rfl
@[simp] theorem State.setElem_trn_rxBack (s : State) (c e : Nat) (x : Element) : (s.setElem c e x).trn.rxBack = s.trn.rxBack := rfl

/-! ### emit -/

@[simp] theorem State.emit_pending (s : State) (o : Output) : (s.emit o).pending = s.pending := rfl
@[simp] theorem State.emit_fresh (s : State) (o : Output) : (s.emit o).fresh = s.fresh := rfl
@[simp] theorem State.emit_regs (s : State) (o : Output) : (s.emit o).regs = s.regs := rfl
@[simp] theorem State.emit_latches (s : State) (o : Output) : (s.emit o).latches = s.latches := rfl
@[simp] theorem State.emit_heldLow (s : State) (o : Output) : (s.emit o).heldLow = s.heldLow := rfl
@[simp] theorem State.emit_alm (s : State) (o : Output) : (s.emit o).alm = s.alm := rfl
@[simp] theorem State.emit_msixEnable (s : State) (o : Output) : (s.emit o).msixEnable = s.msixEnable := rfl
@[simp] theorem State.emit_hdm (s : State) (o : Output) : (s.emit o).hdm = s.hdm := rfl
@[simp] theorem State.emit_swAddr (s : State) (o : Output) : (s.emit o).swAddr = s.swAddr := rfl
@[simp] theorem State.emit_eph (s : State) (o : Output) : (s.emit o).eph = s.eph := rfl
@[simp] theorem State.emit_ptime (s : State) (o : Output) : (s.emit o).ptime = s.ptime := rfl
@[simp] theorem State.emit_pulses (s : State) (o : Output) : (s.emit o).pulses = s.pulses := rfl
@[simp] theorem State.emit_acts (s : State) (o : Output) : (s.emit o).acts = s.acts := rfl
@[simp] theorem State.emit_gateActive (s : State) (o : Output) : (s.emit o).gateActive = s.gateActive := rfl
@[simp] theorem State.emit_gateShadow (s : State) (o : Output) : (s.emit o).gateShadow = s.gateShadow := rfl
@[simp] theorem State.emit_calActive (s : State) (o : Output) : (s.emit o).calActive = s.calActive := rfl
@[simp] theorem State.emit_calShadow (s : State) (o : Output) : (s.emit o).calShadow = s.calShadow := rfl
@[simp] theorem State.emit_opt (s : State) (o : Output) : (s.emit o).opt = s.opt := rfl
@[simp] theorem State.emit_trn (s : State) (o : Output) : (s.emit o).trn = s.trn := rfl
@[simp] theorem State.emit_links (s : State) (o : Output) : (s.emit o).links = s.links := rfl
@[simp] theorem State.emit_fwd (s : State) (o : Output) : (s.emit o).fwd = s.fwd := rfl
@[simp] theorem State.emit_bufs (s : State) (o : Output) : (s.emit o).bufs = s.bufs := rfl
@[simp] theorem State.emit_flows (s : State) (o : Output) : (s.emit o).flows = s.flows := rfl
@[simp] theorem State.emit_queues (s : State) (o : Output) : (s.emit o).queues = s.queues := rfl
@[simp] theorem State.emit_originWait (s : State) (o : Output) : (s.emit o).originWait = s.originWait := rfl
@[simp] theorem State.emit_cores (s : State) (o : Output) : (s.emit o).cores = s.cores := rfl
@[simp] theorem State.emit_mirSeen (s : State) (o : Output) : (s.emit o).mirSeen = s.mirSeen := rfl
@[simp] theorem State.emit_sch (s : State) (o : Output) : (s.emit o).sch = s.sch := rfl
@[simp] theorem State.emit_cnj (s : State) (o : Output) : (s.emit o).cnj = s.cnj := rfl
@[simp] theorem State.emit_stk (s : State) (o : Output) : (s.emit o).stk = s.stk := rfl
@[simp] theorem State.emit_msf (s : State) (o : Output) : (s.emit o).msf = s.msf := rfl
@[simp] theorem State.emit_ory (s : State) (o : Output) : (s.emit o).ory = s.ory := rfl
@[simp] theorem State.emit_hlt (s : State) (o : Output) : (s.emit o).hlt = s.hlt := rfl
@[simp] theorem State.emit_cfg (s : State) (o : Output) : (s.emit o).cfg = s.cfg := rfl
@[simp] theorem State.emit_arc (s : State) (o : Output) : (s.emit o).arc = s.arc := rfl
@[simp] theorem State.emit_sec (s : State) (o : Output) : (s.emit o).sec = s.sec := rfl
@[simp] theorem State.emit_pwr (s : State) (o : Output) : (s.emit o).pwr = s.pwr := rfl

/-! ### draw -/

@[simp] theorem State.draw_pending (s : State) : (s.draw).pending = s.pending := rfl
@[simp] theorem State.draw_out (s : State) : (s.draw).out = s.out := rfl
@[simp] theorem State.draw_regs (s : State) : (s.draw).regs = s.regs := rfl
@[simp] theorem State.draw_latches (s : State) : (s.draw).latches = s.latches := rfl
@[simp] theorem State.draw_heldLow (s : State) : (s.draw).heldLow = s.heldLow := rfl
@[simp] theorem State.draw_alm (s : State) : (s.draw).alm = s.alm := rfl
@[simp] theorem State.draw_msixEnable (s : State) : (s.draw).msixEnable = s.msixEnable := rfl
@[simp] theorem State.draw_hdm (s : State) : (s.draw).hdm = s.hdm := rfl
@[simp] theorem State.draw_swAddr (s : State) : (s.draw).swAddr = s.swAddr := rfl
@[simp] theorem State.draw_eph (s : State) : (s.draw).eph = s.eph := rfl
@[simp] theorem State.draw_ptime (s : State) : (s.draw).ptime = s.ptime := rfl
@[simp] theorem State.draw_pulses (s : State) : (s.draw).pulses = s.pulses := rfl
@[simp] theorem State.draw_acts (s : State) : (s.draw).acts = s.acts := rfl
@[simp] theorem State.draw_gateActive (s : State) : (s.draw).gateActive = s.gateActive := rfl
@[simp] theorem State.draw_gateShadow (s : State) : (s.draw).gateShadow = s.gateShadow := rfl
@[simp] theorem State.draw_calActive (s : State) : (s.draw).calActive = s.calActive := rfl
@[simp] theorem State.draw_calShadow (s : State) : (s.draw).calShadow = s.calShadow := rfl
@[simp] theorem State.draw_opt (s : State) : (s.draw).opt = s.opt := rfl
@[simp] theorem State.draw_trn (s : State) : (s.draw).trn = s.trn := rfl
@[simp] theorem State.draw_links (s : State) : (s.draw).links = s.links := rfl
@[simp] theorem State.draw_fwd (s : State) : (s.draw).fwd = s.fwd := rfl
@[simp] theorem State.draw_bufs (s : State) : (s.draw).bufs = s.bufs := rfl
@[simp] theorem State.draw_flows (s : State) : (s.draw).flows = s.flows := rfl
@[simp] theorem State.draw_queues (s : State) : (s.draw).queues = s.queues := rfl
@[simp] theorem State.draw_originWait (s : State) : (s.draw).originWait = s.originWait := rfl
@[simp] theorem State.draw_cores (s : State) : (s.draw).cores = s.cores := rfl
@[simp] theorem State.draw_mirSeen (s : State) : (s.draw).mirSeen = s.mirSeen := rfl
@[simp] theorem State.draw_sch (s : State) : (s.draw).sch = s.sch := rfl
@[simp] theorem State.draw_cnj (s : State) : (s.draw).cnj = s.cnj := rfl
@[simp] theorem State.draw_stk (s : State) : (s.draw).stk = s.stk := rfl
@[simp] theorem State.draw_msf (s : State) : (s.draw).msf = s.msf := rfl
@[simp] theorem State.draw_ory (s : State) : (s.draw).ory = s.ory := rfl
@[simp] theorem State.draw_hlt (s : State) : (s.draw).hlt = s.hlt := rfl
@[simp] theorem State.draw_cfg (s : State) : (s.draw).cfg = s.cfg := rfl
@[simp] theorem State.draw_arc (s : State) : (s.draw).arc = s.arc := rfl
@[simp] theorem State.draw_sec (s : State) : (s.draw).sec = s.sec := rfl
@[simp] theorem State.draw_pwr (s : State) : (s.draw).pwr = s.pwr := rfl

end Sys2Proof.Machine
end

