-- ==== Sys2Proof/Laws/Memory.lean ====
section
/-!
SUPPORT. Laws of stack memory: a byte stored is read back, every other byte is left, and every operation that changes the
memory keeps its canonical form.
-/

namespace Sys2Proof.Machine

/-! ### Bytes -/

theorem writeBytes_read_outside (m : SMap Byte) (k : Nat) (bs : List Byte) {j : Nat} (h : j < k ∨ k + bs.length ≤ j) :
    (writeBytes m k bs).read 0 j = m.read 0 j := by
  induction bs generalizing m k with
  | nil => rfl
  | cons b bs ih =>
    simp only [List.length_cons] at h
    rw [writeBytes, ih _ _ (by omega), SMap.read_write_ne _ _ _ _ (by omega)]

theorem writeBytes_read_inside (m : SMap Byte) (k : Nat) (bs : List Byte) (i : Nat) (h : i < bs.length) :
    (writeBytes m k bs).read 0 (k + i) = bs.getD i 0 := by
  induction bs generalizing m k i with
  | nil => simp at h
  | cons b bs ih =>
    rw [writeBytes]
    cases i with
    | zero => rw [writeBytes_read_outside _ _ _ (by omega)]; simp
    | succ i =>
      have := ih (SMap.write 0 m k b) (k + 1) i (by simpa using h)
      rw [show k + (i + 1) = k + 1 + i by omega, this]; simp

theorem writeBytes_wf (m : SMap Byte) (k : Nat) (bs : List Byte) (h : Memory.wf m = true) :
    Memory.wf (writeBytes m k bs) = true := by
  induction bs generalizing m k with
  | nil => exact h
  | cons b bs ih => exact ih _ _ (SMap.wf_write (fun _ => 0) m k b h)

/-! ### Counting leaves the memory -/

@[simp] theorem State.stk_msixFrom (s b : State) (off : Nat) : (s.msixFrom b off).stk = s.stk := by
  unfold State.msixFrom State.sendMsix
  split
  · split <;> rfl
  · rfl

@[simp] theorem State.stk_raise (s : State) (f : Fld) : (s.raise f).stk = s.stk := by simp [State.raise]

@[simp] theorem State.stk_count (s : State) (f : Fld) (n : Nat) : (s.count f n).stk = s.stk := rfl

@[simp] theorem State.stk_pmuSample (s : State) (n block index : Nat) (g : Option (Nat × Nat × Nat)) :
    (s.pmuSample n block index g).stk = s.stk := by
  unfold State.pmuSample
  dsimp only
  split <;> simp

@[simp] theorem State.stk_pmuAdd (s : State) (n k block index : Nat) (g : Option (Nat × Nat × Nat)) :
    (s.pmuAdd n k block index g).stk = s.stk := by
  have ite_stk : ∀ (c : Prop) [Decidable c] (a b : State), (if c then a else b).stk = if c then a.stk else b.stk := by
    intros; split <;> rfl
  simp [State.pmuAdd, ite_stk]

@[simp] theorem State.stk_pmuEvent (s : State) (block event index : Nat) (vc : Option Nat) (k : Nat)
    (g : Option (Nat × Nat × Nat)) : (s.pmuEvent block event index vc k g).stk = s.stk := by
  unfold State.pmuEvent
  split
  · have h : ∀ (l : List Nat) (t : State), (l.foldl (fun t n =>
        if s.pmuMatches n block event index vc then t.pmuAdd n k block index g else t) t).stk = t.stk := by
      intro l
      induction l with
      | nil => intro t; rfl
      | cons n l ih =>
        intro t
        rw [List.foldl_cons, ih]
        split <;> simp
    exact h _ s
  · rfl

/-! ### The operations of the state -/

/-- A stored byte is read back. -/
theorem State.byteAt_storeMem_inside (s : State) (dpa : Nat) (bs : List Byte) (i : Nat) (h : i < bs.length) :
    (s.storeMem dpa bs).byteAt (dpa + i) = bs.getD i 0 := by
  unfold State.byteAt State.storeMem
  rw [State.stk_pmuEvent]
  exact writeBytes_read_inside s.stk.mem dpa bs i h

/-- Every other byte is left. -/
theorem State.byteAt_storeMem_outside (s : State) (dpa : Nat) (bs : List Byte) {j : Nat}
    (h : j < dpa ∨ dpa + bs.length ≤ j) : (s.storeMem dpa bs).byteAt j = s.byteAt j := by
  unfold State.byteAt State.storeMem
  rw [State.stk_pmuEvent]
  exact writeBytes_read_outside s.stk.mem dpa bs h

/-- Reading counts words and leaves the memory. -/
@[simp] theorem State.byteAt_countRead (s : State) (dpa n j : Nat) : (s.countRead dpa n).byteAt j = s.byteAt j := by
  unfold State.byteAt State.countRead
  rw [State.stk_pmuEvent]

/-! ### The canonical form -/

theorem State.storeMem_wf (s : State) (dpa : Nat) (bs : List Byte) (h : Memory.wf s.stk.mem = true) :
    Memory.wf (s.storeMem dpa bs).stk.mem = true := by
  unfold State.storeMem
  rw [State.stk_pmuEvent]
  exact writeBytes_wf s.stk.mem dpa bs h

theorem SMap.risesFrom_filter {α : Type} (p : Nat × α → Bool) (m : SMap α) (lo : Nat) (h : SMap.risesFrom lo m = true) :
    SMap.risesFrom lo (m.filter p) = true := by
  induction m generalizing lo with
  | nil => exact h
  | cons e m ih =>
    simp only [SMap.risesFrom, Bool.and_eq_true, decide_eq_true_eq] at h
    rw [List.filter_cons]
    split
    · simp only [SMap.risesFrom, Bool.and_eq_true, decide_eq_true_eq]
      exact ⟨h.1, ih _ h.2⟩
    · exact SMap.risesFrom_le _ (by omega) (ih _ h.2)

/-- What a zero fill clears (R273) leaves a canonical form. -/
theorem Memory.wf_filter (p : Nat × Byte → Bool) (m : SMap Byte) (h : Memory.wf m = true) :
    Memory.wf (m.filter p) = true := by
  simp only [Memory.wf, SMap.wf, SMap.rises, Bool.and_eq_true, List.all_eq_true, decide_eq_true_eq] at *
  exact ⟨SMap.risesFrom_filter p m 0 h.1, fun e he => h.2 e (List.mem_filter.mp he).1⟩

/-- A loss of supply leaves a canonical form, whatever bytes it leaves (log 62). -/
theorem State.loseMemory_wf (s : State) : Memory.wf s.loseMemory.stk.mem = true := by
  have key : ∀ (l : List (Nat × Byte)) (m : SMap Byte), Memory.wf m = true →
      Memory.wf (l.foldl (fun m e => if e.1 < dpaEnd then SMap.write 0 m e.1 e.2 else m) m) = true := by
    intro l
    induction l with
    | nil => exact fun _ h => h
    | cons e l ih =>
      intro m h
      rw [List.foldl_cons]
      apply ih
      split
      · exact SMap.wf_write (fun _ => 0) m e.1 e.2 h
      · exact h
  exact key _ [] (by decide)

theorem State.reset_mem_wf : Memory.wf State.reset.stk.mem = true := by decide

end Sys2Proof.Machine
end

