-- ==== Sys2Proof/Laws/Registers.lean ====
section
/-!
SUPPORT. Laws of the registers: what a register and a field read after a store, a count, a raised cause and a record.
-/

namespace Sys2Proof.Machine

/-! ### Whole registers -/

@[simp] theorem State.reg_setReg (s : State) (off : Nat) (v : W32) : (s.setReg off v).reg off = v :=
  SMap.read_write_same ..

theorem State.reg_setReg_ne (s : State) {off o : Nat} (v : W32) (h : o ≠ off) : (s.setReg off v).reg o = s.reg o :=
  SMap.read_write_ne _ _ _ _ h

@[simp] theorem State.reg_emit (s : State) (x : Output) (off : Nat) : (s.emit x).reg off = s.reg off := rfl

@[simp] theorem State.reg_draw (s : State) (off : Nat) : s.draw.reg off = s.reg off := rfl

/-! ### Fields of a word -/

/-- A field lies inside a word. -/
def Fld.fits (f : Fld) : Prop := f.lo + f.width ≤ 32

theorem Fld.toNat_put (f : Fld) (h : f.fits) (w : W32) (v : Nat) :
    (f.put w v).toNat =
      w.toNat / 2 ^ (f.lo + f.width) * 2 ^ (f.lo + f.width) + v % 2 ^ f.width * 2 ^ f.lo + w.toNat % 2 ^ f.lo := by
  unfold Fld.fits at h
  unfold Fld.put
  have hw : w.toNat < 2 ^ 32 := w.isLt
  generalize w.toNat = n at *
  have e1 : n = n / 2 ^ (f.lo + f.width) * 2 ^ (f.lo + f.width) + n / 2 ^ f.lo % 2 ^ f.width * 2 ^ f.lo + n % 2 ^ f.lo := by
    have a := Nat.div_add_mod n (2 ^ f.lo)
    have b := Nat.div_add_mod (n / 2 ^ f.lo) (2 ^ f.width)
    rw [Nat.div_div_eq_div_mul, ← Nat.pow_add] at b
    have c : n / 2 ^ f.lo * 2 ^ f.lo =
        (2 ^ f.width * (n / 2 ^ (f.lo + f.width)) + n / 2 ^ f.lo % 2 ^ f.width) * 2 ^ f.lo := by rw [b]
    rw [Nat.add_mul] at c
    have d : 2 ^ f.width * (n / 2 ^ (f.lo + f.width)) * 2 ^ f.lo = n / 2 ^ (f.lo + f.width) * 2 ^ (f.lo + f.width) := by
      rw [Nat.pow_add]; ac_rfl
    rw [Nat.mul_comm] at a
    omega
  have lo : n % 2 ^ f.lo < 2 ^ f.lo := Nat.mod_lt _ (Nat.two_pow_pos _)
  have vl : v % 2 ^ f.width < 2 ^ f.width := Nat.mod_lt _ (Nat.two_pow_pos _)
  have bound : n / 2 ^ (f.lo + f.width) * 2 ^ (f.lo + f.width) + v % 2 ^ f.width * 2 ^ f.lo + n % 2 ^ f.lo < 2 ^ 32 := by
    have h1 : (v % 2 ^ f.width + 1) * 2 ^ f.lo ≤ 2 ^ f.width * 2 ^ f.lo := Nat.mul_le_mul_right _ vl
    have h2 : 2 ^ f.width * 2 ^ f.lo = 2 ^ (f.lo + f.width) := by rw [Nat.pow_add, Nat.mul_comm]
    have h3 : 2 ^ 32 = 2 ^ (32 - (f.lo + f.width)) * 2 ^ (f.lo + f.width) := by rw [← Nat.pow_add]; congr 1; omega
    have h4 : n / 2 ^ (f.lo + f.width) < 2 ^ (32 - (f.lo + f.width)) := by
      rw [Nat.div_lt_iff_lt_mul (Nat.two_pow_pos _), ← h3]; exact hw
    have h5 : (n / 2 ^ (f.lo + f.width) + 1) * 2 ^ (f.lo + f.width) ≤ 2 ^ 32 := by rw [h3]; exact Nat.mul_le_mul_right _ h4
    rw [Nat.add_mul] at h1 h5
    omega
  rw [BitVec.toNat_ofNat, Nat.mod_eq_of_lt] <;> omega

/-- The field reads what was put, modulo its width. -/
theorem Fld.of_put (f : Fld) (h : f.fits) (w : W32) (v : Nat) : f.of (f.put w v) = v % 2 ^ f.width := by
  unfold Fld.of
  rw [Fld.toNat_put f h]
  have lo : w.toNat % 2 ^ f.lo < 2 ^ f.lo := Nat.mod_lt _ (Nat.two_pow_pos _)
  have e : w.toNat / 2 ^ (f.lo + f.width) * 2 ^ (f.lo + f.width) + v % 2 ^ f.width * 2 ^ f.lo + w.toNat % 2 ^ f.lo =
      w.toNat % 2 ^ f.lo + 2 ^ f.lo * (v % 2 ^ f.width + 2 ^ f.width * (w.toNat / 2 ^ (f.lo + f.width))) := by
    rw [Nat.pow_add, Nat.mul_add]
    have : w.toNat / (2 ^ f.lo * 2 ^ f.width) * (2 ^ f.lo * 2 ^ f.width) =
      2 ^ f.lo * (2 ^ f.width * (w.toNat / (2 ^ f.lo * 2 ^ f.width))) := by ac_rfl
    rw [this, Nat.mul_comm (v % 2 ^ f.width)]
    omega
  rw [e, Nat.add_mul_div_left _ _ (Nat.two_pow_pos _), Nat.div_eq_of_lt lo, Nat.zero_add, Nat.add_mul_mod_self_left,
    Nat.mod_mod]

/-- A field above the one that was put is left. -/
theorem Fld.of_put_above (f g : Fld) (h : f.fits) (hg : f.lo + f.width ≤ g.lo) (w : W32) (v : Nat) :
    g.of (f.put w v) = g.of w := by
  unfold Fld.of
  rw [Fld.toNat_put f h]
  obtain ⟨k, hk⟩ := Nat.le.dest hg
  have lo : w.toNat % 2 ^ f.lo < 2 ^ f.lo := Nat.mod_lt _ (Nat.two_pow_pos _)
  have vl : v % 2 ^ f.width < 2 ^ f.width := Nat.mod_lt _ (Nat.two_pow_pos _)
  have small : v % 2 ^ f.width * 2 ^ f.lo + w.toNat % 2 ^ f.lo < 2 ^ (f.lo + f.width) := by
    have h1 : (v % 2 ^ f.width + 1) * 2 ^ f.lo ≤ 2 ^ f.width * 2 ^ f.lo := Nat.mul_le_mul_right _ vl
    have h2 : 2 ^ f.width * 2 ^ f.lo = 2 ^ (f.lo + f.width) := by rw [Nat.pow_add, Nat.mul_comm]
    rw [Nat.add_mul] at h1
    omega
  have e : ∀ x q, x < 2 ^ (f.lo + f.width) → (q * 2 ^ (f.lo + f.width) + x) / 2 ^ g.lo = q / 2 ^ k := by
    intro x q hx
    rw [← hk, Nat.pow_add 2 (f.lo + f.width) k, ← Nat.div_div_eq_div_mul, Nat.mul_comm q, Nat.mul_add_div (Nat.two_pow_pos _),
      Nat.div_eq_of_lt hx, Nat.add_zero]
  rw [Nat.add_assoc, e _ _ small]
  have := e (w.toNat % 2 ^ (f.lo + f.width)) (w.toNat / 2 ^ (f.lo + f.width)) (Nat.mod_lt _ (Nat.two_pow_pos _))
  rw [Nat.mul_comm, Nat.div_add_mod] at this
  rw [this]

/-- A field below the one that was put is left. -/
theorem Fld.of_put_below (f g : Fld) (h : f.fits) (hg : g.lo + g.width ≤ f.lo) (w : W32) (v : Nat) :
    g.of (f.put w v) = g.of w := by
  unfold Fld.of
  rw [Fld.toNat_put f h]
  have key : ∀ n : Nat, n / 2 ^ g.lo % 2 ^ g.width = n % 2 ^ f.lo / 2 ^ g.lo % 2 ^ g.width := by
    intro n
    obtain ⟨k, hk⟩ := Nat.le.dest hg
    rw [← Nat.mod_mul_right_div_self n, ← Nat.mod_mul_right_div_self (n % 2 ^ f.lo), ← Nat.pow_add,
      Nat.mod_mod_of_dvd _ (Nat.pow_dvd_pow 2 hg)]
  rw [key, key w.toNat]
  congr 2
  have e : w.toNat / 2 ^ (f.lo + f.width) * 2 ^ (f.lo + f.width) + v % 2 ^ f.width * 2 ^ f.lo + w.toNat % 2 ^ f.lo =
      w.toNat % 2 ^ f.lo + 2 ^ f.lo * (w.toNat / 2 ^ (f.lo + f.width) * 2 ^ f.width + v % 2 ^ f.width) := by
    rw [Nat.pow_add, Nat.mul_add]
    have : w.toNat / (2 ^ f.lo * 2 ^ f.width) * (2 ^ f.lo * 2 ^ f.width) =
      2 ^ f.lo * (w.toNat / (2 ^ f.lo * 2 ^ f.width) * 2 ^ f.width) := by ac_rfl
    rw [this, Nat.mul_comm (v % 2 ^ f.width)]
    omega
  rw [e, Nat.add_mul_mod_self_left, Nat.mod_mod]

/-! ### Fields of the state -/

theorem State.fld_setFld (s : State) (f : Fld) (h : f.fits) (v : Nat) : (s.setFld f v).fld f = v % 2 ^ f.width := by
  simp [State.fld, State.setFld, Fld.of_put f h]

/-- A field of another register is left. -/
theorem State.fld_setFld_ne (s : State) {f g : Fld} (v : Nat) (h : g.off ≠ f.off) : (s.setFld f v).fld g = s.fld g := by
  unfold State.fld State.setFld
  rw [State.reg_setReg_ne _ _ h]

/-- A field of the same register that does not overlap is left. -/
theorem State.fld_setFld_apart (s : State) {f g : Fld} (hf : f.fits) (v : Nat)
    (h : f.lo + f.width ≤ g.lo ∨ g.lo + g.width ≤ f.lo) : (s.setFld f v).fld g = s.fld g := by
  by_cases ho : g.off = f.off
  · unfold State.fld State.setFld
    rw [ho, State.reg_setReg]
    rcases h with h | h
    · exact Fld.of_put_above f g hf h _ _
    · exact Fld.of_put_below f g hf h _ _
  · exact State.fld_setFld_ne s v ho

theorem State.reg_setFld_ne (s : State) {f : Fld} {o : Nat} (v : Nat) (h : o ≠ f.off) : (s.setFld f v).reg o = s.reg o :=
  State.reg_setReg_ne _ _ h

theorem Fld.of_lt (f : Fld) (w : W32) : f.of w < 2 ^ f.width := Nat.mod_lt _ (Nat.two_pow_pos _)

theorem State.fld_lt (s : State) (f : Fld) : s.fld f < 2 ^ f.width := f.of_lt _

/-- R10: a counter field adds and stops at its largest value. -/
theorem State.fld_count (s : State) (f : Fld) (h : f.fits) (n : Nat) :
    (s.count f n).fld f = min (s.fld f + n) (2 ^ f.width - 1) := by
  unfold State.count
  rw [State.fld_setFld s f h]
  have : 0 < 2 ^ f.width := Nat.two_pow_pos _
  exact Nat.mod_eq_of_lt (by omega)

theorem State.reg_count_ne (s : State) {f : Fld} {o : Nat} (n : Nat) (h : o ≠ f.off) : (s.count f n).reg o = s.reg o :=
  State.reg_setFld_ne s _ h

/-! ### Interrupt causes -/

/-- A message is the only thing that `msixFrom` adds. -/
theorem State.regs_msixFrom (s b : State) (off : Nat) : (s.msixFrom b off).regs = s.regs := by
  unfold State.msixFrom State.sendMsix
  split
  · split <;> rfl
  · rfl

@[simp] theorem State.regs_raise (s : State) (f : Fld) : (s.raise f).regs = (s.setFld f 1).regs := State.regs_msixFrom ..

@[simp] theorem State.reg_raise (s : State) (f : Fld) (o : Nat) : (s.raise f).reg o = (s.setFld f 1).reg o := by
  unfold State.reg; rw [State.regs_raise]

@[simp] theorem State.fld_raise (s : State) (f g : Fld) : (s.raise f).fld g = (s.setFld f 1).fld g := by
  unfold State.fld; rw [State.reg_raise]

/-- A raised cause of one bit reads 1. -/
theorem State.bit_raise (s : State) (f : Fld) (h : f.fits) (h1 : f.width = 1) : (s.raise f).bit f = true := by
  simp [State.bit, State.fld_setFld s f h, h1]

end Sys2Proof.Machine
end

