-- ==== Sys2Proof/Laws/Record.lean ====
section
/-!
SUPPORT. What a record leaves as it was (R372): beside the almanac itself only the causes of GLB, the alert bit of GLB_STATUS
and what is sent out may change.
-/

namespace Sys2Proof.Machine

theorem State.sameButRecord_refl (s : State) : s.sameButRecord s := ⟨fun _ _ _ => rfl, rfl⟩

theorem State.sameButRecord_trans {s t u : State} (h : s.sameButRecord t) (k : t.sameButRecord u) : s.sameButRecord u := by
  refine ⟨fun o h1 h2 => (k.1 o h1 h2).trans (h.1 o h1 h2), ?_⟩
  rw [k.2, h.2]

/-- A message is the only thing `msixFrom` changes. -/
theorem State.msixFrom_eq (s b : State) (off : Nat) : s.msixFrom b off = { s with out := (s.msixFrom b off).out } := by
  unfold State.msixFrom State.sendMsix
  split
  · split <;> rfl
  · rfl

theorem State.alm_msixFrom (s b : State) (off : Nat) : (s.msixFrom b off).alm = s.alm := by
  rw [State.msixFrom_eq]

@[simp] theorem State.alm_raise (s : State) (f : Fld) : (s.raise f).alm = s.alm := by
  unfold State.raise
  rw [State.alm_msixFrom]; rfl

/-- Raising a cause changes the block's INT_STATUS and what is sent out. -/
theorem State.raise_eq (s : State) (f : Fld) :
    s.raise f = { s with regs := (s.setFld f 1).regs, out := (s.raise f).out } := by
  unfold State.raise
  rw [State.msixFrom_eq]
  rfl

theorem State.raise_same (s : State) (f : Fld) (h : f.off = Reg.GLB_INT_STATUS.addr) : s.sameButRecord (s.raise f) := by
  refine ⟨fun o h1 _ => ?_, ?_⟩
  · rw [State.reg_raise, State.reg_setFld_ne s 1 (by rw [h]; exact h1)]
  · rw [State.raise_eq]

theorem State.setAlert_same (s : State) (v : Nat) : s.sameButRecord (s.setFld Reg.GLB_STATUS.alert v) :=
  ⟨fun _ _ h2 => State.reg_setFld_ne s v h2, rfl⟩

theorem State.alertFrom_same (s b : State) : s.sameButRecord (s.alertFrom b) := by
  unfold State.alertFrom
  dsimp only
  generalize (if s.alertOn = true then 1 else 0) = v
  refine State.sameButRecord_trans (State.setAlert_same s v) ?_
  split
  · exact ⟨fun _ _ _ => rfl, rfl⟩
  · exact State.sameButRecord_refl _

@[simp] theorem State.alm_alertFrom (s b : State) : (s.alertFrom b).alm = s.alm := by
  unfold State.alertFrom
  dsimp only
  generalize (if s.alertOn = true then 1 else 0) = v
  split <;> rfl

/-- A record changes nothing else. -/
theorem State.logSev_same (s : State) (v : Nat) (block : BitVec 8) (ev : AlmEvent) (index : Nat) (d : List Nat) :
    s.sameButRecord (s.logSev v block ev index d) := by
  unfold State.logSev
  dsimp only
  refine State.sameButRecord_trans ?_ (State.alertFrom_same _ s)
  split
  · exact State.sameButRecord_trans (⟨fun _ _ _ => rfl, rfl⟩ : State.sameButRecord s { s with alm := _ })
      (State.raise_same _ _ rfl)
  · exact ⟨fun _ _ _ => rfl, rfl⟩

/-- The almanac after a record. -/
theorem State.alm_logSev (s : State) (v : Nat) (block : BitVec 8) (ev : AlmEvent) (index : Nat) (d : List Nat) :
    (s.logSev v block ev index d).alm =
      { s.alm with
        seq := s.alm.seq + 1
        ring := ({ seq := s.alm.seq + 1, ft := BitVec.ofNat 64 s.ft, block := block, severity := v, event := ev,
                   epoch := s.reg Reg.CFG_EPOCH.addr, memEpoch := s.reg Reg.GLB_MEM_ERR_EPOCH.addr, index := index,
                   detail := d } :: s.alm.ring).take 65536
        unacked := some (max v (s.alm.unacked.getD 0)) } := by
  unfold State.logSev
  dsimp only
  rw [State.alm_alertFrom]
  split
  · rw [State.alm_raise]
  · rfl

theorem State.log_same (s : State) (block : BitVec 8) (ev : AlmEvent) (index : Nat) (d : List Nat) :
    s.sameButRecord (s.log block ev index d) := State.logSev_same ..

/-- A register-access event changes nothing else (R7). -/
theorem State.regAccess_same (s : State) (off : Nat) : s.sameButRecord (s.regAccess off) :=
  State.sameButRecord_trans (State.log_same ..) (State.raise_same _ _ rfl)

end Sys2Proof.Machine
end

