-- ==== Sys2Proof/Laws/Receive.lean ====
section
/-!
SUPPORT. The wrappers under which a command's own rule runs: a frame that its port takes in, a write that reaches its
register, an instruction that issues.
-/

namespace Sys2Proof.Machine

/-- A frame that is taken in runs its rule. -/
theorem State.consume_of_received {s u : State} {p : Port} {f : Frame} (h : s.received p f = some u) (g : State → State) :
    s.consume p f g = g u := by
  unfold State.received at h
  unfold State.consume
  split at h
  · rename_i v e
    rw [e]
    simp at h
    subst h
    rfl
  · cases h

/-- A routed frame that is taken in runs the rule Table 6-1 names. -/
theorem State.routed_of_parked {s u : State} {p : Port} {f : Frame} {stamp : Stamp} {k : Nat}
    (h : s.parked p f stamp = some (u, k)) (mine onward : State → Nat → State) :
    s.routed p f stamp mine onward =
      if !f.dclass then onward u k else if u.mine f then mine u k else (u.freeBuf k).noPath p f := by
  unfold State.parked at h
  unfold State.routed
  split at h
  · rename_i v e
    rw [e]
    simp only [Option.some.injEq] at h
    simp [h]
  · cases h

/-- A write that reaches a register which is no configuration has the effect of its rule. -/
theorem State.regWrite_of_writable {s : State} {off : Nat} {v : W32} (h : s.writable off v = true)
    (hc : isConfig off = false) (g : State → State) : s.regWrite off v g = g s := by
  simp [State.writable] at h
  simp [State.regWrite, h.1.1, h.1.2, h.2, hc]

/-- A write that reaches a configuration field, with local_write_en 1 (R347). -/
theorem State.regWrite_config {s : State} {off : Nat} {v : W32} (h : s.writable off v = true) (hc : isConfig off = true)
    (hl : s.bit Reg.CFG_CTL.local_write_en = true) (g : State → State) : s.regWrite off v g = (g s).noteConfig off v := by
  simp [State.writable] at h
  simp [State.regWrite, h.1.1, h.1.2, h.2, hc, State.configWrite, hl]

/-- The instruction at a thread's pc issues. -/
theorem State.issue_of_at {s : State} {t : Nat} {o : OryOp} {p : Prog} {w k : W32} (h : s.at_ t o p w k)
    (go : Prog → W32 → W32 → State) : s.issue t o go = go p w k := by
  obtain ⟨h1, h2, h3, h4⟩ := h
  simp [State.issue, h1, h2, h3, h4]

/-- A command that its transport may run reaches its rule (R365). -/
theorem State.archCmd_run {s : State} {tp : Transport} {op : BitVec 16} (h : s.archWay tp op = .run) (rule : State → State) :
    s.archCmd tp op rule = rule s := by
  simp [State.archCmd, h]

/-- A command that R365 refuses is answered Unsupported, with 0xFE. -/
theorem State.archCmd_refused {s : State} {tp : Transport} {op : BitVec 16} (h : s.archWay tp op = .refused)
    (rule : State → State) : s.archCmd tp op rule = s.archReply tp op rcUnsupported [0xFE] := by
  simp [State.archCmd, h]

/-- An SPDM request in its turn reaches its rule (R390). -/
theorem State.spdmIn_of_ready {s : State} {code stage : Nat} {req : List Byte} (h : s.spdmReady code stage req)
    (rule : State → State) : s.spdmIn code stage req rule = rule s := by
  obtain ⟨h1, h2, h3, h4, h5, h6, h7⟩ := h
  unfold State.spdmIn
  rw [if_neg (by simp [h1, h2]), if_neg (by omega), if_neg h4, if_neg (by simp [h5]), if_neg (by simp [h6]), if_neg (by omega)]

end Sys2Proof.Machine
end

