-- ==== Sys2Proof/Tests/Slice0.lean ====
section
/-!
SUPPORT. Tests: ill-formed commands that the checks refuse, worked examples of the spec, and for every statement that has
hypotheses a witness that meets them. Where a hypothesis rests on a value the model leaves open (a signature that verifies, a
chain of certificates), the witness takes that value as its premise.
-/

section
set_option Elab.async false
set_option linter.unusedSimpArgs false

namespace Sys2Proof.Tests

open Sys2Proof.Machine

/-- The command answers a next state. -/
def ran (o : Outcome) : Bool :=
  match o with
  | .next _ => true
  | _ => false

/-- The command answers a next state in which something holds. -/
def ranTo (o : Outcome) (k : State → Bool) : Bool :=
  match o with
  | .next t => k t
  | _ => false

/-- A device that runs: out of reset, LOCKED, boot 3, latches clear, configuration writes allowed, port 5 UP. -/
def live : State :=
  { State.reset with
    eph := { state := .locked }
    trn := { dark := false }
    links := [(5, { state := .up })]
    pwr := { porst := false, perst := false, resetting := false } }
    |>.setFld Reg.GLB_STATUS.boot 3 |>.setReg Reg.TRN_UMBRA_STAT.addr 0 |>.setFld Reg.CFG_CTL.local_write_en 1

/-- The same with a field of a register set. -/
def liveF (f : Fld) (v : Nat) : State := live.setFld f v

/-- The same at an FT. -/
def at_ (s : State) (ft : Nat) : State := { s with eph := { s.eph with acc := BitVec.ofNat 112 (ft * 2 ^ 48) } }

/-- A written word reaches the rule of a command register; of a configuration register. -/
def cmdReg (s : State) (off : Nat) (v : W32) : Bool := s.writable off v && !isConfig off
def cfgReg (s : State) (off : Nat) (v : W32) : Bool := s.writable off v && isConfig off && s.bit Reg.CFG_CTL.local_write_en

/-! ### Well-formedness: an ill-formed command for each check -/

theorem test_wf_accessSize : Instr.wf (.registerWrite .host 0 3 0) = false ∧ Instr.wf (.registerWrite .host 0 8 0) = true := by decide
theorem test_wf_aperture : Instr.wf (.apertureRead .host 0xFFFFFF 2 { }) = false ∧ Instr.wf (.apertureRead .host 0xFFFFFE 2 { }) = true := by
  decide
theorem test_wf_wordOff : Instr.wf (.highWordWrite .host 6 0) = false ∧ Instr.wf (.highWordWrite .host 8 0) = true := by decide
theorem test_wf_payload (bs : List Byte) (h : 65024 < bs.length) : Instr.wf (.hello 5 { payload := bs }) = false := by
  show Frame.wf { payload := bs } = false
  simp [Frame.wf, Nat.not_le.mpr h]
theorem test_wf_frame : Instr.wf (.hello 5 { scales := List.replicate 8 0 }) = false ∧
    Instr.wf (.hello 5 { scales := List.replicate 7 0, sideband := true }) = false ∧ Instr.wf (.hello 5 { }) = true := by decide +kernel
theorem test_wf_heater : Instr.wf (.heaterUpdate 0 [] [0, 0, 0, 0]) = false := by decide
theorem test_wf_crosstalk : Instr.wf (.xtRefreshPeriodEnd 0 []) = false := by decide
theorem test_wf_line : Instr.wf (.lineLockLost 0 18) = false ∧ Instr.wf (.lineLockLost 0 17) = true := by decide
theorem test_wf_element : Instr.wf (.elementLockLost 18 0) = false ∧ Instr.wf (.elementLockLost 17 144) = false ∧
    Instr.wf (.elementLockLost 17 143) = true := by decide
theorem test_wf_stack : Instr.wf (.engineRestore 12 0 0) = false ∧ Instr.wf (.engineRestore 11 0 0) = true := by decide
theorem test_wf_alist : Instr.wf (.setA 0 0 [] { }) = false := by decide
theorem test_wf_lineBytes : Instr.wf (.accessionAdd 0 0 0 0 [] [] { }) = false ∧
    Instr.wf (.merge 0 0 0 0 (List.replicate 256 0) [1] { }) = false ∧
    Instr.wf (.merge 0 0 0 3 (List.replicate 256 0) [] { }) = true := by decide +kernel
theorem test_wf_lanes : Instr.wf (.writeLanes 0 0 (List.replicate 513 0) { }) = false := by decide +kernel
theorem test_wf_atomic : Instr.wf (.accessionAtomic 4 0 0 0 { }) = false ∧ Instr.wf (.accessionAtomic 8 0 0 0 { }) = true := by decide
theorem test_wf_channel : Instr.wf (.stackWriteAccepted 384) = false := by decide
theorem test_wf_accessWord : Instr.wf (.accessEntryWrite 0 3 0) = false := by decide
theorem test_wf_group : Instr.wf (.budgetRefill 101) = false := by decide
theorem test_wf_healthElem : Instr.wf (.expulsionComplete 1 68) = false ∧ Instr.wf (.expulsionComplete 6 0) = false ∧
    Instr.wf (.albedoInput 1 67 19) = false ∧ Instr.wf (.albedoInput 1 67 18) = true := by decide
theorem test_wf_governor : Instr.wf (.governorRun [] 0 []) = false := by decide
theorem test_wf_temperature : Instr.wf (.temperatureRead [] []) = false := by decide
theorem test_wf_sensor : Instr.wf (.sensorSample [] []) = false := by decide
theorem test_wf_cxl : Instr.wf (.cxlMemRead 32 { }) = false ∧ Instr.wf (.cxlMemWrite 64 [] { }) = false := by decide
theorem test_wf_perst : Instr.wf (.perstNDeassert 0 0 false) = false ∧ Instr.wf (.perstNDeassert 4 0 false) = false ∧
    Instr.wf (.perstNDeassert 3 3 false) = false ∧ Instr.wf (.perstNDeassert 3 2 true) = true := by decide
theorem test_wf_pmuSource : Instr.wf (.pmuCounterOverflow (.ledger 288 0) 1 none) = false ∧
    Instr.wf (.pmuCounterOverflow (.ledger 287 5) 1 none) = false := by decide

/-! ### Worked examples of the spec -/

/-- Table 9-4: four contributions of element 165 on A = 115. -/
theorem test_convert : convert 45 137 115 = (188743680, false) ∧ convert (-77) 136 115 = (-161480704, false) ∧
    convert 7 113 115 = (2, false) ∧ convert (-20) 112 115 = (-2, false) := by decide
/-- The residue check's example (chapter 9): a fault in bit 20 of the adder's output is found and the recompute passes. -/
theorem test_residue : laneRes (intLane 188743680) = 75 ∧
    checkedAdd (intLane 188743680) 75 (-161480704) 0 (BitVec.ofNat 64 (2 ^ 20)) 0 = (intLane 27262976, 161, true, false) := by decide
/-- The output exponent of R203's example, of the block's largest and smallest elements and element 165. -/
theorem test_selectBlock : (selectBlock [(1509949440, 115), (-2147483648, 115), (41943040, 115)] 8) = (139, [90, -128, 2], 0) := by
  decide +kernel
/-- The bucket of a node (chapter 6): node 0x4D2A under m = 0x9E37. -/
theorem test_bucket : catBucket 0x9E37 0x4D2A = 0x800 := by decide
/-- The register addresses of chapter 20's example. -/
theorem test_addresses : Reg.LNK_FENCE.addr 223 = 0x040DF010 ∧ Reg.EPH_PORT_STAT.addr 223 = 0x01010DFC ∧
    Reg.OPT_LINE_STAT.addr 13 15 = 0x020D03F0 ∧ Reg.SCH_GATE_STATE.addr 223 = 0x0A5BE014 ∧ Reg.CNJ_TILE_STAT.addr 45 = 0x0C0004B4 := by
  decide
/-- The flag line of chapter 11's example: a WINDOW partition on every stack from 4 GiB up. -/
theorem test_windowDpa : (((live.setReg (Reg.STK_PART.addr 0) (BitVec.ofNat 32 (2 + 4095 * 64))).setReg (Reg.STK_PART.addr 1) 64).setReg
    (Reg.STK_PART.addr 2) 512).windowDpa 0x800000 = 0x61000AA000 := by decide +kernel

/-! ### Witnesses: the queue, the counter, registers -/

theorem witness_EmptyQueueTicks : (State.reset.pending = [] ∧ State.reset.held = true) ∧
    (live.pending = [] ∧ live.held = false ∧ live.pwr.refclkBad = false) ∧
    ({ live with pwr.refclkBad := true } : State).pwr.refclkBad = true := by decide +kernel

theorem witness_CommandsLeaveQueue : ran (exec .meterRefillTick live) = true ∧ ran (exec (.identify .mailbox) State.reset) = true := by
  decide +kernel

theorem witness_OnlyAbsentMemoryStops : ∃ c : Instr, (∀ r off size io, c ≠ .apertureRead r off size io) ∧
    ∀ dpa sub b d io, c ≠ .accessionAtomic dpa sub b d io := ⟨.lbLeak, nofun, nofun⟩

theorem witness_ClampsHold : State.reset.clamped ∧ ran (step State.reset) = true ∧ ran (step live) = true := by
  unfold State.clamped; decide +kernel

theorem witness_CounterMovers : ∃ c : Instr, (∀ p f r, c ≠ .timeSync p f r) ∧ (∀ x, c ≠ .ppsInEdge x) ∧ c ≠ .porstNAssert ∧
    c ≠ .supplyLoss ∧ ran (exec c live) = true := ⟨.pdelayExchangeStart, nofun, nofun, nofun, nofun, by decide +kernel⟩

theorem witness_BadWidthDiscarded : Requester.host ≠ .i3c ∧ live.answers 9 = true ∧ ((2 : BitVec 4) ≠ 4 ∨ 9 % 4 ≠ 0) ∧
    ((4 : BitVec 4) ≠ 4 ∨ 9 % 4 ≠ 0) ∧ ((8 : BitVec 4) ≠ 4 ∨ 8 % 4 ≠ 0) := by decide +kernel

def plainOff : Nat := Reg.PMU_CTL.addr

theorem witness_RegisterStored : plainOff % 4 = 0 ∧ live.writable plainOff 3 = true ∧ (regRow? plainOff).isSome = true ∧
    stageAt plainOff = none ∧ isLow plainOff = false ∧ isHigh plainOff = false ∧ isIntStatus plainOff = false ∧
    isIntStatus (plainOff - 4) = false ∧ plainOff ≠ Reg.GLB_CTL.addr ∧ isConfig plainOff = false ∧ accessAt plainOff = none ∧
    plainOff / 0x1000000 ∈ [0x08, 0x0C, 0x12, 0x19] := by decide +kernel

def configOff : Nat := Reg.HLT_CTL.addr
def free : State := { live with eph := { } }

theorem witness_ConfigurationWrite : isConfig configOff = true ∧ free.eph.state.drives = false ∧ isMeterReg configOff = false ∧
    grantAt configOff = none ∧ free.writable configOff 1 = true ∧ configOff ≠ Reg.SCH_VC_WEIGHT_A.addr ∧
    configOff ≠ Reg.SCH_VC_WEIGHT_B.addr ∧ free.bit Reg.CFG_CTL.local_write_en = true ∧
    (free.setFld Reg.CFG_CTL.local_write_en 0).bit Reg.CFG_CTL.local_write_en = false ∧
    (free.setFld Reg.CFG_CTL.local_write_en 0).writable configOff 1 = true := by decide +kernel

/-- The host has read the low word of FT, and has written a low word. -/
def latched : State :=
  { live with latches := [(latchKey .host 0x01000008, 7)], heldLow := [(latchKey .host 0x01000030, 9)] }

theorem witness_RegisterPairs : isLow 0x01000008 = true ∧ Requester.host ≠ .i3c ∧ latched.answers 0x01000008 = true ∧
    latched.answers 0x0100000C = true ∧ isLow 0x0100000C = false ∧ isHigh 0x0100000C = true ∧
    latched.latches.get (latchKey .host (0x0100000C - 4)) = some 7 ∧ live.latches.get (latchKey .host (0x0100000C - 4)) = none ∧
    stageAt 0x01000030 = none ∧ isLow 0x01000030 = true ∧ stageAt 0x01000034 = none ∧ isLow 0x01000034 = false ∧
    isHigh 0x01000034 = true ∧ latched.heldLow.get (latchKey .host (0x01000034 - 4)) = some 9 ∧
    live.heldLow.get (latchKey .host (0x01000034 - 4)) = none := by decide +kernel

theorem witness_ReadsAndInterruptStatus : (8 % 4 = 0 ∧ isLow 8 = false ∧ isHigh 8 = false ∧ Requester.host ≠ .i3c ∧
    live.answers 8 = true ∧ State.reset.answers 0x01000000 = false ∧ isLow 0x01000000 = false ∧ isHigh 0x01000000 = false ∧
    (live.setFld Reg.GLB_CTL.i3c_en 0).bit Reg.GLB_CTL.i3c_en = false) ∧
    isIntStatus Reg.EPH_INT_STATUS.addr = true ∧ live.writable Reg.EPH_INT_STATUS.addr 1 = true ∧
    isConfig Reg.EPH_INT_STATUS.addr = false := by decide +kernel

theorem witness_PhysicalAddresses : (11 < 12 ∧ 0xBFFFFFFFF < 0xC00000000 ∧ 11 * 0xC00000000 + 0xBFFFFFFFF = 0x8FFFFFFFFF) ∧
    0x8FFFFFFFFF < 0x9000000000 ∧ 0x9000000000 ≤ (0x9000000000 : BitVec 40).toNat ∧
    (live.answers Reg.STK_CTL.addr = true ∧
      ((live.setFld Reg.STK_CTL.aperture_en 1).setFld Reg.STK_APERTURE_BASE.base 0x9000).bit Reg.STK_CTL.aperture_en = true ∧
      0x9000000000 < ((live.setFld Reg.STK_CTL.aperture_en 1).setFld Reg.STK_APERTURE_BASE.base 0x9000).apertureDpa 0 + 1) ∧
    ((live.setReg (Reg.STK_PART.addr 0) 0x44).setReg (Reg.STK_PART.addr 2) 1).ringFits 0 = true := by decide +kernel

/-! ### Witnesses: fabric time -/

/-- A follower in LOCKED whose last sample was at 0 FT. -/
def follower : State := { (live.setFld Reg.EPH_CTL.servo_en 1).setFld Reg.EPH_STEP_THRESH.value 10 with
  eph := { state := .acquire, lastRx := some 0 } }

theorem witness_ServoSample : follower.eph.state ≠ .locked ∧ follower.eph.state ≠ .free ∧
    (196608 : Int).natAbs ≤ follower.fld Reg.EPH_STEP_THRESH.value * 2 ^ 16 ∧ follower.bit Reg.EPH_CTL.servo_en = true ∧
    follower.eph.lastRx = some 0 ∧ sar (1600000 * 2 ^ 16 - 0) 16 ≠ 0 := by decide +kernel

/-- R48's worked example: e = 196608, T = 1,600,000, ki 4, kp 1, integ -1,000,000,000. -/
def servoExample : State :=
  { ((follower.setFld Reg.EPH_SERVO.ki_shift 4).setFld Reg.EPH_SERVO.kp_shift 1) with
    eph := { state := .acquire, lastRx := some 0, integ := -1000000000 } }

theorem test_servo : (servoExample.sample 196608 (1600000 * 2 ^ 16)).eph.integ = -1032985348 ∧
    (servoExample.sample 196608 (1600000 * 2 ^ 16)).eph.adj = -1296868138 := by decide +kernel

def sync (n : BitVec 8) : Frame := { ftype := ftTime, opcode := n, payload := List.replicate 32 0 }
/-- Port 5 is the parent, its delay is known. -/
def parented : State :=
  { (live.setReg Reg.EPH_PARENT01.addr (5 + 0x8000)) with
    ptime := [(5, { valid := true, lastSync := some 0, req := some (0, some 0) })], eph := { state := .locked, parent := some (5, 0) } }
/-- The same state after a TIME_SYNC of port p. -/
def synced (s : State) (p : Port) : State := (s.setTime p { s.time p with lastSync := some s.ft }).refreshParent

theorem witness_TimeFrames : (live.received 5 (sync tfSync)).isSome = true ∧ tfState (sync tfSync) ≤ 1 ∧
    ((parented.received 5 (sync tfSync)).any fun u => (u.time 5).valid &&
      (synced u 5).eph.parent.map (·.1) == some (5 : Port) && (synced u 5).fld Reg.EPH_CTL.role == 0 &&
      !(synced u 5).bit Reg.EPH_CTL.relay_en) = true ∧
    ((({ parented with eph := { state := .locked } } : State).setReg Reg.EPH_PARENT01.addr 0).received 5 (sync tfSync)).any
      (fun u => (u.time 5).valid && (synced u 5).eph.parent.map (·.1) != some (5 : Port)) = true ∧
    ((parented.received 5 (sync tfPdelayResp)).any fun u => (u.time 5).req == some (tfSeq (sync tfPdelayResp), some 0)) = true ∧
    (live.received 5 (sync tfPdelayReq)).isSome = true ∧ (live.received 5 (sync 0)).isSome = true ∧
    (live.received 5 (sync 4)).isSome = true ∧ 3 < (4 : BitVec 8).toNat := by decide +kernel

theorem witness_TimeIntervalsAndStates : (live.setFld Reg.EPH_CTL.pdelay_en 1).bit Reg.EPH_CTL.pdelay_en = true ∧
    ((at_ parented 64000).time 5).req = some (0, some 0) ∧ 0 + 64000 * 2 ^ 16 ≤ (at_ parented 64000).ft16 ∧
    ((live.setFld Reg.EPH_CTL.role 1).fld Reg.EPH_CTL.role = 1 ∧ (live.setFld Reg.EPH_CTL.role 1).eph.state = .locked) ∧
    ((at_ parented 1).time 5).lastSync = some 0 ∧
    0 + 3 * ((at_ parented 1).setFld Reg.EPH_SYNC_INTERVAL.value 0).fld Reg.EPH_SYNC_INTERVAL.value <
      ((at_ parented 1).setFld Reg.EPH_SYNC_INTERVAL.value 0).ft ∧
    (live.eph.state = .locked ∧ live.fld Reg.EPH_CTL.role = 0 ∧
      (live.setFld Reg.EPH_SYNC_INTERVAL.value 0).eph.lastSample +
        3 * (live.setFld Reg.EPH_SYNC_INTERVAL.value 0).fld Reg.EPH_SYNC_INTERVAL.value ≤ live.ft) ∧
    (({ live with eph := { state := .holdover } } : State).eph.state = .holdover ∧
      (live.setReg Reg.EPH_HOLDOVER_LIMIT_LO.addr 0).eph.holdoverAt +
        ((live.setReg Reg.EPH_HOLDOVER_LIMIT_LO.addr 0).setReg (Reg.EPH_HOLDOVER_LIMIT_LO.addr + 4) 0).pair
          Reg.EPH_HOLDOVER_LIMIT_LO.value ≤ live.ft) := by decide +kernel

def source : State := { live.setFld Reg.EPH_CTL.role 1 with eph := { state := .acquire, ppsExpected := some 0 } }
def fresh : State := { (live.setFld Reg.EPH_CTL.role 1).setFld Reg.EPH_CTL.step_en 1 with eph := { todSet := true } }
/-- A pulse of 1 us in 10 us that is armed, and one that drives its pin. -/
def pulsed (active : Bool) (period : Nat) : State :=
  { live with pulses := [(2, { armed := true, period := period, width := 16000, active := active })] }
def pulseRegs : State := (live.setReg (Reg.EPH_PULSE_PERIOD_LO.addr 2) 16000).setReg (Reg.EPH_PULSE_WIDTH.addr 2) 16

theorem witness_PpsAndPulses : live.fld Reg.EPH_CTL.role = 0 ∧ (source.fld Reg.EPH_CTL.role = 1 ∧ source.eph.todSet = false ∧
      source.eph.ppsExpected = some 0) ∧ (fresh.fld Reg.EPH_CTL.role = 1 ∧ fresh.eph.todSet = true ∧
      fresh.bit Reg.EPH_CTL.step_en = true ∧ fresh.eph.leftAcquire = false) ∧
    (0 + 16000 < (at_ source 16001).ft ∧ (at_ source 16001).eph.ppsExpected = some 0 ∧ (at_ source 16001).eph.state ≠ .locked) ∧
    (pulseRegs.writable (Reg.EPH_PULSE_CTL.addr 2) 1 = true ∧ isConfig (Reg.EPH_PULSE_CTL.addr 2) = false ∧
      16000 ≤ (pulseRegs.pulseParams 2).2.1 ∧ 16 ≤ (pulseRegs.pulseParams 2).2.2 ∧
      (pulseRegs.pulseParams 2).2.2 < (pulseRegs.pulseParams 2).2.1) ∧
    (((pulsed false 160000).pulse 2).armed = true ∧ ((pulsed false 160000).pulse 2).nextEdge ≤ (pulsed false 160000).ft ∧
      (pulsed false 160000).eph.state.drives = true) ∧
    (((pulsed true 0).pulse 2).active = true ∧
      ((at_ (pulsed true 0) 16000).pulse 2).nextEdge + ((at_ (pulsed true 0) 16000).pulse 2).width ≤ (at_ (pulsed true 0) 16000).ft) ∧
    (((pulsed false 0).pulse 2).period = 0 ∧ ((pulsed false 0).pulse 2).nextEdge < (at_ (pulsed false 0) 1).ft ∧
      ({ pulsed false 0 with eph := { } } : State).eph.state.drives = false) := by decide +kernel

/-- A shadow bank of one entry, and an activation that is due. -/
def oneEntry : Bank := { ent := [(0, 1600)] }
def due : State := { live with acts := [(0, { pending := true, tAct := 0 })], calShadow := oneEntry }

theorem witness_ArmingAndFiring : ((live.act 1).pending = false ∧
      ((live.fld Reg.EPH_ACT_LEAD.value : Int) ≤ (live.fld Reg.EPH_ACT_LEAD.value : Int) - live.ft) ∧ oneEntry.complete 1 = true ∧
      ({ } : Bank).boundary (live.fld Reg.EPH_ACT_LEAD.value) = true) ∧
    ((0 : Int) - live.ft < live.fld Reg.EPH_ACT_LEAD.value) ∧
    live.eph.state.drives = true ∧ live.nextDue = none ∧ due.nextDue = some (0, { pending := true, tAct := 0 }) ∧
    due.acts.length = 0 + 1 := by decide +kernel
/-- The recomputation of the digests leaves the activations, where no amendment is pending. -/
theorem reconfigured_nextDue (s b : State) (h : s.cfg.pendingAmend = none) : (s.reconfigured b).nextDue = s.nextDue := by
  unfold State.reconfigured State.dropAmendment
  simp only [State.setFld_cfg, h]
  split
  · split <;> rfl
  · rfl
theorem witness_fires : (due.fireOne 0 { pending := true, tAct := 0 }).nextDue = none := by
  have h : (due.fireCal 0 false).cfg.pendingAmend = none := by decide +kernel
  have k : (due.fireCal 0 false).nextDue = none := by decide +kernel
  have e : due.fireOne 0 { pending := true, tAct := 0 } = (due.fireCal 0 false).reconfigured due := by
    have l : due.eph.lockedAt = 0 := by decide +kernel
    simp [State.fireOne, l, objAmend, objCal]
  rw [e, reconfigured_nextDue _ _ h, k]

/-! ### Witnesses: optical lanes -/

/-- A state with engine 0 as given, and line 5 of it. -/
def withEngine (e : Engine) : State := { live with opt := { engines := [(0, e)], lines := [(5, { duty := some 5 })] } }
def withLine (l : Line) : State := { live with opt := { engines := [(0, { calState := 2 })], lines := [(5, l)] } }
/-- Both rings of line 5 are locked. -/
def ringsLocked (s : State) : State := (s.setHeater 0 5 { locked := true }).setHeater 0 23 { locked := true }

theorem crosstalk_registers : ∀ n, n < 648 → (withEngine { calState := 2 }).reg (Reg.OPT_XT_ACTIVE.addr 0 n) = 0 := by
  decide +kernel
theorem witness_noCrosstalk (e : Nat) (h : e < 1296) : (withEngine { calState := 2 }).xtActive 0 e = 0 := by
  have k := crosstalk_registers (e / 2) (by omega)
  simp [State.xtActive, k, signed]
theorem witness_EnginesAndLines : ((withEngine { calState := 2 }).engine 0).calState = 2 ∧
    ((withEngine { calState := 2 }).setFld (Reg.OPT_CTL.xt_refresh_en 0) 1).bit (Reg.OPT_CTL.xt_refresh_en 0) = true ∧
    ((0x10000 : W32).getLsbD 16 = true ∧ cfgReg live (Reg.OPT_XT_CTL.addr 0) 0x10000 = true ∧
      (List.range 36).all (fun j => decide ((live.storeFields (Reg.OPT_XT_CTL.addr 0) 0x10000).xtShadow 0 (37 * j) = 0)) = true) ∧
    ((withEngine { calState := 1 }).engine 0).calState = 1 ∧
    ((0x100 : W32).getLsbD 8 = true ∧ cfgReg live (Reg.OPT_CTL.addr 0) 0x100 = true) ∧
    (((withLine { locked := true }).line 0 5).locked = true ∧ (withLine { locked := true }).lineGood 0 5 = false ∧
      ((withLine { locked := true }).line 0 5).duty = none ∧ (withLine { locked := true }).cutoverUses 0 5 = false) ∧
    (((withLine { locked := true, duty := some 5 }).line 0 5).duty = some 5 ∧
      ((withLine { locked := true, duty := some 5 }).link (portOf 0 5)).state = .up ∧
      ((withLine { locked := true, duty := some 5 }).link (portOf 0 5)).held = none ∧
      (withLine { locked := true, duty := some 5 }).lineGood 0 5 = false) ∧
    ((ringsLocked (withLine { })).line 0 5).locked = false ∧ (ringsLocked (withLine { })).lineGood 0 5 = true ∧
    (((live.setLink 5 { held := some 0 }).link 5).held = some 0 ∧
      ((live.setLink 5 { held := some 0 }).setFld (Reg.OPT_LOCK_CFG.hold_limit 0) 1).fld (Reg.OPT_LOCK_CFG.hold_limit (engineOf 5)) = 1 ∧
      1600000 ≤ (at_ live 1600000).ft) := by decide +kernel

/-- A cut-over of duty 5 from line 5 to spare 16. -/
def cut : CutOver := { duty := 5, source := 5, target := 16, cause := .manual, start := 0, tSwitch := 0 }
/-- A LINK_CTL frame of an opcode for duty 5 and line 16. -/
def ctl (n : BitVec 8) : Frame := { ftype := ftLinkCtl, opcode := n, w4 := 5 + 16 * 2 ^ 9 }

theorem witness_CutoverMessages : ((live.received 5 (ctl opLaneMoveReq)).isSome = true ∧ (ctl opLaneMoveReq).laneDuty = dutyOf 5) ∧
    [opLaneAck, opLaneReady, opLaneMark, opLaneAbort].all (fun n =>
      ((withEngine { cutover := some cut }).received 5 (ctl n)).any fun u => (u.cutoverFor 5 (ctl n)).any fun c =>
        (ctl n).laneTo == c.target && !c.marked) = true := by decide +kernel

/-- A trigger for duty 5 waits, and spare 16 is ready; the same without the trigger. -/
def spareState (ts : List MoveTrigger) : State :=
  { live with opt := { engines := [(0, { calState := 2, waiting := ts })]
                       lines := [(5, { duty := some 5 }), (16, { usable := true, locked := true })] } }
def goWord : W32 := 0x45
def restoreWord : W32 := 0x65
/-- Duty 5 is on spare 16, and its own line is free and locked. -/
def onSpare : State :=
  { live with opt := { engines := [(0, { calState := 2 })], lines := [(5, { locked := true }), (16, { duty := some 5 })] } }

theorem witness_CutoverTimesAndMoves :
    (((spareState [⟨5, none, .leaf⟩]).engine 0).cutover = none ∧
      ((spareState [⟨5, none, .leaf⟩]).engine 0).waiting = [⟨5, none, .leaf⟩] ∧ (spareState []).carrier (portOf 0 5) = some 5 ∧
      (spareState []).targetOf 0 ⟨5, none, .leaf⟩ = some 16) ∧
    ((withEngine { cutover := some cut }).engine 0).cutover = some cut ∧ cut.ownReady = false ∧ cut.marked = false ∧
    cut.leafReady = false ∧ cut.tSwitch ≤ live.ft + 1600000 ∧
    (({ cut with leafReady := true, ownReady := true } : CutOver).marked = false ∧ cut.tSwitch ≤ live.ft) ∧
    (cut.cause = .manual ∧ cut.tSwitch + 1600000 ≤ (at_ live 1600000).ft) ∧
    (let s := at_ (withLine { duty := some 5, retryFrom := some 0 }) 16000000000
     (s.line 0 5).retryFrom = some 0 ∧ (s.line 0 5).duty = some 5 ∧ (s.line 0 5).fade ≠ .noSpare ∧ 0 + 16000000000 ≤ s.ft) ∧
    (let u := (spareState []).storeFields (Reg.OPT_LANE_MOVE.addr 0) goWord
     goWord.getLsbD 6 = true ∧ cmdReg (spareState []) (Reg.OPT_LANE_MOVE.addr 0) goWord = true ∧ goWord.getLsbD 5 = false ∧
      goWord.getLsbD 4 = false ∧ u.carrier (portOf 0 (BitVec.ofNat 4 goWord.toNat)) = some 5 ∧
      u.targetOf 0 ⟨BitVec.ofNat 4 goWord.toNat, some 16, .manual⟩ = some 16 ∧ u.moving 0 (BitVec.ofNat 4 goWord.toNat) = false) ∧
    (let u := onSpare.storeFields (Reg.OPT_LANE_MOVE.addr 0) restoreWord
     restoreWord.getLsbD 6 = true ∧ cmdReg onSpare (Reg.OPT_LANE_MOVE.addr 0) restoreWord = true ∧ restoreWord.getLsbD 5 = true ∧
      u.carrier (portOf 0 (BitVec.ofNat 4 restoreWord.toNat)) = some 16 ∧
      u.targetOf 0 ⟨BitVec.ofNat 4 restoreWord.toNat, some 5, .manual⟩ = some 5 ∧
      u.moving 0 (BitVec.ofNat 4 restoreWord.toNat) = false) ∧
    (live.storeFields (Reg.OPT_LANE_MOVE.addr 0) goWord).carrier (portOf 0 (BitVec.ofNat 4 goWord.toNat)) = none := by decide +kernel

/-! ### Witnesses: the transit plane -/

/-- A bank whose entry 0 names permutation 1 for duty plane 0. -/
def naming : State := { live with calShadow := { ent := [(0, 1600 + 2 ^ 32)] } }
/-- Permutation 1 sends fibre 0 to itself: bytes are valid << 7 or the like, so a word of ones is not a permutation. -/
def badPerm : State := live.setReg (Reg.TRN_PERM.addr 8) 0xFFFFFFFF
def commitWord : W32 := 0x1001
/-- Words 0 to 6 of shadow entry 0 are written: a duration of 1,600 FT; of 1,599 FT. -/
def shadowWords (d : W32) : State := live.setReg (Reg.TRN_CAL_SHADOW.addr 0) d
def shadowEntry (s : State) : BitVec 256 := (List.range 8).foldl (fun (n : BitVec 256) w =>
  n ||| (BitVec.setWidth 256 ((s.storeFields (Reg.TRN_CAL_SHADOW.addr 7) 0).reg (Reg.TRN_CAL_SHADOW.addr w)) <<< (32 * w))) 0

theorem witness_PermutationsAndCalendar :
    (cmdReg live (Reg.TRN_PERM.addr 8) 0 = true ∧ live.permUsed 1 = false ∧ naming.permUsed 1 = true ∧
      cmdReg naming (Reg.TRN_PERM.addr 8) 0 = true ∧ cmdReg live (Reg.TRN_PERM.addr 0) 0 = true ∧
      cmdReg live (Reg.TRN_PERM.addr (8 * 4095 + 7)) 0 = true ∧ live.permUsed 4095 = false) ∧
    (commitWord.getLsbD 12 = true ∧ cmdReg live Reg.TRN_PERM_COMMIT.addr commitWord = true ∧ commitWord.toNat % 4096 = 1 ∧
      (live.storeFields Reg.TRN_PERM_COMMIT.addr commitWord).permUsed 1 = false ∧
      (live.storeFields Reg.TRN_PERM_COMMIT.addr commitWord).permOk 1 = true ∧
      cmdReg badPerm Reg.TRN_PERM_COMMIT.addr commitWord = true ∧
      (badPerm.storeFields Reg.TRN_PERM_COMMIT.addr commitWord).permUsed 1 = false ∧
      (badPerm.storeFields Reg.TRN_PERM_COMMIT.addr commitWord).permOk 1 = false) ∧
    (cmdReg live (Reg.TRN_CAL_SHADOW.addr 7) 0 = true ∧ cmdReg due (Reg.TRN_CAL_SHADOW.addr 7) 0 = true ∧
      ({ live with acts := [(objCal, { pending := true })] } : State).shadowLocked objCal = true ∧
      (shadowWords 1599).shadowLocked objCal = false ∧ entryDur (shadowEntry (shadowWords 1599)) < 1600 ∧
      1600 ≤ entryDur (shadowEntry (shadowWords 1600)) ∧ (List.range 16).all (fun k =>
        ((shadowWords 1600).storeFields (Reg.TRN_CAL_SHADOW.addr 7) 0).permCommitted (entryPerm (shadowEntry (shadowWords 1600)) k)) = true) ∧
    (cmdReg live Reg.TRN_CAL_ACT_STATUS.addr 0x40 = true ∧ (0x40 : W32).getLsbD 6 = true ∧ (0x40 : W32).getLsbD 7 = false ∧
      cmdReg live Reg.TRN_CAL_ACT_STATUS.addr 0x80 = true ∧ (0x80 : W32).getLsbD 6 = false ∧ (0x80 : W32).getLsbD 7 = true) ∧
    (({ live with calActive := { on := true } } : State).calActive.on = true ∧ live.eph.state = .locked ∧
      live.trn.calRunning = false) ∧ (at_ live 128).trn.boundaryAt + 128 ≤ (at_ live 128).ft := by decide +kernel

/-- An element of physical plane 17; all elements of plane 17. -/
def withElem (x : Element) : State := live.setElem 17 143 x
def allElems : State := { live with trn := { elements := (List.range 144).map fun e => (144 * 17 + e, { locked := true }), dark := false } }
def recalWord : W32 := 0x3100
/-- A notice of duty 5 for fibres 0 and 1, due at FT 0. -/
def notice (m : BitVec 32) : State := { live with trn := { notices := [⟨5, m, 0⟩], dark := false } }

theorem witness_ElementsAndLatches : (live.setFld Reg.TRN_CTL.elem_lock_en 1).bit Reg.TRN_CTL.elem_lock_en = true ∧
    (((withElem { locked := true, highRun := 8 }).elem 17 143).locked = true ∧
      8 ≤ ((withElem { locked := true, highRun := 8 }).elem 17 143).highRun) ∧
    (((withElem { lowRun := 100 }).elem 17 143).locked = false ∧ 100 ≤ ((withElem { lowRun := 100 }).elem 17 143).lowRun) ∧
    (let s := (at_ (withElem { }) 1600000).setFld Reg.TRN_ELEM_CFG.elem_hold_limit 1 |>.setPlane 17 { state := .active }
     (s.elem 17 143).locked = false ∧ (s.plane 17).failed = false ∧ (s.plane 17).state ≠ .idle ∧
      s.fld Reg.TRN_ELEM_CFG.elem_hold_limit ≠ 0 ∧
      (s.elem 17 143).unlockedAt + s.fld Reg.TRN_ELEM_CFG.elem_hold_limit * 1600000 ≤ s.ft) ∧
    (let s := (withElem { }).setPlane 17 { failed := true }
     (s.plane 17).failed = true ∧ (s.elem 17 143).locked = false) ∧
    (recalWord.getLsbD 13 = true ∧ recalWord.toNat / 2 ^ 8 % 32 = 17 ∧ cfgReg allElems Reg.TRN_CTL.addr recalWord = true ∧
      (allElems.storeFields Reg.TRN_CTL.addr recalWord).elemsLocked 17 = true) ∧
    ((notice 3).trn.notices = [⟨5, 3, 0⟩] ∧ 0 ≤ (notice 3).ft ∧ (notice 3).trn.suspMask = [] ∧ (notice 0).trn.notices = [⟨5, 0, 0⟩]) ∧
    live.trn.notices = [] ∧
    (cfgReg live Reg.TRN_UMBRA_CTL.addr 1 = true ∧ cfgReg live Reg.TRN_UMBRA_CTL.addr 2 = true ∧
      (({ live with pwr := { live.pwr with reserveOk := true } } : State).storeFields Reg.TRN_UMBRA_CTL.addr 2).mayRelease = true ∧
      (List.range 32).all (fun f => decide ((live.engine f).calState ≠ 1)) = true) ∧
    ({ live with trn.umbraWrite := some 3 } : State).trn.umbraWrite = some 3 := by decide +kernel

/-! ### Witnesses: the link -/

/-- A received frame of a type and an opcode with a payload, sent to this spine (address 0) where `own`. -/
def rx (t : BitVec 4) (n : BitVec 8) (own : Bool) (bs : List Byte) (s : Nat) : Frame :=
  { ftype := t, opcode := n, dclass := own, vc := (rxVc t).getD 0, snode := BitVec.ofNat 17 s, payload := bs, sequenced := (rxVc t).getD 0 != 0 }
/-- Port 5 has published credit for every VC. -/
def credited : State := live.setLink 5 { state := .up, pub := (List.range 8).map fun v => (v, 1000) }

theorem witness_Sequence : live.hears 5 = true ∧ (live.link 5).held = none ∧ (live.link 5).state = .up ∧
    ((rx ftMgmt 0x30 true [] 0).isSequenced = true ∧ (rx ftMgmt 0x30 true [] 0).lseq = (live.link 5).rxLseq ∧
      (live.link 5).replay = [] ∧ (rx ftMgmt 0x30 true [] 0).crValid = false) ∧
    ({ rx ftMgmt 0x30 true [] 0 with lseq := 0x7FFF } : Frame).lseq ≠ (live.link 5).rxLseq ∧
    ((live.setLink 5 { state := .up, retryAt := some 0 }).link 5).retryAt = some 0 ∧ (live.link 5).retryAt = none := by decide +kernel

theorem witness_LinkMessages : (live.received 5 (ctl opHello)).isSome = true ∧
    ((live.received 5 (ctl opHello)).any fun u => (u.link 5).state == .up) = true ∧
    (((live.setLink 5 { state := .training }).received 5 (ctl opHello)).any fun u => (u.link 5).state == .training) = true ∧
    (live.received 5 { ctl opCredit with payload := List.replicate 32 0 }).isSome = true ∧
    (live.received 5 (ctl opAck)).isSome = true ∧ (live.received 5 (ctl opRetryReq)).isSome = true ∧
    (live.received 5 (ctl 0x22)).isSome = true ∧ linkOps.contains 0x22 = false := by decide +kernel

/-- One frame waits for its acknowledgement. -/
def unacked : Link := { state := .up, replay := [⟨rx ftMgmt 0x30 true [] 0, 9, none, .plain, 0, false⟩] }
/-- A buffer with the frame that port 5 received last, under lseq 0, for port 6. -/
def heldBuf : Buf := { inPort := some 5, vc := 1, cells := 1, lastOwner := 6, dests := [{ port := 6, frame := rx ftMgmt 0x80 false [] 0, rseq := 0 }] }
def oneBuf (b : Buf) : State := { live.setLink 5 { state := .up, rxLseq := 1 } with bufs := [(0, b)] }

theorem witness_LinkTimersAndErrors : (live.link 5).state ≠ .down ∧
    ((live.setLink 5 { state := .up, lim := [(1, 5)] }).link 5).pub ≠ ((live.setLink 5 { state := .up, lim := [(1, 5)] }).link 5).lim ∧
    (((at_ (live.setLink 5 { state := .up, ackDue := some 0 }) 1000000).link 5).ackDue = some 0 ∧
      0 + (at_ live 1000000).fld (Reg.LNK_RETRY_CFG.ack_delay 5) * 128 ≤ (at_ live 1000000).ft) ∧
    (((at_ (live.setLink 5 { state := .up, retryAt := some 0 }) 1000000).link 5).retryAt = some 0 ∧
      0 + (at_ live 1000000).fld (Reg.LNK_RETRY_CFG.ack_timeout 5) * 1600 ≤ (at_ live 1000000).ft) ∧
    (let s := at_ (live.setLink 5 unacked) 1000000
     (s.link 5).replay.isEmpty = false ∧ (s.link 5).ackAt + s.fld (Reg.LNK_RETRY_CFG.ack_timeout 5) * 1600 ≤ s.ft ∧
      ((s.link 5).replay.any fun r => decide (s.fld (Reg.LNK_RETRY_CFG.retry_limit 5) < r.count)) = true) ∧
    (live.hears 5 = true ∧ 2 ≤ (4 : BitVec 8).toNat ∧ (4 : BitVec 8).toNat ≤ 4 ∧ (live.link 5).retryAt = none ∧
      ((live.setLink 5 { state := .up, retryAt := some 0 }).link 5).retryAt.isSome = true) ∧
    (let s := oneBuf heldBuf
     s.bufs.get 0 = some heldBuf ∧ (s.bufFrame 0 heldBuf).any (fun f => f.isSequenced && decide ((s.link 5).rxLseq = f.lseq + 1)) = true ∧
      heldBuf.inPort = some 5) ∧
    ((rx 15 0 false [] 0).malformed = true ∧ (live.linkIn 5 (rx 15 0 false [] 0)).2 = true ∧
      (live.linkIn 5 (rx 15 0 false [] 0)).1.pmuRuns = false) ∧ live.rxExempt 5 = false := by decide +kernel

/-- Engine 0 is calibrated, and the line of port 5 locked. -/
def trainable (l : Link) : State :=
  let s := live.setLink 5 l
  { s with opt := { engines := [(0, { calState := 2 })], lines := [(5, { duty := some 5, locked := true })] } }.setFld (Reg.LNK_CTL.port_en 5) 1

theorem witness_PortStates :
    (((trainable { }).link 5).state = .down ∧ ((trainable { }).link 5).failAt = none ∧
      (((trainable { }).setLink 5 { aligned := true })).canTrain 5 = true) ∧
    (let s := at_ (trainable { state := .training }) 20000000000
     (s.link 5).state = .training ∧ (s.link 5).trainAt + s.fld (Reg.LNK_CTL.train_timeout 5) * 1600000 ≤ s.ft) ∧
    (let s := at_ (trainable { aligned := true, failAt := some 0 }) 16000000
     (s.link 5).failAt = some 0 ∧ (s.link 5).state = .down ∧ (s.link 5).aligned = true ∧ 0 + 16000000 ≤ s.ft ∧
      (s.setLink 5 { s.link 5 with failAt := none }).canTrain 5 = true) ∧
    (live.rxExempt 5 = false ∧ (live.link 5).held = none) ∧
    cfgReg live (Reg.LNK_CTL.addr 5) 0 = true ∧ cfgReg live (Reg.LNK_CTL.addr 5) 3 = true := by decide +kernel

def grantWord (n : Nat) : W32 := BitVec.ofNat 32 n

theorem witness_FencesAndGrants : live.bit Reg.CFG_CTL.local_write_en = true ∧
    (cfgReg live (Reg.LNK_FENCE.addr 5) 1 = true ∧ (1 : W32).toNat % 4 ≠ live.fence 5 ∧ (1 : W32).toNat % 4 ≠ 3) ∧
    (cfgReg live (Reg.LNK_FENCE.addr 5) 2 = true ∧ (2 : W32).toNat % 4 ≠ live.fence 5) ∧
    (cfgReg live (Reg.LNK_CREDIT_GRANT.addr 5 1) (grantWord (grantMin 1)) = true ∧
      live.grantOk 5 1 ((grantWord (grantMin 1)).toNat % 2 ^ 24) = true) ∧
    (cfgReg live (Reg.LNK_CREDIT_GRANT.addr 5 1) 0 = true ∧ (0 : W32).toNat % 2 ^ 24 < grantMin 1) := by decide +kernel

/-! ### Witnesses: forwarding -/

/-- ANNOUNCE of node 300 on port 5: node, incarnation, flags and leaf, as Table 6-3 lays them out. -/
def ann (leaf : Nat) : Frame := rx ftMgmt opAnnounce true (leBytes 4 300 ++ leBytes 4 7 ++ leBytes 2 leaf ++ List.replicate 6 0) 300
/-- Announcements are learnt, and leaf 0 is on port 5. -/
def learning : State := (credited.setFld Reg.FWD_CTL.learn_en 1).setFld (Reg.FWD_CABLE_MAP.port 0) 5
def known (e : CatEntry) : State := { live with fwd := { catalogue := [(300, e)] } }

theorem witness_Announcements : ((learning.parked 5 (ann 0) (BitVec.ofInt 80 learning.ft16)).any fun x =>
      x.1.mine (ann 0) && (x.1.freeBuf x.2).bit Reg.FWD_CTL.learn_en &&
      (numAt (ann 0).payload 0 4 % 2 ^ 17 == (ann 0).snode.toNat) &&
      (numAt (ann 0).payload 8 2 % 512 == (x.1.freeBuf x.2).leafOn 5)) = true ∧
    ((learning.parked 5 (ann 1) (BitVec.ofInt 80 learning.ft16)).any fun x =>
      x.1.mine (ann 1) && (x.1.freeBuf x.2).bit Reg.FWD_CTL.learn_en &&
      (numAt (ann 1).payload 8 2 % 512 != (x.1.freeBuf x.2).leafOn 5)) = true ∧
    live.fwd.catalogue.get 300 = none ∧ (known { port := 5, incarnation := 8 }).fwd.catalogue.get 300 = some { port := 5, incarnation := 8 } ∧
    32768 ≤ ((7 : BitVec 16) - 8).toNat ∧ ((9 : BitVec 16) ≠ 8 ∧ ((9 : BitVec 16) - 8).toNat < 32768) ∧
    (32768 ≤ ((32776 : BitVec 16) - 8).toNat ∧ ((32775 : BitVec 16) - 8).toNat < 32768) ∧
    (5 : Port) = (if false then live.cable (300 / 256) else 5) ∧ (5 : Port) ≠ 6 := by decide +kernel

def catWord (op : Nat) : W32 := BitVec.ofNat 32 (300 + op * 2 ^ 17 + 2 ^ 19)
def queryWord : W32 := 0x1003
/-- One entry of the index for partition 3. -/
def indexed : State := { live with fwd := { index := [{ addr := 0, len := 0, kind := kindNode, partition := 3, node := 300, tree := 0, base := 0 }] } }

theorem witness_CatalogueIndexAndTrees : (live.setFld Reg.FWD_CTL.age_en 1).bit Reg.FWD_CTL.age_en = true ∧
    (cmdReg live Reg.FWD_CAT_REHASH.addr 1 = true ∧ live.fwd.rehash = none) ∧
    (({ live with fwd := { rehash := some 7 } } : State).fwd.rehash = some 7 ∧ overflowCount (rebuild 7 [] live.fwd.catalogue) ≤ 1024 ∧
      live.trieCount + overflowCount (rebuild 7 [] live.fwd.catalogue) ≤ 32768) ∧
    [0, 1, 2, 3].all (fun n => cmdReg (known { port := 5, incarnation := 8 }) Reg.FWD_CAT_CMD.addr (catWord n) &&
      (catWord n).getLsbD 19 && (catWord n).toNat / 2 ^ 17 % 4 == n && (catWord n).toNat % 2 ^ 17 == 300) = true ∧
    (cmdReg live Reg.FWD_IDX_QUERY_CTL.addr queryWord = true ∧ queryWord.getLsbD 12 = true ∧
      live.idxLookup 0 (BitVec.ofNat 12 queryWord.toNat) = none ∧
      (indexed.idxLookup 0 (BitVec.ofNat 12 queryWord.toNat)).any (fun e => e.kind == kindNode) = true) ∧
    (cmdReg live Reg.FWD_MC_COMMIT.addr 0x10005 = true ∧ ((live.storeFields Reg.FWD_MC_COMMIT.addr 0x10005).reg (Reg.FWD_MC_STAGE.addr 0)).getLsbD 1 = false ∧
      ((live.storeFields Reg.FWD_MC_COMMIT.addr 0x10005).tree 5).bound = false ∧ (live.setTree 5 { bound := true }).writable Reg.FWD_MC_COMMIT.addr 0x10005 = true ∧
      ((live.setTree 5 { bound := true }).tree 5).bound = true) ∧
    (cmdReg live Reg.FWD_MC_COMMIT.addr 0x20005 = true ∧ (0x20005 : W32).getLsbD 16 = false ∧ (0x20005 : W32).getLsbD 17 = true) := by decide +kernel

/-- The index fills the trie: no catalogue fits beside it. -/
theorem witness_rehashFails (e : IdxEntry) (h : e.inTrie = true) (n : Nat) :
    32768 < ({ live with fwd := { rehash := some 7, index := List.replicate 32769 e } } : State).trieCount + n := by
  simp only [State.trieCount, List.filter_replicate, h, ite_true, List.length_replicate]
  omega

/-- The policer is on and the bucket of port 5 is empty. -/
def policed (n : Nat) : State :=
  { credited.setFld Reg.SCH_CTL.vc7_police_en 1 with sch := { vc7Tok := [(5, n)] } }
/-- Partition 0 has no tokens left, and its meter is on. -/
def metered : State := { (credited.setFld Reg.SCH_CTL.bulk_meter_en 1).setFld (Reg.SCH_PART_CTL.meter_en 0) 1 with sch := { partTok := [(0, (0, 0))] } }

theorem witness_RoutedFrames :
    ((credited.parked 5 (rx ftBulk 0 false [] 0) 0).any fun x => (x.1.holdOf (dieOf 5)).isEmpty &&
      (match x.1.meter (rx ftBulk 0 false [] 0) with | (_, .pass) => true | _ => false)) = true ∧
    ((metered.parked 5 { rx ftBulk 0 false [] 0 with flags := 1 } 0).any fun x => (x.1.holdOf (dieOf 5)).isEmpty &&
      (match x.1.meter { rx ftBulk 0 false [] 0 with flags := 1 } with | (_, .drop) => true | _ => false)) = true ∧
    (((policed 256).parked 5 (rx ftBestEffort 0 false [] 0) 0).any fun x =>
      x.1.bit Reg.SCH_CTL.vc7_police_en && decide (256 * (rx ftBestEffort 0 false [] 0).cells ≤ x.1.vc7Tokens 5)) = true ∧
    (((policed 255).parked 5 (rx ftBestEffort 0 false [] 0) 0).any fun x =>
      x.1.bit Reg.SCH_CTL.vc7_police_en && decide (x.1.vc7Tokens 5 < 256 * (rx ftBestEffort 0 false [] 0).cells)) = true ∧
    (credited.parked 5 (rx ftMgmt 1 false [] 0) 0).isSome = true ∧
    (credited.parked 5 (rx ftResult 1 false (List.replicate 256 0) 0) (BitVec.ofInt 80 credited.ft16)).isSome = true ∧
    ((credited.parked 5 (rx ftBulk 0 true [] 0) 0).any fun x => x.1.mine (rx ftBulk 0 true [] 0)) = true ∧
    ((credited.parked 5 (rx ftBestEffort 0 true [] 0) 0).any fun x => x.1.mine (rx ftBestEffort 0 true [] 0)) = true ∧
    ((credited.parked 5 { rx ftBulk 0 true [] 0 with dnode := 1 } 0).any fun x => !x.1.mine { rx ftBulk 0 true [] 0 with dnode := 1 }) = true := by
  decide +kernel

/-! ### Witnesses: the switch core -/

/-- Buffer 0 of two cells from port 5 for port 6, of which port 6 has those given. -/
def twoCells (got : List Nat) (tries : Nat) (begun : Bool) : Buf :=
  { inPort := some 5, vc := 1, cells := 2, lastOwner := 6, landed := 2,
    dests := [{ port := 6, frame := rx ftMgmt 0x80 false [] 0, rseq := 0, got := got, retries := [(1, tries)], begun := begun }] }
def bufState (b : Buf) : State := { live with bufs := [(0, b)] }
/-- A buffer that nothing refers to, and when the auditor found it so. -/
def lostBuf (t : Option Nat) : State := bufState { inPort := some 5, vc := 1, cells := 1, lastOwner := 6, dests := [], unref := t }
def ringState : State := ((live.setReg (Reg.STK_PART.addr 0) 0x44).setReg (Reg.STK_PART.addr 2) 1).setReg (Reg.CORE_MIR_BASE_LO.addr 1) 0

theorem witness_CellsAndBuffers :
    (live.bufs.get 0 = none ∧ live.bufExists 0 = true ∧ (live.core (bufDie 0)).reclaimed.contains 0 = false) ∧
    ((bufState (twoCells [] 0 false)).bufs.get 0 = some (twoCells [] 0 false) ∧
      (twoCells [] 0 false).dests.all (fun d => d.port != 7) = true) ∧
    (((bufState (twoCells [0] 0 false)).destOf 0 6).any fun x =>
      decide ((1 : BitVec 8).toNat < x.1.cells) && !x.2.got.contains 1 && x.2.begun == false &&
      decide (x.2.retries.read 0 1 < (bufState (twoCells [0] 0 false)).fld Reg.CORE_RESEQ_CFG.cell_retry_limit)) = true ∧
    ((({ bufState (twoCells [] 0 false) with flows := [(flowKey (flowSrc 0 (twoCells [] 0 false)) 6 1, { ahead := [1] })] } : State).flows.read { }
      (flowKey (flowSrc 0 (twoCells [] 0 false)) 6 1)).ahead.isEmpty = false ∧ live.pmuRuns = false) ∧
    (((bufState (twoCells [0] 99 true)).destOf 0 6).any fun x =>
      decide ((bufState (twoCells [0] 99 true)).fld Reg.CORE_RESEQ_CFG.cell_retry_limit ≤ x.2.retries.read 0 1) && x.2.begun &&
      decide (x.2.got.length < x.1.cells)) = true ∧
    ((lostBuf none).setFld Reg.CORE_CTL.audit_en 1).bit Reg.CORE_CTL.audit_en = true ∧
    (lostBuf none).bufs.all (fun e => !(lostBuf none).referenced e.1 e.2 && e.1 == bufKey 0 0 0) = true ∧
    (lostBuf (some 0)).bufs.all (fun e => !(lostBuf (some 0)).referenced e.1 e.2 && e.2.unref == some 0) = true ∧
    (0 < (twoCells [] 0 false).landed ∧
      0 + (at_ live 1000000000).fld Reg.CORE_SPILL_CFG.spill_delay * 160 ≤ (at_ live 1000000000).ft) ∧
    (cfgReg ringState (Reg.CORE_MIR_CTL.addr 1) 1 = true ∧
      (let u := ringState.storeFields (Reg.CORE_MIR_CTL.addr 1) 1
       u.ringFits (u.pair (Reg.CORE_MIR_BASE_LO.value 1)) = true) ∧
      cfgReg live (Reg.CORE_MIR_CTL.addr 1) 1 = true ∧
      (let u := live.storeFields (Reg.CORE_MIR_CTL.addr 1) 1
       u.ringFits (u.pair (Reg.CORE_MIR_BASE_LO.value 1)) = false)) ∧
    (live.place 0 none 1 0 1 .plain [(6, rx ftMgmt 0x80 false [] 0)]).isSome = true := by decide +kernel

def withVc0 : State := live.setLink 5 { state := .up, vc0 := [⟨ctl opAck, .plain⟩] }

theorem witness_Arbiter : State.reset.canSend 5 = false ∧ live.canSend 5 = true ∧
    ((live.setLink 5 { state := .up, replayDue := some 0 }).canSend 5 = true ∧
      ((live.setLink 5 { state := .up, replayDue := some 0 }).link 5).replayDue = some 0) ∧
    (withVc0.canSend 5 = true ∧ (withVc0.link 5).replayDue = none ∧ (withVc0.link 5).vc0.isEmpty = false ∧
      fenceStops (withVc0.fence 5) (ctl opAck) = false ∧ withVc0.windowOpen 5 (ctl opAck) = true) ∧
    ((live.link 5).replayDue = none ∧ (live.link 5).vc0 = [] ∧ (live.link 5).state = .up) ∧
    (0 : Int) < SMap.read 0 [(1, 1)] 1 ∧ SMap.read 0 [(1, 0)] 1 ≤ (0 : Int) := by decide +kernel

def gateWord (s : State) (d : W32) : State := s.setReg (Reg.SCH_GATE_SHADOW.addr 5 0) d
/-- A complete shadow list of port 5 of one entry, and an arm time far enough away. -/
def gateReady : State :=
  { (live.setReg (Reg.SCH_GATE_ACT_LO.addr 5) 0xF0000000) with gateShadow := [(5, { ent := [(0, 600)] })] }
/-- The head of VC1 of port 6 waits. -/
def starving : State := { (bufState (twoCells [0, 1] 0 false)).setFld Reg.SCH_ARB_CFG.starve_limit 1 with queues := [(6 * 8 + 1, [0])] }

theorem witness_GatesAndMeters :
    (live.answers Reg.SCH_VC_WEIGHT_A.addr = true ∧ weightOk false 0x01010001 = false ∧ weightOk true 0x00010001 = false ∧
      live.answers Reg.SCH_VC_WEIGHT_B.addr = true) ∧
    (cfgReg live Reg.SCH_VC_WEIGHT_A.addr 0x01010101 = true ∧ weightOk false 0x01010101 = true ∧
      cfgReg live Reg.SCH_VC_WEIGHT_B.addr 0x010101 = true ∧ weightOk true 0x010101 = true) ∧
    (isMeterReg Reg.SCH_VC7_POLICE.addr = true ∧ Reg.SCH_VC7_POLICE.addr % 4 = 0 ∧ live.meterOk Reg.SCH_VC7_POLICE.addr 0 = false ∧
      live.meterOk Reg.SCH_VC7_POLICE.addr 0xFFFFFFFF = true ∧ cfgReg live Reg.SCH_VC7_POLICE.addr 0xFFFFFFFF = true) ∧
    (cmdReg live (Reg.SCH_GATE_SHADOW.addr 5 1) 3 = true ∧ live.shadowLocked (objGate 5) = false ∧
      ({ live with acts := [(objGate 5, { pending := true })] } : State).shadowLocked (objGate 5) = true ∧
      512 ≤ ((gateWord live 512).storeFields (Reg.SCH_GATE_SHADOW.addr 5 1) 3 |>.reg (Reg.SCH_GATE_SHADOW.addr 5 0)).toNat ∧
      ((gateWord live 511).storeFields (Reg.SCH_GATE_SHADOW.addr 5 1) 3 |>.reg (Reg.SCH_GATE_SHADOW.addr 5 0)).toNat < 512) ∧
    (cmdReg gateReady (Reg.SCH_GATE_ACT_STATUS.addr 5) 0x40 = true ∧ cmdReg gateReady (Reg.SCH_GATE_ACT_STATUS.addr 5) 0x80 = true ∧
      (gateReady.armSoft (objGate 5) (gateReady.pair (Reg.SCH_GATE_ACT_LO.value 5)) (gateReady.gateActive.read { } 5)
        (gateReady.gateShadow.read { } 5) (gateReady.fld (Reg.SCH_GATE_LEN.shadow 5) + 1)).2 = true) ∧
    ((starving.headFrame 6 1).isSome = true ∧ starving.fld Reg.SCH_ARB_CFG.starve_limit ≠ 0 ∧
      starving.fld Reg.SCH_ARB_CFG.starve_limit * 1600000 < (0xFFFFFFFF : BitVec 64).toNat ∧
      starving.sch.starved.get (6 * 8 + 1) ≠ some 0) := by decide +kernel

/-! ### Witnesses: collectives -/

/-- Node 7 is a manager. -/
def managed : State := credited.setReg (Reg.CFG_MANAGER.addr 0) 0x80000007
/-- An admission record of group 3, generation 0, for port 5 with one member. -/
def record : List Byte :=
  leBytes 2 3 ++ [0, 0] ++ leBytes 2 2 ++ leBytes 2 5 ++ leBytes 4 1000 ++ [1, 1] ++ leBytes 2 0 ++ leBytes 4 256 ++ leBytes 2 20 ++
    List.replicate 42 0 ++ leBytes 64 32 ++ (List.range 512).flatMap (fun p => leBytes 2 (if p = 5 then 1 else 0))
def queued (t : Bool) (b : List Byte) : State :=
  { (live.setFld Reg.CNJ_CTL.admit_en 1).setFld Reg.CNJ_SPILL_POOL.cells 256 with cnj := { cfgq := [⟨t, b, none⟩] } }
def groupFrame : Frame := { rx ftMgmt mgGroupRec true (List.replicate 8 0) 7 with snode := 7 }
/-- Group 3 is admitted, and a teardown of it waits. -/
def tearing : State := { queued true [3, 0, 1, 0, 0, 0, 0, 0] with
  cnj := { cfgq := [⟨true, [3, 0, 1, 0, 0, 0, 0, 0], none⟩], groups := [(3, { state := .admitted, gen := 1 })] } }

theorem witness_GroupRecords :
    ((managed.parked 5 groupFrame 0).any fun x => x.1.mine groupFrame && (x.1.freeBuf x.2).isManager groupFrame.snode groupFrame.swSrc &&
      decide ((x.1.freeBuf x.2).cnj.cfgq.length < 256)) = true ∧
    ((credited.parked 5 groupFrame 0).any fun x => x.1.mine groupFrame && !(x.1.freeBuf x.2).isManager groupFrame.snode groupFrame.swSrc) = true ∧
    ((queued false record).bit Reg.CNJ_CTL.admit_en = true ∧ (queued false record).cfgqDue = true ∧
      takeRecord true (queued false record).cnj.cfgq = none ∧ takeRecord false (queued false record).cnj.cfgq = some (⟨false, record, none⟩, []) ∧
      ({ queued false record with cnj.cfgq := [], cnj.cfgqAt := some 0 } : State).admitTrouble record = none ∧
      ({ queued false record with cnj.cfgq := [], cnj.cfgqAt := some 0 } : State).admitTrouble (record.set 2 9) = some (8, 1)) ∧
    (tearing.cfgqDue = true ∧ takeRecord true tearing.cnj.cfgq = some (⟨true, [3, 0, 1, 0, 0, 0, 0, 0], none⟩, []) ∧
      (tearing.group 3).gen = 1 ∧ (tearing.group 3).state ≠ .free ∧ numAt [3, 0, 1, 0, 0, 0, 0, 0] 3 1 / 4 % 2 = 0) ∧
    (({ live with cnj := { groups := [(3, { state := .draining, gen := 1 })] } } : State).drained 3 = true ∧
      (({ live with cnj := { groups := [(3, { state := .draining, gen := 1 })] } } : State).group 3).replyTo = []) := by decide +kernel

/-- A descriptor: kind (0 all-reduce, 2 gather, 3 all-to-all), 128 lines of 64 a segment, SUM of FP32, cseq 0; `neg` negotiated. -/
def descriptor (kind : Nat) (w0 : Nat) : List Byte :=
  leBytes 4 w0 ++ leBytes 4 0 ++ leBytes 4 128 ++ [64, BitVec.ofNat 8 kind] ++ leBytes 2 0 ++ List.replicate 16 0
/-- A frame of group 3, generation 1. -/
def collOf (t : BitVec 4) (n : BitVec 8) (bs : List Byte) : Frame :=
  { rx t n (t == ftContrib) bs 7 with partition := 2, w4 := BitVec.ofNat 32 (3 + 2 ^ 14), w8 := 1 }
/-- Group 3 is admitted behind port 5, with what is in progress. -/
def grouped (x : List (Nat × Coll)) (y : List (Nat × Segment)) (opened : List (BitVec 16)) : State :=
  { credited with cnj := { groups := [(3, { state := .admitted, gen := 1, partition := 2, tileSlots := 64, cDepth := 1, quota := 256, timeout := 100, resendTimeout := 20, mask := 32, counts := [(5, 1)], opened := opened })], colls := x, segs := y } }
def collFor (kind w0 : Nat) : Coll := { gen := 1, desc := descriptor kind w0, begins := [(5, 0, 1)] }
/-- The collective has received its BEGIN, and segment 0 is in a state. -/
def running (kind w0 : Nat) (y : List (Nat × Segment)) : State := grouped [(collKey 3 0, collFor kind w0)] y [0]
def seg0 (st : SegState) : List (Nat × Segment) := [(segKey 3 0 0, { state := st, lines := 64 })]
def collOk (s : State) (f : Frame) : Bool := (s.ingress 5 f).2 && (f.ftype != ftContrib || ((s.ingress 5 f).1.mine f && f.dclass)) &&
  (((s.ingress 5 f).1.group 3).held.isEmpty) && !(s.ingress 5 f).1.relayFull f && ((s.ingress 5 f).1.group 3).state != .free &&
  f.group == 3 && f.gen == ((s.ingress 5 f).1.group 3).gen && f.partition == ((s.ingress 5 f).1.group 3).partition &&
  ((s.ingress 5 f).1.group 3).mask.getLsbD 5
/-- The frame reaches the rules of an open collective, and fits its lines. -/
def contribOk (s : State) (f : Frame) (c : Coll) : Bool := collOk s f && ((s.ingress 5 f).1.group 3).opened.contains 0 &&
  (s.ingress 5 f).1.coll 3 0 == some c && !c.excluded.getLsbD 5 && c.begins.any (fun b => b.1 == (5 : Port)) && f.w7 == c.sig &&
  ((s.ingress 5 f).1.group 3).membersOk 5 f.members.toNat && f.sideband == (f.opcode == opData && isBlock (awFmt (descW0 c.desc))) &&
  (descKind c.desc == kindA2a || linesFit c.desc f)
def beginFrame : Frame := collOf ftCollCtl opBegin (descriptor 0 0x30)
def dataFrame : Frame := collOf ftContrib opData (List.replicate 256 0)
def expFrame : Frame := collOf ftContrib opExp (List.replicate 512 0)
def abortFrame : Frame := { collOf ftCollCtl opAbortReq [] with w8 := 3 }

theorem witness_CollectiveFrames :
    (collOk (grouped [] [] []) beginFrame = true ∧ isBegin beginFrame = true ∧
      (let u := ((grouped [] [] []).ingress 5 beginFrame).1
       (u.group 3).opened.contains 0 = false ∧ (0 : BitVec 16) = (u.group 3).nextCseq ∧ (u.group 3).state = .admitted ∧ u.coll 3 0 = none ∧
        (u.group 3).opened.length < (u.group 3).cDepth ∧ (u.group 3).membersOk 5 1 = true ∧ beginFrame.sideband = false ∧
        u.openTrouble 3 beginFrame = none ∧ descPath beginFrame.payload = 0 ∧ descKind beginFrame.payload ≠ kindA2a ∧
        (u.livePorts 3 { excluded := portsMask ((maskPorts (u.group 3).mask).filter fun q => u.fence q ≠ 0 || !u.isUp q) }).isEmpty = false)) ∧
    (contribOk (running 0 0x30 (seg0 .collect)) dataFrame (collFor 0 0x30) = true ∧
      (let u := ((running 0 0x30 (seg0 .collect)).ingress 5 dataFrame).1
       (collFor 0 0x30).done.get 0 = none ∧ (u.seg 3 0 0).any (fun x => x.state == .collect) = true ∧ u.tileMoving 3 0 = false ∧
        (takeLines 5 [] { } ((List.range (dataFrame.payload.length / 256)).map (lineFrame dataFrame)) u).2 = false)) ∧
    (contribOk (running 2 0x30 []) dataFrame (collFor 2 0x30) = true ∧ descKind (collFor 2 0x30).desc = kindGather) ∧
    (contribOk (running 3 0x30 []) dataFrame (collFor 3 0x30) = true ∧ descKind (collFor 3 0x30).desc = kindA2a) ∧
    (contribOk (running 0 0x80 (seg0 .exponent)) expFrame (collFor 0 0x80) = true ∧
      (let u := ((running 0 0x80 (seg0 .exponent)).ingress 5 expFrame).1
       (u.seg 3 0 0).any (fun x => x.state == .exponent && !x.expFrom.getLsbD 5) = true ∧ u.tileMoving 3 0 = false)) ∧
    (collOk (running 0 0x30 []) abortFrame = true ∧
      (let u := ((running 0 0x30 []).ingress 5 abortFrame).1
       (u.group 3).opened.contains 0 = true ∧ u.coll 3 0 = some (collFor 0 0x30))) := by decide +kernel

/-- A contribution to segment 0 waits for its slots. -/
def waitingSeg : State := { running 0 0x30 [] with cnj := { (running 0 0x30 []).cnj with
  groups := [(3, { ((running 0 0x30 []).group 3) with held := [⟨0, 5, dataFrame⟩] })] } }
def collWith (c : Coll) : State := grouped [(collKey 3 0, c)] [] [0]
def deferredState : State := { running 0 0x30 [] with cnj := { (running 0 0x30 []).cnj with
  groups := [(3, { ((running 0 0x30 []).group 3) with deferrals := [⟨5, 0, 0, 0, 1⟩] })] } }

theorem witness_CollectiveTimers : (waitingSeg.coll 3 0 = some (collFor 0 0x30) ∧ waitingSeg.seg 3 0 0 = none ∧
      ((waitingSeg.group 3).held.any fun h => h.frame.ftype == ftContrib && h.frame.cseq == 0 && h.frame.segment == 0) = true ∧
      (collFor 0 0x30).done.get 0 = none ∧ waitingSeg.tileMoving 3 0 = false ∧ waitingSeg.slotsFree 3 (collFor 0 0x30).desc 0 = true) ∧
    ((collWith { collFor 0 0x30 with mismatchAt := some 0 }).coll 3 0 = some { collFor 0 0x30 with mismatchAt := some 0 } ∧
      0 + 1600000 ≤ (at_ live 1600000).ft) ∧
    (let c : Coll := { collFor 0 0x30 with resends := [{ port := 5, segment := 0, firstLine := 0, count := 1, left := some 0, cause := 0, missing := 1 }] }
     (at_ (collWith c) 32000).coll 3 0 = some c ∧ 0 + ((collWith c).group 3).resendTimeout * 1600 ≤ (at_ (collWith c) 32000).ft) ∧
    (deferredState.coll 3 0 = some (collFor 0 0x30) ∧ (deferredState.group 3).deferrals ≠ [] ∧
      2 * deferredState.groupCells 3 < (deferredState.group 3).quota) ∧
    ((collFor 0 0x30).timerFrom + ((at_ (running 0 0x30 []) 1600000).group 3).timeout * 16000 ≤ (at_ (running 0 0x30 []) 1600000).ft) ∧
    (descKind (collFor 0 0x30).desc ≠ kindA2a ∧ ((running 0 0x30 (seg0 .emit)).seg 3 0 0).any (fun x => x.state == .emit) = true ∧
      (running 0 0x30 (seg0 .emit)).copiesLeft (fun f => resultOf 3 0 f && f.segment == 0) = false ∧
      (running 0 0x30 (seg0 .emit)).pmuRuns = false) := by decide +kernel

theorem witness_AbortsAndMoves : (running 0 0x30 []).coll 3 0 = some (collFor 0 0x30) ∧
    (({ live with cnj := { moving := [7] } } : State).cnj.moving.contains 7 = true ∧
      ({ live with cnj := { moving := [7] } } : State).cnj.resetWait.contains 7 = false ∧
      ({ live with cnj := { moving := [7] } } : State).cnj.segs = []) := by decide +kernel

/-! ### Witnesses: stack memory -/

/-- Stack 0 holds an ACCESSION partition and the memory window, and region 1 of eight lines has an operation and a format. -/
def stacked (w0 : Nat) : State :=
  [(Reg.STK_PART.addr 0, 0x43), (Reg.STK_PART.addr 2, 1), (Reg.STK_PART.addr 4, 0x42), (Reg.STK_PART.addr 5, 1), (Reg.STK_PART.addr 6, 1),
    (Reg.STK_REGION_W0.addr 1, 11), (Reg.STK_REGION_W1.addr 1, w0), (Reg.STK_REGION_W0.addr 1 + 16, 8)].foldl
    (fun s e => s.setReg e.1 (BitVec.ofNat 32 e.2)) credited
/-- MAX of INT64, by its operation and format. -/
def maxWord : Nat := 0x42

theorem witness_AccessionCommands : (stacked 0x30).pmuRuns = false ∧ (stacked 0x30).regionUsable 1 7 = true ∧
    (7 + 1 ≤ (stacked 0x30).regionLines 1 ∧ (stacked 0x30).accHold (.clear 1 7 1) { } = none) ∧
    (stacked 0x30).accHold (.setA 1 7 []) { } = none ∧ (stacked 0x30).accHold (.readLanes 1 7) { } = none ∧
    (stacked 0x30).accHold (.writeLanes 1 7 (List.replicate 64 0)) { } = none ∧ (stacked 0x30).accHold (.readFmt 1 7) { } = none ∧
    ((3 : BitVec 3).toNat = (stacked 0x30).regionFmt 1 ∧ (0 : BitVec 12) = (stacked 0x30).regionPart 1 ∧
      (match ((stacked 0x30).accAdd 1 7 [(List.replicate 256 0, [])]).2 with | .done _ _ 0 => true | _ => false) = true ∧
      isSum (awOp ((stacked 0x30).regionW0 1)) = true ∧
      (stacked 0x30).accHold (.add 1 7 0 3 (List.replicate 256 0) []) { } = none) ∧
    ((4 : BitVec 3).toNat = (stacked maxWord).regionFmt 1 ∧
      (match ((stacked maxWord).accAdd 1 7 [(List.replicate 256 0, [])]).2 with | .done _ _ 0 => true | _ => false) = true ∧
      isSum (awOp ((stacked maxWord).regionW0 1)) = false ∧
      (stacked maxWord).accHold (.merge 1 7 0 4 (List.replicate 256 0) []) { } = none) := by decide +kernel

theorem witness_AccessionAtomicWord : 0x8FFFFFFFF8 = (0x8FFFFFFFFF : BitVec 40).toNat / 8 * 8 ∧ 0x8FFFFFFFF8 < dpaEnd ∧
    live.accHold (.atomic 0x8FFFFFFFF8 1 5 0) { } = none ∧
    (atomicNew 1 (BitVec.ofNat 64 (numAt (live.bytesAt 0x8FFFFFFFF8 8) 0 8)) 5 0).isSome = true := by decide +kernel

def regionCmd (op : Nat) : W32 := BitVec.ofNat 32 (1 + op * 2 ^ 12 + 2 ^ 14)
/-- Region 1 with the first word of its entry as given. -/
def regionWith (w : Nat) : State := (stacked 0x30).setReg (Reg.STK_REGION_W0.addr 1) (BitVec.ofNat 32 w)
def regionCmdOk (s : State) (op : Nat) (k : State → Bool) : Bool :=
  cmdReg s Reg.STK_REGION_CMD.addr (regionCmd op) && (regionCmd op).getLsbD 14 && Reg.STK_REGION_CMD.op.of (regionCmd op) == op &&
    Reg.STK_REGION_CMD.region.of (regionCmd op) == 1 && k (s.storeFields Reg.STK_REGION_CMD.addr (regionCmd op))

theorem witness_StackCommands : ({ live with stk := { pages := [(1, 64, [])] } } : State).stk.pages.get 1 = some (64, []) ∧
    (live.setFld Reg.STK_CTL.lb_en 1).bit Reg.STK_CTL.lb_en = true ∧
    ((2 : W32).getLsbD 1 = true ∧ cmdReg live (Reg.STK_ENG.addr (32 * 11 + 31)) 2 = true ∧ cmdReg live (Reg.STK_ENG.addr 0) 2 = true) ∧
    regionCmdOk (regionWith 0) 0 (fun u => !u.regionValid 1 && !u.regionRangeBad 1 && !u.regionWordsBad 1) = true ∧
    regionCmdOk (regionWith 1) 1 (fun u => !u.regionBusy 1 && !u.stk.clearing.contains 1) = true ∧
    regionCmdOk (regionWith 1) 2 (fun u => u.regionValid 1 && !u.regionBusy 1 && !u.stk.clearing.contains 1) = true ∧
    regionCmdOk (regionWith 5) 1 (fun u => u.regionBusy 1) = true ∧
    ({ live with stk := { clearing := [1] } } : State).stk.clearing.contains 1 = true ∧
    (live.setFld Reg.STK_STATUS.fill_busy 1).bit Reg.STK_STATUS.fill_busy = true ∧
    (live.answers Reg.STK_CTL.addr = true ∧ live.bit Reg.STK_CTL.aperture_en = false ∧
      (let s := (live.setFld Reg.STK_CTL.aperture_en 1).setFld Reg.STK_APERTURE_BASE.base 0x8FFF
       s.bit Reg.STK_CTL.aperture_en = true ∧ s.apertureDpa 0xFFFFF8 + 8 = dpaEnd ∧
        s.holdPage (s.apertureDpa 0xFFFFF8) 8 { } (.aperture .host 0xFFFFF8 8) = none)) := by decide +kernel

/-! ### Witnesses: the memory endpoint -/

/-- The endpoint's window may be read and written by every partition. -/
def endpoint : State :=
  let s := stacked 0x30
  (((s.setFld Reg.MSF_CTL.access_en 1).setFld (Reg.MSF_ACCESS_SIZE.size 0) 1).setFld (Reg.MSF_ACCESS_CTL.valid 0) 1).setFld
    (Reg.MSF_ACCESS_CTL.write 0) 1
/-- A request of node 7 with a modifier for an address. -/
def request (n : BitVec 8) (m : Nat) (bs : List Byte) (a : Nat) : Frame :=
  { rx ftMemReq n true bs 7 with w4 := BitVec.ofNat 32 a, w5 := BitVec.ofNat 32 (a / 2 ^ 32), w6 := BitVec.ofNat 32 m }
/-- The state in which the rule of a request runs, with its buffer, where its meter lets it go. -/
def meterLeft (s : State) (f : Frame) : Option (State × Nat) :=
  match s.parked 5 f 0 with
  | none => none
  | some (u, k) =>
    if (!f.dclass || u.mine f) && (u.holdOf (dieOf 5)).isEmpty then
      match u.meter f with
      | (v, .pass) => some (v, k)
      | _ => none
    else none
/-- The request is performed (Safety's performs). -/
def performed (s : State) (f : Frame) : Bool :=
  match meterLeft s f with
  | none => false
  | some (v, k) =>
    match (v.countLookup (dieOf 5) f).memWay f with
    | .perform d =>
      let q : MemReq := { serial := (v.countLookup (dieOf 5) f).msf.serial, port := 5, frame := f, dpa := d }
      let u := ({ v.countLookup (dieOf 5) f with msf.serial := (v.countLookup (dieOf 5) f).msf.serial + 1 } : State).freeBuf k
      (!filtered f || (u.filterRec (dpaDie d) f).isNone) && !u.inHand (dpaDie d) f &&
        match u.offer (ownRange q) q (u.bit Reg.MSF_CTL.combine_en) with
        | (w, false) => (w.holdWords d (State.reqReads [q]) { } (.request q)).isNone
        | _ => false
    | _ => false

theorem witness_MemoryRequests : performed endpoint (request reqLoad 31 [] 0) = true ∧
    performed endpoint (request reqStore 0 (List.replicate 8 1) 248) = true ∧
    (performed endpoint (request reqAtomic 1 (List.replicate 8 1) 8) = true ∧ (request reqAtomic 1 (List.replicate 8 1) 8).memMod ≠ 2) ∧
    (performed endpoint (request reqReduce (0x30 + 128 * 2 ^ 8) (List.replicate 256 0) 512) = true ∧
      redRegion (request reqReduce (0x30 + 128 * 2 ^ 8) (List.replicate 256 0) 512) = false) ∧
    (performed endpoint (request reqReduce 0xB0 (List.replicate 256 0) (2 ^ 30)) = true ∧
      redRegion (request reqReduce 0xB0 (List.replicate 256 0) (2 ^ 30)) = true ∧
      endpoint.redRegionOk (request reqReduce 0xB0 (List.replicate 256 0) (2 ^ 30)) = true) := by decide +kernel

/-- The index holds a TREE entry for partition 0, and its tree is valid. -/
def treed : State := { endpoint.setFld Reg.FWD_CTL.idx_en 1 with
  fwd := { index := [{ addr := 2 ^ 63, len := 1, kind := kindTree, partition := 0, node := 0, tree := 9, base := 0 }],
           trees := [(9, { valid := true, mask := 32 })] } }
def wayOf (s : State) (f : Frame) (k : State → MemWay → Bool) : Bool :=
  match meterLeft s f with
  | some (u, b) => k (u.freeBuf b) ((u.countLookup (dieOf 5) f).memWay f)
  | none => false
def fenceFrame : Frame := request reqFence 0 [] (2 ^ 40)
def thruFrame (bs : List Byte) : Frame := { request reqStore 0 bs 0 with dclass := false }
def rspFrame (own : Bool) : Frame := rx ftMemRsp rspAck own [] 7

theorem witness_MemoryWaysAndResponses :
    wayOf endpoint fenceFrame (fun u w => w == .fence && decide (u.windowSize ≤ fenceFrame.address.toNat) && u.fenceReady ⟨0, 5, fenceFrame, 0⟩) = true ∧
    wayOf treed (request reqMcast 0 (List.replicate 8 0) (2 ^ 63)) (fun _ w => match w with | .tree _ => true | _ => false) = true ∧
    wayOf endpoint (request reqLoad 0 [] 4) (fun _ w => w == .nack nkForm) = true ∧
    wayOf endpoint (request reqStore 0 (List.replicate 8 0) (2 ^ 40)) (fun _ w => w == .nack nkWindow) = true ∧
    wayOf endpoint (request 9 0 [] 0) (fun _ w => w == .nack nkForm && !knownReq 9) = true ∧ nkForm ≠ nkIndex ∧ nkWindow ≠ nkIndex ∧
    ((meterLeft endpoint (thruFrame [])).isSome = true ∧ reqForm (thruFrame []) = false) ∧
    (reqForm (thruFrame (List.replicate 8 0)) = true ∧ ((meterLeft endpoint (thruFrame (List.replicate 8 0))).any fun x =>
      !(x.1.offer (thruRange (dieOf (x.1.route 0)) (thruFrame (List.replicate 8 0))) ⟨0, 5, thruFrame (List.replicate 8 0), 0⟩
        (x.1.bit Reg.MSF_CTL.combine_thru_en)).2) = true) ∧
    (endpoint.parked 5 (rspFrame false) 0).isSome = true ∧
    ((endpoint.parked 5 (rspFrame true) (BitVec.ofInt 80 endpoint.ft16)).any fun x => x.1.mine (rspFrame true) &&
      ((x.1.freeBuf x.2).msf.thrus.find? (fun r => r.seq == 0)).isNone && ((x.1.freeBuf x.2).seqThread 0).isNone) = true := by decide +kernel

def oneReq : MemReq := ⟨3, 5, request reqFence 0 [] 0, 0⟩
def comb (qs : List MemReq) : Comb := { id := 4, die := 0, thru := false, dnode := 0, lo := 0, len := 256, first := 0, lastAt := 0, qs := qs }
def merged (qs : List MemReq) : State := at_ { live with msf := { combs := [comb qs] } } 100000000
def accessWord (s : State) (w : Nat) (v : W32) : Bool := s.accessRefused 0 w v

theorem witness_MemoryEvents : ({ live with msf := { writes := [(383, [.one oneReq 0])] } } : State).msf.writes.read [] 383 = [.one oneReq 0] ∧
    (({ live with msf := { fences := [oneReq] } } : State).msf.fences.find? (fun q => q.serial = 3) = some oneReq ∧
      ({ live with msf := { fences := [oneReq] } } : State).fenceReady oneReq = true) ∧
    (({ live with msf := { mcasts := [(3, { req := oneReq, report := 0 })] } } : State).msf.mcasts.get 3 = some { req := oneReq, report := 0 } ∧
      ({ live with msf := { mcasts := [(3, { req := oneReq, report := 0 })] } } : State).mcastFinal 3 = true) ∧
    ((merged [oneReq]).msf.combs.find? (fun c => c.id = 4) = some (comb [oneReq]) ∧ 0 + (merged [oneReq]).mergeWindow ≤ (merged [oneReq]).ft ∧
      0 + (merged []).idleClose ≤ (merged []).ft) ∧
    (let s := (at_ { live with msf := { thrus := [⟨8, reqStore, 0, 0, []⟩] } } 1600000).setFld Reg.MSF_RSP_TIMEOUT.timeout 1
     s.msf.thrus.find? (fun r => r.seq == 8) = some ⟨8, reqStore, 0, 0, []⟩ ∧ 0 + s.fld Reg.MSF_RSP_TIMEOUT.timeout * 1600000 ≤ s.ft) ∧
    (endpoint.answers (accessOff 0 2) = true ∧ endpoint.answers (accessOff 255 0) = true ∧
      endpoint.bit Reg.CFG_CTL.local_write_en = true ∧ accessWord endpoint 1 0 = true ∧ accessWord endpoint 1 2 = false) := by decide +kernel

/-! ### Witnesses: the orrery -/

/-- Thread 5 of core 3. -/
def thr : Nat := 64 * 3 + 5
def thrBv : BitVec 14 := 197
/-- A program of some words whose only thread index is 5, with 1 KiB of scratch. -/
def progWith (code : List W32) : Prog :=
  { id := 0x0C11, privileged := false, transform := true, code := code, data := [], chunkLines := 4, scratchKib := 1, budget := 1,
    far := List.replicate 8 0, idx := [5], scratch := 0, meas := [] }
/-- The orrery runs, core 3 is in service, and its thread 5 is as given. -/
def oryState (code : List W32) (x : Thread) : State :=
  { (live.setFld Reg.ORY_CTL.orrery_en 1).setFld (Reg.ORY_CORE.in_service 3) 1 with
    ory := { progs := [(2, progWith code)], threads := [(thr, x)] } }
/-- An instruction word by op, d, a, b and fn (Table 13-2). -/
def oryWord (op d a b fn : Nat) : W32 := BitVec.ofNat 32 (op * 2 ^ 26 + d * 2 ^ 21 + a * 2 ^ 16 + b * 2 ^ 11 + fn)
/-- The thread issues an instruction (Safety's at_). -/
def issues (s : State) (o : OryOp) (w k : W32) : Bool :=
  s.threadReady thr && (match s.thrProg thr with
    | some p => p.opAt (s.thread thr).pc == some (o, w, k) && !p.overBudget (s.thread thr)
    | none => false)
def issuesAll (l : List (OryOp × W32)) : Bool := l.all fun e => issues (oryState [e.2] { }) e.1 e.2 0

/-- The scalar instructions of Table 13-3 with words written from its op and fn columns. -/
theorem witness_ScalarInstructions : issuesAll
    [(.add, oryWord 0x01 3 1 2 0), (.sub, oryWord 0x01 3 1 2 1), (.and, oryWord 0x01 3 1 2 2), (.or, oryWord 0x01 3 1 2 3),
     (.xor, oryWord 0x01 3 1 2 4), (.shl, oryWord 0x01 3 1 2 5), (.shr, oryWord 0x01 3 1 2 6), (.sra, oryWord 0x01 3 1 2 7),
     (.slt, oryWord 0x01 3 1 2 8), (.sltu, oryWord 0x01 3 1 2 9), (.min, oryWord 0x01 3 1 2 10), (.max, oryWord 0x01 3 1 2 11),
     (.mul, oryWord 0x01 3 1 2 12), (.mulh, oryWord 0x01 3 1 2 13), (.srr, oryWord 0x01 3 1 2 14), (.popc, oryWord 0x01 3 1 0 15),
     (.addi, oryWord 0x02 3 1 31 2047), (.andi, oryWord 0x03 3 1 0 1), (.ori, oryWord 0x04 3 1 0 1), (.xori, oryWord 0x05 3 1 0 1),
     (.shli, oryWord 0x06 3 1 0 63), (.shri, oryWord 0x07 3 1 0 63), (.srai, oryWord 0x08 3 1 0 63), (.slti, oryWord 0x09 3 1 0 1),
     (.time, oryWord 0x0D 3 0 0 0), (.self, oryWord 0x0E 3 0 0 0), (.setfar, oryWord 0x0F 0 1 0 7),
     (.beq, oryWord 0x10 3 1 0 1), (.bne, oryWord 0x11 3 1 0 1), (.blt, oryWord 0x12 3 1 0 1), (.bge, oryWord 0x13 3 1 0 1),
     (.bltu, oryWord 0x14 3 1 0 1), (.bgeu, oryWord 0x15 3 1 0 1), (.jmp, oryWord 0x16 0 0 0 1), (.jr, oryWord 0x18 0 1 0 0),
     (.jal, oryWord 0x17 3 0 31 2047)] = true ∧
    issues (oryState [oryWord 0x0A 3 0 0 0, 7] { }) .const (oryWord 0x0A 3 0 0 0) 7 = true ∧
    issues (oryState [oryWord 0x0B 3 0 0 0, 7] { }) .consth (oryWord 0x0B 3 0 0 0) 7 = true ∧
    (0 ≤ ((0 : Int) + 1 + fSimm (oryWord 0x17 3 0 31 2047)) ∧ (0 : Int) + 1 + fSimm (oryWord 0x17 3 0 31 2047) < 1) := by decide +kernel

theorem witness_VectorInstructions : (oryState [] { }).pmuRuns = false ∧ issuesAll
    [(.vadd, oryWord 0x24 3 1 2 0), (.vsub, oryWord 0x25 3 1 2 1024), (.vand, oryWord 0x26 3 1 2 0), (.vor, oryWord 0x27 3 1 2 0),
     (.vxor, oryWord 0x28 3 1 2 0), (.vmin, oryWord 0x29 3 1 2 0), (.vmax, oryWord 0x2A 3 1 2 0), (.vshl, oryWord 0x2B 3 1 31 512),
     (.vsra, oryWord 0x2C 3 1 2 0), (.vmul, oryWord 0x2D 3 1 2 0), (.vmulq, 0xB8007210), (.vsrr, oryWord 0x2F 3 1 2 0),
     (.vclamp, oryWord 0x30 3 1 2 1024), (.vclt, oryWord 0x31 0 1 2 0), (.vceq, oryWord 0x32 0 1 2 0), (.vcle, oryWord 0x33 0 1 2 0),
     (.vsel, oryWord 0x34 3 1 2 0), (.vred, oryWord 0x35 31 1 0 1026), (.vbcast, oryWord 0x36 7 31 0 0), (.vget, oryWord 0x37 31 7 0 15),
     (.vput, oryWord 0x38 7 31 0 15), (.mset, oryWord 0x39 0 1 0 0), (.mget, oryWord 0x39 3 0 0 1), (.popm, oryWord 0x39 3 0 0 2),
     (.mnot, oryWord 0x39 0 0 0 3), (.vsort, oryWord 0x3A 3 1 2 0)] = true := by decide +kernel

/-- The single access goes to byte o of core 3's scratch. -/
def inScratch (o : Nat) (r : Except (Nat × W64) (List (Acc × Place))) : Bool :=
  match r with
  | .ok [(_, .scratch 3 n)] => n == o
  | _ => false
def memAt (o : OryOp) (w : W32) (op : BitVec 8) (m : Acc → Nat) (a : Acc) (write : Bool) : Bool :=
  let s := oryState [w] { mask := 1 }
  issues s o w 0 && inScratch 0 (s.places thr (s.thread thr) (progWith [w]) op m [a] write)

theorem witness_MemoryInstructions :
    [(OryOp.ld, 0x19, 8), (.lw, 0x1A, 4), (.lh, 0x1B, 2), (.lbu, 0x1C, 1)].all (fun e =>
      memAt e.1 (oryWord e.2.1 3 0 0 0) reqLoad (fun a => loadMod a.n) { lane := 0, addr := 0, n := e.2.2 } false) = true ∧
    [(OryOp.st, 0x1D, 8), (.stw, 0x1E, 4), (.sth, 0x1F, 2)].all (fun e =>
      memAt e.1 (oryWord e.2.1 3 0 0 0) reqStore (fun _ => 0) { lane := 0, addr := 0, n := e.2.2, data := leBytes e.2.2 0 } true) = true ∧
    (memAt .amo (oryWord 0x0C 3 0 0 1) reqAtomic (fun _ => 1) { lane := 0, addr := 0, n := 8, data := leBytes 8 0 } true = true ∧
      (atomicNew 1 0 0 0).isSome = true) ∧
    (memAt .vld (oryWord 0x20 3 0 0 0) reqLoad (fun a => loadMod a.n) { lane := 0, addr := 0, n := 128 } false = true ∧
      Thread.vecAccs { } 0 [] = [{ lane := 0, addr := 0, n := 128 }]) ∧
    (memAt .vst (oryWord 0x21 3 0 0 0) reqStore (fun _ => 0) { lane := 0, addr := 0, n := 128, data := laneList (Thread.vlanes { } 3) } true = true ∧
      Thread.vecAccs { } 0 (laneList (Thread.vlanes { } 3)) = [{ lane := 0, addr := 0, n := 128, data := laneList (Thread.vlanes { } 3) }]) ∧
    (issues (oryState [oryWord 0x22 3 0 1 0x400] { }) .vgather (oryWord 0x22 3 0 1 0x400) 0 = true ∧
      issues (oryState [oryWord 0x23 3 0 1 0x400] { }) .vscatter (oryWord 0x23 3 0 1 0x400) 0 = true ∧
      Thread.laneAccs { } (oryWord 0x22 3 0 1 0x400) = []) ∧
    (Thread.laneAccs { mask := 1 } (oryWord 0x22 3 0 1 0x400) = [{ lane := 0, addr := 0, n := 8, data := leBytes 8 0 }] ∧
      memAt .vgather (oryWord 0x22 3 0 1 0x400) reqLoad (fun a => loadMod a.n) { lane := 0, addr := 0, n := 8, data := leBytes 8 0 } false = true ∧
      memAt .vscatter (oryWord 0x23 3 0 1 0x400) reqStore (fun _ => 0) { lane := 0, addr := 0, n := 8, data := leBytes 8 0 } true = true) ∧
    (issues (oryState [oryWord 0x19 3 0 0 4] { }) .ld (oryWord 0x19 3 0 0 4) 0 = true ∧
      (Thread.iAddr { } (oryWord 0x19 3 0 0 4)).toNat % 8 ≠ 0) := by decide +kernel

def post : Token := ⟨some thr, 2, 2, 0, 9, 0⟩
/-- The SEG_FINAL token of lines 0 to 3 of segment 0, cseq 0, group 3, under handle 1. -/
def final : Token := ⟨none, 2, BitVec.ofNat 64 (1 + 3 * 2 ^ 16), BitVec.ofNat 64 (4 * 2 ^ 31 + 2 ^ 46), 0, 0⟩
def waiting : Thread := { waiting := some 8 }
def queueing (q : List Token) (x : Thread) : State :=
  let s := oryState [] x
  { s with ory := { s.ory with tokens := [(3, q)] } }
def fullQueue : List Token := List.replicate 256 post
def holding (w : W32) : State :=
  { oryState [w] { regs := [(1, final.w1)], chunk := some final } with
    cnj := { segs := [(segKey 3 0 0, { state := .final, lines := 64, chunks := [(0, 4)] })], handles := [(segKey 3 0 0, 1)] } }
def postWord : W32 := oryWord 0x3E 3 1 2 0
def toSelf : Thread := { regs := [(1, 197)] }
def timed : State := { (oryState [] { }) with ory := { (oryState [] { }).ory with timers := [⟨thr, 0, 9⟩] } }

theorem witness_SystemInstructions : ((oryState [] { }).thread thr).chunk = none ∧
    (issues (oryState [0xF1000000] { }) .wait 0xF1000000 0 = true ∧ (progWith []).unloading = none) ∧
    (let s := queueing [post] waiting
     (s.thread thr).waiting = some 8 ∧ s.bit Reg.ORY_CTL.orrery_en = true ∧ s.coreIn (thrCore thr) = true ∧
      (s.thread thr).stopped = false ∧ (s.thrProg thr).any (fun p => !p.suspended) = true ∧
      s.ory.tokens.read [] (thrCore thr) = [post] ∧ s.tokenFor thr post = true ∧ s.pmuRuns = false) ∧
    (let s := holding (oryWord 0x3D 3 1 0 0)
     issues s .release (oryWord 0x3D 3 1 0 0) 0 = true ∧ (s.thread thr).badStore = none ∧ (s.thread thr).chunk = some final ∧
      final.w1 = (s.thread thr).get 1 ∧ s.chunkHeld final = true) ∧
    issues (oryState [oryWord 0x3D 3 1 0 0] { }) .release (oryWord 0x3D 3 1 0 0) 0 = true ∧
    (let s := oryState [postWord] toSelf
     issues s .post postWord 0 = true ∧ ((s.thread thr).get (fA postWord)).toNat / 2 ^ 14 % 2 = 0 ∧
      ((s.thread thr).get (fA postWord)).toNat % 2 ^ 14 = thr ∧ s.coreIn (thrCore thr) = true ∧ s.thrSlot thr = s.thrSlot thr ∧
      (s.ory.tokens.read [] (thrCore thr)).length < tokenRoom ∧ tokenRoom ≤ fullQueue.length ∧
      ((queueing fullQueue toSelf).ory.tokens.read [] (thrCore thr)).length = 256) ∧
    (issuesAll [(.fence, oryWord 0x3F 0 0 0 0), (.halt, oryWord 0x3F 0 0 0 1), (.fault, oryWord 0x3F 0 0 31 2), (.timer, oryWord 0x3F 0 1 2 3)] = true ∧
      issues (oryState [oryWord 0x3F 0 0 0 0] { posted := [(0, 0)] }) .fence (oryWord 0x3F 0 0 0 0) 0 = true) ∧
    (timed.ory.timers.find? (fun m => m.thread = thr && decide (m.due ≤ timed.ft)) = some ⟨thr, 0, 9⟩ ∧
      (timed.ory.tokens.read [] (thrCore thr)).length < tokenRoom) ∧
    (let s : State := { live with ory := { tileTokens := [(3, post)] } }
     s.ory.tileTokens = [((3 : BitVec 8).toNat, post)] ∧ (s.ory.tokens.read [] 3).length < tokenRoom) ∧
    ((oryState [] { count := 1024 }).threadReady thr = true ∧ (progWith []).overBudget { count := 1024 } = true ∧
      (progWith []).overBudget { count := 1023 } = false ∧ (progWith []).opAt 0 = none ∧ (progWith [0xFC000004]).opAt 0 = none) := by decide +kernel

def progCmd (op : Nat) : W32 := BitVec.ofNat 32 (0x0C11 + op * 2 ^ 16 + 2 ^ 18)
def progCmdOk (s : State) (op : Nat) : Bool := (progCmd op).getLsbD 18 && cmdReg s Reg.ORY_PROG_CMD.addr (progCmd op) &&
  !s.bit Reg.ORY_PROG_CMD.busy && Reg.ORY_PROG_CMD.op.of (progCmd op) == op
def slotOf (s : State) (op : Nat) : Option (Nat × Prog) :=
  (s.storeFields Reg.ORY_PROG_CMD.addr (progCmd op)).progSlot ((progCmd op).toNat % 2 ^ 16)
def faulty : State := { (live.setFld Reg.ORY_CTL.fault_limit 1) with ory := { progs := [(2, { progWith [] with faults := [0, 0] })] } }

theorem witness_Programs : (faulty.ory.progs.get 2).any (fun p => !p.suspended &&
      decide (faulty.fld Reg.ORY_CTL.fault_limit < (p.faults.filter fun f => decide (faulty.ft < f + 16000000000)).length)) = true ∧
    faulty.fld Reg.ORY_CTL.fault_limit ≠ 0 ∧
    ((oryState [] { }).threadReady thr = true ∧ (oryState [] { }).ory.watchdogs = [] ∧
      ((oryState [] { }).albedo 2 (thrCore thr) 9).ory.watchdogs = []) ∧
    progCmdOk live 0 = true ∧ (progCmdOk live 1 = true ∧ slotOf live 1 = none) ∧
    (progCmdOk (oryState [] { }) 1 = true ∧ (slotOf (oryState [] { }) 1).isSome = true ∧ (oryState [] { }).progBound 0x0C11 = false) ∧
    (progCmdOk (oryState [] { }) 2 = true ∧ (slotOf (oryState [] { }) 2).isSome = true) ∧
    ({ live with ory := { loading := some (2, progWith []) } } : State).ory.loading = some (2, progWith []) ∧
    (let s := at_ { live with ory := { progs := [(2, { progWith [] with unloading := some 0 })] } } 16000000
     s.ory.progs = [(2, { progWith [] with unloading := some 0 })] ∧ 0 + 16000000 ≤ s.ft) := by decide +kernel

/-- An image that verifies and keeps its header is one that ORY_PROG_CMD loads. -/
theorem witness_loads (s : State) (b : List Byte) (h : s.progSigned b = true) (k : progHeaderOk b = true) (n : piFlags b % 2 = 0)
    (e : s.ory.progs = []) (f : piThreads b ≤ 64) (z : piScratch b = 0) (l : 4 * piWords b + piData b ≤ 131072) :
    ∃ x, s.progCheck b = (1, some x) := by
  have q : s.freeThreads (piThreads b) = (List.range 64).take (piThreads b) := by
    have o : ((List.range 64).filter fun j => !s.ory.progs.any fun x => x.2.idx.contains j) = List.range 64 := by rw [e]; decide
    rw [State.freeThreads, o]
  have q' : ¬(s.freeThreads (piThreads b)).length < piThreads b := by
    rw [q, List.length_take, List.length_range]; omega
  have w : (List.range 64).find? (fun n => (SMap.get s.ory.progs n).isNone) = some 0 := by rw [e]; decide
  have y : s.progStore = 0 := by simp [State.progStore, e]
  have l' : ¬131072 < s.progStore + 4 * piWords b + piData b := by omega
  have v : s.freeScratch (piScratch b) = some 0 := by simp [State.freeScratch, z]
  have a : (s.ory.progs.any fun x => decide (x.2.id.toNat = piId b)) = false := by simp [e]
  refine ⟨(0, progOf b (s.freeThreads (piThreads b)) 0), ?_⟩
  simp only [State.progCheck, h, k, a, n, v, if_neg l', if_neg q', w]
  simp

/-! ### Witnesses: health, power and temperature -/

def albedoOn : State := live.setFld Reg.HLT_CTL.albedo_en 1
def elemWith (c x : Nat) (e : Elem) : State := albedoOn.setElemAt c x e
def elemCmd (op : Nat) : W32 := BitVec.ofNat 32 (op + 4)
/-- Element x of class c is selected. -/
def selecting (s : State) (c x : Nat) : State := (s.setFld Reg.HLT_ELEM_SEL.class c).setFld Reg.HLT_ELEM_SEL.index x
def elemOk (s : State) (op : Nat) (k : State → Nat → Nat → Bool) : Bool :=
  (elemCmd op).getLsbD 2 && cmdReg s Reg.HLT_ELEM_CMD.addr (elemCmd op) && (elemCmd op).toNat % 4 == op &&
    match (s.storeFields Reg.HLT_ELEM_CMD.addr (elemCmd op)).selected with
    | some (c, x) => k (s.storeFields Reg.HLT_ELEM_CMD.addr (elemCmd op)) c x
    | none => false

theorem witness_ScoresAndExpulsions :
    (inputClass (14 : BitVec 5).toNat (5 : BitVec 3).toNat = true ∧ (511 : BitVec 10).toNat < elemCount 5 ∧
      albedoOn.bit Reg.HLT_CTL.albedo_en = true ∧ (albedoOn.elemAt 5 511).state = .ok ∧ (albedoOn.elemAt 5 511).capped = false ∧
      albedoOn.fld Reg.HLT_THRESH.suspect ≤ (albedoOn.elemAt 5 511).score - albedoOn.fld (Reg.HLT_WEIGHT.weight 14)) ∧
    (let s := (at_ live (2 ^ 50)).setFld (Reg.HLT_BUDGET_CFG.refill (groupClass 100)) 1
     s.fld (Reg.HLT_BUDGET_CFG.refill (groupClass 100)) * 60 * second ≠ 0 ∧
      s.hlt.refillAt.read 0 100 + s.fld (Reg.HLT_BUDGET_CFG.refill (groupClass 100)) * 60 * second ≤ s.ft) ∧
    (((elemWith 5 7 { state := .expelling, started := true }).elemAt 5 7).state = .expelling ∧
      ((elemWith 5 7 { state := .expelling, started := true }).elemAt 5 7).started = true) ∧
    (((elemWith 2 255 { state := .expelling, started := true }).elemAt 2 255).state = .expelling ∧
      ((elemWith 2 255 { state := .expelling, started := true }).elemAt 2 255).started = true) ∧
    ((2 : W32).getLsbD 1 = true ∧ cmdReg live Reg.HLT_BREAKER.addr 2 = true) ∧
    elemOk (selecting albedoOn 0 575) 0 (fun _ c x => c == 0 && x == 575) = true ∧
    elemOk (selecting (elemWith 5 7 { state := .expelled }) 5 7) 1 (fun u c x => (u.elemAt c x).state == .expelled) = true ∧
    elemOk (selecting albedoOn 5 7) 1 (fun u c x => (u.elemAt c x).state == .ok) = true ∧
    elemOk (selecting (albedoOn.setFld Reg.HLT_CTL.fence_cap 1) 5 7) 2 (fun u c x =>
      (u.elemAt c x).state == .ok && (elemGroup c x).isSome && u.spareAvailable c x) = true ∧
    elemOk (selecting albedoOn 3 7) 2 (fun u c x => (u.elemAt c x).state == .ok && (elemGroup c x).isNone) = true ∧
    (let s := at_ { live with cnj := { segs := [(segKey 3 0 0, { audit := some { tile := 5, waitFrom := some 0 } })] } } 10000000
     ((s.seg 3 0 0).bind (·.audit)).bind Audit.waitFrom = some 0 ∧ 0 + max 1 (s.fld Reg.HLT_AUDIT_CFG.audit_wait) * 160 ≤ s.ft) := by decide +kernel

theorem witness_PowerAndTemperature : ({ live with hlt := { critHold := true } } : State).hlt.critHold = true ∧
    ({ live with hlt := { critRun := 1000 } } : State).hlt.critRun = 1000 ∧
    (({ live with hlt := { hot105 := [(0, 3)], hot110 := [(0, 3)] } } : State).hlt.hot105.any (fun e => 3 ≤ e.2) = true ∧
      ({ live with hlt := { hot105 := [(0, 3)], hot110 := [(0, 3)] } } : State).hlt.hot110.any (fun e => 3 ≤ e.2) = true ∧
      live.hlt.critHold = false ∧ live.hlt.thermtripOn = false) ∧
    (let s := at_ { live with hlt := { critHold := true, coolSince := some 0 } } 16000000
     s.hlt.coolSince = some 0 ∧ s.hlt.critHold = true ∧ 0 + 16000000 ≤ s.ft) := by decide +kernel

/-! ### Witnesses: configuration -/

/-- An image of a kind with one section (code, scope, bytes): header, directory, section and a signature of ones. -/
def image (kind epoch tAct code scope : Nat) (bs : List Byte) : List Byte :=
  leBytes 4 0x4F494C46 ++ [1, BitVec.ofNat 8 kind] ++ leBytes 2 1 ++ leBytes 4 (258 + bs.length) ++ leBytes 4 0xA1 ++ leBytes 4 0 ++
    leBytes 4 epoch ++ leBytes 8 tAct ++ List.replicate 96 0 ++ leBytes 2 code ++ [BitVec.ofNat 8 scope, 0] ++ leBytes 4 144 ++
    leBytes 4 bs.length ++ leBytes 4 0 ++ bs ++ List.replicate 114 0xFF
/-- PARTITIONS: a SPILL partition on each die and the ALMANAC. -/
def partitions : List Byte :=
  (List.range 16).flatMap fun n =>
    if n < 4 then leBytes 4 (1 + n * 2 ^ 4 + 2 ^ (6 + 3 * n)) ++ leBytes 4 0 ++ leBytes 4 384
    else if n = 4 then leBytes 4 (5 + 2 ^ 6) ++ leBytes 4 384 ++ leBytes 4 1
    else leBytes 12 0
def folio : List Byte := image 0 0 0 3 1 partitions
/-- A flash area that holds some bytes; erased bytes are not listed. -/
def flashMap (b : List Byte) : SMap Byte := (b.zipIdx.filter fun e => e.1 ≠ 0xFF).map fun e => (e.2, e.1)
/-- A folio of 242 bytes with no signature that verifies. -/
def badFolio : List Byte := List.replicate 8 0xFF ++ leBytes 4 242 ++ List.replicate 230 0xFF
def folioState (b : List Byte) : State :=
  (({ live with cfg := { flash := { folio := flashMap b } } } : State).setFld Reg.GLB_STATUS.boot 2)
/-- An amendment that writes HLT_CTL. -/
def amendment : List Byte := image 1 1 (2 ^ 40) 1 1 (leBytes 4 Reg.HLT_CTL.addr ++ leBytes 4 0)

/-- A folio whose signature verifies has no error. -/
theorem folio_without_error (s : State) (b : List Byte) (h : s.roleVerifies roleFolio ctxFolio b = true)
    (hf : imgFormatOk b 0 0x8000000 = true) (ht : targetOk b = true) (hc : s.contentErr true b = none) : s.folioErr b = none := by
  simp [State.folioErr, h, hf, ht, hc]
theorem witness_folioApplies (h : (folioState folio).roleVerifies roleFolio ctxFolio folio = true) :
    (folioState folio).folioErr folio = none :=
  folio_without_error _ _ h (by decide +kernel) (by decide +kernel) (by decide +kernel)

/-- An amendment whose signature verifies is staged. -/
theorem witness_amendmentStages (h : live.roleVerifies roleAmend ctxAmend amendment = true) :
    live.amendTrouble amendment = none := by
  have a : imgFormatOk amendment 1 0x800000 = true ∧ targetOk amendment = true ∧ imgDomain amendment = live.fld Reg.CFG_DOMAIN.value ∧
      imgEpoch amendment = (live.fld Reg.CFG_EPOCH.value + 1) % 2 ^ 32 ∧ live.bit Reg.CFG_STATUS.colophon_busy = false ∧
      imgBase amendment = live.colophon ∧ ((imgDir amendment).any fun r => !amendable r.code) = false ∧
      live.contentErr false amendment = none ∧ live.armTrouble amendment = none := by decide +kernel
  simp [State.amendTrouble, h, a]

def mgmt (n : BitVec 8) (bs : List Byte) : Frame := { rx ftMgmt n true bs 7 with snode := 7 }
def fragment : Frame := { mgmt mgAmendFrag (List.replicate 256 0) with w6 := 512 }
/-- The state in which the rule of a MGMT frame for this spine runs. -/
def mgmtAt (s : State) (f : Frame) (k : State → Bool) : Bool :=
  match s.parked 5 f 0 with
  | some (u, b) => u.mine f && k (u.freeBuf b)
  | none => false
def unitState (len : Nat) (preset : Nat) : State :=
  (live.setFld (Reg.CFG_CU_LEN_LO.value 31) len).setFld (Reg.CFG_CU_CTL.preset 31) preset
def unitWord (preset : Nat) : W32 :=
  (((live.setFld (Reg.CFG_CU_CTL.go 31) 1).setFld (Reg.CFG_CU_CTL.preset 31) preset).setFld (Reg.CFG_CU_CTL.src 31) 1).reg (Reg.CFG_CU_CTL.addr 31)
def pendingState : State :=
  { live with cfg := { pendingAmend := some ⟨[], 2 ^ 40, 1⟩ }, acts := [(objAmend, { pending := true, tAct := 2 ^ 40 })] }

theorem witness_FolioAndAmendments :
    ((folioState []).fld Reg.GLB_STATUS.boot = 2 ∧ (folioState []).flashFolio = none) ∧
    (folioState folio).flashFolio = some folio ∧ (folioState badFolio).flashFolio = some badFolio ∧
    (live.setFld Reg.CFG_STATUS.colophon_busy 1).bit Reg.CFG_STATUS.colophon_busy = true ∧
    (cmdReg live Reg.CFG_AMEND_CMD.addr 2 = true ∧ (2 : W32).getLsbD 1 = true ∧ (2 : W32).getLsbD 0 = false ∧
      (live.storeFields Reg.CFG_AMEND_CMD.addr 2).bit Reg.CFG_STATUS.staging_busy = false) ∧
    (cmdReg pendingState Reg.CFG_AMEND_CMD.addr 3 = true ∧
      (let u := pendingState.storeFields Reg.CFG_AMEND_CMD.addr 3
       u.cfg.pendingAmend = some ⟨[], 2 ^ 40, 1⟩ ∧ (u.act objAmend).pending = true ∧
        u.ft + u.fld Reg.EPH_ACT_LEAD.value ≤ (u.act objAmend).tAct)) ∧
    mgmtAt (credited.setFld Reg.CFG_CTL.mgmt_amend_en 0) fragment (fun w => !w.bit Reg.CFG_CTL.mgmt_amend_en) = true ∧
    mgmtAt (credited.setFld Reg.CFG_CTL.mgmt_amend_en 1) { fragment with w6 := 5000, payload := List.replicate 4096 0 } (fun w =>
      w.bit Reg.CFG_CTL.mgmt_amend_en && (match fragWay (w.cfg.transfers.get xfAmend) (.fabric 5 7 false 0) 0 5000 4096 0x800000 true with
        | .taken false => true
        | _ => false)) = true ∧
    mgmtAt managed (mgmt mgAmendCancel []) (fun w => w.isManager 7 false) = true ∧
    mgmtAt (credited.setFld Reg.CFG_CTL.query_en 1) (mgmt mgColophon []) (fun w => w.bit Reg.CFG_CTL.query_en) = true ∧
    (let s := at_ { live with cfg := { transfers := [(0, { src := .mailbox, next := 0, last := 0, total := 8, at_ := 0 })] } } 1600000000
     (s.cfg.transfers.get 0).any (fun x => x.answer.isNone && decide (x.at_ + 1600000000 ≤ s.ft)) = true) ∧
    (cmdReg live (Reg.CFG_CU_CTL.addr 31) (unitWord 1) = true ∧ (Reg.CFG_CU_CTL.go 31).of (unitWord 1) = 1 ∧
      ((unitState 8 15).storeFields (Reg.CFG_CU_CTL.addr 31) (unitWord 15)).cuParams 31 = none ∧
      (let u := (unitState 8 1).storeFields (Reg.CFG_CU_CTL.addr 31) (unitWord 1)
       (u.cuParams 31).isSome = true ∧ u.cfg.cuJobs.get 31 = none ∧ u.pair (Reg.CFG_CU_LEN_LO.value 31) = 8 ∧
        u.pair (Reg.CFG_CU_SRC_LO.value 31) + 8 ≤ (if u.bit (Reg.CFG_CU_CTL.src 31) then flashSize else dpaEnd))) ∧
    (({ live with cfg := { cuJobs := [(31, ⟨true, 0, 8, 32, 0, 0, false, false, false, 0⟩)] } } : State).cfg.cuJobs.get 31).any
      (fun c => c.flash && !c.compare) = true := by decide +kernel

/-! ### Witnesses: management, security, resets, PMU -/

/-- A device with its host link up, the out-of-band port open, every class allowed. -/
def served : State :=
  (((live.setFld Reg.GLB_STATUS.host_up 1).setFld Reg.GLB_CTL.oob_en 1).setReg Reg.GLB_CMD_MASK.addr 0xFFF).setFld Reg.SEC_CTL.spdm_en 1
/-- Every opcode that has a class runs. -/
def allRun (s : State) (tp : Transport) : Bool := archOpcodes.all fun op => s.archWay tp op == .run
def oobTp : Transport := .oob 0x123456 7
def byFabric : Transport := .fabric 5 7 false 3

theorem witness_transports : allRun served .mailbox = true ∧ allRun served oobTp = true ∧
    allRun (served.setReg (Reg.CFG_MANAGER.addr 0) 0x80000007) byFabric = true ∧
    served.archWay .mailbox 0x0301 = .refused ∧ served.archWay .mailbox 0x1234 = .refused ∧
    (served.setFld Reg.GLB_STATUS.boot 4).archWay oobTp 0xC00B = .refused ∧
    (served.setReg Reg.GLB_CMD_MASK.addr 0).archWay .mailbox 0xC00B = .refused := by decide +kernel

def entryA : LogEntry := ⟨9, 0, .health 1⟩
theorem witness_StandardCommands : (3 : Byte).toNat < 4 ∧
    (({ served with arc := { eventLogs := [(3, [entryA])] } } : State).eventLog 3 = [entryA] ∧ ([9, 0] : List Byte).length = 2 ∧
      numAt [9, 0] 0 2 = entryA.handle.toNat ∧ served.arc.logOverflow.get 3 = none) ∧
    served.xfOpen xfFirmware = false ∧
    (let x : List Byte := 1 :: List.replicate 127 0 ++ [7, 7]
     128 ≤ x.length ∧ numAt x 0 1 = 1 ∧ numAt x 4 4 = 0 ∧ (x.drop 128).length ≤ 0x4000000) ∧
    (({ served with sec.fwStaged := true } : State).archReply .mailbox 0x0202 0 []).fld Reg.GLB_STATUS.boot ≠ 4 ∧
    ((celId ++ leBytes 4 0 ++ leBytes 4 8).length = 24 ∧ (celId ++ leBytes 4 0 ++ leBytes 4 8).take 16 = celId ∧
      0 + 8 ≤ celBytes.length) := by decide +kernel

/-- A firmware image with the layout of Table 17-4. -/
def firmware : List Byte :=
  leBytes 4 0x57464E5A ++ [1, 0xA1, 0, 0] ++ leBytes 4 434 ++ leBytes 4 0 ++ List.replicate 112 0 ++ List.replicate 57 0xFF ++
    List.replicate 7 0 ++ List.replicate 114 0xFF ++ List.replicate 14 0 ++ List.replicate 114 0xFF
def withFirmware : State := { (served.setFld Reg.GLB_STATUS.boot 1) with cfg := { flash := { firmware := flashMap firmware } } }

theorem good_firmware (s : State) (b : List Byte) (hf : s.flashFw = some b) (hl : fwLayoutOk b = true) (h : fwSigned b = true) :
    s.goodFw = some b := by
  simp [State.goodFw, hf, hl, h]
theorem cfg_raise (s : State) (f : Fld) : (s.raise f).cfg = s.cfg := by rw [State.raise_eq]
theorem cfg_log (s : State) (b : BitVec 8) (e : AlmEvent) (n : Nat) (d : List Nat) : (s.log b e n d).cfg = s.cfg := by
  rw [(s.log_same b e n d).2]
theorem cfg_deriveIdentity (s : State) : s.deriveIdentity.cfg = s.cfg := by
  unfold State.deriveIdentity
  have h (v : State) (a : Nat → Nat) (bs : List Byte) : (v.putDigest a bs).cfg = v.cfg := by simp [State.putDigest, List.range, List.range.loop]
  dsimp only
  split <;> split <;> simp [State.localMac, cfg_raise, cfg_log, h]
/-- Firmware whose signatures verify is good, for an activation as for the boot chain. -/
theorem witness_firmware (h : fwSigned firmware = true) : withFirmware.goodFw = some firmware ∧
    withFirmware.deriveIdentity.goodFw = some firmware :=
  have f : withFirmware.flashFw = some firmware := by decide +kernel
  have l : fwLayoutOk firmware = true := by decide +kernel
  ⟨good_firmware _ _ f l h, good_firmware _ _ (by simpa [State.flashFw, cfg_deriveIdentity] using f) l h⟩

theorem witness_noFirmware : (live.setFld Reg.GLB_STATUS.boot 1).deriveIdentity.goodFw = none := by
  have f : (live.setFld Reg.GLB_STATUS.boot 1).goodFw = none := by decide +kernel
  have e : (live.setFld Reg.GLB_STATUS.boot 1).deriveIdentity.goodFw = (live.setFld Reg.GLB_STATUS.boot 1).goodFw := by
    simp only [State.goodFw, State.flashFw, cfg_deriveIdentity]
  rw [e, f]

def amendBytes : List Byte := leBytes 4 0 ++ leBytes 4 512 ++ List.replicate 256 0
def oneProg : Prog :=
  { id := 7, privileged := false, transform := false, code := [], data := [], chunkLines := 1, scratchKib := 0, budget := 0, far := [],
    idx := [], scratch := 0, meas := [] }
theorem witness_DeviceCommands :
    (8 ≤ amendBytes.length ∧ 0 + (amendBytes.drop 8).length ≠ 512 ∧ numAt amendBytes 4 4 = 512 ∧
      fragWay (served.cfg.transfers.get xfAmend) .mailbox 0 512 256 0x800000 false = .taken false ∧
      fragWay (served.cfg.transfers.get xfProgram) .mailbox 0 512 256 262144 false = .taken false ∧
      fragWay (served.cfg.transfers.get xfFolio) .mailbox 0 512 256 0x8000000 false = .taken false) ∧
    served.inBackground .mailbox = false ∧ served.bit Reg.ORY_PROG_CMD.busy = false ∧ served.backgroundOf 0xC006 = false ∧
    ((served.beginUnload 7 false (some .mailbox)).2 = some 4 ∧
      ({ served with ory := { progs := [(0, oneProg)] } } : State).progBound 7 = false) ∧
    (({ served with arc := { background := [(0, ⟨0xC006, .mailbox, false⟩)] } } : State).arc.background.find?
      (fun e => e.2.opcode = 0xC006)).isSome = true ∧
    (numAt (leBytes 4 767) 0 4 < 768 ∧ numAt (leBytes 2 640 ++ leBytes 2 7) 0 2 + numAt (leBytes 2 640 ++ leBytes 2 7) 2 2 ≤ 647) ∧
    (0 % 4 = 0 ∧ (256 : Nat) ≤ 256 ∧ served.apertureAbsent 0 256 = false) ∧ Reg.GLB_CTL.addr ≠ Reg.GLB_RESET_CMD.addr ∧
    Reg.GLB_CTL.addr % 4 = 0 ∧ Reg.GLB_CTL.addr < 0x20000000 ∧ numAt (leBytes 4 0x52455345) 0 4 = 0x52455345 := by decide +kernel

def almRec (n : Nat) : AlmRec := ⟨n, 0, 0, 4, .vinLow, 0, 0, 0, []⟩
/-- The ALMANAC partition on stack 0, one record not yet copied. -/
def almanacked : State :=
  { (((served.setReg (Reg.STK_PART.addr 0) 0x45).setReg (Reg.STK_PART.addr 2) 1).setFld Reg.STK_STATUS.stack_ok 1) with
    alm := { seq := 1, ring := [almRec 1] } }
def oobBody (tp op flags n : Nat) (bs : List Byte) : List Byte :=
  leBytes 2 tp ++ leBytes 2 op ++ leBytes 4 flags ++ leBytes 4 0 ++ leBytes 4 n ++ bs
theorem witness_ArchivistEvents :
    (almanacked.almanacHome = true ∧ almanacked.alm.copied < almanacked.alm.seq ∧
      almanacked.alm.seq = almanacked.alm.copied + almanacked.alm.uncopied.length) ∧
    (served.archRuns = true ∧ almanacked.archRuns = true ∧ almanacked.summaryDue = true) ∧
    (Reg.GLB_CTL.alert_ack.of (BitVec.ofNat 32 (2 ^ Reg.GLB_CTL.alert_ack.lo)) = 1 ∧ State.reset.eph.state.drives = false) ∧
    (served.bit Reg.GLB_CTL.oob_en = true ∧ 2 ≤ served.fld Reg.GLB_STATUS.boot ∧
      (oobBody 7 0xC009 0 600 (List.replicate 512 1)).length ≤ 1040 ∧ numAt (oobBody 7 0xC009 0 600 (List.replicate 512 1)) 8 4 = 0 ∧
      numAt (oobBody 7 0xC009 0 600 (List.replicate 512 1)) 4 1 = 0) ∧
    (16 ≤ (oobBody 7 1 2 0 []).length ∧ numAt (oobBody 7 1 2 0 []) 4 1 = 2 ∧ numAt (oobBody 7 1 2 0 []) 2 2 = 1 ∧
      numAt (oobBody 7 1 2 0 []) 12 4 = 0 ∧ ({ served with arc := { oobRx := none } } : State).archWay oobTp 0x0001 = .run) := by
  decide +kernel

/-- A WINDOW partition of four times 64 MiB on each of stacks 0 to 3, and decoder 0 over its 256 MiB. -/
def windowed : State :=
  ({ ((served.setReg (Reg.STK_PART.addr 0) (BitVec.ofNat 32 (2 + 15 * 64))).setReg (Reg.STK_PART.addr 1) 0).setReg (Reg.STK_PART.addr 2) 1 with
    hdm := [(0, { size := 0x10000000, committed := true })] } : State)
theorem witness_HostInterface :
    served.bit Reg.GLB_STATUS.host_up = true ∧ served.hpaDpa 64 = none ∧
    (windowed.decoderOk 1 ⟨0x10000000, 0x10000000, 1, 256, 0, 0, false, false⟩ = false ∧
      windowed.decoderOk 0 ⟨0, 0x10000000, 1, 256, 0, 0, false, false⟩ = true) ∧
    ((windowed.hpaDpa 0x0FFFFFC0).any fun d => windowed.holdPage d 64 { } (.cxlRead 0x0FFFFFC0) == none &&
      windowed.holdWords d [] { } (.cxlWrite 0x0FFFFFC0 (List.replicate 64 1)) == none) = true ∧
    windowed.hpaDpa 0x10000000 = none ∧ windowed.pmuRuns = false ∧
    ({ live with pwr := { live.pwr with perst := true } } : State).pwr.resetting = false := by decide +kernel

def ownerWord (op : Nat) : W32 := BitVec.ofNat 32 (2 ^ Reg.SEC_OWNER_CMD.go.lo + op * 2 ^ Reg.SEC_OWNER_CMD.op.lo)
/-- An owner record of one key with every role. -/
def ownerRecord : List Byte :=
  leBytes 4 0x524E574F ++ [1, 1, 0, 0] ++ leBytes 4 1 ++ List.replicate 20 0 ++ List.replicate 57 0 ++ [31] ++ List.replicate 312 0
def staging (b : List Byte) (s : State) : State :=
  ({ s with cfg := { secStage := writeBytes [] 0 b } } : State).setFld Reg.SEC_OWNER_LEN.bytes b.length
/-- SPDM negotiated; a device that has its identity. -/
def spdmState : State := { ((served.setFld Reg.SEC_STATUS.identity 1).setFld Reg.SEC_STATUS.alias_ready 1) with sec := { spdm := 3 } }
def spdmReq (code p1 p2 : Byte) (bs : List Byte) : List Byte := [if code = 0x84 then 0x10 else 0x13, code, p1, p2] ++ bs
def readyFor (code stage : Nat) (req : List Byte) : Bool := decide (spdmState.bit Reg.GLB_STATUS.host_up = true ∧ spdmCode req = code ∧
    4 ≤ req.length ∧ spdmState.fld Reg.GLB_STATUS.boot ≠ 4 ∧ spdmState.bit Reg.SEC_CTL.spdm_en = true ∧
    numAt req 0 1 = (if code = spVersion then 0x10 else 0x13) ∧ stage ≤ spdmState.sec.spdm)
def debugObject : List Byte := List.replicate 370 0

theorem witness_SecurityCommands :
    (cmdReg served Reg.SEC_OWNER_CMD.addr (ownerWord 0) = true ∧ served.bit Reg.SEC_OWNER_CMD.busy = false ∧
      Reg.SEC_OWNER_CMD.go.of (ownerWord 0) = 1 ∧ Reg.SEC_OWNER_CMD.op.of (ownerWord 0) = 0 ∧
      (served.storeFields Reg.SEC_OWNER_CMD.addr (ownerWord 0)).bit Reg.SEC_STATUS.owner = false) ∧
    ((staging ownerRecord served).storeFields Reg.SEC_OWNER_CMD.addr (ownerWord 0)).secObject = ownerRecord ∧
    recordVerifies [] roleOwner ctxOwner [] = false ∧ ownerFormatOk ownerRecord = true ∧
    (Reg.SEC_OWNER_CMD.op.of (ownerWord 1) = 1 ∧
      ((served.setFld Reg.SEC_CTL.debug_auth_en 0).storeFields Reg.SEC_OWNER_CMD.addr (ownerWord 1)).bit Reg.SEC_CTL.debug_auth_en = false ∧
      (let u := (staging debugObject (served.setFld Reg.SEC_CTL.debug_auth_en 1)).storeFields Reg.SEC_OWNER_CMD.addr (ownerWord 1)
       u.bit Reg.SEC_CTL.debug_auth_en = true ∧ u.secObject = debugObject ∧ u.debugFormat debugObject = true)) ∧
    (readyFor spVersion 0 (spdmReq 0x84 0 0 []) = true ∧ readyFor spCapabilities 1 (spdmReq 0xE1 0 0 (List.replicate 16 0)) = true ∧
      readyFor spAlgorithms 2 (spdmReq 0xE3 0 0 (List.replicate 28 0)) = true ∧ readyFor spDigests 3 (spdmReq 0x81 0 0 []) = true ∧
      readyFor spCertificate 3 (spdmReq 0x82 0 0 [0, 0, 0, 4]) = true ∧ readyFor spChallenge 3 (spdmReq 0x83 0 0 (List.replicate 40 0)) = true ∧
      readyFor spMeasurements 3 (spdmReq 0xE0 0 255 (List.replicate 8 0)) = true ∧
      readyFor 0x99 0 (spdmReq 0x99 0 0 []) = true) ∧
    spdmState.noIdentity = false ∧ spdmState.noAlias = false ∧ (spdmState.blocks 255).isSome = true ∧ (spdmState.blocks 0).isSome = true ∧
    spdmParam1 (spdmReq 0xE0 0 255 (List.replicate 8 0)) % 2 = 0 ∧ spdmKnown.contains 0x99 = false := by decide +kernel
/-- Signatures that verify: of an owner record by its own key, and a chain of certificates that is not empty. -/
theorem witness_ownerVerifies (h : Config.ed448Verify (ownerKey ownerRecord 0) ctxOwner (ownerRecord.take 288) (ownerRecord.drop 288) = true) :
    recordVerifies ownerRecord roleOwner ctxOwner ownerRecord = true := by
  have a : ownerKeys ownerRecord = 1 := by decide +kernel
  have b : ownerRoles ownerRecord 0 / 2 ^ roleOwner % 2 = 1 := by decide +kernel
  have c : ownerRecord.length = 402 := by decide +kernel
  simp [recordVerifies, signedBy, a, b, c, h]
theorem witness_certificates (h : 0 < spdmState.chain.length) :
    numAt (spdmReq 0x82 0 0 [0, 0, 0, 4]) 4 2 < spdmState.chain.length := by
  have a : numAt (spdmReq 0x82 0 0 [0, 0, 0, 4]) 4 2 = 0 := by decide +kernel
  omega

def resetWord : W32 := BitVec.ofNat 32 (2 ^ Reg.GLB_RESET_CMD.go.lo + 0x5253 * 2 ^ Reg.GLB_RESET_CMD.key.lo)
theorem witness_ResetsAndSupply : live.pwr.porst = false ∧ (State.reset.pwr.porst = true ∧ State.reset.pwr.supplyLost = false) ∧
    (live.setFld Reg.GLB_STATUS.boot 1).fld Reg.GLB_STATUS.boot = 1 ∧ (live.setFld Reg.GLB_STATUS.boot 1).goodFw = none ∧
    (live.fld Reg.GLB_STATUS.boot = 3 ∧ live.fld Reg.STK_STATUS.stack_ok = 0 ∧ ({ live with stk := { fillPending := false } } : State).stk.fillPending = false ∧
      live.stk.fillPending = true) ∧
    (live.held = false ∧ 1 ≤ live.fld Reg.GLB_STATUS.boot ∧ ({ live with pwr := { live.pwr with reserveOk := false } } : State).pwr.reserveOk = false) ∧
    live.pwr.supplyLost = false ∧ ({ live with pwr := { live.pwr with supplyLost := true } } : State).pwr.porst = false ∧
    (live.pwr.refclkBad = false ∧ live.deaf = false ∧ live.pwr.resetting = false) ∧
    (cmdReg live Reg.GLB_RESET_CMD.addr resetWord = true ∧ Reg.GLB_RESET_CMD.go.of resetWord = 1 ∧ Reg.GLB_RESET_CMD.key.of resetWord = 0x5253) ∧
    (cmdReg ({ live with pwr := { live.pwr with refclkBad := true } } : State) Reg.GLB_RESET_CMD.addr resetWord = true ∧
      ({ live with pwr := { live.pwr with refclkBad := true } } : State).deaf = true) := by decide +kernel

/-- The counters run; counter 63 counts events of block 4 and its next event overflows; freeze_on_ovf is set. -/
def counting : State :=
  let s := ((live.setFld Reg.PMU_CTL.global_en 1).setFld Reg.PMU_CTL.freeze_on_ovf 1).setFld Reg.PMU_CTL.ledger_en 1
  let s := (s.setFld (Reg.PMU_EVSEL.enable 63) 1).setFld (Reg.PMU_EVSEL.block 63) 4
  let s := (s.setFld (Reg.PMU_EVSEL.event 63) 1).setFld (Reg.PMU_EVSEL.index 63) 0x3FF
  s.setPair (Reg.PMU_CNT_LO.value 63) (2 ^ 48 - 1)
def ledgered (n : Nat) : State := counting.setPair (ledgerLo 287 4) n
theorem witness_PmuCounters :
    (cmdReg live Reg.PMU_CTL.addr 1 = true ∧ Reg.PMU_CTL.global_en.of (BitVec.ofNat 32 (2 ^ Reg.PMU_CTL.global_en.lo)) = 1 ∧
      Reg.PMU_CTL.freeze.of (BitVec.ofNat 32 (2 ^ Reg.PMU_CTL.global_en.lo)) = 0 ∧
      Reg.PMU_CTL.freeze.of (BitVec.ofNat 32 (2 ^ Reg.PMU_CTL.freeze.lo)) = 1) ∧
    (live.setFld Reg.PMU_CTL.freeze 1).bit Reg.PMU_CTL.freeze = true ∧
    (1 ≤ pmuEvents 4 ∧ counting.pmuRuns = true ∧ counting.bit Reg.PMU_CTL.freeze_on_ovf = true ∧
      counting.pmuMatches 63 4 1 0 none = true ∧ 2 ^ 48 ≤ counting.pair (Reg.PMU_CNT_LO.value 63) + 1) ∧
    (isPmuCounter (Reg.PMU_CNT_LO.addr 63) = true ∧ isLow (Reg.PMU_CNT_LO.addr 63) = true ∧ live.answers (Reg.PMU_CNT_LO.addr 63) = true ∧
      isPmuCounter (Reg.PMU_CNT_LO.addr 63 + 4) = true ∧ isLow (Reg.PMU_CNT_LO.addr 63 + 4) = false ∧
      ({ live with heldLow := live.heldLow.put (latchKey .host (Reg.PMU_CNT_LO.addr 63)) 9 } : State).heldLow.get
        (latchKey .host (Reg.PMU_CNT_LO.addr 63 + 4 - 4)) = some 9) ∧
    (counting.bit Reg.PMU_CTL.ledger_en = true ∧ (ledgered 5).pair (ledgerLo 287 4) + 1 < 2 ^ 48 ∧
      2 ^ 48 ≤ (ledgered (2 ^ 48 - 1)).pair (ledgerLo 287 4) + 1 ∧ (ledgered 5).pmuRuns = true) := by decide +kernel

end Sys2Proof.Tests

end
end

section
/-!
PROOFS. Access to registers as chapter 0 states it (R7 to R11): reads, words of pairs, writes that store, writes that are
discarded, INT_STATUS, and what a reset leaves.
-/

namespace Sys2Proof.Machine

/-! ### The commands that access registers -/

theorem exec_registerWrite (r : Requester) (off : BitVec 29) (size : BitVec 4) (v : W32) (s : State) :
    exec (.registerWrite r off size v) s = execRegisterWrite r off size v s := rfl

theorem exec_lowWordRead (r : Requester) (off : BitVec 29) (s : State) :
    exec (.lowWordRead r off) s = execLowWordRead r off s := rfl

theorem exec_highWordWrite (r : Requester) (off : BitVec 29) (v : W32) (s : State) :
    exec (.highWordWrite r off v) s = execHighWordWrite r off v s := rfl

theorem exec_clearOnRead (r : Requester) (off : BitVec 29) (s : State) :
    exec (.clearOnRead r off) s = execClearOnRead r off s := rfl

theorem exec_intStatusWrite (r : Requester) (off : BitVec 29) (v : W32) (s : State) :
    exec (.intStatusWrite r off v) s = execIntStatusWrite r off v s := rfl

/-! ### The words of a pair (R8) -/

theorem arrayIndex?_isSome (base n stride off : Nat) :
    (arrayIndex? base n stride off).isSome = true ↔
      base ≤ off ∧ off < base + n * stride ∧ (off - base) % stride = 0 := by
  unfold arrayIndex?
  split <;> simp_all

/-- Every low word lies at a multiple of 4: its window does, and so does its place in it. -/
theorem aligned_of_isLow {off : Nat} (h : isLow off = true) : off % 4 = 0 := by
  have window : off % 0x1000000 % 4 = off % 4 := Nat.mod_mod_of_dvd off (by decide)
  rw [← window]
  unfold isLow at h
  generalize off % 0x1000000 = o at h
  dsimp only at h
  split at h <;> simp [arrayIndex?_isSome] at h <;> omega

@[simp] theorem isHigh_add_four (off : Nat) : isHigh (off + 4) = isLow off := by
  simp [isHigh]

theorem requesterCode_injective : Function.Injective requesterCode := by
  intro q r
  cases q <;> cases r <;> decide

/-- An offset has 29 bits, so the requester's code stands above it in the key. -/
theorem latchKey_inj {q r : Requester} {a b : BitVec 29} (h : latchKey q a.toNat = latchKey r b.toNat) : q = r ∧ a = b := by
  have ha := a.isLt
  have hb := b.isLt
  unfold latchKey at h
  have codes : requesterCode q = requesterCode r := by omega
  have offs : a.toNat = b.toNat := by omega
  exact ⟨requesterCode_injective codes, BitVec.eq_of_toNat_eq offs⟩

/-! ### Read latches after a reset (R8) -/

theorem foldl_latches {α : Type} (f : State → α → State) (h : ∀ s a, (f s a).latches = s.latches) (l : List α) (s : State) :
    (l.foldl f s).latches = s.latches := by
  induction l generalizing s with
  | nil => rfl
  | cons a l ih => rw [List.foldl_cons, ih, h]

@[simp] theorem State.alertFrom_latches (s b : State) : (s.alertFrom b).latches = s.latches := by
  rw [(s.alertFrom_same b).2]

@[simp] theorem State.snapAll_latches (s : State) : s.snapAll.latches = s.latches := rfl

@[simp] theorem State.pinsFrom_latches (s old : State) : (s.pinsFrom old).latches = s.latches := by
  simp only [State.pinsFrom, State.alertFrom_latches, apply_ite State.latches, State.emit_latches, ite_self]
  exact foldl_latches _ (fun u n => by split <;> rfl) _ s

theorem State.coldReset_latches (s : State) : s.coldReset.latches = [] := by
  unfold State.coldReset
  rw [State.pinsFrom_latches]
  rfl

theorem State.deviceBase_latches (s : State) : s.deviceBase.latches = [] := by
  unfold State.deviceBase
  dsimp only
  rw [State.setFld_latches, foldl_latches]
  · rfl
  · exact fun u c => State.setFld_latches ..

/-! ### Reads -/

/-- Every requester but the I3C target may read every register. -/
theorem State.mayRead_of_ne (s : State) {r : Requester} (off : Nat) (h : r ≠ .i3c) : s.mayRead r off = true := by
  simp [State.mayRead, h]

theorem State.mayRead_i3c_of_disabled {s : State} (off : Nat) (h : s.bit Reg.GLB_CTL.i3c_en = false) :
    s.mayRead .i3c off = false := by
  simp [State.mayRead, h]

theorem State.readReg_silent {s : State} {off : Nat} (r : Requester) (h : s.answers off = false) :
    s.readReg r off = (s, 0xFFFFFFFF) := by
  simp [State.readReg, h]

theorem State.readReg_low {s : State} {off : Nat} (r : Requester) (ha : s.answers off = true) (hl : isLow off = true) :
    s.readReg r off =
      (({ s with latches := s.latches.put (latchKey r off) (s.view (off + 4)) } : State).clearRead off, s.view off) := by
  simp [State.readReg, ha, hl]

theorem State.readReg_high_latched {s : State} {r : Requester} {off : Nat} {x : W32} (ha : s.answers off = true)
    (hl : isLow off = false) (hh : isHigh off = true) (hx : s.latches.get (latchKey r (off - 4)) = some x) :
    s.readReg r off = ({ s with latches := s.latches.del (latchKey r (off - 4)) }, x) := by
  simp [State.readReg, ha, hl, hh, hx]

theorem State.readReg_high_unlatched {s : State} {r : Requester} {off : Nat} (ha : s.answers off = true)
    (hl : isLow off = false) (hh : isHigh off = true) (hx : s.latches.get (latchKey r (off - 4)) = none) :
    s.readReg r off = (s.clearRead off, s.view off) := by
  simp [State.readReg, ha, hl, hh, hx]

theorem State.readReg_plain {s : State} {off : Nat} (r : Requester) (ha : s.answers off = true) (hl : isLow off = false)
    (hh : isHigh off = false) : s.readReg r off = (s.clearRead off, s.view off) := by
  simp [State.readReg, ha, hl, hh]

theorem State.answerRead_of_readReg {s t : State} {r : Requester} {off : Nat} {x : W32} (h : s.readReg r off = (t, x)) :
    s.answerRead r off = t.emit (.regValue r off x) := by
  simp [State.answerRead, h]

/-- A read of either word of a pair is answered. -/
theorem execLowWordRead_answers {r : Requester} {off : BitVec 29} (s : State) (hr : r ≠ .i3c)
    (h : isLow off.toNat = true ∨ isHigh off.toNat = true) :
    execLowWordRead r off s = .next (s.answerRead r off.toNat) := by
  simp [execLowWordRead, h, s.mayRead_of_ne _ hr]

/-- A read of a register that is no pair is answered. -/
theorem execClearOnRead_answers {r : Requester} {off : BitVec 29} (s : State) (hr : r ≠ .i3c) (ha : off.toNat % 4 = 0)
    (hl : isLow off.toNat = false) (hh : isHigh off.toNat = false) :
    execClearOnRead r off s = .next (s.answerRead r off.toNat) := by
  simp [execClearOnRead, ha, hl, hh, s.mayRead_of_ne _ hr]

theorem execClearOnRead_i3c_disabled {s : State} (off : BitVec 29) (h : s.bit Reg.GLB_CTL.i3c_en = false) :
    execClearOnRead .i3c off s = .next s := by
  simp [execClearOnRead, State.mayRead_i3c_of_disabled _ h]

/-! ### Writes -/

/-- An aligned word reaches the register it names. -/
theorem execRegisterWrite_word {r : Requester} {off : BitVec 29} {s : State} (v : W32) (hr : r ≠ .i3c)
    (ha : s.answers off.toNat = true) (h4 : off.toNat % 4 = 0) :
    execRegisterWrite r off 4 v s = .next (s.writeWord r off.toNat v) := by
  simp [execRegisterWrite, hr, ha, h4]

theorem execRegisterWrite_badWidth {r : Requester} {off : BitVec 29} {size : BitVec 4} {s : State} (v : W32) (hr : r ≠ .i3c)
    (ha : s.answers off.toNat = true) (h : size ≠ 4 ∨ off.toNat % 4 ≠ 0) :
    execRegisterWrite r off size v s = .next (s.regAccess off.toNat) := by
  have bad : ¬ (size = 4 ∧ off.toNat % 4 = 0) := fun ⟨hsize, hoff⟩ => h.elim (· hsize) (· hoff)
  unfold execRegisterWrite
  rw [if_neg (by simp [hr, ha]), if_neg bad]

section
variable {s : State} {r : Requester} {off : Nat} (v : W32) (hr : r ≠ .i3c) (ha : s.answers off = true)
  (hs : stageAt off = none)
include hr ha hs

theorem State.writeWord_low (hl : isLow off = true) : s.writeWord r off v = s.holdLow r off v := by
  simp [State.writeWord, hr, ha, hs, hl]

theorem State.writeWord_high (hl : isLow off = false) (hh : isHigh off = true) :
    s.writeWord r off v = s.writeHigh r (off - 4) v := by
  simp [State.writeWord, hr, ha, hs, hl, hh]

theorem State.writeWord_plain (hl : isLow off = false) (hh : isHigh off = false) (hrow : (regRow? off).isSome = true) :
    s.writeWord r off v = s.writePlain off v := by
  have named : (regRow? off).isNone = false := by rw [← Option.not_isSome, hrow]; rfl
  simp [State.writeWord, hr, ha, hs, hl, hh, named]

end

/-- A held low word completes the pair, and is consumed. -/
theorem State.writeHigh_held {s : State} {r : Requester} {lo : Nat} {a : W32} (v : W32)
    (h : s.heldLow.get (latchKey r lo) = some a) :
    s.writeHigh r lo v = ({ s with heldLow := s.heldLow.del (latchKey r lo) } : State).writePair lo a v := by
  simp [State.writeHigh, h]

/-- Without a held low word the current one completes the pair. -/
theorem State.writeHigh_current {s : State} {r : Requester} {lo : Nat} (v : W32)
    (h : s.heldLow.get (latchKey r lo) = none) :
    s.writeHigh r lo v = ({ s with heldLow := s.heldLow.del (latchKey r lo) } : State).writePair lo (s.view lo) v := by
  simp [State.writeHigh, h]

theorem execHighWordWrite_high {off : BitVec 29} (r : Requester) (v : W32) (s : State) (hh : isHigh off.toNat = true) :
    execHighWordWrite r off v s = .next (s.writeWord r off.toNat v) := by
  simp [execHighWordWrite, hh]

/-- A word that reaches an INT_STATUS clears causes and sends the vector again while one stays pending (R368). -/
theorem execIntStatusWrite_writable {off : BitVec 29} {v : W32} {s : State} (r : Requester)
    (hi : isIntStatus off.toNat = true) (hw : s.writable off.toNat v = true) (hc : isConfig off.toNat = false) :
    execIntStatusWrite r off v s =
      .next (if (s.storeFields off.toNat v).irqPending off.toNat then (s.storeFields off.toNat v).sendMsix off.toNat
        else s.storeFields off.toNat v) := by
  simp [execIntStatusWrite, hi, State.writeIntStatus, State.regWrite_of_writable hw hc]

/-- The blocks whose registers have no rule beyond R10, unless they are pairs, interrupt registers, configuration or the
access table: CORE, CNJ, MSF and PMU. -/
theorem State.perform_of_storing_window (s : State) {off : Nat} (v : W32)
    (h : off / 0x1000000 ∈ [0x08, 0x0C, 0x12, 0x19]) : s.perform off v = s.storeFields off v := by
  unfold State.perform
  simp only [List.mem_cons, List.not_mem_nil, or_false] at h
  rcases h with h | h | h | h <;> rw [h] <;> rfl

theorem State.writePlain_perform {s : State} {off : Nat} {v : W32} (hw : s.writable off v = true)
    (hi : isIntStatus off = false) (he : isIntStatus (off - 4) = false) (hg : off ≠ Reg.GLB_CTL.addr)
    (hc : isConfig off = false) (hx : accessAt off = none) : s.writePlain off v = s.perform off v := by
  simp [State.writePlain, hi, he, hg, hc, hx, State.regWrite_of_writable hw hc]

theorem State.answers_of_writable {s : State} {off : Nat} {v : W32} (h : s.writable off v = true) : s.answers off = true := by
  simp only [State.writable, Bool.and_eq_true] at h
  exact h.1.1

theorem State.storeFields_of_row {off : Nat} {row : RegRow} (s : State) (v : W32) (h : regRow? off = some row) :
    s.storeFields off v = s.setReg off
      ((s.reg off &&& ~~~BitVec.ofNat 32 row.rw &&& ~~~(BitVec.ofNat 32 row.rw1c &&& v)) ||| (v &&& BitVec.ofNat 32 row.rw)) := by
  simp [State.storeFields, h]

/-! ### The record of a register access (R7) -/

theorem State.alm_regAccess (s : State) (off : Nat) : (s.regAccess off).alm = (s.log 0x00 .registerAccess off).alm :=
  State.alm_raise ..

theorem State.alm_seq_regAccess (s : State) (off : Nat) : (s.regAccess off).alm.seq = s.alm.seq + 1 := by
  rw [State.alm_regAccess, State.log, State.alm_logSev]

theorem State.alm_newest_regAccess (s : State) (off : Nat) :
    ((s.regAccess off).alm.ring.head?.map fun e => (e.event, e.index)) = some (.registerAccess, off) := by
  rw [State.alm_regAccess, State.log, State.alm_logSev]
  rfl

theorem State.bit_regAccess (s : State) (off : Nat) : (s.regAccess off).bit Reg.GLB_INT_STATUS.reg_access = true :=
  State.bit_raise _ _ (by unfold Fld.fits; decide) rfl

/-! ### The state after reset (R11) -/

theorem State.reg_reset (off : Nat) : State.reset.reg off = regReset off := rfl

theorem State.fld_reset (f : Fld) : State.reset.fld f = f.of (regReset f.off) := rfl

theorem State.byteAt_reset (d : Nat) : State.reset.byteAt d = 0 := rfl

theorem State.link_reset (p : Port) : State.reset.link p = { } := rfl

theorem State.ft_reset : State.reset.ft = 0 := by decide

/-! ### The statements -/

/-- Settles O8: the maps of the reset state are empty, so each register reads the Reset value of its row. -/
theorem resetState : Obligations.ResetState := by
  refine ⟨rfl, State.ft_reset, rfl, fun p => ?_, State.byteAt_reset, rfl, State.reg_reset, ?_, ?_, ?_⟩
  · rw [State.link_reset]
  all_goals rw [State.fld_reset]; decide

/-- Settles O9: the write ends as a register-access event, whose frame is `State.regAccess_same`. -/
theorem badWidthDiscarded : Obligations.BadWidthDiscarded := by
  intro r off size v s hr ha h
  rw [exec_registerWrite, execRegisterWrite_badWidth v hr ha h]
  exact ⟨_, rfl, s.regAccess_same _, s.alm_seq_regAccess _, s.alm_newest_regAccess _, s.bit_regAccess _⟩

/-- Settles O10: the write passes every register rule by, down to the storing of its fields. -/
theorem registerStored : Obligations.RegisterStored := by
  intro r off v s row hr h4 hw hrow hs hl hh hi he hg hc hx hwin
  have ha := State.answers_of_writable hw
  rw [exec_registerWrite, execRegisterWrite_word v hr ha h4,
    State.writeWord_plain v hr ha hs hl hh (by rw [hrow]; rfl), State.writePlain_perform hw hi he hg hc hx,
    State.perform_of_storing_window s v hwin, State.storeFields_of_row s v hrow]

/-- Settles O11: low words are aligned and keys tell requesters apart, resets drop the latches, and each command on a word
of a pair has one equation for each state of the latch or of the held word. -/
theorem registerPairs : Obligations.RegisterPairs := by
  refine ⟨fun off h => ⟨aligned_of_isLow h, by rw [isHigh_add_four, h]⟩, fun q r a b => latchKey_inj,
    ⟨rfl, fun s => ⟨s.coldReset_latches, s.deviceBase_latches⟩⟩, fun r off s hr ha => ?reads, fun r off v s hr ha hs => ?writes⟩
  case reads =>
    rw [exec_lowWordRead]
    refine ⟨fun hl => ?low, fun hl hh => ?high⟩
    case low => rw [execLowWordRead_answers s hr (.inl hl), State.answerRead_of_readReg (State.readReg_low r ha hl)]
    case high =>
      rw [execLowWordRead_answers s hr (.inr hh)]
      refine ⟨fun x hx => ?_, fun hx => ?_⟩
      · rw [State.answerRead_of_readReg (State.readReg_high_latched ha hl hh hx)]
      · rw [State.answerRead_of_readReg (State.readReg_high_unlatched ha hl hh hx)]
  case writes =>
    rw [exec_registerWrite, exec_highWordWrite]
    refine ⟨fun hl => ?low, fun hl hh u hu => ?high⟩
    case low => rw [execRegisterWrite_word v hr ha (aligned_of_isLow hl), State.writeWord_low v hr ha hs hl]; rfl
    case high =>
      subst hu
      rw [execHighWordWrite_high r v s hh, State.writeWord_high v hr ha hs hl hh]
      refine ⟨fun a h => ?_, fun h => ?_⟩
      · rw [State.writeHigh_held v h]
      · rw [State.writeHigh_current v h]

/-- Settles O13: a read outside pairs by whether its window answers, the I3C target's by i3c_en, and INT_STATUS by the rule
that a writable word reaches. -/
theorem readsAndInterruptStatus : Obligations.ReadsAndInterruptStatus := by
  refine ⟨fun r off s h4 hl hh => ⟨fun hr ha => ?answers, fun hr ha => ?silent, fun hr hi => ?i3c⟩,
    fun r off v s hi hw hc => ?intStatus⟩
  case answers =>
    rw [exec_clearOnRead, execClearOnRead_answers s hr h4 hl hh, State.answerRead_of_readReg (State.readReg_plain r ha hl hh)]
  case silent =>
    rw [exec_clearOnRead, execClearOnRead_answers s hr h4 hl hh, State.answerRead_of_readReg (State.readReg_silent r ha)]
  case i3c => rw [hr, exec_clearOnRead, execClearOnRead_i3c_disabled off hi]
  case intStatus => rw [exec_intStatusWrite, execIntStatusWrite_writable r hi hw hc]

end Sys2Proof.Machine
end

section
/-!
PROOFS. The ways of a request that has left its meter, beside its performance, and the responses (R131, R145, R149, R274,
R276, R283, R285, R292, R443).
-/

namespace Sys2Proof.Machine

/-! ### The commands that take in a request or a response -/

theorem isOwnReq_of {f : Frame} {op : BitVec 8} (ht : f.ftype = ftMemReq) (hd : f.dclass = true) (ho : f.opcode = op) :
    isOwnReq f op = true := by
  simp [isOwnReq, ht, hd, ho]

theorem exec_load_arrives {f : Frame} (ht : f.ftype = ftMemReq) (hd : f.dclass = true) (ho : f.opcode = reqLoad) (p : Port)
    (x : Stamp) (ok : Bool) (io : ChannelIo) (s : State) :
    exec (.load p f x ok io) s = .next (s.memArrive p f x ok io) :=
  if_pos (isOwnReq_of ht hd ho)

theorem exec_store_arrives {f : Frame} (ht : f.ftype = ftMemReq) (hd : f.dclass = true) (ho : f.opcode = reqStore) (p : Port)
    (x : Stamp) (ok : Bool) (io : ChannelIo) (s : State) :
    exec (.store p f x ok io) s = .next (s.memArrive p f x ok io) :=
  if_pos (isOwnReq_of ht hd ho)

theorem exec_storeMcast_arrives {f : Frame} (ht : f.ftype = ftMemReq) (hd : f.dclass = true) (ho : f.opcode = reqMcast)
    (p : Port) (x : Stamp) (ok : Bool) (s : State) :
    exec (.storeMcast p f x ok) s = .next (s.memArrive p f x ok { }) :=
  if_pos (isOwnReq_of ht hd ho)

theorem exec_memFence_arrives {f : Frame} (ht : f.ftype = ftMemReq) (hd : f.dclass = true) (ho : f.opcode = reqFence)
    (p : Port) (x : Stamp) (ok : Bool) (s : State) :
    exec (.memFence p f x ok) s = .next (s.memArrive p f x ok { }) :=
  if_pos (isOwnReq_of ht hd ho)

theorem exec_memReqBadOpcode_arrives {f : Frame} (ht : f.ftype = ftMemReq) (hd : f.dclass = true)
    (ho : knownReq f.opcode = false) (p : Port) (x : Stamp) (ok : Bool) (s : State) :
    exec (.memReqBadOpcode p f x ok) s = .next (s.memArrive p f x ok { }) :=
  if_pos ⟨ht, hd, by simp [ho]⟩

theorem exec_memReqPassThrough_arrives {f : Frame} (ht : f.ftype = ftMemReq) (hd : f.dclass = false) (p : Port) (x : Stamp)
    (s : State) : exec (.memReqPassThrough p f x) s = .next (s.memArrive p f x true { }) :=
  if_pos ⟨ht, by simp [hd]⟩

/-- R131: a response for a node that its port has taken in goes on by its coordinates. -/
theorem exec_memRspForward_of_parked {s u : State} {p : Port} {f : Frame} {x : Stamp} {k : Nat}
    (h : s.parked p f x = some (u, k)) (ht : f.ftype = ftMemRsp) (hd : f.dclass = false) :
    exec (.memRspForward p f x) s = .next (u.forwardBuf k p f) := by
  change execMemRspForward p f x s = _
  simp [execMemRspForward, ht, hd, State.routed_of_parked h]

/-- Table 6-1: a response that names this spine and is no data error answers the unit's own request. -/
theorem exec_memRspToSpine_of_parked {s u : State} {p : Port} {f : Frame} {k : Nat}
    (h : s.parked p f (BitVec.ofInt 80 s.ft16) = some (u, k)) (ht : f.ftype = ftMemRsp) (hd : f.dclass = true)
    (hm : u.mine f = true) :
    exec (.memRspToSpine p f true) s = .next ((u.freeBuf k).ownAnswer f.seq f.opcode f.status.toNat f.payload) := by
  change execMemRspToSpine p f true s = _
  simp [execMemRspToSpine, State.rspIn, ht, hd, hm, State.routed_of_parked h]

/-! ### A request that leaves its meter (R187, R188) -/

/-- With an empty hold area and a verdict that lets it pass, a frame goes on at once. -/
theorem State.meterIn_of_pass {s v : State} {h : Hold} (hempty : s.holdOf (dieOf h.port) = [])
    (hpass : s.meter h.frame = (v, .pass)) (go : State → Hold → State) : s.meterIn h go = go v h := by
  have entry : s.meterEntry [] h go = (go v h, false) := by simp [State.meterEntry, holdRoom, hpass]
  simp [State.meterIn, hempty, entry]

/-- A request that has left its meter meets `memIn`: for a node as for this spine. -/
theorem State.memArrive_of_leavesMeter {s v : State} {p : Port} {f : Frame} {x : Stamp} {k : Nat}
    (h : s.leavesMeter v p f x k) (ht : f.ftype = ftMemReq) (ok : Bool) (io : ChannelIo) :
    s.memArrive p f x ok io = v.memIn { port := p, frame := f, stamp := x, buf := k, ok := ok, io := io } := by
  obtain ⟨u, hparked, hmine, hempty, hpass⟩ := h
  have notBulk : f.ftype ≠ ftBulk := by rw [ht]; decide
  unfold State.memArrive
  rw [State.routed_of_parked hparked, State.meterIn_of_pass hempty hpass, State.meterGo, if_neg notBulk]
  cases hd : f.dclass with
  | false => rfl
  | true => simp [hmine hd]

/-! ### The outcome of a request (R443) -/

/-- R285: a request for a node passes through. -/
theorem State.memIn_thru (s : State) {h : Hold} (hd : h.frame.dclass = false) :
    s.memIn h = s.thruIn h.buf h.port h.frame := by
  simp [State.memIn, hd]

/-- The state in which a request to this spine's memory is served: its index lookup is counted and its serial number taken. -/
def State.serialTaken (s : State) (die : Nat) (f : Frame) : State :=
  { s.countLookup die f with msf.serial := (s.countLookup die f).msf.serial + 1 }

/-- The request as the endpoint knows it, under the serial number that it takes. -/
def State.reqOf (s : State) (p : Port) (f : Frame) : MemReq :=
  { serial := (s.countLookup (dieOf p) f).msf.serial, port := p, frame := f }

section
variable {s : State} {p : Port} {f : Frame} (x : Stamp) (k : Nat) (io : ChannelIo) (hd : f.dclass = true)
include hd

/-- R149: a STORE_MCAST whose tree is found is replicated by it. -/
theorem State.memIn_tree {t : Tree} (hw : (s.countLookup (dieOf p) f).memWay f = .tree t) :
    s.memIn { port := p, frame := f, stamp := x, buf := k, io := io } =
      (s.serialTaken (dieOf p) f).mcastIn k (s.reqOf p f) t := by
  simp [State.memIn, State.serialTaken, State.reqOf, hd, hw]

/-- R443: a request that breaks a condition is answered NACK; INDEX, a miss, is counted apart. -/
theorem State.memIn_nack {r : Nat} (hw : (s.countLookup (dieOf p) f).memWay f = .nack r) (hr : r ≠ nkIndex) :
    s.memIn { port := p, frame := f, stamp := x, buf := k, io := io } =
      ((s.serialTaken (dieOf p) f).freeBuf k).nack (dieOf p) (s.reqOf p f) r := by
  simp [State.memIn, State.serialTaken, State.reqOf, hd, hw, hr]

/-- R283: a FENCE meets what is outstanding of its source. -/
theorem State.memIn_fence (hw : (s.countLookup (dieOf p) f).memWay f = .fence) :
    s.memIn { port := p, frame := f, stamp := x, buf := k, io := io } =
      ((s.serialTaken (dieOf p) f).freeBuf k).fenceIn (s.reqOf p f) := by
  simp [State.memIn, State.serialTaken, State.reqOf, hd, hw]

end

/-! ### Pass-through (R285) -/

/-- A request without the form of R274 is not offered for merging. -/
theorem State.thruIn_of_bad_form (s : State) (k : Nat) (p : Port) {f : Frame} (hform : reqForm f = false) :
    s.thruIn k p f = s.forwardBuf k p f := by
  simp [State.thruIn, hform]

/-- A request that no combining entry of its egress die takes goes on. -/
theorem State.thruIn_of_not_taken {s t : State} {k : Nat} {p : Port} {f : Frame} (hform : reqForm f = true)
    (h : s.offer (thruRange (dieOf (s.route f.dnode)) f) ⟨0, p, f, 0⟩ (s.bit Reg.MSF_CTL.combine_thru_en) = (t, false)) :
    s.thruIn k p f = t.forwardBuf k p f := by
  simp [State.thruIn, hform, h]

/-! ### Freeing a buffer (R163, R170) -/

/-- Credits come back to the link alone. -/
theorem State.freeCells_eq (s : State) (p : Port) (vc : BitVec 3) (cells : Nat) :
    s.freeCells p vc cells = { s with links := (s.freeCells p vc cells).links } := by
  unfold State.freeCells
  split
  · rfl
  · dsimp only
    split <;> rfl

/-- Beside the buffer itself, only credits of the link change. -/
theorem State.freeBuf_eq (s : State) (k : Nat) :
    s.freeBuf k = { s with bufs := (s.freeBuf k).bufs, links := (s.freeBuf k).links } := by
  unfold State.freeBuf
  split
  · rfl
  · dsimp only
    split
    · rfl
    · split
      · rfl
      · rw [State.freeCells_eq]

/-! ### FENCE (R283) -/

@[simp] theorem State.regs_freeBuf (s : State) (k : Nat) : (s.freeBuf k).regs = s.regs := by
  rw [State.freeBuf_eq]

/-- The fabric memory window is what the registers of the partitions say. -/
theorem State.windowSize_congr {s t : State} (h : t.regs = s.regs) : t.windowSize = s.windowSize := by
  unfold State.windowSize State.partSize State.partOf State.partKind State.partMask State.partStride State.reg
  rw [h]

/-- A FENCE that names no line of the window flushes no entry, and is answered at once where it is ready. -/
theorem State.fenceIn_of_ready {s : State} {q : MemReq} (hout : s.windowSize ≤ q.frame.address.toNat)
    (hready : s.fenceReady q = true) : s.fenceIn q = s.answerFence q := by
  simp [State.fenceIn, Nat.not_lt.mpr hout, hready]

/-! ### An answer leaves stack memory as it is -/

@[simp] theorem State.stk_freeBuf (s : State) (k : Nat) : (s.freeBuf k).stk = s.stk := by
  rw [State.freeBuf_eq]

@[simp] theorem State.stk_countSpill (s : State) (d cells : Nat) : (s.countSpill d cells).stk = s.stk := by
  unfold State.countSpill
  split <;> simp

@[simp] theorem State.stk_spillBuf (s : State) (k : Nat) : (s.spillBuf k).stk = s.stk := by
  unfold State.spillBuf
  split <;> simp

@[simp] theorem stk_spillDown (d n : Nat) (s : State) : (spillDown d n s).stk = s.stk := by
  induction n generalizing s with
  | zero => rfl
  | succ n ih =>
    unfold spillDown
    split
    · rfl
    · split <;> simp [ih]

@[simp] theorem State.stk_putBuf (s : State) (d pool : Nat) (b : Buf) : (s.putBuf d pool b).1.stk = s.stk := by
  simp [State.putBuf, apply_ite State.stk]

@[simp] theorem stk_newDests (src cells : Nat) (copies : List (Port × Frame)) (s : State) :
    (newDests src cells copies s).1.stk = s.stk := by
  induction copies generalizing s with
  | nil => rfl
  | cons c cs ih => simp [newDests, State.newDest, ih]

theorem State.stk_of_place {s t : State} {d cells : Nat} {i : Option Port} {vc : BitVec 3} {stamp : Stamp} {o : Owner}
    {copies : List (Port × Frame)} (h : s.place d i vc stamp cells o copies = some t) : t.stk = s.stk := by
  unfold State.place at h
  split at h
  · cases h
  · cases h
    simp

@[simp] theorem State.stk_originateRaw (s : State) (d : Nat) (o : Owner) (copies : List (Port × Frame)) :
    (s.originateRaw d o copies).stk = s.stk := by
  unfold State.originateRaw
  split
  · rfl
  · split
    · rfl
    · split
      · next placed => exact State.stk_of_place placed
      · rfl

@[simp] theorem State.stk_answer (s : State) (die : Nat) (q : MemReq) (op : BitVec 8) (status : Nat) (bs : List Byte) :
    (s.answer die q op status bs).stk = s.stk := by
  unfold State.answer State.sendRsp
  split <;> simp

@[simp] theorem State.stk_nack (s : State) (die : Nat) (q : MemReq) (reason : Nat) : (s.nack die q reason).stk = s.stk := by
  simp [State.nack, apply_ite State.stk]

/-! ### Late responses (R292) -/

/-- A response under a seq that neither a merged request nor a thread waits for is counted. -/
theorem State.ownAnswer_unmatched {s : State} {seq : BitVec 24} (hthru : s.msf.thrus.find? (fun r => r.seq == seq) = none)
    (hthread : s.seqThread seq = none) (op : BitVec 8) (status : Nat) (bs : List Byte) :
    s.ownAnswer seq op status bs = s.count Reg.MSF_CNT_LATE_RSP.value := by
  simp [State.ownAnswer, hthru, hthread]

/-! ### The statement -/

/-- Settles O44: a request that left its meter is one of `memIn`'s cases, and a response one of Table 6-1's; a NACK's answer
takes the way of every originated frame, which leaves stack memory as it is (`State.stk_nack`). -/
theorem memoryWaysAndResponses : Obligations.MemoryWaysAndResponses := by
  refine ⟨fun p f x s u v k q h ht hv hq w hw => ⟨?fence, ?tree, ?nack, ?badForm, ?thru⟩,
    fun p f x s u k h ht => ⟨?forward, ?own, ?late⟩⟩
  case fence =>
    intro hd ho hway hout hready
    subst hv hq hw
    rw [exec_memFence_arrives ht hd ho, State.memArrive_of_leavesMeter h ht, State.memIn_fence _ _ _ hd hway]
    refine congrArg Host.Outcome.next (State.fenceIn_of_ready ?_ hready)
    exact Nat.le_trans (Nat.le_of_eq (State.windowSize_congr (State.regs_freeBuf _ k))) hout
  case tree =>
    intro t hd ho hway
    subst hv hq hw
    rw [exec_storeMcast_arrives ht hd ho, State.memArrive_of_leavesMeter h ht, State.memIn_tree _ _ _ hd hway]
    rfl
  case nack =>
    intro r hd hway hr t hnack
    have arrives (io : ChannelIo) : s.memArrive p f x true io = t := by
      subst hv hq hw hnack
      rw [State.memArrive_of_leavesMeter h ht, State.memIn_nack _ _ _ hd hway hr]
      rfl
    refine ⟨?memory, fun ho => ?badOpcode, fun ho io => ?load, fun ho io => ?store⟩
    case memory => simp [hnack, hw]
    case badOpcode => rw [exec_memReqBadOpcode_arrives ht hd ho, arrives]
    case load => rw [exec_load_arrives ht hd ho, arrives]
    case store => rw [exec_store_arrives ht hd ho, arrives]
  case badForm =>
    intro hd hform
    rw [exec_memReqPassThrough_arrives ht hd, State.memArrive_of_leavesMeter h ht, State.memIn_thru _ hd,
      State.thruIn_of_bad_form _ _ _ hform]
  case thru =>
    intro t hd hform hoffer
    rw [exec_memReqPassThrough_arrives ht hd, State.memArrive_of_leavesMeter h ht, State.memIn_thru _ hd,
      State.thruIn_of_not_taken hform hoffer]
  case forward => exact exec_memRspForward_of_parked h ht
  case own =>
    intro hd hm hx
    exact exec_memRspToSpine_of_parked (hx ▸ h) ht hd hm
  case late =>
    intro hd hm hx hthru hthread
    rw [exec_memRspToSpine_of_parked (hx ▸ h) ht hd hm, State.ownAnswer_unmatched hthru hthread]

end Sys2Proof.Machine
end

section
/-!
PROOFS. What a command does to the timing counter and its rate (R36): from the operations of Laws/Keep*.lean and
Laws/Clock.lean to the commands, one lemma each; and from the commands to a step.
-/

namespace Sys2Proof.Machine

/-! ### What holds of the next state a command answers -/

/-- Every next state that an outcome answers has a property. -/
def AllNext (P : State → Prop) (o : Outcome) : Prop := ∀ t, o = .next t → P t

/-- The outcome leaves the queue, the counter and its rate as `s` has them. -/
abbrev Keeps (s : State) (o : Outcome) : Prop := AllNext (fun t => t.kept = s.kept) o

section
variable {P Q : State → Prop}

@[simp] theorem allNext_next {t : State} : AllNext P (.next t) ↔ P t :=
  ⟨fun h => h t rfl, fun h u e => by cases e; exact h⟩

@[simp] theorem allNext_fault (r : Fault) : AllNext P (.fault r) := fun _ e => by cases e

@[simp] theorem allNext_ite {c : Prop} [Decidable c] {a b : Outcome} :
    AllNext P (if c then a else b) ↔ (c → AllNext P a) ∧ (¬c → AllNext P b) := by
  split <;> simp [*]

theorem AllNext.imp {o : Outcome} (h : AllNext P o) (i : ∀ t, P t → Q t) : AllNext Q o := fun t e => i t (h t e)

end

theorem Keeps.slewed {s : State} {o : Outcome} (h : Keeps s o) : AllNext (Slewed s) o := h.imp fun _ => Slewed.of_kept

theorem AllNext.moved {s : State} {o : Outcome} (h : AllNext (Slewed s) o) : AllNext (Moved s) o :=
  h.imp fun _ => Slewed.toMoved

/-! ### Commands of fabric time -/

@[simp] theorem execPdelayReq_keeps (p f tRx s) : Keeps s (execPdelayReq p f tRx s) := by simp [execPdelayReq]
@[simp] theorem execPdelayResp_keeps (p f tRx s) : Keeps s (execPdelayResp p f tRx s) := by simp [execPdelayResp]
@[simp] theorem execTimeFrameBadOpcode_keeps (p f s) : Keeps s (execTimeFrameBadOpcode p f s) := by
  simp [execTimeFrameBadOpcode]
@[simp] theorem execPdelayExchangeStart_keeps (s) : Keeps s (execPdelayExchangeStart s) := by simp [execPdelayExchangeStart]
@[simp] theorem execPdelayRespLost_keeps (p s) : Keeps s (execPdelayRespLost p s) := by
  unfold execPdelayRespLost
  dsimp only
  (repeat' split) <;> simp

@[simp] theorem execSyncIntervalExpiry_keeps (s) : Keeps s (execSyncIntervalExpiry s) := by simp [execSyncIntervalExpiry]
@[simp] theorem execParentSyncLost_keeps (p s) : Keeps s (execParentSyncLost p s) := by
  unfold execParentSyncLost
  (repeat' split) <;> simp

@[simp] theorem execExpiredEntry_keeps (s) : Keeps s (execExpiredEntry s) := by simp [execExpiredEntry]
@[simp] theorem execPulseArm_keeps (n v s) : Keeps s (execPulseArm n v s) := by simp [execPulseArm]
@[simp] theorem execPulseLeadingEdge_keeps (n s) : Keeps s (execPulseLeadingEdge n s) := by simp [execPulseLeadingEdge]
@[simp] theorem execPulseTrailingEdge_keeps (n s) : Keeps s (execPulseTrailingEdge n s) := by simp [execPulseTrailingEdge]
@[simp] theorem execPulseMissed_keeps (n s) : Keeps s (execPulseMissed n s) := by simp [execPulseMissed]

/-! ### Commands of stack memory -/

@[simp] theorem execClear_keeps (r line count io s) : Keeps s (execClear r line count io s) := by simp [execClear]
@[simp] theorem execSetA_keeps (r line a io s) : Keeps s (execSetA r line a io s) := by simp [execSetA]
@[simp] theorem execAccessionAdd_keeps (r line part fmt data scales io s) :
    Keeps s (execAccessionAdd r line part fmt data scales io s) := by
  simp [execAccessionAdd]
@[simp] theorem execMerge_keeps (r line part fmt data scales io s) :
    Keeps s (execMerge r line part fmt data scales io s) := by
  simp [execMerge]
@[simp] theorem execReadLanes_keeps (r line io s) : Keeps s (execReadLanes r line io s) := by simp [execReadLanes]
@[simp] theorem execWriteLanes_keeps (r line lanes io s) : Keeps s (execWriteLanes r line lanes io s) := by
  simp [execWriteLanes]
@[simp] theorem execReadFmt_keeps (r line io s) : Keeps s (execReadFmt r line io s) := by simp [execReadFmt]
@[simp] theorem execAccessionAtomic_keeps (dpa sub b c io s) : Keeps s (execAccessionAtomic dpa sub b c io s) := by
  simp [execAccessionAtomic]
@[simp] theorem execLbLeak_keeps (s) : Keeps s (execLbLeak s) := by simp [execLbLeak]
@[simp] theorem execEngineRestore_keeps (st c v s) : Keeps s (execEngineRestore st c v s) := by simp [execEngineRestore]
@[simp] theorem execRegionInstall_keeps (v s) : Keeps s (execRegionInstall v s) := by simp [execRegionInstall]
@[simp] theorem execRegionRemove_keeps (v s) : Keeps s (execRegionRemove v s) := by simp [execRegionRemove]
@[simp] theorem execRegionClearAll_keeps (v s) : Keeps s (execRegionClearAll v s) := by simp [execRegionClearAll]
@[simp] theorem execRegionClearDone_keeps (r s) : Keeps s (execRegionClearDone r s) := by simp [execRegionClearDone]
@[simp] theorem execZeroFillDone_keeps (s) : Keeps s (execZeroFillDone s) := by simp [execZeroFillDone]
@[simp] theorem execApertureRead_keeps (r off size io s) : Keeps s (execApertureRead r off size io s) := by
  unfold execApertureRead
  dsimp only
  (repeat' split)
  · simp
  · simp
  · next held => simpa using State.holdPage_keeps _ _ _ _ _ _ held
  · simp

/-! ### Commands of collectives -/

@[simp] theorem execGroupRec_keeps (p f ok s) : Keeps s (execGroupRec p f ok s) := by simp [execGroupRec]
@[simp] theorem execCfgqAdmission_keeps (s) : Keeps s (execCfgqAdmission s) := by
  unfold execCfgqAdmission
  dsimp only
  (repeat' split) <;> simp

@[simp] theorem execCfgqTeardown_keeps (s) : Keeps s (execCfgqTeardown s) := by
  unfold execCfgqTeardown
  dsimp only
  (repeat' split) <;> simp

@[simp] theorem execGroupDrained_keeps (g s) : Keeps s (execGroupDrained g s) := by simp [execGroupDrained]
@[simp] theorem execCollBegin_keeps (p f ok s) : Keeps s (execCollBegin p f ok s) := by simp [execCollBegin]
@[simp] theorem execContribData_keeps (p f ok faults io auditLate s) :
    Keeps s (execContribData p f ok faults io auditLate s) := by
  simp [execContribData]
@[simp] theorem execExp_keeps (p f ok s) : Keeps s (execExp p f ok s) := by simp [execExp]
@[simp] theorem execAbortReq_keeps (p f ok s) : Keeps s (execAbortReq p f ok s) := by simp [execAbortReq]
@[simp] theorem execSegmentSlotsAvailable_keeps (g cseq seg s) : Keeps s (execSegmentSlotsAvailable g cseq seg s) := by
  unfold execSegmentSlotsAvailable
  dsimp only
  (repeat' split) <;> simp

@[simp] theorem execSegmentDone_keeps (g cseq seg s) : Keeps s (execSegmentDone g cseq seg s) := by
  unfold execSegmentDone
  dsimp only
  (repeat' split) <;> simp

@[simp] theorem execSignatureCollectEnd_keeps (g cseq s) : Keeps s (execSignatureCollectEnd g cseq s) := by
  unfold execSignatureCollectEnd
  (repeat' split) <;> simp

@[simp] theorem execResendTimeout_keeps (g cseq s) : Keeps s (execResendTimeout g cseq s) := by
  unfold execResendTimeout
  dsimp only
  (repeat' split) <;> simp

@[simp] theorem execDeferralResend_keeps (g s) : Keeps s (execDeferralResend g s) := by simp [execDeferralResend]
@[simp] theorem execCollectiveTimeout_keeps (g cseq s) : Keeps s (execCollectiveTimeout g cseq s) := by
  unfold execCollectiveTimeout
  dsimp only
  (repeat' split) <;> simp

@[simp] theorem execTileMoveComplete_keeps (t s) : Keeps s (execTileMoveComplete t s) := by simp [execTileMoveComplete]

/-! ### Instructions of the orrery: arithmetic and branches -/

@[simp] theorem execOAdd_keeps (t s) : Keeps s (execOAdd t s) := by simp [execOAdd]
@[simp] theorem execOSub_keeps (t s) : Keeps s (execOSub t s) := by simp [execOSub]
@[simp] theorem execOAnd_keeps (t s) : Keeps s (execOAnd t s) := by simp [execOAnd]
@[simp] theorem execOOr_keeps (t s) : Keeps s (execOOr t s) := by simp [execOOr]
@[simp] theorem execOXor_keeps (t s) : Keeps s (execOXor t s) := by simp [execOXor]
@[simp] theorem execOShl_keeps (t s) : Keeps s (execOShl t s) := by simp [execOShl]
@[simp] theorem execOShr_keeps (t s) : Keeps s (execOShr t s) := by simp [execOShr]
@[simp] theorem execOSra_keeps (t s) : Keeps s (execOSra t s) := by simp [execOSra]
@[simp] theorem execOSlt_keeps (t s) : Keeps s (execOSlt t s) := by simp [execOSlt]
@[simp] theorem execOSltu_keeps (t s) : Keeps s (execOSltu t s) := by simp [execOSltu]
@[simp] theorem execOMin_keeps (t s) : Keeps s (execOMin t s) := by simp [execOMin]
@[simp] theorem execOMax_keeps (t s) : Keeps s (execOMax t s) := by simp [execOMax]
@[simp] theorem execOMul_keeps (t s) : Keeps s (execOMul t s) := by simp [execOMul]
@[simp] theorem execOMulh_keeps (t s) : Keeps s (execOMulh t s) := by simp [execOMulh]
@[simp] theorem execOSrr_keeps (t s) : Keeps s (execOSrr t s) := by simp [execOSrr]
@[simp] theorem execOPopc_keeps (t s) : Keeps s (execOPopc t s) := by simp [execOPopc]
@[simp] theorem execOAddi_keeps (t s) : Keeps s (execOAddi t s) := by simp [execOAddi]
@[simp] theorem execOAndi_keeps (t s) : Keeps s (execOAndi t s) := by simp [execOAndi]
@[simp] theorem execOOri_keeps (t s) : Keeps s (execOOri t s) := by simp [execOOri]
@[simp] theorem execOXori_keeps (t s) : Keeps s (execOXori t s) := by simp [execOXori]
@[simp] theorem execOShli_keeps (t s) : Keeps s (execOShli t s) := by simp [execOShli]
@[simp] theorem execOShri_keeps (t s) : Keeps s (execOShri t s) := by simp [execOShri]
@[simp] theorem execOSrai_keeps (t s) : Keeps s (execOSrai t s) := by simp [execOSrai]
@[simp] theorem execOSlti_keeps (t s) : Keeps s (execOSlti t s) := by simp [execOSlti]
@[simp] theorem execOConst_keeps (t s) : Keeps s (execOConst t s) := by simp [execOConst]
@[simp] theorem execOConsth_keeps (t s) : Keeps s (execOConsth t s) := by simp [execOConsth]
@[simp] theorem execOTime_keeps (t s) : Keeps s (execOTime t s) := by simp [execOTime]
@[simp] theorem execOSelf_keeps (t s) : Keeps s (execOSelf t s) := by simp [execOSelf]
@[simp] theorem execOSetfar_keeps (t s) : Keeps s (execOSetfar t s) := by simp [execOSetfar]
@[simp] theorem execOBeq_keeps (t s) : Keeps s (execOBeq t s) := by simp [execOBeq]
@[simp] theorem execOBne_keeps (t s) : Keeps s (execOBne t s) := by simp [execOBne]
@[simp] theorem execOBlt_keeps (t s) : Keeps s (execOBlt t s) := by simp [execOBlt]
@[simp] theorem execOBge_keeps (t s) : Keeps s (execOBge t s) := by simp [execOBge]
@[simp] theorem execOBltu_keeps (t s) : Keeps s (execOBltu t s) := by simp [execOBltu]
@[simp] theorem execOBgeu_keeps (t s) : Keeps s (execOBgeu t s) := by simp [execOBgeu]
@[simp] theorem execOJmp_keeps (t s) : Keeps s (execOJmp t s) := by simp [execOJmp]
@[simp] theorem execOJal_keeps (t s) : Keeps s (execOJal t s) := by simp [execOJal]
@[simp] theorem execOJr_keeps (t s) : Keeps s (execOJr t s) := by simp [execOJr]
@[simp] theorem execOVadd_keeps (t s) : Keeps s (execOVadd t s) := by simp [execOVadd]
@[simp] theorem execOVsub_keeps (t s) : Keeps s (execOVsub t s) := by simp [execOVsub]
@[simp] theorem execOVand_keeps (t s) : Keeps s (execOVand t s) := by simp [execOVand]
@[simp] theorem execOVor_keeps (t s) : Keeps s (execOVor t s) := by simp [execOVor]
@[simp] theorem execOVxor_keeps (t s) : Keeps s (execOVxor t s) := by simp [execOVxor]
@[simp] theorem execOVmin_keeps (t s) : Keeps s (execOVmin t s) := by simp [execOVmin]
@[simp] theorem execOVmax_keeps (t s) : Keeps s (execOVmax t s) := by simp [execOVmax]
@[simp] theorem execOVshl_keeps (t s) : Keeps s (execOVshl t s) := by simp [execOVshl]
@[simp] theorem execOVsra_keeps (t s) : Keeps s (execOVsra t s) := by simp [execOVsra]
@[simp] theorem execOVmul_keeps (t s) : Keeps s (execOVmul t s) := by simp [execOVmul]
@[simp] theorem execOVmulq_keeps (t s) : Keeps s (execOVmulq t s) := by simp [execOVmulq]
@[simp] theorem execOVsrr_keeps (t s) : Keeps s (execOVsrr t s) := by simp [execOVsrr]
@[simp] theorem execOVclamp_keeps (t s) : Keeps s (execOVclamp t s) := by simp [execOVclamp]
@[simp] theorem execOVclt_keeps (t s) : Keeps s (execOVclt t s) := by simp [execOVclt]
@[simp] theorem execOVceq_keeps (t s) : Keeps s (execOVceq t s) := by simp [execOVceq]
@[simp] theorem execOVcle_keeps (t s) : Keeps s (execOVcle t s) := by simp [execOVcle]
@[simp] theorem execOVsel_keeps (t s) : Keeps s (execOVsel t s) := by simp [execOVsel]
@[simp] theorem execOVred_keeps (t s) : Keeps s (execOVred t s) := by simp [execOVred]
@[simp] theorem execOVbcast_keeps (t s) : Keeps s (execOVbcast t s) := by simp [execOVbcast]
@[simp] theorem execOVget_keeps (t s) : Keeps s (execOVget t s) := by simp [execOVget]
@[simp] theorem execOVput_keeps (t s) : Keeps s (execOVput t s) := by simp [execOVput]
@[simp] theorem execOMset_keeps (t s) : Keeps s (execOMset t s) := by simp [execOMset]
@[simp] theorem execOMget_keeps (t s) : Keeps s (execOMget t s) := by simp [execOMget]
@[simp] theorem execOPopm_keeps (t s) : Keeps s (execOPopm t s) := by simp [execOPopm]
@[simp] theorem execOMnot_keeps (t s) : Keeps s (execOMnot t s) := by simp [execOMnot]
@[simp] theorem execOVsort_keeps (t s) : Keeps s (execOVsort t s) := by simp [execOVsort]
@[simp] theorem execIllegalInstruction_keeps (t s) : Keeps s (execIllegalInstruction t s) := by simp [execIllegalInstruction]
@[simp] theorem execBudgetExceeded_keeps (t s) : Keeps s (execBudgetExceeded t s) := by simp [execBudgetExceeded]

/-! ### Instructions of the orrery: memory -/

@[simp] theorem execOLd_keeps (t io s) : Keeps s (execOLd t io s) := by simp [execOLd]
@[simp] theorem execOLw_keeps (t io s) : Keeps s (execOLw t io s) := by simp [execOLw]
@[simp] theorem execOLh_keeps (t io s) : Keeps s (execOLh t io s) := by simp [execOLh]
@[simp] theorem execOLbu_keeps (t io s) : Keeps s (execOLbu t io s) := by simp [execOLbu]
@[simp] theorem execOSt_keeps (t io s) : Keeps s (execOSt t io s) := by simp [execOSt]
@[simp] theorem execOStw_keeps (t io s) : Keeps s (execOStw t io s) := by simp [execOStw]
@[simp] theorem execOSth_keeps (t io s) : Keeps s (execOSth t io s) := by simp [execOSth]
@[simp] theorem execOVld_keeps (t io s) : Keeps s (execOVld t io s) := by simp [execOVld]
@[simp] theorem execOVst_keeps (t io s) : Keeps s (execOVst t io s) := by simp [execOVst]
@[simp] theorem execOVgather_keeps (t io s) : Keeps s (execOVgather t io s) := by simp [execOVgather]
@[simp] theorem execOVscatter_keeps (t io s) : Keeps s (execOVscatter t io s) := by simp [execOVscatter]
@[simp] theorem execOAmo_keeps (t io s) : Keeps s (execOAmo t io s) := by simp [execOAmo]

/-! ### Instructions of the orrery: tokens, timers and ends -/

@[simp] theorem execOWait_keeps (t s) : Keeps s (execOWait t s) := by simp [execOWait]
@[simp] theorem execOWaitWake_keeps (t s) : Keeps s (execOWaitWake t s) := by simp [execOWaitWake]
@[simp] theorem execTokenQueueRoom_keeps (c s) : Keeps s (execTokenQueueRoom c s) := by simp [execTokenQueueRoom]
@[simp] theorem execORelease_keeps (t s) : Keeps s (execORelease t s) := by simp [execORelease]
@[simp] theorem execOPost_keeps (t s) : Keeps s (execOPost t s) := by simp [execOPost]
@[simp] theorem execOFence_keeps (t s) : Keeps s (execOFence t s) := by simp [execOFence]
@[simp] theorem execOHalt_keeps (t s) : Keeps s (execOHalt t s) := by simp [execOHalt]
@[simp] theorem execOFault_keeps (t s) : Keeps s (execOFault t s) := by simp [execOFault]
@[simp] theorem execOTimer_keeps (t s) : Keeps s (execOTimer t s) := by simp [execOTimer]
@[simp] theorem execTimerTokenFire_keeps (t s) : Keeps s (execTimerTokenFire t s) := by simp [execTimerTokenFire]
@[simp] theorem execProgramSuspend_keeps (n s) : Keeps s (execProgramSuspend n s) := by simp [execProgramSuspend]
@[simp] theorem execOryProgUnload_keeps (v s) : Keeps s (execOryProgUnload v s) := by
  refine allNext_next.mpr (State.progCmd_keeps _ _ _ _ fun t => ?_)
  have begun := t.beginUnload_keeps (v.toNat % 2 ^ 16) true none
  split <;> rename_i e
  · exact (State.progEnd_keeps ..).trans (keeps_of_eq e begun)
  · exact keeps_of_eq e begun

@[simp] theorem execUnloadForceStop_keeps (s) : Keeps s (execUnloadForceStop s) := by
  unfold execUnloadForceStop
  (repeat' split) <;> simp

@[simp] theorem execOryProgResume_keeps (v s) : Keeps s (execOryProgResume v s) := by simp [execOryProgResume]

/-! ### Commands of the link layer -/

@[simp] theorem execHello_keeps (p f s) : Keeps s (execHello p f s) := by simp [execHello]
@[simp] theorem execHelloInterval_keeps (p s) : Keeps s (execHelloInterval p s) := by simp [execHelloInterval]
@[simp] theorem execCredit_keeps (p f s) : Keeps s (execCredit p f s) := by simp [execCredit]
@[simp] theorem execCreditPublish_keeps (p s) : Keeps s (execCreditPublish p s) := by simp [execCreditPublish]
@[simp] theorem execTrainingStart_keeps (p s) : Keeps s (execTrainingStart p s) := by simp [execTrainingStart]
@[simp] theorem execTrainTimeout_keeps (p s) : Keeps s (execTrainTimeout p s) := by simp [execTrainTimeout]
@[simp] theorem execTrainRetry_keeps (p s) : Keeps s (execTrainRetry p s) := by
  unfold execTrainRetry
  dsimp only
  (repeat' split) <;> simp

@[simp] theorem execAck_keeps (p f s) : Keeps s (execAck p f s) := by simp [execAck]
@[simp] theorem execAckDelayExpiry_keeps (p s) : Keeps s (execAckDelayExpiry p s) := by
  unfold execAckDelayExpiry
  dsimp only
  (repeat' split) <;> simp

@[simp] theorem execRetryReq_keeps (p f s) : Keeps s (execRetryReq p f s) := by simp [execRetryReq]
@[simp] theorem execHopError_keeps (p cause s) : Keeps s (execHopError p cause s) := by simp [execHopError]
@[simp] theorem execRetryReqTimeout_keeps (p s) : Keeps s (execRetryReqTimeout p s) := by
  unfold execRetryReqTimeout
  (repeat' split) <;> simp

@[simp] theorem execAckTimeout_keeps (p s) : Keeps s (execAckTimeout p s) := by
  unfold execAckTimeout
  dsimp only
  (repeat' split) <;> simp

@[simp] theorem execRetryExhausted_keeps (p s) : Keeps s (execRetryExhausted p s) := by simp [execRetryExhausted]
@[simp] theorem execLinkCtlBadOpcode_keeps (p f s) : Keeps s (execLinkCtlBadOpcode p f s) := by simp [execLinkCtlBadOpcode]
@[simp] theorem execMalformedFrame_keeps (p f s) : Keeps s (execMalformedFrame p f s) := by simp [execMalformedFrame]
@[simp] theorem execStompedFrame_keeps (p f s) : Keeps s (execStompedFrame p f s) := by
  have taken := s.linkIn_keeps p f
  unfold execStompedFrame
  split <;> rename_i e <;> simpa [e] using taken

@[simp] theorem execUncorrectableCodeword_keeps (p s) : Keeps s (execUncorrectableCodeword p s) := by
  simp [execUncorrectableCodeword]
@[simp] theorem execAlignLost_keeps (p s) : Keeps s (execAlignLost p s) := by simp [execAlignLost]
@[simp] theorem execPortEnClear_keeps (p v s) : Keeps s (execPortEnClear p v s) := by simp [execPortEnClear]
@[simp] theorem execPortReset_keeps (p v s) : Keeps s (execPortReset p v s) := by simp [execPortReset]
@[simp] theorem execLnkFenceWrite_keeps (p v s) : Keeps s (execLnkFenceWrite p v s) := by simp [execLnkFenceWrite]
@[simp] theorem execLnkCreditGrantWrite_keeps (p vc v s) : Keeps s (execLnkCreditGrantWrite p vc v s) := by
  simp [execLnkCreditGrantWrite]

/-! ### Commands of the optical lanes -/

@[simp] theorem execHeaterUpdate_keeps (f inputs temps s) : Keeps s (execHeaterUpdate f inputs temps s) := by
  simp [execHeaterUpdate]
@[simp] theorem execXtRefreshPeriodEnd_keeps (f residuals s) : Keeps s (execXtRefreshPeriodEnd f residuals s) := by
  simp [execXtRefreshPeriodEnd]
@[simp] theorem execXtSwap_keeps (f v s) : Keeps s (execXtSwap f v s) := by simp [execXtSwap]
@[simp] theorem execLineLockLost_keeps (f n s) : Keeps s (execLineLockLost f n s) := by simp [execLineLockLost]
@[simp] theorem execLineLockRegained_keeps (f n s) : Keeps s (execLineLockRegained f n s) := by simp [execLineLockRegained]
@[simp] theorem execLaneHoldLimit_keeps (p s) : Keeps s (execLaneHoldLimit p s) := by
  unfold execLaneHoldLimit
  dsimp only
  (repeat' split) <;> simp

@[simp] theorem execLinePowerSample_keeps (f n r s) : Keeps s (execLinePowerSample f n r s) := by simp [execLinePowerSample]
@[simp] theorem execLaneMoveReq_keeps (p f s) : Keeps s (execLaneMoveReq p f s) := by simp [execLaneMoveReq]
@[simp] theorem execCutoverStart_keeps (f s) : Keeps s (execCutoverStart f s) := by
  unfold execCutoverStart
  dsimp only
  (repeat' split) <;> simp

@[simp] theorem execLaneAck_keeps (p f s) : Keeps s (execLaneAck p f s) := by
  refine allNext_next.mpr (State.linkCtlIn_keeps _ _ _ _ _ fun t => ?_)
  (repeat' split) <;> simp

@[simp] theorem execLaneReady_keeps (p f s) : Keeps s (execLaneReady p f s) := by
  refine allNext_next.mpr (State.linkCtlIn_keeps _ _ _ _ _ fun t => ?_)
  (repeat' split) <;> simp

@[simp] theorem execSpareReceiverAligned_keeps (f s) : Keeps s (execSpareReceiverAligned f s) := by
  unfold execSpareReceiverAligned
  dsimp only
  (repeat' split) <;> simp

@[simp] theorem execLaneReadyDeadline_keeps (f s) : Keeps s (execLaneReadyDeadline f s) := by
  unfold execLaneReadyDeadline
  (repeat' split) <;> simp

@[simp] theorem execTSwitch_keeps (f cwCount s) : Keeps s (execTSwitch f cwCount s) := by
  unfold execTSwitch
  dsimp only
  (repeat' split) <;> simp

@[simp] theorem execLaneMark_keeps (p f s) : Keeps s (execLaneMark p f s) := by
  refine allNext_next.mpr (State.linkCtlIn_keeps _ _ _ _ _ fun t => ?_)
  (repeat' split) <;> simp

@[simp] theorem execOldLineRelease_keeps (f s) : Keeps s (execOldLineRelease f s) := by
  unfold execOldLineRelease
  dsimp only
  (repeat' split) <;> simp

@[simp] theorem execLaneAbort_keeps (p f s) : Keeps s (execLaneAbort p f s) := by
  refine allNext_next.mpr (State.linkCtlIn_keeps _ _ _ _ _ fun t => ?_)
  (repeat' split) <;> simp

@[simp] theorem execCutoverRetry_keeps (f n fadeHolds s) : Keeps s (execCutoverRetry f n fadeHolds s) := by
  unfold execCutoverRetry
  dsimp only
  (repeat' split) <;> simp

@[simp] theorem execOptLaneMoveGo_keeps (f v s) : Keeps s (execOptLaneMoveGo f v s) := by simp [execOptLaneMoveGo]
@[simp] theorem execOptLaneRestore_keeps (f v s) : Keeps s (execOptLaneRestore f v s) := by simp [execOptLaneRestore]
@[simp] theorem execCalibrationDone_keeps (f r s) : Keeps s (execCalibrationDone f r s) := by simp [execCalibrationDone]
@[simp] theorem execOptRecal_keeps (f v locks s) : Keeps s (execOptRecal f v locks s) := by simp [execOptRecal]

/-! ### Commands of the forwarding tables -/

@[simp] theorem execAnnounce_keeps (p f s) : Keeps s (execAnnounce p f s) := by simp [execAnnounce]
@[simp] theorem execCatalogueSweep_keeps (s) : Keeps s (execCatalogueSweep s) := by simp [execCatalogueSweep]
@[simp] theorem execCatRehashGo_keeps (v s) : Keeps s (execCatRehashGo v s) := by simp [execCatRehashGo]
@[simp] theorem execCatRehashDone_keeps (s) : Keeps s (execCatRehashDone s) := by
  unfold execCatRehashDone
  dsimp only
  (repeat' split) <;> simp

@[simp] theorem execCatQuery_keeps (v s) : Keeps s (execCatQuery v s) := by simp [execCatQuery]
@[simp] theorem execCatInstall_keeps (v s) : Keeps s (execCatInstall v s) := by simp [execCatInstall]
@[simp] theorem execCatRemove_keeps (v s) : Keeps s (execCatRemove v s) := by simp [execCatRemove]
@[simp] theorem execCatUnfreeze_keeps (v s) : Keeps s (execCatUnfreeze v s) := by simp [execCatUnfreeze]
@[simp] theorem execIdxQueryGo_keeps (v s) : Keeps s (execIdxQueryGo v s) := by simp [execIdxQueryGo]
@[simp] theorem execMcCommit_keeps (v s) : Keeps s (execMcCommit v s) := by simp [execMcCommit]
@[simp] theorem execMcLoad_keeps (v s) : Keeps s (execMcLoad v s) := by simp [execMcLoad]
@[simp] theorem execBulk_keeps (p f tIn s) : Keeps s (execBulk p f tIn s) := by simp [execBulk]
@[simp] theorem execBestEffort_keeps (p f tIn s) : Keeps s (execBestEffort p f tIn s) := by simp [execBestEffort]
@[simp] theorem execMgmtForward_keeps (p f tIn s) : Keeps s (execMgmtForward p f tIn s) := by simp [execMgmtForward]
@[simp] theorem execResultFromLeaf_keeps (p f s) : Keeps s (execResultFromLeaf p f s) := by simp [execResultFromLeaf]

/-! ### Commands of the switch core -/

@[simp] theorem execCellArrival_keeps (buf port cell check s) : Keeps s (execCellArrival buf port cell check s) := by
  unfold execCellArrival
  (repeat' split) <;> simp

@[simp] theorem execReseqTimeout_keeps (buf port cell s) : Keeps s (execReseqTimeout buf port cell s) := by
  unfold execReseqTimeout
  dsimp only
  (repeat' split) <;> simp

@[simp] theorem execCellRetryExhausted_keeps (buf port cell s) : Keeps s (execCellRetryExhausted buf port cell s) := by
  unfold execCellRetryExhausted
  (repeat' split) <;> simp

@[simp] theorem execEgressUnderrun_keeps (buf port s) : Keeps s (execEgressUnderrun buf port s) := by
  unfold execEgressUnderrun
  dsimp only
  (repeat' split) <;> simp

@[simp] theorem execTrailerFailAfterDispatch_keeps (p buf s) : Keeps s (execTrailerFailAfterDispatch p buf s) := by
  unfold execTrailerFailAfterDispatch
  (repeat' split) <;> simp

@[simp] theorem execWithholdEvaluate_keeps (die s) : Keeps s (execWithholdEvaluate die s) := by simp [execWithholdEvaluate]
@[simp] theorem execBufferAudit_keeps (die findings s) : Keeps s (execBufferAudit die findings s) := by
  simp [execBufferAudit]
@[simp] theorem execSpillDelayExpiry_keeps (buf s) : Keeps s (execSpillDelayExpiry buf s) := by
  unfold execSpillDelayExpiry
  (repeat' split) <;> simp

@[simp] theorem execSpillRateCheck_keeps (die s) : Keeps s (execSpillRateCheck die s) := by simp [execSpillRateCheck]
@[simp] theorem execMirrorEnable_keeps (n v s) : Keeps s (execMirrorEnable n v s) := by simp [execMirrorEnable]
@[simp] theorem execOriginBufferAvailable_keeps (s) : Keeps s (execOriginBufferAvailable s) := by
  simp [execOriginBufferAvailable]

/-! ### Commands of the scheduler -/

@[simp] theorem execEgressArbitrate_keeps (p tOut s) : Keeps s (execEgressArbitrate p tOut s) := by
  unfold execEgressArbitrate
  dsimp only
  (repeat' split) <;> simp

@[simp] theorem execVcWeightWrite_keeps (b v s) : Keeps s (execVcWeightWrite b v s) := by simp [execVcWeightWrite]
@[simp] theorem execMeterConfigWrite_keeps (off v s) : Keeps s (execMeterConfigWrite off v s) := by
  simp [execMeterConfigWrite]
@[simp] theorem execGateShadowEntryStore_keeps (p e v s) : Keeps s (execGateShadowEntryStore p e v s) := by
  simp [execGateShadowEntryStore]
@[simp] theorem execSchGateArm_keeps (p v s) : Keeps s (execSchGateArm p v s) := by simp [execSchGateArm]
@[simp] theorem execSchGateCancel_keeps (p v s) : Keeps s (execSchGateCancel p v s) := by simp [execSchGateCancel]
@[simp] theorem execGateEntryBoundary_keeps (p s) : Keeps s (execGateEntryBoundary p s) := by simp [execGateEntryBoundary]
@[simp] theorem execGateStarve_keeps (p vc waited s) : Keeps s (execGateStarve p vc waited s) := by
  unfold execGateStarve
  dsimp only
  (repeat' split) <;> simp

/-! ### Commands of the transit plane -/

@[simp] theorem execPermWordWrite_keeps (i w v s) : Keeps s (execPermWordWrite i w v s) := by simp [execPermWordWrite]
@[simp] theorem execPermCommit_keeps (v s) : Keeps s (execPermCommit v s) := by simp [execPermCommit]
@[simp] theorem execCalShadowEntryStore_keeps (e v s) : Keeps s (execCalShadowEntryStore e v s) := by
  simp [execCalShadowEntryStore]
@[simp] theorem execTrnCalArm_keeps (v s) : Keeps s (execTrnCalArm v s) := by simp [execTrnCalArm]
@[simp] theorem execTrnCalCancel_keeps (v s) : Keeps s (execTrnCalCancel v s) := by simp [execTrnCalCancel]
@[simp] theorem execCalEntryBoundary_keeps (s) : Keeps s (execCalEntryBoundary s) := by simp [execCalEntryBoundary]
@[simp] theorem execTransitElectricalResume_keeps (s) : Keeps s (execTransitElectricalResume s) := by
  unfold execTransitElectricalResume
  split <;> exact allNext_next.mpr rfl

@[simp] theorem execElementBiasUpdate_keeps (c e leakage bias s) : Keeps s (execElementBiasUpdate c e leakage bias s) := by
  simp [execElementBiasUpdate]
@[simp] theorem execElementLockLost_keeps (c e s) : Keeps s (execElementLockLost c e s) := by simp [execElementLockLost]
@[simp] theorem execElementLocked_keeps (c e s) : Keeps s (execElementLocked c e s) := by simp [execElementLocked]
@[simp] theorem execPlaneFailed_keeps (c e s) : Keeps s (execPlaneFailed c e s) := by simp [execPlaneFailed]
@[simp] theorem execElementLockRetry_keeps (c e found s) : Keeps s (execElementLockRetry c e found s) := by
  simp [execElementLockRetry]
@[simp] theorem execTrnRecal_keeps (v found s) : Keeps s (execTrnRecal v found s) := by simp [execTrnRecal]
@[simp] theorem execTransitSuspendTFrom_keeps (s) : Keeps s (execTransitSuspendTFrom s) := by simp [execTransitSuspendTFrom]
@[simp] theorem execTransitResumeTFrom_keeps (s) : Keeps s (execTransitResumeTFrom s) := by simp [execTransitResumeTFrom]
@[simp] theorem execUmbraSnap_keeps (v s) : Keeps s (execUmbraSnap v s) := by simp [execUmbraSnap]
@[simp] theorem execUmbraRelease_keeps (v s) : Keeps s (execUmbraRelease v s) := by simp [execUmbraRelease]
@[simp] theorem execUmbraMapWriteDone_keeps (s) : Keeps s (execUmbraMapWriteDone s) := by
  unfold execUmbraMapWriteDone
  dsimp only
  (repeat' split) <;> simp

/-! ### Commands of health and the governors -/

@[simp] theorem execAlbedoInput_keeps (cls idx i s) : Keeps s (execAlbedoInput cls idx i s) := by simp [execAlbedoInput]
@[simp] theorem execScoreRecovery_keeps (s) : Keeps s (execScoreRecovery s) := by simp [execScoreRecovery]
@[simp] theorem execIssueWatchdog_keeps (t s) : Keeps s (execIssueWatchdog t s) := by simp [execIssueWatchdog]
@[simp] theorem execBudgetRefill_keeps (g s) : Keeps s (execBudgetRefill g s) := by simp [execBudgetRefill]
@[simp] theorem execBreakerClear_keeps (v s) : Keeps s (execBreakerClear v s) := by simp [execBreakerClear]
@[simp] theorem execExpulsionComplete_keeps (cls idx s) : Keeps s (execExpulsionComplete cls idx s) := by
  simp [execExpulsionComplete]
@[simp] theorem execElemScoreReset_keeps (v s) : Keeps s (execElemScoreReset v s) := by simp [execElemScoreReset]
@[simp] theorem execElemRestore_keeps (v s) : Keeps s (execElemRestore v s) := by simp [execElemRestore]
@[simp] theorem execElemExpel_keeps (v s) : Keeps s (execElemExpel v s) := by simp [execElemExpel]
@[simp] theorem execAuditWaitExpiry_keeps (g cseq seg s) : Keeps s (execAuditWaitExpiry g cseq seg s) := by
  unfold execAuditWaitExpiry
  (repeat' split) <;> simp

@[simp] theorem execGovernorRun_keeps (dom pkg used s) : Keeps s (execGovernorRun dom pkg used s) := by
  simp [execGovernorRun]
@[simp] theorem execPowerCrit_keeps (s) : Keeps s (execPowerCrit s) := by simp [execPowerCrit]
@[simp] theorem execTemperatureRead_keeps (tj st s) : Keeps s (execTemperatureRead tj st s) := by simp [execTemperatureRead]
@[simp] theorem execThermalCrit_keeps (s) : Keeps s (execThermalCrit s) := by simp [execThermalCrit]
@[simp] theorem execThermalCritRelease_keeps (s) : Keeps s (execThermalCritRelease s) := by
  unfold execThermalCritRelease
  dsimp only
  (repeat' split) <;> simp

@[simp] theorem execThermtrip_keeps (s) : Keeps s (execThermtrip s) := by simp [execThermtrip]

/-! ### Commands of the memory endpoint -/

@[simp] theorem execLoad_keeps (p f tIn ok io s) : Keeps s (execLoad p f tIn ok io s) := by simp [execLoad]
@[simp] theorem execStore_keeps (p f tIn ok io s) : Keeps s (execStore p f tIn ok io s) := by simp [execStore]
@[simp] theorem execStoreMcast_keeps (p f tIn ok s) : Keeps s (execStoreMcast p f tIn ok s) := by simp [execStoreMcast]
@[simp] theorem execAtomic_keeps (p f tIn ok io s) : Keeps s (execAtomic p f tIn ok io s) := by simp [execAtomic]
@[simp] theorem execReduceInto_keeps (p f tIn ok io s) : Keeps s (execReduceInto p f tIn ok io s) := by simp [execReduceInto]
@[simp] theorem execMemFence_keeps (p f tIn ok s) : Keeps s (execMemFence p f tIn ok s) := by simp [execMemFence]
@[simp] theorem execMemReqBadOpcode_keeps (p f tIn ok s) : Keeps s (execMemReqBadOpcode p f tIn ok s) := by
  simp [execMemReqBadOpcode]
@[simp] theorem execMemReqPassThrough_keeps (p f tIn s) : Keeps s (execMemReqPassThrough p f tIn s) := by
  simp [execMemReqPassThrough]
@[simp] theorem execMemRspForward_keeps (p f tIn s) : Keeps s (execMemRspForward p f tIn s) := by simp [execMemRspForward]
@[simp] theorem execMemRspToSpine_keeps (p f ok s) : Keeps s (execMemRspToSpine p f ok s) := by simp [execMemRspToSpine]
@[simp] theorem execStackWriteAccepted_keeps (ch s) : Keeps s (execStackWriteAccepted ch s) := by
  simp [execStackWriteAccepted]
@[simp] theorem execFenceAnswered_keeps (serial s) : Keeps s (execFenceAnswered serial s) := by
  unfold execFenceAnswered
  (repeat' split) <;> simp

@[simp] theorem execMcastUnreachedFinal_keeps (serial s) : Keeps s (execMcastUnreachedFinal serial s) := by
  unfold execMcastUnreachedFinal
  (repeat' split) <;> simp

@[simp] theorem execCombineTriggerClear_keeps (s) : Keeps s (execCombineTriggerClear s) := by simp [execCombineTriggerClear]
@[simp] theorem execCombineFlush_keeps (id io s) : Keeps s (execCombineFlush id io s) := by
  unfold execCombineFlush
  (repeat' split) <;> simp

@[simp] theorem execCombineIdleClose_keeps (id s) : Keeps s (execCombineIdleClose id s) := by
  unfold execCombineIdleClose
  (repeat' split) <;> simp

@[simp] theorem execCombineRspTimeout_keeps (seq s) : Keeps s (execCombineRspTimeout seq s) := by
  unfold execCombineRspTimeout
  (repeat' split) <;> simp

@[simp] theorem execFilterRecordExpiry_keeps (die s) : Keeps s (execFilterRecordExpiry die s) := by
  simp [execFilterRecordExpiry]
@[simp] theorem execAccessEntryWrite_keeps (n w v s) : Keeps s (execAccessEntryWrite n w v s) := by
  simp [execAccessEntryWrite]
@[simp] theorem execMeterRefillTick_keeps (s) : Keeps s (execMeterRefillTick s) := by simp [execMeterRefillTick]

/-! ### Commands that load programs -/

@[simp] theorem execOryProgLoad_keeps (v s) : Keeps s (execOryProgLoad v s) := by simp [execOryProgLoad]
@[simp] theorem execProgramLoadDone_keeps (s) : Keeps s (execProgramLoadDone s) := by
  unfold execProgramLoadDone
  (repeat' split) <;> simp

/-! ### Commands that apply configuration -/

@[simp] theorem execFolioApply_keeps (s) : Keeps s (execFolioApply s) := by
  unfold execFolioApply
  dsimp only
  (repeat' split) <;> simp

@[simp] theorem execActivationFire_keeps (s) : Keeps s (execActivationFire s) := by simp [execActivationFire]

/-! ### Commands that stage configuration -/

@[simp] theorem execConfigFieldWrite_keeps (r off v s) : Keeps s (execConfigFieldWrite r off v s) := by
  simp [execConfigFieldWrite]
@[simp] theorem execColophonRecomputeDone_keeps (s) : Keeps s (execColophonRecomputeDone s) := by
  simp [execColophonRecomputeDone]
@[simp] theorem execCfgAmendStage_keeps (v s) : Keeps s (execCfgAmendStage v s) := by simp [execCfgAmendStage]
@[simp] theorem execCfgAmendCancel_keeps (v s) : Keeps s (execCfgAmendCancel v s) := by simp [execCfgAmendCancel]
@[simp] theorem execAmendFrag_keeps (p f ok s) : Keeps s (execAmendFrag p f ok s) := by simp [execAmendFrag]
@[simp] theorem execMgmtAmendCancel_keeps (p f ok s) : Keeps s (execMgmtAmendCancel p f ok s) := by
  simp [execMgmtAmendCancel]
@[simp] theorem execMgmtColophonQuery_keeps (p f ok s) : Keeps s (execMgmtColophonQuery p f ok s) := by
  simp [execMgmtColophonQuery]
@[simp] theorem execTransferIdleTimeout_keeps (s) : Keeps s (execTransferIdleTimeout s) := by simp [execTransferIdleTimeout]

/-! ### Commands of the Archivist's own work -/

@[simp] theorem execUnsupportedCommand_keeps (tp opcode s) : Keeps s (execUnsupportedCommand tp opcode s) := by
  refine allNext_next.mpr ?_
  split <;> simp

@[simp] theorem execAlmanacCopy_keeps (s) : Keeps s (execAlmanacCopy s) := by simp [execAlmanacCopy]
@[simp] theorem execSummaryWrite_keeps (s) : Keeps s (execSummaryWrite s) := by simp [execSummaryWrite]
@[simp] theorem execArchivistWatchdogLapse_keeps (s) : Keeps s (execArchivistWatchdogLapse s) := by
  simp [execArchivistWatchdogLapse]
@[simp] theorem execSensorSample_keeps (tj rails s) : Keeps s (execSensorSample tj rails s) := by simp [execSensorSample]
@[simp] theorem execAlertAck_keeps (v s) : Keeps s (execAlertAck v s) := by simp [execAlertAck]
@[simp] theorem execIntStatusWrite_keeps (r off v s) : Keeps s (execIntStatusWrite r off v s) := by simp [execIntStatusWrite]

/-! ### Standard mailbox commands -/

@[simp] theorem execIdentify_keeps (tp s) : Keeps s (execIdentify tp s) := by simp [execIdentify]
@[simp] theorem execBackgroundOperationStatus_keeps (tp s) : Keeps s (execBackgroundOperationStatus tp s) := by
  simp [execBackgroundOperationStatus]
@[simp] theorem execGetEventRecords_keeps (tp input s) : Keeps s (execGetEventRecords tp input s) := by
  simp [execGetEventRecords]
@[simp] theorem execClearEventRecords_keeps (tp input s) : Keeps s (execClearEventRecords tp input s) := by
  simp [execClearEventRecords]
@[simp] theorem execGetEventInterruptPolicy_keeps (tp s) : Keeps s (execGetEventInterruptPolicy tp s) := by
  simp [execGetEventInterruptPolicy]
@[simp] theorem execSetEventInterruptPolicy_keeps (tp input s) : Keeps s (execSetEventInterruptPolicy tp input s) := by
  simp [execSetEventInterruptPolicy]
@[simp] theorem execGetTimestamp_keeps (tp s) : Keeps s (execGetTimestamp tp s) := by simp [execGetTimestamp]
@[simp] theorem execSetTimestamp_keeps (tp _input s) : Keeps s (execSetTimestamp tp _input s) := by simp [execSetTimestamp]
@[simp] theorem execGetSupportedLogs_keeps (tp s) : Keeps s (execGetSupportedLogs tp s) := by simp [execGetSupportedLogs]
@[simp] theorem execGetLog_keeps (tp input s) : Keeps s (execGetLog tp input s) := by simp [execGetLog]
@[simp] theorem execIdentifyMemoryDevice_keeps (tp s) : Keeps s (execIdentifyMemoryDevice tp s) := by
  simp [execIdentifyMemoryDevice]
@[simp] theorem execGetHealthInfo_keeps (tp s) : Keeps s (execGetHealthInfo tp s) := by simp [execGetHealthInfo]

/-! ### The device's own mailbox commands -/

@[simp] theorem execAmendTransfer_keeps (tp input s) : Keeps s (execAmendTransfer tp input s) := by simp [execAmendTransfer]
@[simp] theorem execProgramTransfer_keeps (tp input s) : Keeps s (execProgramTransfer tp input s) := by
  simp [execProgramTransfer]
@[simp] theorem execFolioTransfer_keeps (tp input s) : Keeps s (execFolioTransfer tp input s) := by simp [execFolioTransfer]
@[simp] theorem execFolioVerifyDone_keeps (s) : Keeps s (execFolioVerifyDone s) := by
  unfold execFolioVerifyDone
  dsimp only
  (repeat' split) <;> simp

@[simp] theorem execAmendCancel_keeps (tp s) : Keeps s (execAmendCancel tp s) := by simp [execAmendCancel]
@[simp] theorem execGroupRecord_keeps (tp input s) : Keeps s (execGroupRecord tp input s) := by simp [execGroupRecord]
@[simp] theorem execColophonQuery_keeps (tp s) : Keeps s (execColophonQuery tp s) := by simp [execColophonQuery]
@[simp] theorem execProgramUnload_keeps (tp input s) : Keeps s (execProgramUnload tp input s) := by
  refine allNext_next.mpr (State.archCmd_keeps _ _ _ _ fun t => ?_)
  split
  · simp
  · have begun := t.beginUnload_keeps (numAt input 0 2) false (some tp)
    split <;> rename_i e
    · exact (State.archDone_keeps ..).trans (keeps_of_eq e begun)
    · exact keeps_of_eq e begun

@[simp] theorem execAlmanacRead_keeps (tp input s) : Keeps s (execAlmanacRead tp input s) := by simp [execAlmanacRead]
@[simp] theorem execSummaryRead_keeps (tp input s) : Keeps s (execSummaryRead tp input s) := by simp [execSummaryRead]
@[simp] theorem execSensorRead_keeps (tp input s) : Keeps s (execSensorRead tp input s) := by simp [execSensorRead]

/-! ### Commands of the host link -/

@[simp] theorem execHdmDecoderCommit_keeps (n base size ways granularity position dpaBase s) :
    Keeps s (execHdmDecoderCommit n base size ways granularity position dpaBase s) := by
  simp [execHdmDecoderCommit]
@[simp] theorem execCxlMemRead_keeps (hpa io s) : Keeps s (execCxlMemRead hpa io s) := by
  unfold execCxlMemRead
  (repeat' split)
  · simp
  · simp
  · next held => simpa using State.holdPage_keeps _ _ _ _ _ _ held
  · simp

@[simp] theorem execCxlMemWrite_keeps (hpa data io s) : Keeps s (execCxlMemWrite hpa data io s) := by
  unfold execCxlMemWrite
  (repeat' split)
  · simp
  · simp
  · next held => simpa using State.holdWords_keeps _ _ _ _ _ _ held
  · simp

@[simp] theorem execCdatRead_keeps (s) : Keeps s (execCdatRead s) := by simp [execCdatRead]
@[simp] theorem execHostLinkReset_keeps (s) : Keeps s (execHostLinkReset s) := by simp [execHostLinkReset]
@[simp] theorem execPerstNDeassert_keeps (width rate msix s) : Keeps s (execPerstNDeassert width rate msix s) := by
  simp [execPerstNDeassert]

/-! ### Commands of the check units -/

@[simp] theorem execCheckUnitJob_keeps (u v s) : Keeps s (execCheckUnitJob u v s) := by simp [execCheckUnitJob]
@[simp] theorem execCheckUnitDone_keeps (u media s) : Keeps s (execCheckUnitDone u media s) := by
  unfold execCheckUnitDone
  dsimp only
  (repeat' split) <;> simp

/-! ### Commands that mend pages -/

@[simp] theorem execPageMendDone_keeps (dpa ok s) : Keeps s (execPageMendDone dpa ok s) := by
  unfold execPageMendDone
  dsimp only
  (repeat' split) <;> simp

/-! ### Commands of security -/

@[simp] theorem execOwnerInstall_keeps (v s) : Keeps s (execOwnerInstall v s) := by simp [execOwnerInstall]
@[simp] theorem execDebugAuthorization_keeps (v s) : Keeps s (execDebugAuthorization v s) := by simp [execDebugAuthorization]
@[simp] theorem execTransferFw_keeps (tp input s) : Keeps s (execTransferFw tp input s) := by simp [execTransferFw]
@[simp] theorem execGetFwInfo_keeps (tp s) : Keeps s (execGetFwInfo tp s) := by simp [execGetFwInfo]

/-! ### SPDM requests -/

@[simp] theorem execGetVersion_keeps (req s) : Keeps s (execGetVersion req s) := by simp [execGetVersion]
@[simp] theorem execGetCapabilities_keeps (req s) : Keeps s (execGetCapabilities req s) := by simp [execGetCapabilities]
@[simp] theorem execNegotiateAlgorithms_keeps (req s) : Keeps s (execNegotiateAlgorithms req s) := by
  simp [execNegotiateAlgorithms]
@[simp] theorem execGetDigests_keeps (req s) : Keeps s (execGetDigests req s) := by simp [execGetDigests]
@[simp] theorem execGetCertificate_keeps (req s) : Keeps s (execGetCertificate req s) := by simp [execGetCertificate]
@[simp] theorem execGetMeasurements_keeps (req s) : Keeps s (execGetMeasurements req s) := by
  refine allNext_next.mpr (State.spdmIn_keeps _ _ _ _ _ fun t => ?_)
  dsimp only
  (repeat' split) <;> simp

@[simp] theorem execChallenge_keeps (req s) : Keeps s (execChallenge req s) := by simp [execChallenge]
@[simp] theorem execSpdmUnsupportedRequest_keeps (req s) : Keeps s (execSpdmUnsupportedRequest req s) := by
  simp [execSpdmUnsupportedRequest]

/-! ### Resets and supply -/

@[simp] theorem execPorstNDeassert_keeps (reserve s) : Keeps s (execPorstNDeassert reserve s) := by simp [execPorstNDeassert]
@[simp] theorem execSupplyRestored_keeps (reserve s) : Keeps s (execSupplyRestored reserve s) := by simp [execSupplyRestored]
@[simp] theorem execVinLow_keeps (s) : Keeps s (execVinLow s) := by simp [execVinLow]
@[simp] theorem execReserveRecheck_keeps (reserve s) : Keeps s (execReserveRecheck reserve s) := by simp [execReserveRecheck]
@[simp] theorem execRefclkFault_keeps (s) : Keeps s (execRefclkFault s) := by simp [execRefclkFault]
@[simp] theorem execGlbResetCmd_keeps (v s) : Keeps s (execGlbResetCmd v s) := by simp [execGlbResetCmd]
@[simp] theorem execDeviceReset_keeps (tp input s) : Keeps s (execDeviceReset tp input s) := by simp [execDeviceReset]
@[simp] theorem execActivateFw_keeps (tp input s) : Keeps s (execActivateFw tp input s) := by simp [execActivateFw]
@[simp] theorem execFirmwareVerifyDone_keeps (s) : Keeps s (execFirmwareVerifyDone s) := by
  have verified := s.deriveIdentity.verifyFw_keeps
  rw [State.deriveIdentity_keeps] at verified
  unfold execFirmwareVerifyDone
  dsimp only
  split
  · simp
  · split <;> rename_i e _ <;> simpa [e] using verified

@[simp] theorem execStackTrained_keeps (ok s) : Keeps s (execStackTrained ok s) := by simp [execStackTrained]

/-! ### Register reads -/

@[simp] theorem execLowWordRead_keeps (r off s) : Keeps s (execLowWordRead r off s) := by simp [execLowWordRead]
@[simp] theorem execClearOnRead_keeps (r off s) : Keeps s (execClearOnRead r off s) := by simp [execClearOnRead]

/-! ### Commands of the programmable counters -/

@[simp] theorem execPmuCounterOverflow_keeps (src amount thread s) :
    Keeps s (execPmuCounterOverflow src amount thread s) := by
  unfold execPmuCounterOverflow
  split <;> simp

/-! ### Register access by mailbox -/

@[simp] theorem execRegRead_keeps (tp input s) : Keeps s (execRegRead tp input s) := by simp [execRegRead]

/-! ### Commands that set the rate, or store a word of the pair EPH_FREQ_ADJ -/

theorem execHoldoverEntry_slewed (s) : AllNext (Slewed s) (execHoldoverEntry s) := by
  simp [execHoldoverEntry, State.enterHoldover_slewed, Slewed.refl]

theorem execPpsInMissing_slewed (s) : AllNext (Slewed s) (execPpsInMissing s) := by
  have raised (x : Nat) : Slewed s (({ s with eph.ppsExpected := some (x + second) } : State).raise
      Reg.EPH_INT_STATUS.pps_in_missing) := Slewed.of_kept (by simp)
  unfold execPpsInMissing
  split
  · exact allNext_next.mpr (Slewed.refl s)
  · refine allNext_ite.mpr ⟨fun _ => ?_, fun _ => allNext_next.mpr (Slewed.refl s)⟩
    exact allNext_ite.mpr ⟨fun _ => allNext_next.mpr ((raised _).trans (State.enterHoldover_slewed _)),
      fun _ => allNext_next.mpr (raised _)⟩

theorem execRegisterWrite_slewed (r off size v s) : AllNext (Slewed s) (execRegisterWrite r off size v s) := by
  simp [execRegisterWrite, State.writeWord_slewed, Slewed.refl, Slewed.of_kept]

theorem execHighWordWrite_slewed (r off v s) : AllNext (Slewed s) (execHighWordWrite r off v s) := by
  simp [execHighWordWrite, State.writeWord_slewed, Slewed.refl]

theorem execPmuCounterWrite_slewed (off v s) : AllNext (Slewed s) (execPmuCounterWrite off v s) := by
  simp [execPmuCounterWrite, State.writeWord_slewed, Slewed.refl]

theorem execPmuFreeze_slewed (v s) : AllNext (Slewed s) (execPmuFreeze v s) := by
  simp [execPmuFreeze, State.writeWord_slewed]

theorem execRegWrite_slewed (tp input s) : AllNext (Slewed s) (execRegWrite tp input s) :=
  allNext_next.mpr (State.archCmd_slewed _ _ _ _ (State.regWriteCmd_slewed _ _ _))

/-- Of the commands that reach the Archivist out of band only REG_WRITE can set the rate. -/
theorem State.archRun_slewed (s tp op input) : AllNext (Slewed s) (State.archRun s tp op input) := by
  unfold State.archRun
  split
  case h_27 => exact execRegWrite_slewed tp input s
  all_goals exact Keeps.slewed (by simp)

theorem execOobFrame_slewed (dst src etherType body s) : AllNext (Slewed s) (execOobFrame dst src etherType body s) := by
  unfold execOobFrame
  dsimp only
  (repeat' split)
  case isTrue => exact allNext_next.mpr (Slewed.refl s)
  case isFalse.isTrue => exact allNext_next.mpr (Slewed.refl s)
  case h_1 => exact allNext_next.mpr (Slewed.refl s)
  case h_2.isTrue => exact allNext_next.mpr (Slewed.of_kept rfl)
  case h_2.isFalse.isTrue => exact (State.archRun_slewed _ _ _ _).imp fun t h => Slewed.trans (Slewed.of_kept (by rfl)) h
  case h_2.isFalse.isFalse => exact allNext_next.mpr (Slewed.of_kept rfl)

/-! ### Commands that move the counter -/

theorem execTimeSync_moved (p f tRx s) : AllNext (Moved s) (execTimeSync p f tRx s) := by
  simp [execTimeSync, State.consume_moved, State.takeSync_moved, Moved.refl]

theorem execPpsInEdge_moved (c s) : AllNext (Moved s) (execPpsInEdge c s) := by
  have captured : Moved s (s.setPair Reg.EPH_PPSIN_STAMP_LO.value (c.toNat / 2 ^ 16)) := Moved.of_kept (by simp)
  unfold execPpsInEdge
  dsimp only
  split
  · exact allNext_next.mpr (captured.trans (State.ppsSource_moved _ c))
  · exact allNext_next.mpr captured

theorem execPorstNAssert_moved (s) : AllNext (Moved s) (execPorstNAssert s) := by
  unfold execPorstNAssert
  split
  · exact allNext_next.mpr (Moved.refl s)
  · exact allNext_next.mpr (Moved.trans (Moved.of_kept (by rfl)) (State.coldReset_moved _))

theorem execSupplyLoss_moved (s) : AllNext (Moved s) (execSupplyLoss s) := by
  unfold execSupplyLoss
  split
  · exact allNext_next.mpr (Moved.refl s)
  · refine allNext_next.mpr (Moved.trans (Moved.of_kept (by rfl)) ((State.coldReset_moved _).trans (Moved.of_kept ?_)))
    rw [State.loseMemory_keeps, State.coldReset_kept, State.coldReset_kept]

/-! ### Every command, and a step -/

/-- The commands that may move the timing counter. -/
inductive MovesCounter : Instr → Prop
  | timeSync (p f tRx) : MovesCounter (.timeSync p f tRx)
  | ppsInEdge (capture) : MovesCounter (.ppsInEdge capture)
  | porstNAssert : MovesCounter .porstNAssert
  | supplyLoss : MovesCounter .supplyLoss

/-- Every other command leaves the counter and the queue, and keeps the clamps. -/
theorem exec_slewed {c : Instr} (h : ¬MovesCounter c) (s : State) : AllNext (Slewed s) (exec c s) := by
  cases c with
  | timeSync p f tRx => exact absurd (.timeSync p f tRx) h
  | ppsInEdge capture => exact absurd (.ppsInEdge capture) h
  | porstNAssert => exact absurd .porstNAssert h
  | supplyLoss => exact absurd .supplyLoss h
  | holdoverEntry => exact execHoldoverEntry_slewed s
  | ppsInMissing => exact execPpsInMissing_slewed s
  | registerWrite r off size v => exact execRegisterWrite_slewed r off size v s
  | highWordWrite r off v => exact execHighWordWrite_slewed r off v s
  | pmuCounterWrite off v => exact execPmuCounterWrite_slewed off v s
  | pmuFreeze v => exact execPmuFreeze_slewed v s
  | regWrite tp input => exact execRegWrite_slewed tp input s
  | oobFrame dst src etherType body => exact execOobFrame_slewed dst src etherType body s
  | _ => exact Keeps.slewed (by dsimp only [exec]; simp)

/-- Every command leaves the queue and keeps the clamps. -/
theorem exec_moved (c : Instr) (s : State) : AllNext (Moved s) (exec c s) := by
  by_cases h : MovesCounter c
  · cases h with
    | timeSync p f tRx => exact execTimeSync_moved p f tRx s
    | ppsInEdge capture => exact execPpsInEdge_moved capture s
    | porstNAssert => exact execPorstNAssert_moved s
    | supplyLoss => exact execSupplyLoss_moved s
  · exact (exec_slewed h s).moved

/-- Settles O5: a step is a command on the queue's rest (`exec_moved`), or a tick (`State.tick_moved`). -/
theorem clampsHold : Obligations.ClampsHold := by
  intro s t hs ht
  unfold step at ht
  split at ht
  · exact (exec_moved _ _ t ht).clamped hs
  · cases ht
    exact (State.tick_moved s).clamped hs

/-- Settles O6: both are 0 at reset. -/
theorem clampsAtReset : Obligations.ClampsAtReset := by
  unfold Obligations.ClampsAtReset State.clamped
  decide

/-- Settles O7: a command that is none of the four is one of `exec_slewed`. -/
theorem counterMovers : Obligations.CounterMovers := by
  intro c s t hsync hpps hporst hsupply ht
  refine (exec_slewed (fun h => ?_) s t ht).acc
  cases h with
  | timeSync p f tRx => exact hsync p f tRx rfl
  | ppsInEdge capture => exact hpps capture rfl
  | porstNAssert => exact hporst rfl
  | supplyLoss => exact hsupply rfl

/-- Settles O2: the tick advances the counter, and what it settles of collective work keeps the clock. -/
theorem emptyQueueTicks : Obligations.EmptyQueueTicks := by
  intro s hq
  have ticks : step s = .next s.tick := by unfold step; rw [hq]
  rw [ticks]
  refine ⟨fun stopped => ?_, fun hheld hclk => ⟨_, rfl, ?_⟩⟩
  · rw [State.tick, if_pos (by simpa using stopped)]
  · have kept : s.tick.kept = s.advance.kept := by simp [State.tick, hheld, hclk]
    injection kept with pending adj integ acc
    exact ⟨pending.trans hq, adj, integ, acc⟩

end Sys2Proof.Machine
end

section
/-!
PROOFS. Fabric time (chapter 2): samples of the servo (R48), time frames (R39 to R45), time states (Table 2-4), PPS_IN (R46),
output pulses (R55, R56) and activations (R57, R58).
-/

namespace Sys2Proof.Machine

/-! ### The servo (R48) -/

/-- A sample that is no outlier is taken. -/
theorem State.sample_of_not_outlier {s : State} {e : Int}
    (h : s.eph.state = .locked → e.natAbs ≤ s.fld Reg.EPH_SERVO.outlier_limit * 2 ^ 16) (tRx : Int) :
    s.sample e tRx = ({ s with eph.offset := e, eph.lastSample := s.ft } : State).takeSample e tRx :=
  if_neg fun outlier => absurd (h outlier.1) (Nat.not_le.mpr outlier.2)

/-- Outside FREE, a sample inside the step threshold goes to the servo, with the time since the last one. -/
theorem State.takeSample_of_inside {s : State} {e t0 : Int} (hfree : s.eph.state ≠ .free)
    (hin : e.natAbs ≤ s.fld Reg.EPH_STEP_THRESH.value * 2 ^ 16) (hlast : s.eph.lastRx = some t0) (tRx : Int) :
    s.takeSample e tRx =
      (({ s with eph.outliers := 0, eph.lastRx := some tRx } : State).servo e (sar (tRx - t0) 16)).afterSample e := by
  have noStep : ¬s.fld Reg.EPH_STEP_THRESH.value * 2 ^ 16 < e.natAbs := Nat.not_lt.mpr hin
  unfold State.takeSample
  dsimp only
  rw [if_neg hfree, if_neg]
  · simp only [hlast]
  · rintro (⟨free, -⟩ | ⟨-, -, -, step⟩)
    · exact hfree free
    · exact noStep step

/-- The servo's values from an offset inside the step threshold over tw whole FT. -/
theorem State.servo_of_inside {s : State} {e tw : Int} (hen : s.bit Reg.EPH_CTL.servo_en = true)
    (hin : e.natAbs ≤ s.fld Reg.EPH_STEP_THRESH.value * 2 ^ 16) (htw : tw ≠ 0) :
    (s.servo e tw).eph.integ =
        clampInt (s.eph.integ - sar (e * 2 ^ 32 / tw) (s.fld Reg.EPH_SERVO.ki_shift)) (-(2 ^ 36)) (2 ^ 36) ∧
      (s.servo e tw).eph.adj =
        clampInt ((s.servo e tw).eph.integ - sar (e * 2 ^ 32 / tw) (s.fld Reg.EPH_SERVO.kp_shift)) (-(2 ^ 36)) (2 ^ 36) := by
  have noSlew : ¬s.fld Reg.EPH_STEP_THRESH.value * 2 ^ 16 < e.natAbs := Nat.not_lt.mpr hin
  unfold State.servo
  rw [if_neg (by simp [hen]), if_neg fun h => noSlew h.2, if_neg htw]
  exact ⟨rfl, rfl⟩

/-- Settles O14: the sample goes to the servo, whose values what follows keeps. -/
theorem servoSample : Obligations.ServoSample := by
  intro s e tRx t0 houtlier hfree hin hen hlast htw
  rw [State.sample_of_not_outlier houtlier, State.takeSample_of_inside
    (s := { s with eph.offset := e, eph.lastSample := s.ft }) hfree hin hlast]
  generalize hu : ({ s with eph.offset := e, eph.lastSample := s.ft, eph.outliers := 0, eph.lastRx := some tRx } : State) = u
  have taken := State.afterSample_keeps (u.servo e (sar (tRx - t0) 16)) e
  injection taken with _ adj integ acc
  rw [adj, integ, acc, (State.servo_slewed u e _).acc]
  subst hu
  exact and_assoc.mp ⟨State.servo_of_inside hen hin htw, rfl⟩

/-! ### Time frames (R39 to R45) -/

/-- TIME_SYNC of a valid port that is not the active parent is counted. -/
theorem State.takeSync_of_other {u v : State} {p : Port} {f : Frame} (hs : tfState f ≤ 1) (hvalid : (u.time p).valid = true)
    (hv : v = (u.setTime p { u.time p with lastSync := some u.ft }).refreshParent)
    (hp : v.eph.parent.map (·.1) ≠ some p) (tRx : Stamp) :
    u.takeSync p f tRx = v.count (Reg.EPH_PORT_STAT.sync_other p.toNat) := by
  unfold State.takeSync
  rw [if_neg (Nat.not_lt.mpr hs), if_neg (by simp [hvalid])]
  dsimp only
  rw [← hv, if_pos (by simpa using hp)]

/-- TIME_SYNC of the active parent is the sample of a follower, which relays nothing with relay_en 0. -/
theorem State.takeSync_of_parent {u v : State} {p : Port} {f : Frame} (hs : tfState f ≤ 1) (hvalid : (u.time p).valid = true)
    (hv : v = (u.setTime p { u.time p with lastSync := some u.ft }).refreshParent)
    (hp : v.eph.parent.map (·.1) = some p) (hrole : v.fld Reg.EPH_CTL.role = 0) (hrelay : v.bit Reg.EPH_CTL.relay_en = false)
    (tRx : Stamp) :
    u.takeSync p f tRx = (({ v with eph.sourceHoldover := decide (tfState f = 1) } : State).sample
      ((tRx.toNat : Int) - ((tfValue f : Int) * 2 ^ 16 + f.correction + v.delayIn p)) tRx.toNat).pmuEvent 0x01 0x01 0 := by
  have noRelay : v.relaySync p f tRx = v := by simp [State.relaySync, hrelay]
  unfold State.takeSync
  rw [if_neg (Nat.not_lt.mpr hs), if_neg (by simp [hvalid])]
  dsimp only
  rw [← hv, if_neg (by simp [hp]), noRelay]
  exact if_neg fun h => h hrole

/-- The awaited PDELAY_RESP sets the mean delay (R42). -/
theorem State.takePdelay_of_awaited {u : State} {p : Port} {f : Frame} {t1 t4 : Int}
    (hreq : (u.time p).req = some (tfSeq f, some t1)) (ht : t4 - t1 ≤ 64000 * 2 ^ 16) :
    u.takePdelay p f t4 = (u.setTime p { u.time p with
      mean := if (u.time p).valid then (u.time p).mean + sar (sar (t4 - t1 - f.correction) 1 - (u.time p).mean) 3
        else sar (t4 - t1 - f.correction) 1
      valid := true, loss := 0, req := none }).refreshParent := by
  simp only [State.takePdelay, hreq]
  exact if_pos ⟨trivial, ht⟩

/-- Settles O15: a frame that is taken in meets its opcode's rule (`State.consume_of_received`). -/
theorem timeFrames : Obligations.TimeFrames := by
  intro p f tRx s u htype hin
  refine ⟨fun hop hs hvalid v hv => ⟨fun hp => ?other, fun hp hrole hrelay => ?parent⟩, fun hop => ?request,
    fun hop t1 hreq ht => ?response, fun hop => ?bad⟩
  case other =>
    refine (if_pos ⟨htype, hop⟩).trans (congrArg _ ((State.consume_of_received hin _).trans ?_))
    exact State.takeSync_of_other hs hvalid hv hp tRx
  case parent =>
    refine (if_pos ⟨htype, hop⟩).trans (congrArg _ ((State.consume_of_received hin _).trans ?_))
    exact State.takeSync_of_parent hs hvalid hv hp hrole hrelay tRx
  case request =>
    exact (if_pos ⟨htype, hop⟩).trans (congrArg _ (State.consume_of_received hin _))
  case response =>
    refine (if_pos ⟨htype, hop⟩).trans (congrArg _ ((State.consume_of_received hin _).trans ?_))
    exact State.takePdelay_of_awaited hreq ht
  case bad =>
    exact (if_pos ⟨htype, hop⟩).trans (congrArg _ (State.consume_of_received hin _))

/-! ### What a time state changes (Table 2-3) -/

/-- From s to t only fabric time, registers and what is sent out may change. -/
def State.sameButTime (s t : State) : Prop := t = { s with eph := t.eph, regs := t.regs, out := t.out }

theorem State.sameButTime_trans {s t u : State} (h : s.sameButTime t) (k : t.sameButTime u) : s.sameButTime u := by
  unfold State.sameButTime at *
  rw [k, h]

@[simp] theorem State.raise_eph (s : State) (f : Fld) : (s.raise f).eph = s.eph := by rw [State.raise_eq]

theorem State.raise_sameButTime (s : State) (f : Fld) : s.sameButTime (s.raise f) := by
  have h := State.raise_eq s f
  unfold State.sameButTime
  rw [State.raise_eph, State.regs_raise]
  exact h

@[simp] theorem State.drivePulse_eph (s : State) (n : BitVec 2) (on : Bool) : (s.drivePulse n on).eph = s.eph := by
  unfold State.drivePulse
  dsimp only
  split <;> rfl

@[simp] theorem State.drivePulse_regs (s : State) (n : BitVec 2) (on : Bool) : (s.drivePulse n on).regs = s.regs := by
  unfold State.drivePulse
  dsimp only
  split <;> rfl

@[simp] theorem State.pulsesOff_eph (s : State) : s.pulsesOff.eph = s.eph := by simp [State.pulsesOff]

@[simp] theorem State.pulsesOff_regs (s : State) : s.pulsesOff.regs = s.regs := by simp [State.pulsesOff]

@[simp] theorem State.stopCalendar_eph (s : State) : s.stopCalendar.eph = s.eph := rfl

@[simp] theorem State.stopCalendar_regs (s : State) : s.stopCalendar.regs = s.regs := rfl

@[simp] theorem State.setTimeState_eph (s : State) (x : TimeState) : (s.setTimeState x).eph = { s.eph with state := x } := by
  unfold State.setTimeState
  split
  · next h => rw [← h]
  · simp [apply_ite State.eph]

/-- Beside the causes of EPH every register stays. -/
theorem State.setTimeState_reg_ne (s : State) (x : TimeState) {o : Nat} (h : o ≠ Reg.EPH_INT_STATUS.addr) :
    (s.setTimeState x).reg o = s.reg o := by
  unfold State.setTimeState
  split
  · rfl
  · simp only [State.reg, apply_ite State.regs, State.stopCalendar_regs, State.pulsesOff_regs, ite_self, State.regs_raise]
    exact State.reg_setFld_ne { s with eph.state := x } 1 h

theorem State.setTimeState_bit (s : State) (x : TimeState) {f : Fld} (h : f.off ≠ Reg.EPH_INT_STATUS.addr) :
    (s.setTimeState x).bit f = s.bit f := by
  unfold State.bit State.fld
  rw [State.setTimeState_reg_ne s x h]

/-- A state in which pulses and calendar go on only raises state_change. -/
theorem State.setTimeState_of_runs {s : State} {x : TimeState} (hne : s.eph.state ≠ x) (hd : x.drives = true)
    (hr : x.runsCalendar = true) :
    s.setTimeState x = ({ s with eph.state := x } : State).raise Reg.EPH_INT_STATUS.state_change := by
  simp [State.setTimeState, hne, hd, hr]

/-! ### Exchanges, intervals and time states (R42 to R49, Table 2-4) -/

theorem execPdelayRespLost_of_late {s : State} {p : Port} {q : BitVec 16} {t1 : Int}
    (hreq : (s.time p).req = some (q, some t1)) (hlate : t1 + 64000 * 2 ^ 16 ≤ s.ft16) :
    execPdelayRespLost p s = .next (s.setTime p { s.time p with
      loss := min ((s.time p).loss + 1) 15
      valid := (s.time p).valid && decide (min ((s.time p).loss + 1) 15 < 4), req := none }).refreshParent := by
  simp only [execPdelayRespLost, hreq]
  exact if_neg (Int.not_lt.mpr hlate)

theorem execSyncIntervalExpiry_of_locked {s : State} (hrole : s.fld Reg.EPH_CTL.role = 1) (hlocked : s.eph.state = .locked) :
    execSyncIntervalExpiry s = .next ((allPorts.filter fun p => s.fence p == 0).foldl
      (fun t p => t.sendVc0 p (s.timeFrame tfSync 0 s.eph.syncSeq 0 (s.swAddr.toNat + 2 ^ 31)) .sync)
      { s with eph.syncSeq := s.eph.syncSeq + 1 }) := by
  unfold execSyncIntervalExpiry
  rw [if_pos (by simp [hrole, hlocked])]
  simp only [hlocked, if_pos]
  rfl

theorem execParentSyncLost_of_late {s : State} {p : Port} {t : Nat} (hlast : (s.time p).lastSync = some t)
    (hlate : t + 3 * s.fld Reg.EPH_SYNC_INTERVAL.value < s.ft) : execParentSyncLost p s = .next s.refreshParent := by
  simp only [execParentSyncLost, hlast]
  exact if_pos hlate

/-- Entry to HOLDOVER from LOCKED changes adj, the causes of EPH and what is sent out. -/
theorem State.enterHoldover_sameButTime {s : State} (h : s.eph.state = .locked) : s.sameButTime s.enterHoldover := by
  unfold State.enterHoldover
  rw [State.setTimeState_of_runs (by simp [h]) rfl rfl]
  refine State.sameButTime_trans (t := { s with eph.adj := s.eph.integ, eph.holdoverAt := s.ft, eph.state := .holdover }) rfl ?_
  exact State.sameButTime_trans (State.raise_sameButTime _ _) (State.raise_sameButTime _ _)

theorem State.enterHoldover_reg_ne (s : State) {o : Nat} (h : o ≠ Reg.EPH_INT_STATUS.addr) :
    s.enterHoldover.reg o = s.reg o := by
  unfold State.enterHoldover
  rw [State.reg_raise, State.reg_setFld_ne _ _ h, State.setTimeState_reg_ne _ _ h]
  rfl

/-- Settles O16: the intervals by one equation each; the entries to time states by what `setTimeState` changes. -/
theorem timeIntervalsAndStates : Obligations.TimeIntervalsAndStates := by
  refine ⟨fun s p => ⟨fun hen => if_pos hen, fun q t1 hreq hlate => execPdelayRespLost_of_late hreq hlate,
    fun hrole hlocked => execSyncIntervalExpiry_of_locked hrole hlocked,
    fun t hlast hlate => execParentSyncLost_of_late hlast hlate⟩, fun s => ⟨fun hlocked hrole hlate => ?holdover,
    fun hholdover hlate => ?expired⟩⟩
  case holdover =>
    refine ⟨s.enterHoldover, if_pos ⟨hlocked, hrole, hlate⟩, ?_⟩
    refine ⟨?_, ?_, ?_, ?_, ?_, s.enterHoldover_sameButTime hlocked, fun o ho => s.enterHoldover_reg_ne ho⟩
    case refine_5 => exact State.bit_raise _ _ (by unfold Fld.fits; decide) rfl
    all_goals simp [State.enterHoldover]
  case expired =>
    refine ⟨_, if_pos ⟨hholdover, hlate⟩, ?_⟩
    refine ⟨?_, ?_, ?_, ?_, State.bit_raise _ _ (by unfold Fld.fits; decide) rfl, fun o ho => ?_⟩
    case refine_5 =>
      rw [State.reg_raise, State.reg_setFld_ne _ _ ho, State.setTimeState_reg_ne _ _ ho]
      rfl
    all_goals simp

/-! ### PPS_IN (R46) -/

theorem foldl_eph {α : Type} {f : State → α → State} (h : ∀ s a, (f s a).eph = s.eph) (l : List α) (s : State) :
    (l.foldl f s).eph = s.eph := by
  induction l generalizing s with
  | nil => rfl
  | cons a l ih => rw [List.foldl_cons, ih, h]

@[simp] theorem State.dropResident_eph (s : State) : s.dropResident.eph = s.eph := by
  unfold State.dropResident
  rw [foldl_eph fun u p => ?_]
  dsimp only
  split
  · rfl
  · simp [State.count]

theorem State.stepTime_eph (s : State) (e : Int) :
    (s.stepTime e).eph = { s.eph with
      acc := BitVec.ofInt 112 ((s.eph.acc.toNat : Int) - e * 2 ^ 32), lastRx := none, lockCount := 0 } := by
  have unit : ((2 ^ 32 : Nat) : Int) = 2 ^ 32 := rfl
  simp only [State.stepTime, State.raise_eph, State.dropResident_eph, unit]

/-- The edge a source expects is its sample. -/
theorem State.ppsSource_of_expected {u : State} {x : Nat} (htod : u.eph.todSet = false) (hx : u.eph.ppsExpected = some x)
    (c : Stamp) :
    u.ppsSource c = ({ u with eph.ppsExpected := some (x + 16000000000) } : State).sample
      ((c.toNat : Int) - (x : Int) * 2 ^ 16) c.toNat := by
  unfold State.ppsSource
  rw [if_neg (by simp [htod]), hx]
  rfl

/-- The first edge after a write of EPH_TOD_SET steps the counter where R50 permits a step. -/
theorem State.ppsSource_of_todSet {u : State} (htod : u.eph.todSet = true) (hstep : u.bit Reg.EPH_CTL.step_en = true)
    (hleft : u.eph.leftAcquire = false) (c : Stamp) :
    ∃ v : State, u.ppsSource c = v.stepTime ((c.toNat : Int) - (u.pair Reg.EPH_TOD_SET_LO.value : Int) * 2 ^ 16) ∧
      v.eph.state = .acquire ∧ v.eph.todSet = false ∧
      v.eph.ppsExpected = some (u.pair Reg.EPH_TOD_SET_LO.value + 16000000000) ∧ v.eph.acc = u.eph.acc := by
  have permitted : ((({ u with
      eph.todSet := false, eph.ppsExpected := some (u.pair Reg.EPH_TOD_SET_LO.value + second) } : State).setTimeState
        .acquire).bit Reg.EPH_CTL.step_en && !u.eph.leftAcquire) = true := by
    rw [State.setTimeState_bit _ _ (by decide), hleft]
    exact Bool.and_eq_true_iff.mpr ⟨hstep, rfl⟩
  unfold State.ppsSource
  rw [if_pos htod]
  dsimp only
  rw [State.setTimeState_eph, if_pos permitted]
  refine ⟨_, rfl, ?_, ?_, ?_, ?_⟩ <;> simp [second]

theorem execPpsInMissing_of_missing {s : State} {x : Nat} (hrole : s.fld Reg.EPH_CTL.role = 1)
    (hx : s.eph.ppsExpected = some x) (hlate : x + 16000 < s.ft) (hne : s.eph.state ≠ .locked) :
    execPpsInMissing s = .next (({ s with eph.ppsExpected := some (x + 16000000000) } : State).raise
      Reg.EPH_INT_STATUS.pps_in_missing) := by
  simp only [execPpsInMissing, hx]
  rw [if_pos ⟨hrole, hlate⟩, if_neg (by simpa using hne)]
  rfl

/-! ### Output pulses (R55, R56) -/

/-- A periodic pulse with good parameters is armed. -/
theorem State.armPulse_of_good {u : State} {n : Nat} (hp : 16000 ≤ (u.pulseParams n).2.1) (hw : 16 ≤ (u.pulseParams n).2.2)
    (hlt : (u.pulseParams n).2.2 < (u.pulseParams n).2.1) :
    u.armPulse n = u.setPulse n { u.pulse n with
      armed := true, start := (u.pulseParams n).1, period := (u.pulseParams n).2.1, width := (u.pulseParams n).2.2
      nextEdge := nextLeading (u.pulseParams n).1 (u.pulseParams n).2.1 u.ft } := by
  have periodic : (u.pulseParams n).2.1 ≠ 0 := by omega
  simp [State.armPulse, hp, hw, hlt, periodic]

/-- The word 1 enables an active-high pulse and clears no cause. -/
theorem State.writePulseCtl_one (s : State) (n : Nat) :
    s.writePulseCtl n 1 =
      ((s.setFld (Reg.EPH_PULSE_CTL.enable n) 1).setFld (Reg.EPH_PULSE_CTL.polarity n) 0).armPulse n := rfl

theorem execPulseLeadingEdge_of_due {s : State} {n : BitVec 2} (harmed : (s.pulse n.toNat).armed = true)
    (hidle : (s.pulse n.toNat).active = false) (hdue : (s.pulse n.toNat).nextEdge ≤ s.ft)
    (hd : s.eph.state.drives = true) :
    execPulseLeadingEdge n s = .next ((s.setPulse n.toNat { s.pulse n.toNat with active := true }).emit
      (.pin (.ppsOut n) (!s.bit (Reg.EPH_PULSE_CTL.polarity n.toNat)))) := by
  simp [execPulseLeadingEdge, State.drivePulse, harmed, hidle, hdue, hd]

theorem execPulseTrailingEdge_of_oneShot {s : State} {n : BitVec 2} (harmed : (s.pulse n.toNat).armed = true)
    (hactive : (s.pulse n.toNat).active = true) (hdue : (s.pulse n.toNat).nextEdge + (s.pulse n.toNat).width ≤ s.ft)
    (hone : (s.pulse n.toNat).period = 0) :
    execPulseTrailingEdge n s = .next ((s.drivePulse n false).setPulse n.toNat
      { (s.drivePulse n false).pulse n.toNat with armed := false }) := by
  simp [execPulseTrailingEdge, harmed, hactive, hdue, hone]

theorem execPulseMissed_of_passed {s : State} {n : BitVec 2} (harmed : (s.pulse n.toNat).armed = true)
    (hidle : (s.pulse n.toNat).active = false) (hone : (s.pulse n.toNat).period = 0)
    (hpast : (s.pulse n.toNat).nextEdge < s.ft) (hd : s.eph.state.drives = false) :
    execPulseMissed n s = .next (s.pulseMiss n.toNat) :=
  if_pos ⟨harmed, hone, by simp [hidle], hpast, by simp [hd]⟩

/-- Settles O17: an edge of PPS_IN by role and what the source expects, a pulse by its parameters and its level. -/
theorem ppsAndPulses : Obligations.PpsAndPulses := by
  refine ⟨fun c s u hu => ⟨fun hrole => ?follower, fun x hrole htod hx => ?expected, fun hrole htod hstep hleft => ?first,
    fun x hrole hx hlate hne => execPpsInMissing_of_missing hrole hx hlate hne⟩, fun n s => ⟨?arm,
    fun harmed hidle hdue hd => execPulseLeadingEdge_of_due harmed hidle hdue hd,
    fun harmed hactive hdue hone => execPulseTrailingEdge_of_oneShot harmed hactive hdue hone,
    fun harmed hidle hone hpast hd => execPulseMissed_of_passed harmed hidle hone hpast hd⟩⟩
  case follower =>
    subst hu
    exact if_neg fun h => absurd (hrole.symm.trans h) (by decide)
  case expected =>
    subst hu
    exact (if_pos hrole).trans (congrArg _ (State.ppsSource_of_expected htod hx c))
  case first =>
    subst hu
    obtain ⟨v, hv, state, tod, next, acc⟩ := State.ppsSource_of_todSet htod hstep hleft c
    refine ⟨_, (if_pos hrole).trans (congrArg _ hv), ?_⟩
    rw [State.stepTime_eph]
    exact ⟨state, tod, next, by rw [acc], State.bit_raise _ _ (by unfold Fld.fits; decide) rfl⟩
  case arm =>
    intro v hv hw hc u hu hp hwidth hlt
    subst hv
    refine congrArg Host.Outcome.next ((State.regWrite_of_writable hw hc _).trans ?_)
    rw [State.writePulseCtl_one, ← hu, State.armPulse_of_good hp hwidth hlt]

/-! ### Activations (R57, R58) -/

/-- An arming with nothing pending, its lead time kept, its bank complete and its time a boundary pends. -/
theorem State.arm_of_good {s : State} {k t : Nat} {active shadow : Bank} {len : Nat} (hidle : (s.act k).pending = false)
    (hlead : (s.fld Reg.EPH_ACT_LEAD.value : Int) ≤ (t : Int) - s.ft) (hfull : shadow.complete len = true)
    (hedge : active.boundary t = true) :
    s.arm k t (some (active, shadow, len)) = (s.setAct k { pending := true, tAct := t, state := 1, reason := 0 }, true) := by
  simp [State.arm, State.armDecide, hidle, Int.not_lt.mpr hlead, hfull, hedge, arNone]

/-- An arming with nothing pending that comes too late is refused. -/
theorem State.arm_of_late {s : State} {k t : Nat} (hidle : (s.act k).pending = false)
    (hlate : (t : Int) - s.ft < s.fld Reg.EPH_ACT_LEAD.value) (cyclic : Option (Bank × Bank × Nat)) :
    s.arm k t cyclic =
      ((s.setAct k { s.act k with reason := 1, state := 3 }).raise Reg.EPH_INT_STATUS.act_refused, false) := by
  simp [State.arm, State.armDecide, hidle, hlate, arLate]

theorem fireDue_of_none {s : State} (h : s.nextDue = none) (n : Nat) : fireDue n s = s := by
  cases n with
  | zero => rfl
  | succ n => simp [fireDue, h]

theorem fireDue_of_some {s : State} {k : Nat} {a : Act} (h : s.nextDue = some (k, a)) (n : Nat) :
    fireDue (n + 1) s = fireDue n (s.fireOne k a) := by
  simp [fireDue, h]

/-- Settles O18: an arming by R57's decision, a firing by the activation that is due next. -/
theorem armingAndFiring : Obligations.ArmingAndFiring := by
  refine ⟨fun s k t active shadow len hidle => ⟨State.arm_of_good hidle, fun hlate => State.arm_of_late hidle hlate _⟩,
    fun s hd => ⟨fun hnone => ?idle, fun k a n hdue hlen hlast => ?fires⟩⟩
  case idle => exact (if_pos hd).trans (congrArg _ (fireDue_of_none hnone _))
  case fires =>
    refine (if_pos hd).trans (congrArg _ ?_)
    rw [hlen, fireDue_of_some hdue, fireDue_of_none hlast]

end Sys2Proof.Machine
end

section
/-!
PROOFS. Permutations and the calendar (R57, R89 to R93), weights, meters and gate lists (R57, R180 to R187).
-/

namespace Sys2Proof.Machine

/-! ### Permutations (R89, Table 4-11) -/

theorem State.writePerm_free {s : State} {i : Nat} (hi : i ≠ 0) (h : s.permUsed i = false) (w : Nat) (v : W32) :
    s.writePerm i w v = ({ s.storeFields (Reg.TRN_PERM.addr (8 * i + w)) v with
      trn.committed := s.trn.committed.del i } : State).reconfigured s := by
  simp [State.writePerm, hi, h]

theorem State.writePerm_used {s : State} {i : Nat} (hi : i ≠ 0) (h : s.permUsed i = true) (w : Nat) (v : W32) :
    s.writePerm i w v = s.raise Reg.TRN_INT_STATUS.perm_busy := by
  simp [State.writePerm, hi, h]

theorem State.commitPerm_good {s u : State} {v : W32} (hu : u = s.storeFields Reg.TRN_PERM_COMMIT.addr v)
    (hi : v.toNat % 4096 ≠ 0) (hfree : u.permUsed (v.toNat % 4096) = false) (hok : u.permOk (v.toNat % 4096) = true) :
    s.commitPerm v = (({ u with trn.committed := u.trn.committed.put (v.toNat % 4096) true } : State).reconfigured u).setFld
      Reg.TRN_PERM_COMMIT.result 1 := by
  simp only [State.commitPerm, ← hu, hfree, hok, hi, if_pos, if_neg, Bool.false_eq_true, false_and, not_false_eq_true]

theorem State.commitPerm_bad {s u : State} {v : W32} (hu : u = s.storeFields Reg.TRN_PERM_COMMIT.addr v)
    (hfree : u.permUsed (v.toNat % 4096) = false) (hok : u.permOk (v.toNat % 4096) = false) :
    s.commitPerm v = u.setFld Reg.TRN_PERM_COMMIT.result 2 := by
  simp [State.commitPerm, ← hu, hfree, hok]

/-! ### The calendar (R57, R91, R92) -/

theorem State.storeCalEntry_locked {s : State} (h : s.shadowLocked objCal = true) (e : Nat) (v : W32) :
    s.storeCalEntry e v = s.regAccess (Reg.TRN_CAL_SHADOW.addr (8 * e + 7)) :=
  if_pos h

/-- The entry that the eight words of a shadow entry hold (Table 4-3). -/
def State.shadowEntry (s : State) (e : Nat) : BitVec 256 :=
  (List.range 8).foldl (fun (n : BitVec 256) w =>
    n ||| (BitVec.setWidth 256 (s.reg (Reg.TRN_CAL_SHADOW.addr (8 * e + w))) <<< (32 * w))) 0

theorem State.storeCalEntry_short {s u : State} {e : Nat} {v : W32} (hlock : s.shadowLocked objCal = false)
    (hu : u = s.storeFields (Reg.TRN_CAL_SHADOW.addr (8 * e + 7)) v) (h : entryDur (u.shadowEntry e) < 1600) :
    s.storeCalEntry e v = u.shadowErr e 1 := by
  unfold State.storeCalEntry
  rw [if_neg (by simp [hlock])]
  subst hu
  exact if_pos h

theorem State.storeCalEntry_good {s u : State} {e : Nat} {v : W32} (hlock : s.shadowLocked objCal = false)
    (hu : u = s.storeFields (Reg.TRN_CAL_SHADOW.addr (8 * e + 7)) v) (h : 1600 ≤ entryDur (u.shadowEntry e))
    (hperms : (List.range 16).all (fun k => u.permCommitted (entryPerm (u.shadowEntry e) k)) = true) :
    s.storeCalEntry e v = { u with calShadow.ent := u.calShadow.ent.put e (u.shadowEntry e) } := by
  unfold State.storeCalEntry
  rw [if_neg (by simp [hlock])]
  subst hu
  exact (if_neg (Nat.not_lt.mpr h)).trans (if_neg fun n =>
    Bool.false_ne_true (((Bool.not_eq_true' _).mp n).symm.trans hperms))

theorem State.writeCalAct_arm {v : W32} (h6 : v.getLsbD 6 = true) (h7 : v.getLsbD 7 = false) (s : State) :
    s.writeCalAct v = (s.armSoft objCal (s.pair Reg.TRN_CAL_ACT_LO.value) s.calActive s.calShadow
      (s.fld Reg.TRN_CAL_LEN.shadow + 1)).1 := by
  simp only [State.writeCalAct, h6, h7, if_pos, if_neg, Bool.false_eq_true, not_false_eq_true]

theorem State.writeCalAct_cancel {v : W32} (h6 : v.getLsbD 6 = false) (h7 : v.getLsbD 7 = true) (s : State) :
    s.writeCalAct v = s.cancelSoft objCal := by
  simp only [State.writeCalAct, h6, h7, if_pos, if_neg, Bool.false_eq_true, not_false_eq_true]

/-- A suspended calendar resumes at an entry boundary in LOCKED. -/
theorem execCalEntryBoundary_resumes {s : State} (hon : s.calActive.on = true) (hlocked : s.eph.state = .locked)
    (hrun : s.trn.calRunning = false) :
    execCalEntryBoundary s = .next (({ s with
      trn.calRunning := true, trn.calEntry := s.calActive.entryAt s.ft } : State).returnPorts
        (s.calActive.startAt s.ft) (maskOf s.isDest) (maskOf s.isSource)) :=
  if_neg (by simp [hon, hlocked, hrun, TimeState.runsCalendar])

/-- Settles O22: each write reaches its rule (`State.regWrite_of_writable`), which has one equation for each of its cases. -/
theorem permutationsAndCalendar : Obligations.PermutationsAndCalendar := by
  refine ⟨fun n w v s => ⟨fun hw hc => ?words, fun hgo hw hc u hu hi hfree => ?commit⟩,
    fun s => ⟨fun e v hw hc => ?entry, fun v hw hc => ?status, execCalEntryBoundary_resumes, fun h => if_pos h⟩⟩
  case words =>
    have written : exec (.permWordWrite n w v) s = .next (s.writePerm n.toNat w.toNat v) :=
      congrArg Host.Outcome.next (State.regWrite_of_writable hw hc _)
    rw [written]
    have nonzero (h : n ≠ 0) : n.toNat ≠ 0 := fun e => h (BitVec.eq_of_toNat_eq e)
    refine ⟨fun hn hfree => ?_, fun hn hused => ?_, fun hn => ?_⟩
    · rw [State.writePerm_free (nonzero hn) hfree]
    · rw [State.writePerm_used (nonzero hn) hused]
    · subst hn
      rfl
  case commit =>
    have written : exec (.permCommit v) s = .next (s.commitPerm v) :=
      (if_pos hgo).trans (congrArg Host.Outcome.next (State.regWrite_of_writable hw hc _))
    rw [written]
    refine ⟨fun hok => ?_, fun hok => ?_⟩
    · rw [State.commitPerm_good hu hi hfree hok]
    · rw [State.commitPerm_bad hu hfree hok]
  case entry =>
    have written : exec (.calShadowEntryStore e v) s = .next (s.storeCalEntry e.toNat v) :=
      congrArg Host.Outcome.next (State.regWrite_of_writable hw hc _)
    rw [written]
    refine ⟨fun hlock => ?_, fun hlock u x hu hx => ?_⟩
    · rw [State.storeCalEntry_locked hlock]
    · subst hx
      refine ⟨fun h => ?_, fun h hperms => ?_⟩
      · rw [State.storeCalEntry_short hlock hu h]
      · exact congrArg _ (State.storeCalEntry_good hlock hu h hperms)
  case status =>
    refine ⟨fun h6 h7 => (if_pos h6).trans ?_, fun h6 h7 => (if_pos h7).trans ?_⟩
    · rw [State.regWrite_of_writable hw hc, State.writeCalAct_arm h6 h7]
    · rw [State.regWrite_of_writable hw hc, State.writeCalAct_cancel h6 h7]

/-! ### Weights and meters (R180, R185, R187) -/

theorem State.writeWeights_refused {s : State} {b : Bool} {v : W32} {off : Nat}
    (hoff : off = (if b then Reg.SCH_VC_WEIGHT_B.addr else Reg.SCH_VC_WEIGHT_A.addr)) (ha : s.answers off = true)
    (h : weightOk b v = false) : s.writeWeights b v = s.meterRefuse := by
  simp [State.writeWeights, ← hoff, ha, h]

theorem State.writeWeights_waits {s : State} {b : Bool} {v : W32} {off : Nat}
    (hoff : off = (if b then Reg.SCH_VC_WEIGHT_B.addr else Reg.SCH_VC_WEIGHT_A.addr)) (hw : s.writable off v = true)
    (h : weightOk b v = true) (hc : isConfig off = true) (hl : s.bit Reg.CFG_CTL.local_write_en = true) :
    s.writeWeights b v = (s.schWrite off v).noteConfig off v := by
  simp [State.writeWeights, ← hoff, State.answers_of_writable hw, h, State.regWrite_config hw hc hl]

theorem State.writeMeter_refused {s : State} {off : Nat} {v : W32} (ha : s.answers off = true)
    (h : s.meterOk off v = false) : s.writeMeter off v = s.meterRefuse := by
  simp [State.writeMeter, ha, h]

theorem State.writeMeter_waits {s : State} {off : Nat} {v : W32} (hw : s.writable off v = true)
    (h : s.meterOk off v = true) (hc : isConfig off = true) (hl : s.bit Reg.CFG_CTL.local_write_en = true) :
    s.writeMeter off v = (s.schWrite off v).noteConfig off v := by
  simp [State.writeMeter, State.answers_of_writable hw, h, State.regWrite_config hw hc hl]

/-! ### Gate lists (R57, R182, R184) -/

theorem State.storeGateEntry_locked {s : State} {p : Nat} (h : s.shadowLocked (objGate p) = true) (e : Nat) (v : W32) :
    s.storeGateEntry p e v = s.regAccess (Reg.SCH_GATE_SHADOW.addr p (2 * e + 1)) :=
  if_pos h

section
variable {s u : State} {p e : Nat} {v : W32} (hlock : s.shadowLocked (objGate p) = false)
  (hu : u = s.storeFields (Reg.SCH_GATE_SHADOW.addr p (2 * e + 1)) v)
include hlock hu

theorem State.storeGateEntry_good (h : 512 ≤ (u.reg (Reg.SCH_GATE_SHADOW.addr p (2 * e))).toNat) :
    s.storeGateEntry p e v = { u with gateShadow := u.gateShadow.write { } p { u.gateShadow.read { } p with
      ent := (u.gateShadow.read { } p).ent.put e
        (BitVec.ofNat 256 ((u.reg (Reg.SCH_GATE_SHADOW.addr p (2 * e))).toNat + v.toNat % 2 ^ 8 * 2 ^ 32)) } } := by
  unfold State.storeGateEntry
  rw [if_neg (by simp [hlock])]
  subst hu
  exact if_neg (Nat.not_lt.mpr h)

theorem State.storeGateEntry_short (h : (u.reg (Reg.SCH_GATE_SHADOW.addr p (2 * e))).toNat < 512) :
    s.storeGateEntry p e v = (({ u with gateShadow := u.gateShadow.write { } p { u.gateShadow.read { } p with
      ent := (u.gateShadow.read { } p).ent.del e } } : State).setFld (Reg.SCH_GATE_ACT_STATUS.err_entry p) e).raise
        Reg.SCH_INT_STATUS.gate_shadow_err := by
  unfold State.storeGateEntry
  rw [if_neg (by simp [hlock])]
  subst hu
  exact if_pos h

end

theorem State.writeGateAct_arm {s u : State} {p : Nat} {v : W32} (h6 : v.getLsbD 6 = true) (h7 : v.getLsbD 7 = false)
    (h : s.armSoft (objGate p) (s.pair (Reg.SCH_GATE_ACT_LO.value p)) (s.gateActive.read { } p) (s.gateShadow.read { } p)
      (s.fld (Reg.SCH_GATE_LEN.shadow p) + 1) = (u, true)) : s.writeGateAct p v = u := by
  simp only [State.writeGateAct, h6, h7, h, if_pos, if_neg, Bool.false_eq_true, not_false_eq_true]

theorem State.writeGateAct_cancel {v : W32} (h6 : v.getLsbD 6 = false) (h7 : v.getLsbD 7 = true) (s : State) (p : Nat) :
    s.writeGateAct p v = s.cancelSoft (objGate p) := by
  simp only [State.writeGateAct, h6, h7, if_pos, if_neg, Bool.false_eq_true, not_false_eq_true]

/-- A head frame held beyond starve_limit, and not raised before, is raised. -/
theorem execGateStarve_of_held {s : State} {p : Port} {vc : BitVec 3} {x : BitVec 64} {k : Nat} {f : Frame}
    (hhead : s.headFrame p vc.toNat = some (k, f)) (hvc : vc ≠ 0) (hlim : s.fld Reg.SCH_ARB_CFG.starve_limit ≠ 0)
    (hlong : s.fld Reg.SCH_ARB_CFG.starve_limit * 1600000 < x.toNat)
    (hnew : s.sch.starved.get (p.toNat * 8 + vc.toNat) ≠ some k) :
    execGateStarve p vc x s = .next (((({ s with
      sch.starved := s.sch.starved.put (p.toNat * 8 + vc.toNat) k } : State).setFld Reg.SCH_STARVE.port p.toNat).setFld
        Reg.SCH_STARVE.vc vc.toNat).raise Reg.SCH_INT_STATUS.gate_starve) := by
  simp only [execGateStarve, hhead]
  exact if_neg (not_or.mpr ⟨hlim, not_or.mpr ⟨hvc, not_or.mpr ⟨Nat.not_le.mpr hlong, hnew⟩⟩⟩)

/-- Settles O34: a weight or meter word by whether it may be written, a gate list's registers by the equations of their
rules. -/
theorem gatesAndMeters : Obligations.GatesAndMeters := by
  refine fun s => ⟨fun b v off hoff => ⟨fun ha h => ?refusedWeight, fun hw h hc hl => ?weight⟩,
    fun off v hm h4 => ⟨fun ha h => ?refusedMeter, fun hw h hc hl => ?meter⟩, rfl,
    fun p e v off u hoff hw hc => ?entry, fun p v hw hc => ⟨fun u h6 h7 h => ?arm, fun h6 h7 => ?cancel⟩, fun p => rfl,
    fun p vc x k f hhead hvc hlim hlong hnew => execGateStarve_of_held hhead hvc hlim hlong hnew⟩
  case refusedWeight => exact congrArg _ (State.writeWeights_refused hoff ha h)
  case weight => exact congrArg _ (State.writeWeights_waits hoff hw h hc hl)
  case refusedMeter =>
    exact (if_pos (by simp [hm, h4])).trans (congrArg _ (State.writeMeter_refused ha h))
  case meter =>
    exact (if_pos (by simp [hm, h4])).trans (congrArg _ (State.writeMeter_waits hw h hc hl))
  case entry =>
    subst hoff
    have written : exec (.gateShadowEntryStore p e v) s = .next (s.storeGateEntry p.toNat e.toNat v) :=
      congrArg Host.Outcome.next (State.regWrite_of_writable hw hc _)
    rw [written]
    refine ⟨fun hlock => ?_, fun hlock hu d hd b x y hb hx hy => ?_⟩
    · rw [State.storeGateEntry_locked hlock]
    · subst hx hy hb hd
      exact ⟨fun h => congrArg _ (State.storeGateEntry_good hlock hu h),
        fun h => congrArg _ (State.storeGateEntry_short hlock hu h)⟩
  case arm =>
    refine (if_pos h6).trans ?_
    rw [State.regWrite_of_writable hw hc, State.writeGateAct_arm h6 h7 h]
  case cancel =>
    refine (if_pos h7).trans ?_
    rw [State.regWrite_of_writable hw hc, State.writeGateAct_cancel h6 h7]

end Sys2Proof.Machine
end

section
/-!
PROOFS. Optical lanes (chapter 3): heaters and the crosstalk matrix (R65, R66), calibration (R84), lines that lose or regain
their lock (R67 to R69), and cut-overs with their moves by register (R77 to R83).
-/

namespace Sys2Proof.Machine

/-! ### Heaters and the crosstalk matrix (R65, R66, R71) -/

theorem execHeaterUpdate_of_calibrated {f : BitVec 5} {s : State} (h : (s.engine f.toNat).calState = 2)
    (inputs : List HeaterInput) (temps : List Int) :
    execHeaterUpdate f inputs temps s = .next ((s.substrate f.toNat temps).heaterUpdate f.toNat inputs) :=
  if_neg (by simp [h])

theorem clampInt_of_inside {v lo hi : Int} (h : lo ≤ v ∧ v ≤ hi) : clampInt v lo hi = v := by
  unfold clampInt
  rw [if_neg (Int.not_lt.mpr h.1), if_neg (Int.not_lt.mpr h.2)]

/-- A refresh that leaves every entry inside its range clamps nothing: the refined matrix is the next one. -/
theorem execXtRefreshPeriodEnd_of_inside {f : BitVec 5} {s : State} {residuals : List Int} {new : Nat → Int}
    (hen : s.bit (Reg.OPT_CTL.xt_refresh_en f.toNat) = true) (hcal : (s.engine f.toNat).calState = 2)
    (hnew : ∀ e, new e = s.xtActive f.toNat e -
      clampInt (sar (residuals.getD e 0) (s.fld (Reg.OPT_XT_CTL.mu_shift f.toNat))) (-32) 32)
    (hin : ∀ e, e < 1296 → -8192 ≤ new e ∧ new e ≤ 8192) :
    execXtRefreshPeriodEnd f residuals s = .next (s.setEngine f.toNat { s.engine f.toNat with
      xtNext := some ((((List.range 1296).filter fun e => e / 36 ≠ e % 36).map fun e => (e, new e)).filter
        fun e => e.2 ≠ s.xtActive f.toNat e.1) }) := by
  have unclamped : ∀ e ∈ (List.range 1296).filter (fun e => e / 36 ≠ e % 36), clampInt (new e) (-8192) 8192 = new e :=
    fun e he => clampInt_of_inside (hin e (List.mem_range.mp (List.mem_filter.mp he).1))
  have noClamp : (((List.range 1296).filter fun e => e / 36 ≠ e % 36).filter
      fun e => clampInt (new e) (-8192) 8192 ≠ new e) = [] :=
    List.filter_eq_nil_iff.mpr fun e he => by simp [unclamped e he]
  have kept : ((List.range 1296).filter fun e => e / 36 ≠ e % 36).map (fun e => (e, clampInt (new e) (-8192) 8192)) =
      ((List.range 1296).filter fun e => e / 36 ≠ e % 36).map fun e => (e, new e) :=
    List.map_congr_left fun e he => by rw [unclamped e he]
  unfold execXtRefreshPeriodEnd
  rw [if_neg (by simp [hen, hcal])]
  simp only [← hnew, noClamp, kept, List.length_nil, if_pos]

/-- The swap of a shadow whose diagonal is zero waits for the next update. -/
theorem State.writeXtCtl_of_zeroDiagonal {s u : State} {f : Nat} {v : W32} (hswap : v.getLsbD 16 = true)
    (hu : u = s.storeFields (Reg.OPT_XT_CTL.addr f) v) (h : ∀ i, i < 36 → u.xtShadow f (37 * i) = 0) :
    s.writeXtCtl f v = u.setEngine f { u.engine f with swapPending := true } := by
  have zero : (List.range 36).all (fun i => decide (u.xtShadow f (37 * i) = 0)) = true :=
    List.all_eq_true.mpr fun i hi => decide_eq_true (h i (List.mem_range.mp hi))
  unfold State.writeXtCtl
  rw [← hu]
  exact if_pos (Bool.and_eq_true_iff.mpr ⟨hswap, zero⟩)

/-! ### What the loss of a lock reads (R68) -/

@[simp] theorem State.raise_opt (s : State) (f : Fld) : (s.raise f).opt = s.opt := by rw [State.raise_eq]

@[simp] theorem State.raise_links (s : State) (f : Fld) : (s.raise f).links = s.links := by rw [State.raise_eq]

@[simp] theorem State.raise_ft (s : State) (f : Fld) : (s.raise f).ft = s.ft := by simp [State.ft]

@[simp] theorem State.setLine_ft (s : State) (f n : Nat) (l : Line) : (s.setLine f n l).ft = s.ft := rfl

@[simp] theorem State.raise_link (s : State) (f : Fld) (p : Port) : (s.raise f).link p = s.link p := by simp [State.link]

@[simp] theorem State.setLine_link (s : State) (f n : Nat) (l : Line) (p : Port) : (s.setLine f n l).link p = s.link p := rfl

@[simp] theorem State.setLine_cutoverUses (s : State) (f n : Nat) (l : Line) (e m : Nat) :
    (s.setLine f n l).cutoverUses e m = s.cutoverUses e m := rfl

@[simp] theorem State.setLink_cutoverUses (s : State) (p : Port) (x : Link) (e m : Nat) :
    (s.setLink p x).cutoverUses e m = s.cutoverUses e m := rfl

@[simp] theorem State.raise_cutoverUses (s : State) (f : Fld) (e m : Nat) :
    (s.raise f).cutoverUses e m = s.cutoverUses e m := by
  simp [State.cutoverUses, State.engine]

/-! ### Lines that lose or regain their lock (R67 to R69) -/

section
variable {s : State} {f n : Nat} (hduty : (s.line f n).duty = none)
include hduty

theorem State.lockLost_of_noDuty (hcut : s.cutoverUses f n = false) :
    s.lockLost f n = (s.setLine f n { s.line f n with locked := false }).refreshTransit := by
  simp [State.lockLost, hduty, hcut]

theorem State.lockRegained_of_noDuty :
    s.lockRegained f n = (s.setLine f n { s.line f n with locked := true }).refreshTransit.retryGroup f := by
  simp only [State.lockRegained, hduty]

end

/-- The port of a line that loses its lock is held from now on. -/
theorem State.lockLost_of_duty {s u : State} {f n : Nat} {k : BitVec 4} (hduty : (s.line f n).duty = some k)
    (hcut : s.cutoverUses f n = false) (hup : (s.link (portOf f k)).state = .up)
    (hfree : (s.link (portOf f k)).held = none)
    (hu : u = (s.setLine f n { s.line f n with locked := false }).raise (Reg.OPT_INT_STATUS.lock_lost f)) :
    s.lockLost f n = (u.setLink (portOf f k) { s.link (portOf f k) with held := some s.ft }).refreshTransit := by
  subst hu
  simp [State.lockLost, hduty, hcut, hup, hfree]

theorem execLineLockLost_of_lost {f n : BitVec 5} {s : State} (hn : n.toNat < 18)
    (hlocked : (s.line f.toNat n.toNat).locked = true) (hbad : s.lineGood f.toNat n.toNat = false) :
    execLineLockLost f n s = .next (s.lockLost f.toNat n.toNat) :=
  if_pos ⟨hn, hlocked, by simp [hbad]⟩

theorem execLineLockRegained_of_good {f n : BitVec 5} {s : State} (hn : n.toNat < 18)
    (hlost : (s.line f.toNat n.toNat).locked = false) (hgood : s.lineGood f.toNat n.toNat = true) :
    execLineLockRegained f n s = .next (s.lockRegained f.toNat n.toNat) :=
  if_pos ⟨hn, by simp [hlost], hgood⟩

theorem execLaneHoldLimit_of_passed {p : Port} {s : State} {t : Nat} (hheld : (s.link p).held = some t)
    (hlim : s.fld (Reg.OPT_LOCK_CFG.hold_limit (engineOf p)) ≠ 0)
    (hpast : t + s.fld (Reg.OPT_LOCK_CFG.hold_limit (engineOf p)) * 1600000 ≤ s.ft) :
    execLaneHoldLimit p s = .next ((s.raise (Reg.OPT_INT_STATUS.lane_down (engineOf p))).linkDown p 4) := by
  simp only [execLaneHoldLimit, hheld]
  exact if_neg (not_or.mpr ⟨hlim, Nat.not_lt.mpr hpast⟩)

/-- Settles O19: an engine's commands by its calibration and its register rules, a line's by its rings and its duty. -/
theorem enginesAndLines : Obligations.EnginesAndLines := by
  refine ⟨fun f s => ⟨fun inputs temps hcal => execHeaterUpdate_of_calibrated hcal inputs temps,
      fun residuals new => execXtRefreshPeriodEnd_of_inside, fun v hswap hw hc hl u hu hzero => ?swap,
      fun r hcal => if_pos hcal, fun v locks hrecal hw hc hl => ?recal⟩,
    fun f n s hn => ⟨fun hlocked hbad hduty hcut => ?lost, fun k hlocked hbad hduty hcut hup hfree => ?held,
      fun hlost hgood hduty => ?regained, fun p t => execLaneHoldLimit_of_passed, fun r hcal => if_pos ⟨hn, hcal⟩⟩⟩
  case swap =>
    refine (if_pos hswap).trans ?_
    rw [State.regWrite_config hw hc hl, State.writeXtCtl_of_zeroDiagonal hswap hu hzero]
  case recal => exact (if_pos hrecal).trans (congrArg _ (State.regWrite_config hw hc hl _))
  case lost => exact (execLineLockLost_of_lost hn hlocked hbad).trans (congrArg _ (State.lockLost_of_noDuty hduty hcut))
  case held =>
    exact ⟨_, rfl, (execLineLockLost_of_lost hn hlocked hbad).trans
      (congrArg _ (State.lockLost_of_duty hduty hcut hup hfree rfl))⟩
  case regained =>
    exact (execLineLockRegained_of_good hn hlost hgood).trans (congrArg _ (State.lockRegained_of_noDuty hduty))

/-! ### Cut-overs (R77 to R82) -/

theorem execCutoverStart_of_ready {f : BitVec 5} {s u : State} {t : MoveTrigger} {ts : List MoveTrigger} {c n : Nat}
    (hidle : (s.engine f.toNat).cutover = none) (hwait : (s.engine f.toNat).waiting = t :: ts)
    (hu : u = s.setEngine f.toNat { s.engine f.toNat with waiting := ts })
    (hcar : u.carrier (portOf f.toNat t.duty) = some c) (htar : u.targetOf f.toNat t = some n) (hne : n ≠ c) :
    execCutoverStart f s = .next (u.beginCutover f.toNat c n t) := by
  simp only [hidle] at hu
  simp only [execCutoverStart, hidle, hwait, ← hu, hcar, htar]
  exact if_neg hne

section
variable {f : BitVec 5} {s : State} {c : CutOver} (hcut : (s.engine f.toNat).cutover = some c)
include hcut

theorem execSpareReceiverAligned_of_waiting (hown : c.ownReady = false) :
    execSpareReceiverAligned f s = .next ((s.setCutover f.toNat { c with ownReady := true }).sendVc0
      (portOf f.toNat c.duty) (s.linkCtl opLaneReady (BitVec.ofNat 32 (c.duty.toNat + c.target * 2 ^ 9)) 0 0 0)) := by
  simp only [execSpareReceiverAligned, hcut]
  exact if_neg (by simp [hown])

/-- A leaf that is not ready 100 µs before t_switch ends the cut-over (R81). -/
theorem execLaneReadyDeadline_of_leafNotReady (hmark : c.marked = false) (hleaf : c.leafReady = false)
    (hlate : c.tSwitch ≤ s.ft + 1600000) : execLaneReadyDeadline f s = .next (s.abortCutover f.toNat 1) := by
  simp only [execLaneReadyDeadline, hcut]
  exact if_pos ⟨by simp [hmark], by simp [hleaf], hlate⟩

/-- With both ends ready the duty goes from the source line to the target line at t_switch. -/
theorem execTSwitch_of_ready {u v w : State} {cw : BitVec 10} (hmark : c.marked = false) (hleaf : c.leafReady = true)
    (hown : c.ownReady = true) (hdue : c.tSwitch ≤ s.ft)
    (hu : u = s.sendVc0 (portOf f.toNat c.duty)
      (s.linkCtl opLaneMark (BitVec.ofNat 32 (c.duty.toNat + cw.toNat * 2 ^ 16)) 0 0 0))
    (hv : v = u.setLine f.toNat c.source { u.line f.toNat c.source with duty := none })
    (hw : w = v.setLine f.toNat c.target { v.line f.toNat c.target with duty := some c.duty, fade := .normal }) :
    execTSwitch f cw s = .next (w.setCutover f.toNat { c with marked := true }).refreshTransit := by
  simp only [execTSwitch, hcut, ← hu, ← hv, ← hw]
  exact if_neg (by simp [hmark, hleaf, hown, hdue])

/-- A move by register reads as done when its old line is released. -/
theorem execOldLineRelease_of_manual {u v : State} (hmark : c.marked = true) (hcause : c.cause = .manual)
    (hpast : c.tSwitch + 1600000 ≤ s.ft) (hu : u = s.setEngine f.toNat { s.engine f.toNat with cutover := none })
    (hv : v = u.setLine f.toNat c.source { u.line f.toNat c.source with
      fade := if 16 ≤ c.source ∧ c.target < 16 then .idle else .moved, aborts := 0, retryFrom := none }) :
    execOldLineRelease f s = .next (((v.raise (Reg.OPT_INT_STATUS.cutover_done f.toNat)).endStandin c.source).setFld
      (Reg.OPT_LANE_MOVE.result f.toNat) 2) := by
  simp only [execOldLineRelease, hcut, ← hu, ← hv, hcause]
  exact if_neg (by simp [hmark, hpast])

end

theorem execCutoverRetry_of_due {f n : BitVec 5} {s : State} {t : Nat} {k : BitVec 4}
    (hretry : (s.line f.toNat n.toNat).retryFrom = some t) (hduty : (s.line f.toNat n.toNat).duty = some k)
    (hfade : (s.line f.toNat n.toNat).fade ≠ .noSpare) (hdue : t + 16000000000 ≤ s.ft) :
    execCutoverRetry f n true s = .next
      ((s.setLine f.toNat n.toNat { s.line f.toNat n.toNat with retryFrom := none }).trigger f.toNat ⟨k, none, .fade⟩) := by
  simp only [execCutoverRetry, hretry, hduty]
  exact (if_neg (Nat.not_lt.mpr hdue)).trans (if_pos ⟨trivial, hfade⟩)

/-! ### Moves by OPT_LANE_MOVE (R83, Table 3-12) -/

theorem State.trigger_of_not_moving {s : State} {f : Nat} {t : MoveTrigger} (h : s.moving f t.duty = false) :
    s.trigger f t = s.setEngine f { s.engine f with waiting := (s.engine f).waiting ++ [t] } :=
  if_neg (by simp [h])

/-- The line that a word of OPT_LANE_MOVE names for its duty: with restore the duty's own, else one of the two spares. -/
def laneMoveLine (v : W32) : Nat :=
  if v.getLsbD 5 then (BitVec.ofNat 4 v.toNat).toNat else if v.getLsbD 4 then 17 else 16

theorem laneMoveLine_of_restore {v : W32} (h : v.getLsbD 5 = true) : laneMoveLine v = (BitVec.ofNat 4 v.toNat).toNat :=
  if_pos h

theorem laneMoveLine_of_spare {v : W32} (h : v.getLsbD 5 = false) : laneMoveLine v = if v.getLsbD 4 then 17 else 16 :=
  if_neg (Bool.eq_false_iff.mp h)

section
variable {s u : State} {f : Nat} {v : W32} {k : BitVec 4} (hgo : v.getLsbD 6 = true)
  (hu : u = s.storeFields (Reg.OPT_LANE_MOVE.addr f) v) (hk : k = BitVec.ofNat 4 v.toNat)
include hgo hu hk

/-- A move of a duty that has a line, to a line that is ready, waits as a cut-over and reads as in progress. -/
theorem State.writeLaneMove_waits {a b : Nat} (hcar : u.carrier (portOf f k) = some a)
    (htar : u.targetOf f ⟨k, some (laneMoveLine v), .manual⟩ = some b) (hfree : u.moving f k = false) :
    s.writeLaneMove f v = (u.setEngine f { u.engine f with
      waiting := (u.engine f).waiting ++ [⟨k, some (laneMoveLine v), .manual⟩] }).setFld (Reg.OPT_LANE_MOVE.result f) 1 := by
  have line : (if v.getLsbD 5 then k.toNat else if v.getLsbD 4 then 17 else 16) = laneMoveLine v := by subst hk; rfl
  rw [← State.trigger_of_not_moving (t := ⟨k, some (laneMoveLine v), .manual⟩) hfree]
  simp only [State.writeLaneMove, hgo, ← hu, ← hk, line, hcar, htar, hfree, Bool.not_true, Bool.false_eq_true, if_false]

theorem State.writeLaneMove_refused (hcar : u.carrier (portOf f k) = none) :
    s.writeLaneMove f v = u.setFld (Reg.OPT_LANE_MOVE.result f) 3 := by
  simp only [State.writeLaneMove, hgo, ← hu, ← hk, hcar, Bool.not_true, Bool.false_eq_true, if_false]

end

/-- Settles O21: a cut-over's commands by what the engine's cut-over records, a move by the line its word names. -/
theorem cutoverTimesAndMoves : Obligations.CutoverTimesAndMoves := by
  refine ⟨fun f s => ⟨fun t ts c n hidle hwait u => execCutoverStart_of_ready hidle hwait,
      fun c hcut => ⟨execSpareReceiverAligned_of_waiting hcut, execLaneReadyDeadline_of_leafNotReady hcut,
        fun cw hmark hleaf hown hdue => ⟨_, _, _, rfl, rfl, rfl, execTSwitch_of_ready hcut hmark hleaf hown hdue rfl rfl rfl⟩,
        fun hmark hcause hpast => ⟨_, _, rfl, rfl, execOldLineRelease_of_manual hcut hmark hcause hpast rfl rfl⟩⟩,
      fun n t k => execCutoverRetry_of_due⟩,
    fun f v s u hgo hw hc hu => ?moves⟩
  have written : s.regWrite (Reg.OPT_LANE_MOVE.addr f.toNat) v (fun s => s.writeLaneMove f.toNat v) =
      s.writeLaneMove f.toNat v := State.regWrite_of_writable hw hc _
  refine ⟨fun a b n hspare hn hcar htar hfree => ?toSpare, fun a b hrestore hcar htar hfree => ?restore,
    fun hspare hcar => ?refused⟩
  case toSpare =>
    have line : n = laneMoveLine v := hn.trans (laneMoveLine_of_spare hspare).symm
    refine (if_pos ⟨hgo, congrArg not hspare⟩).trans ?_
    rw [written, line, State.writeLaneMove_waits hgo hu rfl hcar (line ▸ htar) hfree]
  case restore =>
    have line : (BitVec.ofNat 4 v.toNat).toNat = laneMoveLine v := (laneMoveLine_of_restore hrestore).symm
    refine (if_pos ⟨hgo, hrestore⟩).trans ?_
    rw [written, line, State.writeLaneMove_waits hgo hu rfl hcar (line ▸ htar) hfree]
  case refused =>
    refine (if_pos ⟨hgo, congrArg not hspare⟩).trans ?_
    rw [written, State.writeLaneMove_refused hgo hu rfl hcar]

end Sys2Proof.Machine
end

section
/-!
PROOFS. The transit plane's elements (R97, R98), its notices (R99, R100) and the umbra latches (R102 to R105).
-/

namespace Sys2Proof.Machine

/-! ### Elements and planes (R97, R98) -/

section
variable {c : BitVec 5} {e : BitVec 8} {s : State} (hc : c.toNat < 18) (he : e.toNat < 144)
include hc he

theorem execElementBiasUpdate_of_enabled (hen : s.bit Reg.TRN_CTL.elem_lock_en = true) (leakage bias : Int) :
    execElementBiasUpdate c e leakage bias s = .next (s.setElem c.toNat e.toNat { s.elem c.toNat e.toNat with
      bias := bias
      lowRun := if leakage ≤ -2500 then min ((s.elem c.toNat e.toNat).lowRun + 1) 100 else 0
      highRun := if -1800 < leakage then min ((s.elem c.toNat e.toNat).highRun + 1) 8 else 0 }) :=
  if_neg (by simp [hen, hc, he])

theorem execElementLockLost_of_high (hlocked : (s.elem c.toNat e.toNat).locked = true)
    (hhigh : 8 ≤ (s.elem c.toNat e.toNat).highRun) :
    execElementLockLost c e s = .next (s.setElem c.toNat e.toNat { s.elem c.toNat e.toNat with
      locked := false, unlockedAt := s.ft }).refreshTransit :=
  if_pos ⟨hc, he, hlocked, hhigh⟩

theorem execElementLocked_of_low (hopen : (s.elem c.toNat e.toNat).locked = false)
    (hlow : 100 ≤ (s.elem c.toNat e.toNat).lowRun) :
    execElementLocked c e s =
      .next (s.setElem c.toNat e.toNat { s.elem c.toNat e.toNat with locked := true }).refreshTransit :=
  if_pos ⟨hc, he, by simp [hopen], hlow⟩

/-- No plane stands in for a spare plane (R101), so its failure is only raised. -/
theorem execPlaneFailed_of_spare (hopen : (s.elem c.toNat e.toNat).locked = false)
    (hgood : (s.plane c.toNat).failed = false) (hstate : (s.plane c.toNat).state ≠ .idle)
    (hlim : s.fld Reg.TRN_ELEM_CFG.elem_hold_limit ≠ 0)
    (hpast : (s.elem c.toNat e.toNat).unlockedAt + s.fld Reg.TRN_ELEM_CFG.elem_hold_limit * 1600000 ≤ s.ft)
    (hspare : 16 ≤ c.toNat) :
    execPlaneFailed c e s = .next ((s.setPlane c.toNat { s.plane c.toNat with failed := true }).raise
      Reg.TRN_INT_STATUS.plane_failed).refreshTransit := by
  refine (if_neg (by simp [hc, he, hopen, hgood, hstate, hlim, hpast])).trans ?_
  rw [if_neg fun h => Nat.not_lt.mpr hspare h.2]

theorem execElementLockRetry_of_found (hfailed : (s.plane c.toNat).failed = true)
    (hopen : (s.elem c.toNat e.toNat).locked = false) :
    execElementLockRetry c e true s = .next (s.setElem c.toNat e.toNat { s.elem c.toNat e.toNat with
      locked := true, lowRun := 100, highRun := 0 }).refreshTransit :=
  if_pos ⟨hc, he, hfailed, by simp [hopen], rfl⟩

end

/-- A recal that has nothing left to find ends the failure of a plane whose elements are all locked. -/
theorem State.writeTrnCtl_of_allLocked {s u : State} {v : W32} {c : Nat} (hrecal : v.getLsbD 13 = true)
    (hplane : v.toNat / 2 ^ 8 % 32 = c) (hc : c < 18) (hu : u = s.storeFields Reg.TRN_CTL.addr v)
    (hlocked : u.elemsLocked c = true) :
    s.writeTrnCtl v 0 = (u.setPlane c { u.plane c with failed := false }).refreshTransit := by
  have searched : (List.range 144).foldl (fun (s : State) e =>
      if (0 : BitVec 144).getLsbD e && !(s.elem c e).locked then
        s.setElem c e { s.elem c e with locked := true, lowRun := 100, highRun := 0 }
      else s) u = u :=
    List.foldlRecOn (motive := fun t => t = u) _ _ rfl fun t same e _ => (if_neg (by simp)).trans same
  simp only [State.writeTrnCtl, ← hu, hplane]
  rw [if_neg (by simp [hrecal, hc]), searched, if_pos hlocked]

/-! ### Suspension and resumption (R99, R100) -/

/-- The one notice there is, at its t_from and with nothing left to do after it, is done. -/
theorem State.applyNotices_of_done {s : State} {n : Notice} {act : BitVec 32 → BitVec 32 → BitVec 32}
    (hone : s.trn.notices = [n]) (hdue : n.tFrom ≤ s.ft)
    (hfull : act (SMap.read 0 s.trn.suspMask n.duty.toNat) n.mask = n.mask) :
    s.applyNotices act = (({ s with
      trn.suspMask := SMap.write 0 s.trn.suspMask n.duty.toNat n.mask, trn.notices := [] } : State).returnPorts
        (s.calActive.startAt s.ft) (maskOf s.isDest) (maskOf s.isSource)) := by
  have due : [n].filter (fun n => decide (n.tFrom ≤ s.ft)) = [n] := List.filter_cons_of_pos (decide_eq_true hdue)
  have left : [n].filter (fun x => decide (s.ft < x.tFrom) ||
      SMap.read 0 (SMap.write 0 s.trn.suspMask n.duty.toNat n.mask) x.duty.toNat != x.mask) = [] :=
    List.filter_cons_of_neg (by simp [hdue])
  simp only [State.applyNotices, hone, due, List.foldl_cons, List.foldl_nil, hfull, left]
  exact if_neg Bool.false_ne_true

theorem State.applyNotices_of_noneDue {s : State} (h : ∀ n ∈ s.trn.notices, s.ft < n.tFrom)
    (act : BitVec 32 → BitVec 32 → BitVec 32) : s.applyNotices act = s := by
  have noneDue : (s.trn.notices.filter fun n => decide (n.tFrom ≤ s.ft)) = [] :=
    List.filter_eq_nil_iff.mpr fun n hn => by simpa using h n hn
  exact if_pos (by rw [noneDue]; rfl)

/-! ### Umbra latches (R102 to R105) -/

theorem State.writeUmbraCtl_of_snap {s u : State} {v : W32} (hu : u = s.storeFields Reg.TRN_UMBRA_CTL.addr v)
    (hsnap : v.getLsbD 0 = true) (hrelease : v.getLsbD 1 = false) : s.writeUmbraCtl v = u.snapAll := by
  simp only [State.writeUmbraCtl, ← hu, hsnap, hrelease, if_true, Bool.false_eq_true, if_false]

theorem State.writeUmbraCtl_of_release {s u : State} {v : W32} (hu : u = s.storeFields Reg.TRN_UMBRA_CTL.addr v)
    (hsnap : v.getLsbD 0 = false) (hrelease : v.getLsbD 1 = true) : s.writeUmbraCtl v = u.releaseAll := by
  simp only [State.writeUmbraCtl, ← hu, hsnap, hrelease, if_true, Bool.false_eq_true, if_false]

/-- With no engine in calibration no latch's release is left for later. -/
theorem State.releaseAll_of_noneInCalibration {s : State} (hmay : s.mayRelease = true)
    (hcal : ∀ f, f < 32 → (s.engine f).calState ≠ 1) :
    s.releaseAll = { (List.range 32).foldl (fun s f => s.releaseLatch f) s with
      trn.dark := false, trn.releasePending := false } := by
  have noneCal : ((List.range 32).filter fun f => decide ((s.engine f).calState = 1)) = [] :=
    List.filter_eq_nil_iff.mpr fun f hf => by simpa using hcal f (List.mem_range.mp hf)
  have allOut : ((List.range 32).filter fun f => !([] : List Nat).contains f) = List.range 32 :=
    List.filter_eq_self.mpr fun f _ => rfl
  simp only [State.releaseAll, noneCal, allOut]
  exact if_neg (by simp [hmay])

theorem execUmbraMapWriteDone_of_writing {s : State} {m : BitVec 256} (h : s.trn.umbraWrite = some m) :
    execUmbraMapWriteDone s =
      .next (({ s with trn.umbraMap := m, trn.umbraWrite := none } : State).reconfigured s) := by
  simp only [execUmbraMapWriteDone, h]

/-- Settles O23: an element's commands by its lock and its runs, a notice by its t_from, the latches by what the word of
TRN_UMBRA_CTL asks for. -/
theorem elementsAndLatches : Obligations.ElementsAndLatches := by
  refine ⟨fun c e s hc he => ⟨fun leakage bias hen => execElementBiasUpdate_of_enabled hc he hen leakage bias,
      execElementLockLost_of_high hc he, execElementLocked_of_low hc he, execPlaneFailed_of_spare hc he,
      execElementLockRetry_of_found hc he,
      fun v found hrecal hplane hw hconf hl u hu hfound hlocked => ?recal⟩,
    fun s => ⟨fun n hone hdue hempty => ?suspend, fun n hone hdue hmask => ?resume, fun hlate => ?later,
      fun v u hw hconf hl hu => ?umbra, fun m => execUmbraMapWriteDone_of_writing⟩⟩
  case recal =>
    refine (if_pos hrecal).trans ?_
    rw [State.regWrite_config hw hconf hl, hfound, State.writeTrnCtl_of_allLocked hrecal hplane hc hu hlocked]
  case suspend =>
    have full : SMap.read 0 s.trn.suspMask n.duty.toNat ||| n.mask = n.mask := by simp [hempty]
    refine (congrArg Host.Outcome.next (State.applyNotices_of_done hone hdue full)).trans ?_
    rw [hempty, show 0 ||| n.mask = n.mask from BitVec.zero_or]
  case resume =>
    have full : SMap.read 0 s.trn.suspMask n.duty.toNat &&& n.mask = n.mask := by simp [hmask]
    refine (congrArg Host.Outcome.next (State.applyNotices_of_done hone hdue full)).trans ?_
    rw [hmask]
  case later =>
    exact ⟨congrArg Host.Outcome.next (State.applyNotices_of_noneDue hlate _),
      congrArg Host.Outcome.next (State.applyNotices_of_noneDue hlate _)⟩
  case umbra =>
    have written : s.regWrite Reg.TRN_UMBRA_CTL.addr v (fun s => s.writeUmbraCtl v) =
        (s.writeUmbraCtl v).noteConfig Reg.TRN_UMBRA_CTL.addr v := State.regWrite_config hw hconf hl _
    refine ⟨fun hsnap hrelease => ?_, fun hsnap hrelease hmay hcal => ?_⟩
    · refine (if_pos hsnap).trans ?_
      rw [written, State.writeUmbraCtl_of_snap hu hsnap hrelease]
      rfl
    · refine (if_pos hrelease).trans ?_
      rw [written, State.writeUmbraCtl_of_release hu hsnap hrelease, State.releaseAll_of_noneInCalibration hmay hcal]

end Sys2Proof.Machine
end

section
/-!
PROOFS. The link layer: a frame received in and out of sequence (R114, R115, R120), the LINK_CTL frames (Table 5-7), what a
port does by itself (R113 to R118, R121), its states (R113, R126, R129), its fence and its grants (R122, R128).
-/

namespace Sys2Proof.Machine

/-! ### The record of a port -/

@[simp] theorem State.link_setLink (s : State) (p : Port) (l : Link) : (s.setLink p l).link p = l :=
  SMap.read_write_same ..

/-! ### What a received frame does to its port (R114, R115, R120) -/

theorem State.hopErr_of_awaited {s : State} {p : Port} {t : Nat} (h : (s.link p).retryAt = some t) (cause : Nat) :
    s.hopErr p cause = s := by
  simp only [State.hopErr, h]

theorem State.hopErr_of_notAwaited {s : State} {p : Port} (h : (s.link p).retryAt = none) (cause : Nat) :
    s.hopErr p cause = s.sendRetryReq p cause := by
  simp only [State.hopErr, h]

theorem State.ackTo_of_noReplay {s : State} {p : Port} (h : (s.link p).replay = []) (lseq : BitVec 15) :
    s.ackTo p lseq = s :=
  if_neg (by simp [h])

theorem State.takeHeader_of_noReplay {s : State} {p : Port} {f : Frame} (hreplay : (s.link p).replay = [])
    (hcr : f.crValid = false) : s.takeHeader p f = s := by
  simp only [State.takeHeader, State.ackTo_of_noReplay hreplay, hcr, Bool.false_eq_true, if_false]

/-- Taking an lseq leaves what the port has sent. -/
theorem State.replay_takeLseq (s : State) (p : Port) (f : Frame) :
    ((s.takeLseq p f).link p).replay = (s.link p).replay := by
  unfold State.takeLseq
  split
  · simp only [State.link_setLink]
  · rfl

section
variable {s : State} {p : Port} {f : Frame} (hhears : s.hears p = true) (hheld : (s.link p).held = none)
  (hup : (s.link p).state = .up ∨ f.ftype = ftLinkCtl ∨ f.ftype = ftTime)
include hhears hheld hup

/-- A port that can receive decides by the frame's lseq alone. -/
theorem State.linkIn_of_heard :
    s.linkIn p f = if f.isSequenced && f.lseq ≠ (s.link p).rxLseq then (s.hopErr p 4, false)
      else ((s.takeLseq p f).takeHeader p f, true) := by
  have mayPass : ¬ ((s.link p).state ≠ .up ∧ f.ftype ≠ ftLinkCtl ∧ f.ftype ≠ ftTime) := by
    rintro ⟨notUp, notCtl, notTime⟩
    exact hup.elim notUp fun h => h.elim notCtl notTime
  simp only [State.linkIn, hhears, hheld, if_neg mayPass, Bool.not_true, Bool.false_eq_true, if_false, Option.isSome_none]

theorem State.linkIn_of_inSequence (hlseq : f.lseq = (s.link p).rxLseq) :
    s.linkIn p f = ((s.takeLseq p f).takeHeader p f, true) :=
  (State.linkIn_of_heard hhears hheld hup).trans (if_neg (by simp [hlseq]))

theorem State.linkIn_of_outOfSequence (hseq : f.isSequenced = true) (hlseq : f.lseq ≠ (s.link p).rxLseq) :
    s.linkIn p f = (s.hopErr p 4, false) :=
  (State.linkIn_of_heard hhears hheld hup).trans (if_pos (by simp [hseq, hlseq]))

end

/-- Settles O24: in sequence the lseq is taken and the header has nothing more to say; out of sequence is a hop error. -/
theorem sequence : Obligations.Sequence := by
  refine fun s p f hhears hheld hup => ⟨fun hseq hlseq hreplay hcr => ?taken, fun hseq hlseq t hawaited => ?awaited,
    fun hseq hlseq hnone => ?asks⟩
  case taken =>
    have header : (s.takeLseq p f).takeHeader p f = s.takeLseq p f :=
      State.takeHeader_of_noReplay ((State.replay_takeLseq s p f).trans hreplay) hcr
    exact (State.linkIn_of_inSequence hhears hheld hup hlseq).trans
      (congrArg (·, true) (header.trans (if_pos hseq)))
  case awaited =>
    rw [State.linkIn_of_outOfSequence hhears hheld hup hseq hlseq, State.hopErr_of_awaited hawaited]
  case asks =>
    rw [State.linkIn_of_outOfSequence hhears hheld hup hseq hlseq, State.hopErr_of_notAwaited hnone]

/-! ### LINK_CTL frames (Table 5-7) -/

/-- A LINK_CTL frame that its port takes in runs its opcode's rule. -/
theorem State.linkCtlIn_of_received {s u : State} {p : Port} {f : Frame} (htype : f.ftype = ftLinkCtl)
    (hin : s.received p f = some u) {op : BitVec 8} (hop : f.opcode = op) (rule : State → State) :
    s.linkCtlIn p f op rule = rule u :=
  (if_pos ⟨htype, hop⟩).trans (State.consume_of_received hin rule)

/-- What a CREDIT frame of 32 bytes leaves once a port is out of TRAINING: its limits. -/
theorem State.takeCredit_of_notTraining {u v : State} {p : Port} {f : Frame} (hlen : f.payload.length = 32)
    (hv : v = creditVcs.foldl (fun s n => s.takeLimit p (BitVec.ofNat 3 n) (BitVec.ofNat 24 (numAt f.payload (4 * n) 3))) u)
    (hstate : (v.link p).state ≠ .training) : u.takeCredit p f = v := by
  subst hv
  exact (if_neg fun h => h hlen).trans (if_neg hstate)

/-- Settles O25: a frame that is taken in meets its opcode's rule. -/
theorem linkMessages : Obligations.LinkMessages := by
  refine fun p f s u htype hin => ⟨fun hop v hv => ⟨fun hstate => ?recorded, fun hstate => ?counts⟩,
    fun hop hlen v hv hstate => ?credit, fun hop => ?ack, fun hop => ?retry, fun hop => ?bad⟩
  case recorded =>
    subst hv
    exact congrArg Host.Outcome.next ((State.linkCtlIn_of_received htype hin hop _).trans (if_neg hstate))
  case counts =>
    subst hv
    exact congrArg Host.Outcome.next ((State.linkCtlIn_of_received htype hin hop _).trans (if_pos hstate))
  case credit =>
    refine congrArg Host.Outcome.next ((State.linkCtlIn_of_received htype hin hop _).trans ?_)
    exact State.takeCredit_of_notTraining hlen hv (by simp [hstate])
  case ack => exact congrArg Host.Outcome.next (State.linkCtlIn_of_received htype hin hop _)
  case retry => exact congrArg Host.Outcome.next (State.linkCtlIn_of_received htype hin hop _)
  case bad =>
    exact (if_pos ⟨htype, by rw [hop]; rfl⟩).trans (congrArg Host.Outcome.next (State.consume_of_received hin _))

/-! ### Intervals and time-outs (R113 to R116, R121) -/

section
variable {p : Port} {s : State}

theorem execCreditPublish_of_moved (hstate : (s.link p).state ≠ .down) (hmoved : (s.link p).pub ≠ (s.link p).lim) :
    execCreditPublish p s =
      let v := s.setLink p { s.link p with pub := (s.link p).lim, creditTx := true, creditAt := s.ft }
      .next ((v.sendVc0 p (v.linkCtl opCredit 0 0 0 0
        ((List.range 8).flatMap fun n => leBytes 4 ((s.link p).lim.read 0 n).toNat))).tryUp p) :=
  if_neg (by simp [hstate, hmoved])

theorem execAckDelayExpiry_of_due {t : Nat} (hdue : (s.link p).ackDue = some t) (hpast : t + s.ackDelay p ≤ s.ft) :
    execAckDelayExpiry p s =
      .next ((s.setLink p { s.link p with ackDue := none }).sendVc0 p (s.linkCtl opAck 0 0 0 0)) := by
  simp only [execAckDelayExpiry, hdue]
  exact if_pos hpast

theorem execRetryReqTimeout_of_unanswered {t : Nat} (hawaited : (s.link p).retryAt = some t)
    (hpast : t + s.ackTimeout p ≤ s.ft) : execRetryReqTimeout p s = .next (s.sendRetryReq p 5) := by
  simp only [execRetryReqTimeout, hawaited]
  exact if_pos hpast

theorem execAckTimeout_of_oldest {r : Replay} {rs : List Replay} (hreplay : (s.link p).replay = r :: rs)
    (hpast : (s.link p).ackAt + s.ackTimeout p ≤ s.ft) :
    execAckTimeout p s = .next (s.replayFrom p r.frame.lseq) := by
  simp only [execAckTimeout, hreplay]
  exact if_pos hpast

theorem execRetryExhausted_of_mem {r : Replay} (hmem : r ∈ (s.link p).replay)
    (hover : s.fld (Reg.LNK_RETRY_CFG.retry_limit p.toNat) < r.count) :
    execRetryExhausted p s = .next (s.linkDown p 2) :=
  if_pos (List.any_eq_true.mpr ⟨r, hmem, decide_eq_true hover⟩)

/-! ### Hop errors and frames that end at their port (R112, R115, R117, R118) -/

/-- A hop error of a port that receives, of a cause other than a header error. -/
theorem execHopError_of_cause {cause : BitVec 8} (hstate : (s.link p).state ≠ .down) (hhears : s.hears p = true)
    (hlow : 2 ≤ cause.toNat) (hhigh : cause.toNat ≤ 4) : execHopError p cause s = .next (s.hopErr p cause.toNat) := by
  have notZero : cause ≠ 0 := by rintro rfl; simp at hlow
  have notOne : cause ≠ 1 := by rintro rfl; simp at hlow
  refine (if_neg (by simpa [hstate, hhears, hhigh] using notZero)).trans ?_
  rw [if_neg notOne]

/-- A header error is counted. -/
theorem execHopError_of_header (hstate : (s.link p).state ≠ .down) (hhears : s.hears p = true) :
    execHopError p 1 s = .next ((s.count (Reg.LNK_CNT_HDR_ERR.value p.toNat)).hopErr p 1) :=
  if_neg (by simp [hstate, hhears])

theorem execTrailerFailAfterDispatch_of_last {k : Nat} {b : Buf} {f : Frame} (hbuf : s.bufs.get k = some b)
    (hframe : s.bufFrame k b = some f) (hport : b.inPort = some p) (hseq : f.isSequenced = true)
    (hlast : (s.link p).rxLseq = f.lseq + 1) :
    execTrailerFailAfterDispatch p k s = .next (s.trailerFail p k b f) := by
  simp only [execTrailerFailAfterDispatch, hbuf, hframe]
  exact if_pos ⟨hport, hseq, hlast⟩

theorem State.pmuEvent_of_stopped (h : s.pmuRuns = false) (block event index : Nat) (vc : Option Nat) (k : Nat)
    (given : Option (Nat × Nat × Nat)) : s.pmuEvent block event index vc k given = s :=
  if_neg (by simp [h])

theorem State.ingress_of_malformed {u : State} {f : Frame} (hbad : f.malformed = true) (hin : s.linkIn p f = (u, true))
    (hpmu : u.pmuRuns = false) (stamp : Option Stamp) :
    s.ingress p f stamp = (((u.count (Reg.LNK_CNT_MALFORMED.value p.toNat)).raise
      (Reg.LNK_INT_STATUS.malformed p.toNat)).passCells p f.vc f.cells, false) := by
  simp only [State.ingress, hin, State.pmuEvent_of_stopped hpmu, hbad, if_true]

theorem execMalformedFrame_of_taken {u : State} {f : Frame} (hbad : f.malformed = true) (hin : s.linkIn p f = (u, true))
    (hpmu : u.pmuRuns = false) :
    execMalformedFrame p f s = .next (((u.count (Reg.LNK_CNT_MALFORMED.value p.toNat)).raise
      (Reg.LNK_INT_STATUS.malformed p.toNat)).passCells p f.vc f.cells) := by
  refine (if_pos hbad).trans ?_
  rw [State.ingress_of_malformed hbad hin hpmu]

theorem execStompedFrame_of_taken {u : State} {f : Frame} (hin : s.linkIn p f = (u, true)) :
    execStompedFrame p f s = .next ((u.count (Reg.LNK_CNT_STOMP.value p.toNat)).passCells p f.vc f.cells) := by
  simp only [execStompedFrame, hin]

theorem execUncorrectableCodeword_of_counted (hstate : (s.link p).state ≠ .down) (hexempt : s.rxExempt p = false) :
    execUncorrectableCodeword p s = .next (s.count (Reg.LNK_CNT_FEC_UNCORR.value p.toNat)) :=
  if_neg (by simp [hstate, hexempt])

end

/-- Settles O26: one equation per time-out and per error. -/
theorem linkTimersAndErrors : Obligations.LinkTimersAndErrors := by
  refine ⟨fun p s => ⟨fun hstate => if_neg hstate, execCreditPublish_of_moved, fun t => execAckDelayExpiry_of_due,
      fun t => execRetryReqTimeout_of_unanswered, fun r rs => execAckTimeout_of_oldest, fun r => execRetryExhausted_of_mem⟩,
    fun p s => ⟨fun cause hstate hhears hlow hhigh hnone => ?hop, fun hstate hhears hawaited => ?header,
      fun k b f => execTrailerFailAfterDispatch_of_last, fun f u => execMalformedFrame_of_taken,
      fun f u => execStompedFrame_of_taken, fun hstate hexempt => ?codeword⟩⟩
  case hop =>
    refine (execHopError_of_cause hstate hhears hlow hhigh).trans ?_
    rw [State.hopErr_of_notAwaited hnone]
  case header =>
    obtain ⟨t, hawaited⟩ := hawaited
    refine (execHopError_of_header hstate hhears).trans (congrArg Host.Outcome.next ?_)
    exact State.hopErr_of_awaited (s := s.count (Reg.LNK_CNT_HDR_ERR.value p.toNat)) hawaited 1
  case codeword =>
    exact ⟨_, execUncorrectableCodeword_of_counted hstate hexempt, State.fld_count s _ (by simp [Fld.fits, Reg.LNK_CNT_FEC_UNCORR.value]) 1,
      fun o ho => State.reg_count_ne s 1 ho, rfl⟩

/-! ### Training and ports that go DOWN (R113, R126, R129) -/

section
variable {p : Port} {s : State}

theorem execTrainingStart_of_canTrain (hstate : (s.link p).state = .down) (hfail : (s.link p).failAt = none)
    (hcan : (s.setLink p { s.link p with aligned := true }).canTrain p = true) :
    execTrainingStart p s = .next ((s.setLink p { s.link p with aligned := true }).startTraining p) :=
  (if_neg fun h => h hstate).trans (if_pos (by rw [hfail]; exact hcan))

theorem execTrainRetry_of_due {t : Nat} (hstate : (s.link p).state = .down) (hfail : (s.link p).failAt = some t)
    (haligned : (s.link p).aligned = true) (hpast : t + 16000000 ≤ s.ft)
    (hcan : (s.setLink p { s.link p with failAt := none }).canTrain p = true) :
    execTrainRetry p s = .next ((s.setLink p { s.link p with failAt := none }).startTraining p) := by
  simp only [execTrainRetry, hstate, hfail, haligned] at hcan ⊢
  exact (if_neg (Nat.not_lt.mpr hpast)).trans (if_pos (by simp [hcan]))

/-- LNK_CTL written with port_en 0 and no reset. -/
theorem State.writeLnkCtl_of_disable {u : State} {v : W32} (hu : u = s.storeFields (Reg.LNK_CTL.addr p.toNat) v)
    (hen : v.getLsbD 0 = false) (hreset : v.getLsbD 1 = false) : s.writeLnkCtl p v = u.linkDown p 5 := by
  simp only [State.writeLnkCtl, ← hu, hen, hreset, Bool.false_eq_true, if_false]

/-- LNK_CTL written with port_en 1 and a reset. -/
theorem State.writeLnkCtl_of_reset {u x y : State} {v : W32} (hu : u = s.storeFields (Reg.LNK_CTL.addr p.toNat) v)
    (hen : v.getLsbD 0 = true) (hreset : v.getLsbD 1 = true) (hx : x = u.linkDown p 5)
    (hy : y = x.setLink p { x.link p with cause := 5, failAt := none, deficit := [] }) :
    s.writeLnkCtl p v = (y.setTime p { y.time p with valid := false, loss := 0 }).refreshParent.refreshTransit := by
  simp only [State.writeLnkCtl, ← hu, hen, hreset, if_true, ← hx, ← hy]

end

/-- Settles O27: one equation per transition; the two by LNK_CTL are configuration writes. -/
theorem portStates : Obligations.PortStates := by
  refine fun p s => ⟨execTrainingStart_of_canTrain, fun hstate hpast => if_pos ⟨hstate, hpast⟩,
    fun t => execTrainRetry_of_due, fun hexempt hheld => if_neg (by simp [hexempt, hheld]),
    fun v hw hconf hl u hu => ⟨fun hen hreset => ?disable, fun hen hreset x y hx hy => ?reset⟩⟩
  case disable =>
    refine (if_neg (Bool.eq_false_iff.mp hen)).trans ?_
    rw [State.regWrite_config hw hconf hl, State.writeLnkCtl_of_disable hu hen hreset]
  case reset =>
    refine (if_pos hreset).trans ?_
    rw [State.regWrite_config hw hconf hl, State.writeLnkCtl_of_reset hu hen hreset hx hy]

/-! ### Fences and grants (R122, R128) -/

theorem State.setFence_of_new {s u : State} {p : Port} {n : Nat} (hvalid : n ≠ 3) (hnew : n ≠ s.fence p)
    (hu : u = (s.setFld (Reg.LNK_FENCE.state p.toNat) n).raise (Reg.LNK_INT_STATUS.fence_change p.toNat)) :
    s.setFence p n = (if s.fence p = 0 then u.collPortLost p true else u).refreshParent.refreshTransit := by
  subst hu
  exact if_neg (by simp [hvalid, hnew])

theorem State.grantOk_of_small {s : State} {p : Port} {v g : Nat} (h : g < grantMin v) : s.grantOk p v g = false := by
  rw [State.grantOk, decide_eq_false (Nat.not_le.mpr h), Bool.false_and]

/-- Settles O28: both registers are configuration, and a grant below its minimum never reaches its register. -/
theorem fencesAndGrants : Obligations.FencesAndGrants := by
  refine fun p v s hl => ⟨fun hw hconf hvalid hnew u hu => ?fence,
    fun vc hw hconf => ⟨fun hok => ?stored, fun hsmall => ?small⟩⟩
  case fence =>
    refine (if_neg hvalid).trans ?_
    rw [State.regWrite_config hw hconf hl, State.setFence_of_new hvalid hnew hu]
  case stored =>
    refine (if_neg (by simp [State.answers_of_writable hw])).trans ((if_pos hok).trans ?_)
    rw [State.regWrite_config hw hconf hl]
  case small =>
    exact (if_neg (by simp [State.answers_of_writable hw])).trans
      (if_neg (Bool.eq_false_iff.mp (State.grantOk_of_small hsmall)))

end Sys2Proof.Machine
end

section
/-!
PROOFS. Forwarding (chapter 6): announcements (R135, R136), the catalogue's sweep, rehash and commands (R138 to R141), queries
of the address index (R144, R145), commits and loads of multicast trees (R147), and the frames that a port takes in for a node
or for this spine (Table 6-1, R24, R131, R189, R190).
-/

namespace Sys2Proof.Machine

/-! ### What leaves the tables of forwarding -/

theorem SMap.get_put_same {α : Type} (m : SMap α) (k : Nat) (v : α) : (m.put k v).get k = some v := by
  induction m with
  | nil => exact if_pos rfl
  | cons e m ih =>
    unfold SMap.put
    split
    · exact if_pos rfl
    · split
      · exact if_pos rfl
      · next hne => exact (if_neg hne).trans ih

@[simp] theorem State.raise_fwd (s : State) (f : Fld) : (s.raise f).fwd = s.fwd := by rw [State.raise_eq]

@[simp] theorem State.count_fwd (s : State) (f : Fld) (n : Nat) : (s.count f n).fwd = s.fwd := rfl

@[simp] theorem State.log_fwd (s : State) (block : BitVec 8) (ev : AlmEvent) (index : Nat) (d : List Nat) :
    (s.log block ev index d).fwd = s.fwd := by
  rw [(s.log_same block ev index d).2]

@[simp] theorem State.get_putEntry (s : State) (n : Nat) (e : CatEntry) : (s.putEntry n e).fwd.catalogue.get n = some e :=
  SMap.get_put_same ..

/-! ### Announcements (R135, R136) -/

section
variable {s : State} {n down : Nat} {inc : BitVec 16} {p : Port} {w : Bool}

theorem State.announceNode_of_absent (hget : s.fwd.catalogue.get n = none) :
    s.announceNode n inc p false down = (s.catInsert n { port := p, incarnation := inc, hit := true }).1 := by
  simp only [State.announceNode, hget, Bool.false_eq_true, if_false]

variable {e : CatEntry} (hget : s.fwd.catalogue.get n = some e)
include hget

/-- An older incarnation, by the serial order of 16 bits. -/
theorem State.announceNode_of_older (hold : 32768 ≤ (inc - e.incarnation).toNat) :
    s.announceNode n inc p w down = s.count Reg.FWD_CNT_ANN_STALE.value := by
  simp only [State.announceNode, hget]
  exact if_pos hold

theorem State.announceNode_of_newer (hne : inc ≠ e.incarnation) (hnew : (inc - e.incarnation).toNat < 32768) :
    s.announceNode n inc p w down = s.putEntry n { e with
      port := if w then s.cable (n / 256) else p, incarnation := inc, frozen := false, hit := true, miss := false } := by
  have moved : inc - e.incarnation ≠ 0 := fun h => hne (by bv_omega)
  simp only [State.announceNode, hget]
  rw [if_neg (Nat.not_le.mpr hnew), if_pos moved]

theorem State.announceNode_of_samePort (hinc : inc = e.incarnation)
    (hport : e.port = if w then s.cable (n / 256) else p) :
    s.announceNode n inc p w down = s.putEntry n { e with hit := true, miss := false } := by
  simp only [State.announceNode, hget, hinc, BitVec.sub_self]
  exact (if_neg (by decide)).trans ((if_neg fun h => h rfl).trans (if_pos hport.symm))

/-- The entry is frozen; the conflict is shown, counted, recorded and raised. -/
theorem State.announceNode_of_otherPort (hinc : inc = e.incarnation) (hport : e.port ≠ p) :
    s.announceNode n inc p false down = ((((((s.putEntry n { e with frozen := true }).setFld Reg.FWD_CONFLICT.node n).setFld
      Reg.FWD_CONFLICT.port p.toNat).count Reg.FWD_CNT_CONFLICT.value).log 0x06 .catalogueConflict p.toNat
        [n, inc.toNat, down]).raise Reg.FWD_INT_STATUS.conflict) := by
  subst hinc
  simp only [State.announceNode, hget, BitVec.sub_self]
  refine (if_neg (by decide)).trans ((if_neg fun h => h rfl).trans ((if_neg fun h => hport h.symm).trans (if_neg ?_)))
  rintro ⟨withdraws, -⟩
  cases withdraws

end

/-- An ANNOUNCE for this spine frees its buffer and meets the rule of R135. -/
theorem execAnnounce_of_parked {s u : State} {p : Port} {f : Frame} {k : Nat} (htype : f.ftype = ftMgmt)
    (hop : f.opcode = opAnnounce) (hd : f.dclass = true) (h : s.parked p f (BitVec.ofInt 80 s.ft16) = some (u, k))
    (hmine : u.mine f = true) : execAnnounce p f s = .next ((u.freeBuf k).takeAnnounce p f) := by
  refine (if_pos ⟨htype, hop, hd⟩).trans (congrArg Host.Outcome.next ((State.routed_of_parked h _ _).trans ?_))
  rw [if_neg (by simp [hd]), if_pos hmine]

theorem State.takeAnnounce_of_named {v : State} {p : Port} {f : Frame} (hen : v.bit Reg.FWD_CTL.learn_en = true)
    (hnode : numAt f.payload 0 4 % 2 ^ 17 = f.snode.toNat) (hleaf : numAt f.payload 8 2 % 512 = v.leafOn p) :
    v.takeAnnounce p f = (v.count Reg.FWD_CNT_ANN_ACCEPT.value).announceNode f.snode.toNat
      (BitVec.ofNat 16 (numAt f.payload 4 2)) p (decide (numAt f.payload 6 1 % 2 = 1)) (numAt f.payload 10 1) :=
  (if_neg (by simp [hen])).trans (if_neg fun h => h.elim (· hnode) (· hleaf))

theorem State.takeAnnounce_of_unnamed {v : State} {p : Port} {f : Frame} (hen : v.bit Reg.FWD_CTL.learn_en = true)
    (hbad : numAt f.payload 0 4 % 2 ^ 17 ≠ f.snode.toNat ∨ numAt f.payload 8 2 % 512 ≠ v.leafOn p) :
    v.takeAnnounce p f = (v.count Reg.FWD_CNT_ANN_REJECT.value).raise Reg.FWD_INT_STATUS.ann_reject :=
  (if_neg (by simp [hen])).trans (if_pos hbad)

/-- Settles O29: the frame by whether its payload names its sender and leaf, the catalogue by the incarnation and port of the
node's entry. -/
theorem announcements : Obligations.Announcements := by
  refine ⟨fun p f s u k htype hop hd h hmine v hv hen => ?frame, fun s n down inc p w => ⟨fun hget hw => ?absent,
    fun e hget => ⟨State.announceNode_of_older hget, State.announceNode_of_newer hget, State.announceNode_of_samePort hget,
      fun hinc hw hport => ?conflict⟩⟩⟩
  case frame =>
    subst hv
    have taken : exec (.announce p f) s = .next ((u.freeBuf k).takeAnnounce p f) :=
      execAnnounce_of_parked htype hop hd h hmine
    rw [taken]
    exact ⟨fun hnode hleaf => congrArg _ (State.takeAnnounce_of_named hen hnode hleaf),
      fun hbad => congrArg _ (State.takeAnnounce_of_unnamed hen hbad)⟩
  case absent =>
    subst hw
    exact State.announceNode_of_absent hget
  case conflict =>
    subst hw
    rw [State.announceNode_of_otherPort hget hinc hport]
    exact ⟨by simp, State.bit_raise _ _ (by unfold Fld.fits; decide) rfl⟩

/-! ### The catalogue's sweep and rehash (R138, R140) -/

theorem map_sweepEntry (n : Nat) (e : CatEntry) :
    (sweepEntry e).map (fun x => (n, x)) = if e.frozen then some (n, e)
      else if e.hit then some (n, { e with hit := false, miss := false })
      else if e.miss then none else some (n, { e with miss := true }) := by
  unfold sweepEntry
  split
  · rfl
  · split
    · rfl
    · cases e.miss <;> rfl

theorem execCatalogueSweep_of_aging {s : State} {kept : SMap CatEntry} (hen : s.bit Reg.FWD_CTL.age_en = true)
    (hkept : kept = s.fwd.catalogue.filterMap (fun e => if e.2.frozen then some e
      else if e.2.hit then some (e.1, { e.2 with hit := false, miss := false })
      else if e.2.miss then none else some (e.1, { e.2 with miss := true }))) :
    execCatalogueSweep s = .next (({ s with fwd.catalogue := kept } : State).count Reg.FWD_CNT_AGED.value
      (s.fwd.catalogue.length - kept.length)) := by
  have swept : s.fwd.catalogue.filterMap (fun e => (sweepEntry e.2).map fun x => (e.1, x)) = kept :=
    (congrArg (s.fwd.catalogue.filterMap ·) (funext fun e => map_sweepEntry e.1 e.2)).trans hkept.symm
  refine (if_pos hen).trans ?_
  simp only [swept]

theorem State.writeRehash_of_idle {s : State} {v : W32} (hgo : v.getLsbD 0 = true) (hidle : s.fwd.rehash = none) :
    s.writeRehash v = { s with fwd.rehash := some (BitVec.ofNat 17 (s.fld Reg.FWD_CAT_SEED.seed)) } :=
  if_pos ⟨hgo, by rw [hidle]; rfl⟩

/-- A rehash whose overflow fits: the catalogue is the rebuilt one, under its seed. -/
def State.rehashed (s : State) (seed : BitVec 17) (c : SMap CatEntry) : State :=
  (((({ s with fwd.rehash := none, fwd.catalogue := c, fwd.ovfRaised := false } : State).setFld Reg.FWD_CAT_ACTIVE_SEED.seed
    seed.toNat).setFld Reg.FWD_CAT_REHASH.result (if overflowCount c = 0 then 1 else 2)).setFld
      Reg.FWD_CAT_REHASH.left_in_overflow (overflowCount c)).raise Reg.FWD_INT_STATUS.rehash_done

section
variable {s : State} {seed : BitVec 17} {c : SMap CatEntry} (hbusy : s.fwd.rehash = some seed)
  (hc : c = rebuild seed.toNat [] s.fwd.catalogue)
include hbusy hc

theorem execCatRehashDone_of_overfull (hfull : 1024 < overflowCount c ∨ 32768 < s.trieCount + overflowCount c) :
    execCatRehashDone s = .next ((({ s with fwd.rehash := none } : State).setFld Reg.FWD_CAT_REHASH.result 3).raise
      Reg.FWD_INT_STATUS.rehash_done) := by
  simp only [execCatRehashDone, hbusy, ← hc]
  exact if_pos hfull

theorem execCatRehashDone_of_room (hovf : overflowCount c ≤ 1024) (htrie : s.trieCount + overflowCount c ≤ 32768) :
    execCatRehashDone s = .next (s.rehashed seed c) := by
  simp only [execCatRehashDone, hbusy, ← hc]
  exact if_neg (not_or.mpr ⟨Nat.not_lt.mpr hovf, Nat.not_lt.mpr htrie⟩)

end

/-- The seed register holds every seed. -/
theorem State.activeSeed_rehashed (s : State) (seed : BitVec 17) (c : SMap CatEntry) :
    (s.rehashed seed c).fld Reg.FWD_CAT_ACTIVE_SEED.seed = seed.toNat := by
  unfold State.rehashed
  rw [State.fld_raise, State.fld_setFld_ne _ _ (by decide), State.fld_setFld_ne _ _ (by decide),
    State.fld_setFld_ne _ _ (by decide), State.fld_setFld _ _ (by unfold Fld.fits; decide)]
  exact Nat.mod_eq_of_lt seed.isLt

/-! ### The commands on one node (R141) -/

/-- A word of FWD_CAT_CMD that names an operation stores its fields, runs the operation and shows its status. -/
theorem catCommand_of_writable {s u t : State} {v : W32} {c st : Nat} {op : State → Nat → State × Nat}
    (hgo : v.getLsbD 19 = true) (hcode : v.toNat / 2 ^ 17 % 4 = c) (hw : s.writable Reg.FWD_CAT_CMD.addr v = true)
    (hc : isConfig Reg.FWD_CAT_CMD.addr = false) (hu : u = s.storeFields Reg.FWD_CAT_CMD.addr v)
    (hop : op u (v.toNat % 2 ^ 17) = (t, st)) :
    (if catOp v = some c then .next (s.regWrite Reg.FWD_CAT_CMD.addr v fun s => s.writeCatCmd v op) else .next s : Outcome) =
      .next (t.setFld Reg.FWD_CAT_CMD.status st) := by
  have named : catOp v = some c := (if_pos hgo).trans (congrArg some hcode)
  subst hu
  rw [if_pos named, State.regWrite_of_writable hw hc]
  simp only [State.writeCatCmd, hop]

/-- The word of FWD_CAT_RESULT that shows an entry (Table 6-14). -/
def CatEntry.resultWord (e : CatEntry) : W32 :=
  BitVec.ofNat 32 (e.port.toNat + 2 ^ 9 + e.frozen.toNat * 2 ^ 10 + e.hit.toNat * 2 ^ 11 + e.miss.toNat * 2 ^ 12 +
    e.overflow.toNat * 2 ^ 13 + e.incarnation.toNat * 2 ^ 16)

section
variable {u : State} {n : Nat} {e : CatEntry} (hget : u.fwd.catalogue.get n = some e)
include hget

theorem State.catQuery_of_present : u.catQuery n = (u.setReg Reg.FWD_CAT_RESULT.addr e.resultWord, 1) := by
  simp only [State.catQuery, hget, CatEntry.resultWord, Bool.toNat, cond_eq_ite]

theorem State.catInstall_of_present : u.catInstall n = (u.putEntry n { e with
    port := BitVec.ofNat 9 (u.fld Reg.FWD_CAT_ARG.port), incarnation := BitVec.ofNat 16 (u.fld Reg.FWD_CAT_ARG.incarnation)
    frozen := false, hit := true }, 1) := by
  simp only [State.catInstall, hget]

theorem State.catRemove_of_present : u.catRemove n = ({ u with fwd.catalogue := u.fwd.catalogue.del n }, 1) := by
  simp only [State.catRemove, hget]

theorem State.catUnfreeze_of_present : u.catUnfreeze n = (u.putEntry n { e with frozen := false }, 1) := by
  simp only [State.catUnfreeze, hget]

end

/-! ### Queries of the address index (R144, R145) -/

section
variable {s u : State} {v : W32} {a : W64}
  (hu : u = (s.storeFields Reg.FWD_IDX_QUERY_CTL.addr v).setFld Reg.FWD_IDX_QUERY_CTL.done 1)
  (ha : a = BitVec.ofNat 64 (u.pair Reg.FWD_IDX_QUERY_LO.value))
include hu ha

theorem State.idxQuery_of_miss (hmiss : u.idxLookup a (BitVec.ofNat 12 v.toNat) = none) :
    s.idxQuery v = (u.setReg Reg.FWD_IDX_QUERY_RESULT.addr 0).setPair Reg.FWD_IDX_QUERY_OUT_LO.value 0 := by
  simp only [State.idxQuery, ← hu, ← ha, hmiss]

theorem State.idxQuery_of_node {e : IdxEntry} (hhit : u.idxLookup a (BitVec.ofNat 12 v.toNat) = some e)
    (hkind : e.kind = kindNode) :
    s.idxQuery v = (u.setReg Reg.FWD_IDX_QUERY_RESULT.addr (BitVec.ofNat 32 (e.len.toNat + e.kind.toNat * 2 ^ 7 + 2 ^ 9 +
      (if e.inTrie then 2 ^ 10 else 0)))).setPair Reg.FWD_IDX_QUERY_OUT_LO.value (e.coord a).toNat := by
  simp only [State.idxQuery, ← hu, ← ha, hhit]
  rw [if_pos hkind]

end

/-! ### Commits and loads of multicast trees (R147) -/

section
variable {s u : State} {v : W32} (hu : u = s.storeFields Reg.FWD_MC_COMMIT.addr v) (hname : v.toNat % 2 ^ 16 ≠ 0xFFFF)
include hu hname

theorem State.commitTree_of_free (hstage : (u.reg (Reg.FWD_MC_STAGE.addr 0)).getLsbD 1 = false)
    (hfree : (u.tree (v.toNat % 2 ^ 16)).bound = false) :
    s.commitTree v = ((u.setTree (v.toNat % 2 ^ 16)
      (treeOf fun i => u.reg (Reg.FWD_MC_STAGE.addr i))).reconfigured u).setFld Reg.FWD_MC_COMMIT.result 1 := by
  subst hu
  exact (if_neg hname).trans (if_neg (by rw [hstage, hfree]; decide))

theorem State.commitTree_of_bound (hbound : (u.tree (v.toNat % 2 ^ 16)).bound = true) :
    s.commitTree v = (u.setFld Reg.FWD_MC_COMMIT.result 3).raise Reg.FWD_INT_STATUS.mc_refused := by
  subst hu
  exact (if_neg hname).trans (if_pos (by rw [hbound, Bool.or_true]))

theorem State.loadTree_of_named : s.loadTree v = ((List.range 84).foldl (fun t i =>
    t.setReg (Reg.FWD_MC_STAGE.addr i) ((u.tree (v.toNat % 2 ^ 16)).word i)) u).setFld Reg.FWD_MC_COMMIT.result 1 := by
  subst hu
  exact if_neg hname

end

/-- Settles O30: the sweep and the end of a rehash by what they leave of the catalogue; every other command is a write that
reaches its register, where the equation of its rule holds. -/
theorem catalogueIndexAndTrees : Obligations.CatalogueIndexAndTrees := by
  refine ⟨fun s => ⟨fun kept => execCatalogueSweep_of_aging, fun v hgo hw hc hidle => ?go,
    fun seed c hbusy hc => ⟨execCatRehashDone_of_overfull hbusy hc, fun hovf htrie => ?room⟩,
    fun v u n hgo hw hc hu hn e hget => ?command⟩,
    fun s u v => ⟨fun hgo hw hc hu a ha => ?query, fun hw hc hname hu => ?tree⟩⟩
  case go =>
    refine (if_pos hgo).trans ?_
    rw [State.regWrite_of_writable hw hc, State.writeRehash_of_idle hgo hidle]
  case room =>
    refine ⟨s.rehashed seed c, execCatRehashDone_of_room hbusy hc hovf htrie, ?_, ?_, s.activeSeed_rehashed seed c,
      State.bit_raise _ _ (by unfold Fld.fits; decide) rfl⟩
    all_goals simp [State.rehashed]
  case command =>
    subst hn
    refine ⟨fun hop => ⟨_, catCommand_of_writable hgo hop hw hc hu (State.catQuery_of_present hget), ?_⟩,
      fun hop => catCommand_of_writable hgo hop hw hc hu (State.catInstall_of_present hget),
      fun hop => catCommand_of_writable hgo hop hw hc hu (State.catRemove_of_present hget),
      fun hop => catCommand_of_writable hgo hop hw hc hu (State.catUnfreeze_of_present hget)⟩
    refine ⟨State.fld_setFld _ _ (by unfold Fld.fits; decide) _, rfl, ?_⟩
    rw [State.reg_setFld_ne _ _ (by decide), State.reg_setReg]
    rfl
  case query =>
    have written : exec (.idxQueryGo v) s = .next (s.idxQuery v) :=
      (if_pos hgo).trans (congrArg Host.Outcome.next (State.regWrite_of_writable hw hc _))
    rw [written]
    exact ⟨fun hmiss => congrArg _ (State.idxQuery_of_miss hu ha hmiss),
      fun e hhit hkind => congrArg _ (State.idxQuery_of_node hu ha hhit hkind)⟩
  case tree =>
    have committed (hgo : v.getLsbD 16 = true) : exec (.mcCommit v) s = .next (s.commitTree v) :=
      (if_pos hgo).trans (congrArg Host.Outcome.next (State.regWrite_of_writable hw hc _))
    refine ⟨fun hgo hstage hfree => ?_, fun hgo hbound => ?_, fun hgo hload => ?_⟩
    · rw [committed hgo, State.commitTree_of_free hu hname hstage hfree]
    · rw [committed hgo, State.commitTree_of_bound hu hname hbound]
    · refine (if_pos ⟨hload, by rw [hgo]; rfl⟩).trans ?_
      rw [State.regWrite_of_writable hw hc, State.loadTree_of_named hu hname]

/-! ### Frames that Table 6-1 routes, handles or discards (R24, R131, R189, R190) -/

/-- With an empty hold area and a verdict that drops it, a frame is freed and counted. -/
theorem State.meterIn_of_drop {s v : State} {h : Hold} (hempty : s.holdOf (dieOf h.port) = [])
    (hdrop : s.meter h.frame = (v, .drop)) (go : State → Hold → State) :
    s.meterIn h go = (v.freeBuf h.buf).count (Reg.SCH_CNT_OOC_DROP.value h.port.toNat) := by
  have entry : s.meterEntry [] h go = ((v.freeBuf h.buf).count (Reg.SCH_CNT_OOC_DROP.value h.port.toNat), false) := by
    simp [State.meterEntry, holdRoom, hdrop]
  simp [State.meterIn, hempty, entry]

section
variable {s u : State} {p : Port} {f : Frame} {x : Stamp} {k : Nat}

theorem State.police_of_conforming (hen : u.bit Reg.SCH_CTL.vc7_police_en = true) (htok : 256 * f.cells ≤ u.vc7Tokens p.toNat) :
    u.police p f k = ({ u with
      sch.vc7Tok := u.sch.vc7Tok.put p.toNat (u.vc7Tokens p.toNat - 256 * f.cells) } : State).forwardBuf k p f :=
  (if_neg (by simp [hen])).trans (if_pos htok)

theorem State.police_of_excess (hen : u.bit Reg.SCH_CTL.vc7_police_en = true) (htok : u.vc7Tokens p.toNat < 256 * f.cells) :
    u.police p f k = (u.freeBuf k).count (Reg.SCH_CNT_VC7_DROP.value p.toNat) :=
  (if_neg (by simp [hen])).trans (if_neg (Nat.not_le.mpr htok))

/-- A frame that is no memory request has no source to tell (R24). -/
theorem State.noPath_of_noRequest (hreq : f.ftype ≠ ftMemReq) : u.noPath p f = u.count Reg.FWD_CNT_NO_PATH.value :=
  if_neg hreq

variable (h : s.parked p f x = some (u, k)) (mine onward : State → Nat → State)
include h

theorem State.routed_to_node (hd : f.dclass = false) : s.routed p f x mine onward = onward u k := by
  rw [State.routed_of_parked h, if_pos (by simp [hd])]

theorem State.routed_to_self (hd : f.dclass = true) (hmine : u.mine f = true) : s.routed p f x mine onward = mine u k := by
  rw [State.routed_of_parked h, if_neg (by simp [hd]), if_pos hmine]

theorem State.routed_to_otherSpine (hd : f.dclass = true) (hmine : u.mine f = false) :
    s.routed p f x mine onward = (u.freeBuf k).noPath p f := by
  rw [State.routed_of_parked h, if_neg (by simp [hd]), if_neg (by simp [hmine])]

end

/-- Settles O31: a frame that is taken in, by what it names (`State.routed_to_node`, `_self`, `_otherSpine`), then its type's
rule. -/
theorem routedFrames : Obligations.RoutedFrames := by
  refine fun p f x s u k h => ⟨fun hd => ⟨fun ht hempty v hpass => ?pass, fun ht hempty v hdrop => ?drop,
    fun ht hen htok => ?conforming, fun ht hen htok => ?excess, fun ht => ?mgmt, fun ht hx => ?result⟩,
    fun hd hmine => ⟨fun ht => ?bulkHere, fun ht => ?bestEffortHere⟩, fun hd hmine ht => ?noPath⟩
  case pass =>
    refine (if_pos ht).trans ?_
    rw [State.routed_to_node h _ _ hd, State.meterIn_of_pass hempty hpass]
  case drop =>
    refine (if_pos ht).trans ?_
    rw [State.routed_to_node h _ _ hd, State.meterIn_of_drop hempty hdrop]
  case conforming =>
    refine (if_pos ht).trans ?_
    rw [State.routed_to_node h _ _ hd, State.police_of_conforming hen htok]
  case excess =>
    refine (if_pos ht).trans ?_
    rw [State.routed_to_node h _ _ hd, State.police_of_excess hen htok]
  case mgmt =>
    refine (if_pos ⟨ht, by simp [hd]⟩).trans ?_
    rw [State.routed_to_node h _ _ hd]
  case result =>
    subst hx
    refine (if_pos ht).trans ?_
    rw [State.routed_to_node h _ _ hd]
    rfl
  case bulkHere =>
    refine (if_pos ht).trans ?_
    rw [State.routed_to_self h _ _ hd hmine]
    rfl
  case bestEffortHere =>
    refine (if_pos ht).trans ?_
    rw [State.routed_to_self h _ _ hd hmine]
    rfl
  case noPath =>
    refine (if_pos ht).trans ?_
    rw [State.routed_to_otherSpine h _ _ hd hmine, State.noPath_of_noRequest (by rw [ht]; decide)]

end Sys2Proof.Machine
end

section
/-!
PROOFS. The switch core (chapter 7): the destinations of a buffer and the cells that reach them (R158 to R164), rejected frees
(R170, R171), credit withholding (R169), the auditor (R172), spills (R173, R174), mirror rings (Table 7-14) and originated
frames that wait (R168).
-/

namespace Sys2Proof.Machine

/-! ### Destinations and their cells (R158 to R164) -/

theorem State.destOf_eq_some_iff {s : State} {k : Nat} {p : Port} {b : Buf} {d : Dest} :
    s.destOf k p = some (b, d) ↔ s.bufs.get k = some b ∧ b.dests.find? (fun x => x.port == p) = some d := by
  unfold State.destOf
  cases s.bufs.get k with
  | none => simp
  | some c =>
    simp only [Option.map_eq_some_iff, Prod.mk.injEq, Option.some.injEq]
    constructor
    · rintro ⟨x, hx, rfl, rfl⟩
      exact ⟨rfl, hx⟩
    · rintro ⟨rfl, hd⟩
      exact ⟨d, hd, rfl, rfl⟩

@[simp] theorem State.setDest_regs (s : State) (k : Nat) (p : Port) (x : Dest) : (s.setDest k p x).regs = s.regs := by
  unfold State.setDest
  split <;> rfl

/-- Whether the programmable counters run is read from one register. -/
theorem State.pmuRuns_congr {s t : State} (h : t.reg Reg.PMU_CTL.addr = s.reg Reg.PMU_CTL.addr) : t.pmuRuns = s.pmuRuns := by
  have enabled : t.fld Reg.PMU_CTL.global_en = s.fld Reg.PMU_CTL.global_en := congrArg Reg.PMU_CTL.global_en.of h
  have frozen : t.fld Reg.PMU_CTL.freeze = s.fld Reg.PMU_CTL.freeze := congrArg Reg.PMU_CTL.freeze.of h
  unfold State.pmuRuns State.bit
  rw [enabled, frozen]

@[simp] theorem State.setDest_pmuRuns (s : State) (k : Nat) (p : Port) (x : Dest) :
    (s.setDest k p x).pmuRuns = s.pmuRuns :=
  State.pmuRuns_congr (by simp [State.reg])

theorem State.count_pmuRuns (s : State) {f : Fld} (h : Reg.PMU_CTL.addr ≠ f.off) (n : Nat) :
    (s.count f n).pmuRuns = s.pmuRuns :=
  State.pmuRuns_congr (State.reg_count_ne s n h)

theorem execCellArrival_of_free {s : State} {k : Nat} (hfree : s.bufs.get k = none) (hex : s.bufExists k = true)
    (hrec : (s.core (bufDie k)).reclaimed.contains k = false) (p : Port) (i : BitVec 8) (c : CellCheck) :
    execCellArrival k p i c s = .next (s.rejectFree k 0) := by
  simp only [execCellArrival, hfree, hex, hrec, Bool.false_eq_true, if_true, if_false]

theorem execCellArrival_of_notOwner {s : State} {k : Nat} {p : Port} {b : Buf} (hbuf : s.bufs.get k = some b)
    (hnot : ∀ d ∈ b.dests, d.port ≠ p) (i : BitVec 8) (c : CellCheck) :
    execCellArrival k p i c s = .next (s.rejectFree k 1) := by
  have noDest : (b.dests.any fun d => d.port == p) = false := List.any_eq_false.mpr fun d hd => by simp [hnot d hd]
  simp only [execCellArrival, hbuf, noDest, Bool.not_false, if_true]

section
variable {s : State} {k : Nat} {p : Port} {b : Buf} {d : Dest} (hdest : s.destOf k p = some (b, d))
include hdest

theorem execCellArrival_good (i : BitVec 8) : execCellArrival k p i .good s = .next (s.goodCell k p i.toNat) := by
  obtain ⟨hbuf, hfind⟩ := State.destOf_eq_some_iff.mp hdest
  have owns : (b.dests.any fun x => x.port == p) = true :=
    List.any_eq_true.mpr ⟨d, List.mem_of_find?_eq_some hfind, List.find?_some (p := fun x : Dest => x.port == p) hfind⟩
  simp only [execCellArrival, hbuf, owns, Bool.not_true, Bool.false_eq_true, if_false]

theorem execReseqTimeout_of_ahead
    (hahead : (s.flows.read { } (flowKey (flowSrc k b) p d.frame.vc)).ahead.isEmpty = false) (i : BitVec 8) :
    execReseqTimeout k p i s = .next (s.pullAgain k p i.toNat) := by
  simp only [execReseqTimeout, hdest, hahead, Bool.false_eq_true, if_false]

section
variable {i : Nat} (hcell : i < b.cells) (hgot : d.got.contains i = false)
include hcell hgot

theorem State.goodCell_of_lacking : s.goodCell k p i =
    ((s.setDest k p { d with got := d.got ++ [i] }).takeCells (flowSrc k b) p d.frame.vc
      [d.rseq + BitVec.ofNat 24 i]).settleDest k p := by
  simp only [State.goodCell, hdest]
  exact if_neg (not_or.mpr ⟨Nat.not_le.mpr hcell, ne_true_of_eq_false hgot⟩)

theorem State.pullAgain_of_allowed (htries : d.retries.read 0 i < s.fld Reg.CORE_RESEQ_CFG.cell_retry_limit)
    (hpmu : s.pmuRuns = false) : s.pullAgain k p i =
    (s.setDest k p { d with retries := d.retries.write 0 i (d.retries.read 0 i + 1) }).count
      (Reg.CORE_CNT_REPULL.value (dieOf p)) := by
  simp only [State.pullAgain, hdest]
  rw [if_neg (not_or.mpr ⟨Nat.not_le.mpr hcell, not_or.mpr ⟨ne_true_of_eq_false hgot, Nat.not_le.mpr htries⟩⟩)]
  refine State.pmuEvent_of_stopped ?_ ..
  rw [State.count_pmuRuns _ (by simp only [Reg.CORE_CNT_REPULL.value, Reg.CORE_CNT_REPULL.addr, Reg.PMU_CTL.addr]; omega),
    State.setDest_pmuRuns, hpmu]

end

theorem execCellRetryExhausted_of_spent {i : BitVec 8} (hcell : i.toNat < b.cells)
    (hgot : d.got.contains i.toNat = false)
    (htries : s.fld Reg.CORE_RESEQ_CFG.cell_retry_limit ≤ d.retries.read 0 i.toNat) :
    execCellRetryExhausted k p i s = .next (s.loseDest .dataError k p) := by
  simp only [execCellRetryExhausted, hdest]
  exact if_pos ⟨hcell, by rw [hgot]; rfl, htries⟩

theorem execEgressUnderrun_of_begun (hbegun : d.begun = true) (hlacks : d.got.length < b.cells) {u : State} {q : Nat}
    (hu : u = (s.stompBegun p d.frame).setDest k p { d with begun := false, ready := true })
    (hq : q = p.toNat * 8 + d.frame.vc.toNat) :
    execEgressUnderrun k p s = .next (({ u with queues := u.queues.write [] q (k :: u.queues.read [] q) } : State).count
      (Reg.CORE_CNT_UNDERRUN.value (dieOf p))) := by
  subst hu hq
  simp only [execEgressUnderrun, hdest]
  exact if_pos ⟨hbegun, hlacks⟩

end

/-! ### Rejected frees (R170, R171) -/

@[simp] theorem State.log_bufs (s : State) (block : BitVec 8) (ev : AlmEvent) (index : Nat) (d : List Nat) :
    (s.log block ev index d).bufs = s.bufs := by
  rw [(s.log_same block ev index d).2]

@[simp] theorem State.log_seq (s : State) (block : BitVec 8) (ev : AlmEvent) (index : Nat) (d : List Nat) :
    (s.log block ev index d).alm.seq = s.alm.seq + 1 := by
  rw [State.log, State.alm_logSev]

@[simp] theorem State.raise_bufs (s : State) (f : Fld) : (s.raise f).bufs = s.bufs := by rw [State.raise_eq]

@[simp] theorem State.count_bufs (s : State) (f : Fld) (n : Nat) : (s.count f n).bufs = s.bufs := rfl

@[simp] theorem State.count_alm (s : State) (f : Fld) (n : Nat) : (s.count f n).alm = s.alm := rfl

theorem State.bit_rejectFree (s : State) (k cause : Nat) :
    (s.rejectFree k cause).bit Reg.CORE_INT_STATUS.double_free = true :=
  State.bit_raise _ _ (by unfold Fld.fits; decide) rfl

theorem State.seq_rejectFree (s : State) (k cause : Nat) : (s.rejectFree k cause).alm.seq = s.alm.seq + 1 := by
  simp only [State.rejectFree, State.alm_raise, State.log_seq, State.setFld_alm]
  split <;> simp only [State.count_alm]

theorem State.bufs_rejectFree (s : State) (k cause : Nat) : (s.rejectFree k cause).bufs = s.bufs := by
  simp only [State.rejectFree, State.raise_bufs, State.log_bufs, State.setFld_bufs]
  split <;> simp only [State.count_bufs]

/-! ### Withholding (R169) -/

@[simp] theorem State.core_setCore (s : State) (d : Nat) (c : DieCore) : (s.setCore d c).core d = c :=
  SMap.read_write_same ..

theorem State.link_setLink_ne (s : State) {p q : Port} (l : Link) (h : q ≠ p) : (s.setLink p l).link q = s.link q :=
  SMap.read_write_ne _ _ _ _ fun e => h (BitVec.eq_of_toNat_eq e)

/-- What the evaluation of a die leaves as it was once its own record is set: the records of the dies, the buffers, the
tables of forwarding and the ports of other dies. -/
structure State.LeavesOthers (d : Nat) (s t : State) : Prop where
  core : ∀ e, t.core e = s.core e
  bufs : t.bufs = s.bufs
  fwd : t.fwd = s.fwd
  link : ∀ p, dieOf p ≠ d → t.link p = s.link p

theorem State.LeavesOthers.refl (d : Nat) (s : State) : s.LeavesOthers d s := ⟨fun _ => rfl, rfl, rfl, fun _ _ => rfl⟩

theorem State.LeavesOthers.trans {d : Nat} {s t u : State} (h : s.LeavesOthers d t) (k : t.LeavesOthers d u) :
    s.LeavesOthers d u :=
  ⟨fun e => (k.core e).trans (h.core e), k.bufs.trans h.bufs, k.fwd.trans h.fwd, fun p hp => (k.link p hp).trans (h.link p hp)⟩

theorem State.LeavesOthers.foldl {α : Type} {d : Nat} {f : State → α → State} {l : List α}
    (h : ∀ t, ∀ a ∈ l, State.LeavesOthers d t (f t a)) (s : State) : s.LeavesOthers d (l.foldl f s) :=
  List.foldlRecOn l f (.refl d s) fun t ht a ha => ht.trans (h t a ha)

theorem State.leavesOthers_raiseIf (d : Nat) (s : State) (c : Bool) (f : Fld) :
    s.LeavesOthers d (if c then s.raise f else s) := by
  cases c with
  | false => exact .refl d s
  | true =>
    rw [if_pos rfl, State.raise_eq]
    exact ⟨fun _ => rfl, rfl, rfl, fun _ _ => rfl⟩

/-- Cells given back raise the limits of their own port alone. -/
theorem State.leavesOthers_giveBack (s : State) (p : Port) (v : BitVec 3) : s.LeavesOthers (dieOf p) (s.giveBack p v) := by
  unfold State.giveBack
  dsimp only
  split
  · exact .refl _ s
  · exact ⟨fun _ => rfl, rfl, rfl, fun q hq => State.link_setLink_ne s _ fun e => hq (congrArg dieOf e)⟩

theorem State.leavesOthers_giveBackAll (s : State) (d : Nat) (vs : List (BitVec 3)) :
    s.LeavesOthers d ((allPorts.filter fun p => dieOf p = d).foldl (fun s p => vs.foldl (fun s v => s.giveBack p v) s) s) := by
  refine .foldl (fun t p hp => .foldl (fun u v _ => ?_) t) s
  have own : dieOf p = d := of_decide_eq_true (List.mem_filter.mp hp).2
  exact own ▸ u.leavesOthers_giveBack p v

/-- The evaluation of a die sets the die's record, then gives credits back and raises causes. -/
theorem execWithholdEvaluate_sets (die : BitVec 2) (s : State) :
    ∃ t, execWithholdEvaluate die s = .next t ∧
      State.LeavesOthers die.toNat (s.setCore die.toNat { s.core die.toNat with
        withheld := if s.bit Reg.CORE_CTL.withhold_en then
          s.withheldSet (s.dieOcc die.toNat) (s.core die.toNat).withheld else []
        warned := decide (750 ≤ s.dieOcc die.toNat) }) t :=
  ⟨_, rfl, ((State.leavesOthers_giveBackAll _ _ _).trans (State.leavesOthers_raiseIf ..)).trans
    (State.leavesOthers_raiseIf ..)⟩

/-! ### The auditor (R172) -/

section
variable {s : State} {d : Nat} {pool : BitVec 3} {index : BitVec 21} {k : Nat} {b : Buf}

/-- An audit whose one finding names the only buffer clears no other's mark. -/
theorem execBufferAudit_of_only {die : BitVec 2} (hen : s.bit Reg.CORE_CTL.audit_en = true)
    (hk : k = bufKey die.toNat pool.toNat index.toNat) (hbufs : s.bufs = [(k, b)]) :
    execBufferAudit die [.unreferenced pool index] s = .next (s.auditOne die.toNat (.unreferenced pool index)) := by
  have kept : (s.bufs.map fun e => if bufDie e.1 = die.toNat &&
      !([AuditFinding.unreferenced pool index].any fun x => findingNames die.toNat e.1 x) then
      (e.1, { e.2 with unref := none }) else e) = s.bufs := by
    simp [hbufs, findingNames, hk]
  simp only [execBufferAudit, hen, if_true, kept, List.foldl_cons, List.foldl_nil]

variable (hk : k = bufKey d pool.toNat index.toNat) (hbuf : s.bufs.get k = some b) (href : s.referenced k b = false)
include hk hbuf href

theorem State.auditOne_first (hunref : b.unref = none) : s.auditOne d (.unreferenced pool index) =
    { s with bufs := s.bufs.put k { b with unref := some s.ft } } := by
  subst hk
  simp only [State.auditOne, hbuf, href, hunref, Bool.false_eq_true, if_false]

theorem State.auditOne_again {t : Nat} (hunref : b.unref = some t) {u : State}
    (hu : u = (s.freeBuf k).count (Reg.CORE_CNT_LEAK.value d)) : s.auditOne d (.unreferenced pool index) =
    ((u.setCore d { u.core d with reclaimed := (u.core d).reclaimed ++ [k] }).log 0x08 .bufferReclaimed d
      [pool.toNat, index.toNat, t, u.ft]).raise Reg.CORE_INT_STATUS.leak := by
  subst hk hu
  simp only [State.auditOne, hbuf, href, hunref, Bool.false_eq_true, if_false]
  rfl

end

/-! ### Spills, mirror rings and originated frames that wait (R168, R173, R174, Table 7-14) -/

theorem State.spillBuf_of_get {s : State} {k : Nat} {b : Buf} (hbuf : s.bufs.get k = some b) : s.spillBuf k =
    ({ s with bufs := s.bufs.put k { b with landed := 0, spilled := b.spilled + b.landed } } : State).countSpill (bufDie k)
      b.landed := by
  simp only [State.spillBuf, hbuf]

theorem execSpillDelayExpiry_of_due {s : State} {k : Nat} {b : Buf} (hbuf : s.bufs.get k = some b) (hlanded : 0 < b.landed)
    (hdue : b.landedAt + s.fld Reg.CORE_SPILL_CFG.spill_delay * 160 ≤ s.ft) :
    execSpillDelayExpiry k s = .next (s.spillBuf k) := by
  simp only [execSpillDelayExpiry, hbuf]
  exact if_pos ⟨hlanded, hdue⟩

section
variable {s u : State} {n : Nat} {v : W32} (hu : u = s.storeFields (Reg.CORE_MIR_CTL.addr n) v) (hen : v.getLsbD 0 = true)
include hu hen

theorem State.writeMirCtl_of_fits (hfits : u.ringFits (u.pair (Reg.CORE_MIR_BASE_LO.value n)) = true) :
    s.writeMirCtl n v = u.setFld (Reg.CORE_MIR_CTL.refused n) 0 := by
  subst hu
  exact (if_neg (by simp [hen])).trans (if_pos hfits)

theorem State.writeMirCtl_of_outside (hfits : u.ringFits (u.pair (Reg.CORE_MIR_BASE_LO.value n)) = false) :
    s.writeMirCtl n v = ((u.setFld (Reg.CORE_MIR_CTL.enable n) 0).setFld (Reg.CORE_MIR_CTL.refused n) 1).raise
      Reg.CORE_INT_STATUS.mirror_refused := by
  subst hu
  exact (if_neg (by simp [hen])).trans (if_neg (by simp [hfits]))

end

/-- The one frame that waits takes its buffer, and none waits any more. -/
theorem pumpOrigin_of_placed {s t : State} {w : OriginWait} {q : Port} {f : Frame} {cs : List (Port × Frame)}
    (hcopies : w.copies = (q, f) :: cs)
    (hplace : s.place w.die.toNat none f.vc 0 f.cells w.owner w.copies = some t) :
    pumpOrigin [] [w] s = { t with originWait := [] } := by
  rw [hcopies] at hplace
  simp only [pumpOrigin, List.any_nil, Bool.false_eq_true, if_false, hcopies, hplace]

/-- Settles O32: a cell by whether its buffer has the destination and the destination the cell, a die's evaluation by what it
leaves (`State.LeavesOthers`), the auditor by the mark of the buffer it names. -/
theorem cellsAndBuffers : Obligations.CellsAndBuffers := by
  refine ⟨fun k p i s => ⟨fun c hfree hex hrec => execCellArrival_of_free hfree hex hrec p i c,
      fun c b hbuf hnot => execCellArrival_of_notOwner hbuf hnot i c,
      fun cause => ⟨s.bit_rejectFree k cause, s.seq_rejectFree k cause, s.bufs_rejectFree k cause⟩,
      fun b d hdest => ⟨fun hcell hgot => ?good, fun hcell hgot htries hpmu hahead => ?pull,
        fun hcell hgot htries => execCellRetryExhausted_of_spent hdest hcell hgot htries,
        fun hbegun hlacks u q => execEgressUnderrun_of_begun hdest hbegun hlacks⟩⟩,
    fun s => ⟨fun d => ?withhold, fun d pool index k b hen hk hbufs href => ?audit, fun k b hbuf hlanded hdue => ?spill,
      fun d u hu => ?rate, fun n v u hgo hw hc hl hu => ?mirror, fun w q f cs t hwait hcopies hplace => ?origin⟩⟩
  case good =>
    refine (execCellArrival_good hdest i).trans ?_
    rw [State.goodCell_of_lacking hdest hcell hgot]
  case pull =>
    refine (execReseqTimeout_of_ahead hdest hahead i).trans ?_
    rw [State.pullAgain_of_allowed hdest hcell hgot htries hpmu]
  case withhold =>
    obtain ⟨t, ht, left⟩ := execWithholdEvaluate_sets d s
    have own := (left.core d.toNat).trans (State.core_setCore ..)
    exact ⟨t, ht, congrArg DieCore.withheld own, congrArg DieCore.warned own, left.bufs, left.fwd, left.link⟩
  case audit =>
    have hbuf : s.bufs.get k = some b := by rw [hbufs]; exact if_pos rfl
    have put (x : Buf) : s.bufs.put k x = [(k, x)] := by simp [hbufs, SMap.put]
    have audited : exec (.bufferAudit d [.unreferenced pool index]) s =
        .next (s.auditOne d.toNat (.unreferenced pool index)) := execBufferAudit_of_only hen hk hbufs
    rw [audited]
    refine ⟨fun hunref => ?_, fun t hunref u hu => congrArg _ (State.auditOne_again hk hbuf href hunref hu)⟩
    rw [State.auditOne_first hk hbuf href hunref, put]
  case spill =>
    exact (execSpillDelayExpiry_of_due hbuf hlanded hdue).trans (congrArg _ (State.spillBuf_of_get hbuf))
  case rate =>
    subst hu
    exact (apply_ite Host.Outcome.next _ _ _).symm
  case mirror =>
    have written : exec (.mirrorEnable n v) s = .next ((s.writeMirCtl n.toNat v).noteConfig (Reg.CORE_MIR_CTL.addr n.toNat) v) :=
      (if_pos hgo).trans (congrArg Host.Outcome.next (State.regWrite_config hw hc hl _))
    rw [written]
    exact ⟨fun hfits => by rw [State.writeMirCtl_of_fits hu hgo hfits],
      fun hfits => by rw [State.writeMirCtl_of_outside hu hgo hfits]⟩
  case origin =>
    refine congrArg Host.Outcome.next ?_
    rw [hwait, pumpOrigin_of_placed hcopies hplace]

end Sys2Proof.Machine
end

section
/-!
PROOFS. Scheduling (chapter 8): what a free transmitter sends first (R178), and a turn of the deficit round on the VC at the
pointer (R179).
-/

namespace Sys2Proof.Machine

/-! ### The frame a free transmitter begins (R178) -/

/-- A head frame that the fence lets through stops the purge of the VC0 queue, whatever waits behind it. -/
theorem purgeVc0_of_passes {s : State} {p : Port} {x : Tx} {xs : List Tx} (hvc0 : (s.link p).vc0 = x :: xs)
    (hfence : fenceStops (s.fence p) x.frame = false) (n : Nat) : purgeVc0 p n s = s := by
  cases n with
  | zero => rfl
  | succ n => simp only [purgeVc0, hvc0, hfence, Bool.false_eq_true, if_false]

theorem State.vc0Pick_of_open {s : State} {p : Port} {x : Tx} {xs : List Tx} (hvc0 : (s.link p).vc0 = x :: xs)
    (hopen : s.windowOpen p x.frame = true) : s.vc0Pick p = some (x, xs) := by
  simp [State.vc0Pick, hvc0, List.findIdx?_cons, hopen]

theorem State.vc0Pick_of_empty {s : State} {p : Port} (hvc0 : (s.link p).vc0 = []) : s.vc0Pick p = none := by
  simp only [State.vc0Pick, hvc0, List.findIdx?_nil]

theorem execEgressArbitrate_of_barred {s : State} {p : Port} (hsend : s.canSend p = false) (t : Stamp) :
    execEgressArbitrate p t s = .next s := by
  simp only [execEgressArbitrate, hsend, Bool.not_false, if_true]

section
variable {s : State} {p : Port} (hsend : s.canSend p = true)
include hsend

theorem execEgressArbitrate_of_replayDue {n : BitVec 15} (hdue : (s.link p).replayDue = some n) (t : Stamp) :
    execEgressArbitrate p t s = .next (s.replayFrom p n) := by
  simp only [execEgressArbitrate, hsend, Bool.not_true, Bool.false_eq_true, if_false, hdue]

variable (hdue : (s.link p).replayDue = none)
include hdue

theorem execEgressArbitrate_of_vc0 {x : Tx} {xs : List Tx} (hvc0 : (s.link p).vc0 = x :: xs)
    (hfence : fenceStops (s.fence p) x.frame = false) (hopen : s.windowOpen p x.frame = true) (t : Stamp) :
    execEgressArbitrate p t s = .next (s.sendTx p x xs t) := by
  simp only [execEgressArbitrate, hsend, Bool.not_true, Bool.false_eq_true, if_false, hdue,
    purgeVc0_of_passes hvc0 hfence, State.vc0Pick_of_open hvc0 hopen]

theorem execEgressArbitrate_of_noVc0 (hvc0 : (s.link p).vc0 = []) (hup : (s.link p).state = .up) (t : Stamp) :
    execEgressArbitrate p t s = .next (s.serveVcs p t) := by
  have isUp : s.isUp p = true := beq_iff_eq.mpr hup
  simp only [execEgressArbitrate, hsend, Bool.not_true, Bool.false_eq_true, if_false, hdue, hvc0, List.length_nil, purgeVc0,
    State.vc0Pick_of_empty hvc0, isUp, if_true]

end

/-! ### A turn of the deficit round (R179) -/

section
variable {elig : Nat → Bool} {d : SMap Int} {v : Nat} (helig : elig v = true)
include helig

/-- The VC at the pointer is chosen: it pays for its head frame, and the pointer stays on it. -/
theorem arbitrate_of_positive (hpos : 0 < d.read 0 v) (empty : Nat → Bool) (cost w : Nat → Nat) (q n : Nat) :
    arbitrate elig empty cost w q (n + 1) d v = (d.write 0 v (d.read 0 v - cost v), v, some v) := by
  simp only [arbitrate, helig, hpos, decide_true, Bool.and_self, if_true]

/-- The VC at the pointer has spent its deficit: it banks its quantum, and the round goes on. -/
theorem arbitrate_of_spent (hspent : d.read 0 v ≤ 0) (empty : Nat → Bool) (cost w : Nat → Nat) (q n : Nat) :
    arbitrate elig empty cost w q (n + 1) d v =
      arbitrate elig empty cost w q n (d.write 0 v (d.read 0 v + (w v * q : Nat))) (nextVc v) := by
  simp only [arbitrate, helig, hspent.not_gt, decide_false, Bool.and_false, Bool.false_eq_true, if_false, if_true]

end

/-- Settles O33: the transmitter by what waits at its port, the arbiter by the sign of the deficit at its pointer; a write of
one VC's deficit leaves the others'. -/
theorem arbiter : Obligations.Arbiter := by
  refine ⟨fun p t s => ⟨fun hsend => execEgressArbitrate_of_barred hsend t,
      fun n hsend hdue => execEgressArbitrate_of_replayDue hsend hdue t,
      fun x xs hsend hdue hvc0 hfence hopen => execEgressArbitrate_of_vc0 hsend hdue hvc0 hfence hopen t,
      fun hsend hdue hvc0 hup => execEgressArbitrate_of_noVc0 hsend hdue hvc0 hup t⟩,
    fun elig empty cost w q n d v => ⟨fun helig hpos => ?chosen, fun helig hspent => ?spent⟩⟩
  case chosen =>
    exact ⟨_, arbitrate_of_positive helig hpos empty cost w q n, SMap.read_write_same ..,
      fun x hx => SMap.read_write_ne 0 0 d _ hx⟩
  case spent =>
    exact ⟨_, arbitrate_of_spent helig hspent empty cost w q n, SMap.read_write_same ..,
      fun x hx => SMap.read_write_ne 0 0 d _ hx⟩

end Sys2Proof.Machine
end

section
/-!
PROOFS. What sending and freeing frames (chapter 7) and counting events (chapter 19) leave of the unit of collectives: its
records, its causes, and the almanac.
-/

namespace Sys2Proof.Machine

/-! ### Through branches and folds -/

@[simp] theorem ite_cnj (c : Prop) [Decidable c] (a b : State) : (if c then a else b).cnj = if c then a.cnj else b.cnj :=
  apply_ite State.cnj c a b

@[simp] theorem foldl_cnj {α : Type} (f : State → α → State) (h : ∀ s a, (f s a).cnj = s.cnj) (l : List α) (s : State) :
    (l.foldl f s).cnj = s.cnj := by
  induction l generalizing s with
  | nil => rfl
  | cons a l ih => rw [List.foldl_cons, ih, h]

/-! ### Counters, causes and records -/

@[simp] theorem State.count_cnj (s : State) (f : Fld) (n : Nat) : (s.count f n).cnj = s.cnj := rfl

@[simp] theorem State.raise_cnj (s : State) (f : Fld) : (s.raise f).cnj = s.cnj := by rw [State.raise_eq]

@[simp] theorem State.log_cnj (s : State) (block : BitVec 8) (ev : AlmEvent) (index : Nat) (d : List Nat) :
    (s.log block ev index d).cnj = s.cnj := by
  rw [(s.log_same block ev index d).2]

@[simp] theorem State.addEvent_cnj (s : State) (k : Nat) (e : EventRec) : (s.addEvent k e).cnj = s.cnj := by
  simp [State.addEvent]

/-! ### What sending a frame leaves -/

/-- What sending from a die leaves of the unit of collectives: its records, its causes and the almanac. The counters of a die
lie apart from the causes for the four dies there are. -/
structure State.LeavesUnit (d : Nat) (s t : State) : Prop where
  cnj : t.cnj = s.cnj
  alm : t.alm = s.alm
  causes : d < 4 → t.reg Reg.CNJ_INT_STATUS.addr = s.reg Reg.CNJ_INT_STATUS.addr

namespace State.LeavesUnit

variable {d : Nat} {s t u : State}

theorem refl (d : Nat) (s : State) : s.LeavesUnit d s := ⟨rfl, rfl, fun _ => rfl⟩

theorem trans (h : s.LeavesUnit d t) (k : t.LeavesUnit d u) : s.LeavesUnit d u :=
  ⟨k.cnj.trans h.cnj, k.alm.trans h.alm, fun hd => (k.causes hd).trans (h.causes hd)⟩

theorem foldl {α : Type} {f : State → α → State} (h : ∀ t a, State.LeavesUnit d t (f t a)) (l : List α) (s : State) :
    s.LeavesUnit d (l.foldl f s) :=
  List.foldlRecOn l f (.refl d s) fun t ht a _ => ht.trans (h t a)

theorem ite {c : Prop} [Decidable c] (ht : s.LeavesUnit d t) (hu : s.LeavesUnit d u) :
    s.LeavesUnit d (if c then t else u) := by
  split
  · exact ht
  · exact hu

theorem setCore (h : s.LeavesUnit d t) (e : Nat) (c : DieCore) : s.LeavesUnit d (t.setCore e c) :=
  h.trans ⟨rfl, rfl, fun _ => rfl⟩

theorem setBufs (h : s.LeavesUnit d t) (m : SMap Buf) : s.LeavesUnit d { t with bufs := m } :=
  h.trans ⟨rfl, rfl, fun _ => rfl⟩

theorem setFlows (h : s.LeavesUnit d t) (m : SMap Flow) : s.LeavesUnit d { t with flows := m } :=
  h.trans ⟨rfl, rfl, fun _ => rfl⟩

theorem setOriginWait (h : s.LeavesUnit d t) (ws : List OriginWait) : s.LeavesUnit d { t with originWait := ws } :=
  h.trans ⟨rfl, rfl, fun _ => rfl⟩

theorem setReg (h : s.LeavesUnit d t) {off : Nat} (v : W32) (hoff : d < 4 → Reg.CNJ_INT_STATUS.addr ≠ off) :
    s.LeavesUnit d (t.setReg off v) :=
  h.trans ⟨rfl, rfl, fun hd => State.reg_setReg_ne t v (hoff hd)⟩

theorem setFld (h : s.LeavesUnit d t) {f : Fld} (v : Nat) (hf : d < 4 → Reg.CNJ_INT_STATUS.addr ≠ f.off) :
    s.LeavesUnit d (t.setFld f v) :=
  h.setReg _ hf

theorem setPair (h : s.LeavesUnit d t) {f : Fld} (v : Nat) (hlo : Reg.CNJ_INT_STATUS.addr ≠ f.off)
    (hhi : Reg.CNJ_INT_STATUS.addr ≠ f.off + 4) : s.LeavesUnit d (t.setPair f v) :=
  (h.setReg _ fun _ => hlo).setReg _ fun _ => hhi

theorem raise (h : s.LeavesUnit d t) {f : Fld} (hf : Reg.CNJ_INT_STATUS.addr ≠ f.off) : s.LeavesUnit d (t.raise f) :=
  h.trans ⟨t.raise_cnj f, t.alm_raise f, fun _ => by rw [State.reg_raise, State.reg_setFld_ne t 1 hf]⟩

end State.LeavesUnit

/-- The registers of the programmable counters lie above those of collectives. -/
theorem cnjStatus_ne_of_pmu {off : Nat} (h : 0x19000000 ≤ off) : Reg.CNJ_INT_STATUS.addr ≠ off := by
  unfold Reg.CNJ_INT_STATUS.addr
  omega

theorem State.leavesUnit_pmuSample (d : Nat) (s : State) (n block index : Nat) (given : Option (Nat × Nat × Nat)) :
    s.LeavesUnit d (s.pmuSample n block index given) := by
  have slot (i : Nat) : Reg.CNJ_INT_STATUS.addr ≠ Reg.PMU_SMP.addr i :=
    cnjStatus_ne_of_pmu (by unfold Reg.PMU_SMP.addr; omega)
  unfold State.pmuSample
  dsimp only
  split
  · exact ((State.LeavesUnit.refl d s).setFld _ fun _ => by decide).raise (by decide)
  · refine State.LeavesUnit.raise (.setReg ?_ _ fun _ => by decide) (by decide)
    have drawn : s.LeavesUnit d s.draw := ⟨rfl, rfl, fun _ => rfl⟩
    iterate 8 refine .setReg ?_ _ fun _ => slot _
    exact drawn

theorem State.leavesUnit_pmuAdd (d : Nat) (s : State) (n k block index : Nat) (given : Option (Nat × Nat × Nat)) :
    s.LeavesUnit d (s.pmuAdd n k block index given) := by
  have counted {t : State} (h : s.LeavesUnit d t) (v : Nat) : s.LeavesUnit d (t.setPair (Reg.PMU_CNT_LO.value n) v) := by
    refine h.setPair v (cnjStatus_ne_of_pmu ?_) (cnjStatus_ne_of_pmu ?_) <;>
      simp only [Reg.PMU_CNT_LO.value, Reg.PMU_CNT_LO.addr] <;> omega
  have flag : Reg.CNJ_INT_STATUS.addr ≠ if n < 32 then Reg.PMU_OVF_LO.addr else Reg.PMU_OVF_HI.addr := by
    split <;> decide
  have overflown (v : Nat) : s.LeavesUnit d (((s.setPair (Reg.PMU_CNT_LO.value n) v).setFld
      ⟨if n < 32 then Reg.PMU_OVF_LO.addr else Reg.PMU_OVF_HI.addr, n % 32, 1⟩ 1).raise Reg.PMU_INT_STATUS.ovf) :=
    ((counted (.refl d s) v).setFld 1 fun _ => flag).raise (by decide)
  have frozen (v : Nat) := (overflown v).setFld (f := Reg.PMU_CTL.freeze) 1 fun _ => by decide
  unfold State.pmuAdd
  dsimp only
  refine .ite (counted (.refl d s) _) (.ite (.trans (.ite ?_ (counted ?_ _)) (State.leavesUnit_pmuSample ..)) ?_)
  all_goals exact .ite (frozen _) (overflown _)

theorem State.leavesUnit_pmuEvent (d : Nat) (s : State) (block event index : Nat) (vc : Option Nat) (k : Nat)
    (given : Option (Nat × Nat × Nat)) : s.LeavesUnit d (s.pmuEvent block event index vc k given) := by
  unfold State.pmuEvent
  exact .ite (.foldl (fun t n => .ite (t.leavesUnit_pmuAdd ..) (.refl d t)) _ s) (.refl d s)

theorem State.leavesUnit_countSpill (d : Nat) (s : State) (e cells : Nat) : s.LeavesUnit d (s.countSpill e cells) := by
  have other : Reg.CNJ_INT_STATUS.addr ≠ (Reg.CORE_CNT_SPILL_CELLS.value e).off := by
    simp only [Reg.CNJ_INT_STATUS.addr, Reg.CORE_CNT_SPILL_CELLS.value, Reg.CORE_CNT_SPILL_CELLS.addr]
    omega
  unfold State.countSpill
  dsimp only
  have counted (c : DieCore) (n : Nat) := ((State.LeavesUnit.refl d s).setCore e c).setFld n fun _ => other
  exact .ite (.refl d s) ((counted _ _).trans (State.leavesUnit_pmuEvent ..))

theorem State.leavesUnit_spillBuf (d : Nat) (s : State) (k : Nat) : s.LeavesUnit d (s.spillBuf k) := by
  unfold State.spillBuf
  split
  · exact .refl d s
  · exact ((State.LeavesUnit.refl d s).setBufs _).trans (State.leavesUnit_countSpill ..)

theorem leavesUnit_spillDown (d e n : Nat) (s : State) : s.LeavesUnit d (spillDown e n s) := by
  induction n generalizing s with
  | zero => exact .refl d s
  | succ n ih =>
    unfold spillDown
    refine .ite (.refl d s) ?_
    split
    · exact .refl d s
    · exact (s.leavesUnit_spillBuf d _).trans (ih _)

theorem poolFor_lt (cells : Nat) : poolFor cells < 5 := by
  unfold poolFor
  cases h : (List.range 5).find? fun i => cells ≤ poolCells i with
  | none => decide
  | some i => exact List.mem_range.mp (List.mem_of_find?_eq_some h)

theorem State.leavesUnit_putBuf (d : Nat) (s : State) (pool : Nat) (b : Buf) : s.LeavesUnit d (s.putBuf d pool b).1 := by
  have pool_lt := poolFor_lt b.cells
  have promoted : s.LeavesUnit d (if poolFor b.cells < pool then
      (s.count (Reg.CORE_POOL_PROMOTE.value d (poolFor b.cells))).pmuEvent 0x08 0x04 d else s) := by
    refine .ite (.trans (.setFld (.refl d s) _ fun hd => ?_) (State.leavesUnit_pmuEvent ..)) (.refl d s)
    simp only [Reg.CNJ_INT_STATUS.addr, Reg.CORE_POOL_PROMOTE.value, Reg.CORE_POOL_PROMOTE.addr]
    omega
  have highWater : Reg.CNJ_INT_STATUS.addr ≠ (Reg.CORE_POOL_STAT.high_water d pool).off := by
    simp only [Reg.CNJ_INT_STATUS.addr, Reg.CORE_POOL_STAT.high_water, Reg.CORE_POOL_STAT.addr]
    omega
  unfold State.putBuf
  dsimp only
  have stored (m : SMap Buf) (n : Nat) := (promoted.setBufs m).trans (State.leavesUnit_countSpill d _ d n)
  have marked (m : SMap Buf) (n : Nat) (c : DieCore) (v : Nat) := ((stored m n).setCore d c).setFld v fun _ => highWater
  exact (marked _ _ _ _).trans (.ite (leavesUnit_spillDown ..) (.refl ..))

theorem leavesUnit_newDests (d src cells : Nat) (cs : List (Port × Frame)) (s : State) :
    s.LeavesUnit d (newDests src cells cs s).1 := by
  induction cs generalizing s with
  | nil => exact .refl d s
  | cons c cs ih =>
    have numbered : s.LeavesUnit d (s.newDest src cells c.1 c.2).1 := (State.LeavesUnit.refl d s).setFlows _
    exact numbered.trans (ih _)

theorem State.leavesUnit_place {d : Nat} {s t : State} {i : Option Port} {vc : BitVec 3} {st : Stamp} {n : Nat} {o : Owner}
    {cs : List (Port × Frame)} (h : s.place d i vc st n o cs = some t) : s.LeavesUnit d t := by
  unfold State.place at h
  split at h
  · cases h
  · cases h
    exact (leavesUnit_newDests ..).trans (State.leavesUnit_putBuf ..)

theorem State.leavesUnit_originateRaw (d : Nat) (s : State) (o : Owner) (copies : List (Port × Frame)) :
    s.LeavesUnit d (s.originateRaw d o copies) := by
  unfold State.originateRaw
  split
  · exact .refl d s
  · have waits (ws : List OriginWait) := (State.LeavesUnit.refl d s).setOriginWait ws
    refine .ite (waits _) ?_
    split
    · next h => exact State.leavesUnit_place h
    · exact waits _

theorem dieOf_lt (p : Port) : dieOf p < 4 := by
  unfold dieOf
  omega

theorem State.leavesUnit_toPorts (d : Nat) (s : State) (f : Frame) (ps : List Port) : s.LeavesUnit d (s.toPorts f ps) := by
  refine .foldl (fun t p => ?_) ps s
  have sent := t.leavesUnit_originateRaw (dieOf p) .plain [(p, f)]
  exact ⟨sent.cnj, sent.alm, fun _ => sent.causes (dieOf_lt p)⟩

theorem State.leavesUnit_freeCells (d : Nat) (s : State) (p : Port) (vc : BitVec 3) (cells : Nat) :
    s.LeavesUnit d (s.freeCells p vc cells) := by
  unfold State.freeCells
  exact .ite (.refl d s) (.ite ⟨rfl, rfl, fun _ => rfl⟩ ⟨rfl, rfl, fun _ => rfl⟩)

theorem State.leavesUnit_freeBuf (d : Nat) (s : State) (k : Nat) : s.LeavesUnit d (s.freeBuf k) := by
  have freed := (State.LeavesUnit.refl d s).setBufs (s.bufs.del k)
  unfold State.freeBuf
  split
  · exact .refl d s
  · dsimp only
    split
    · exact freed
    · exact .ite freed (freed.trans (State.leavesUnit_freeCells ..))

@[simp] theorem State.pmuEvent_cnj (s : State) (block event index : Nat) (vc : Option Nat) (k : Nat)
    (given : Option (Nat × Nat × Nat)) : (s.pmuEvent block event index vc k given).cnj = s.cnj :=
  (s.leavesUnit_pmuEvent 0 ..).cnj

@[simp] theorem State.freeBuf_cnj (s : State) (k : Nat) : (s.freeBuf k).cnj = s.cnj := (s.leavesUnit_freeBuf 0 k).cnj

@[simp] theorem State.originateRaw_cnj (s : State) (d : Nat) (o : Owner) (copies : List (Port × Frame)) :
    (s.originateRaw d o copies).cnj = s.cnj :=
  (s.leavesUnit_originateRaw d o copies).cnj

@[simp] theorem State.toPorts_cnj (s : State) (f : Frame) (ps : List Port) : (s.toPorts f ps).cnj = s.cnj :=
  (s.leavesUnit_toPorts 0 f ps).cnj

end Sys2Proof.Machine
end

section
/-!
PROOFS. The abort of a collective (R245): what it removes, and what it leaves in the almanac and among the causes.
-/

namespace Sys2Proof.Machine

/-! ### Removed keys -/

theorem SMap.get_eq_none_iff {α : Type} {m : SMap α} {k : Nat} : m.get k = none ↔ ∀ e ∈ m, e.1 ≠ k := by
  induction m with
  | nil => simp [SMap.get]
  | cons e m ih =>
    obtain ⟨k', v⟩ := e
    by_cases h : k = k'
    · simp [SMap.get, h]
    · simp [SMap.get, h, Ne.symm h, ih]

theorem SMap.get_del_same {α : Type} (m : SMap α) (k : Nat) : (m.del k).get k = none :=
  SMap.get_eq_none_iff.mpr fun _ he => of_decide_eq_true (List.mem_filter.mp he).2

/-! ### Abandoned segments -/

/-- Abandons segments of a collective: their handles advance, and they are removed. -/
def State.abandonSegs (s : State) (g : Nat) (cseq : BitVec 16) (l : List (Nat × Segment)) : State :=
  l.foldl (fun s e => (s.bumpHandle g cseq e.1).delSeg g cseq e.1) s

/-- What abandoning segments leaves as it was. -/
theorem State.abandonSegs_same (g : Nat) (cseq : BitVec 16) (l : List (Nat × Segment)) (s : State) :
    s.abandonSegs g cseq l = { s with
      cnj.segs := (s.abandonSegs g cseq l).cnj.segs, cnj.handles := (s.abandonSegs g cseq l).cnj.handles } := by
  induction l generalizing s with
  | nil => rfl
  | cons e l ih => exact ih ((s.bumpHandle g cseq e.1).delSeg g cseq e.1)

/-- An abandoned segment is left under no key. -/
theorem State.key_ne_of_mem_abandonSegs (g : Nat) (cseq : BitVec 16) (l : List (Nat × Segment)) (s : State)
    {e : Nat × Segment} (he : e ∈ (s.abandonSegs g cseq l).cnj.segs) :
    e ∈ s.cnj.segs ∧ ∀ x ∈ l, e.1 ≠ segKey g cseq x.1 := by
  induction l generalizing s with
  | nil => exact ⟨he, fun x hx => nomatch hx⟩
  | cons y l ih =>
    obtain ⟨hmem, hne⟩ := ih _ he
    obtain ⟨hmem, hy⟩ := List.mem_filter.mp hmem
    exact ⟨hmem, List.forall_mem_cons.mpr ⟨of_decide_eq_true hy, hne⟩⟩

/-- A collective whose segments are all abandoned has none left. -/
theorem State.seg_abandonSegs_collSegs (s : State) (g : Nat) (cseq : BitVec 16) {n : Nat} (hn : n < 2 ^ 24) :
    (s.abandonSegs g cseq (s.collSegs g cseq)).seg g cseq n = none := by
  refine SMap.get_eq_none_iff.mpr fun e he hkey => ?_
  obtain ⟨hmem, hne⟩ := State.key_ne_of_mem_abandonSegs g cseq _ s he
  have number : e.1 % 2 ^ 24 = n := by rw [hkey, segKey]; omega
  have coll : e.1 / 2 ^ 24 = collKey g cseq := by rw [hkey, segKey]; omega
  have listed : (e.1 % 2 ^ 24, e.2) ∈ s.collSegs g cseq :=
    List.mem_map_of_mem (List.mem_filter.mpr ⟨hmem, decide_eq_true coll⟩)
  exact hne _ listed (by rw [number, hkey])

/-! ### Held frames -/

@[simp] theorem State.group_setGroup (s : State) (g : Nat) (x : Group) : (s.setGroup g x).group g = x :=
  SMap.read_write_same ..

@[simp] theorem State.setGroup_alm (s : State) (g : Nat) (x : Group) : (s.setGroup g x).alm = s.alm := rfl

theorem State.LeavesUnit.setGroup {d : Nat} {s t : State} (h : s.LeavesUnit d t) (g : Nat) (x : Group) :
    (s.setGroup g x).LeavesUnit d (t.setGroup g x) := by
  refine ⟨?_, h.alm, h.causes⟩
  simp only [State.setGroup, h.cnj]

/-- Freeing held frames of a group changes its list of them alone. -/
theorem State.freeHeld_leavesUnit (s : State) (g : Nat) (pick : HeldFrame → Bool) :
    (s.setGroup g { s.group g with held := (s.group g).held.filter fun h => !pick h }).LeavesUnit 0 (s.freeHeld g pick) := by
  have freed : s.LeavesUnit 0 (((s.group g).held.filter pick).foldl (fun s h => s.freeBuf h.buf) s) :=
    .foldl (fun t (h : HeldFrame) => t.leavesUnit_freeBuf 0 h.buf) _ s
  exact freed.setGroup g _

section
variable (s : State) (g : Nat) (pick : HeldFrame → Bool)

theorem State.coll_freeHeld (g' : Nat) (cseq : BitVec 16) : (s.freeHeld g pick).coll g' cseq = s.coll g' cseq := by
  rw [State.coll, (s.freeHeld_leavesUnit g pick).cnj]
  rfl

theorem State.seg_freeHeld (g' : Nat) (cseq : BitVec 16) (n : Nat) :
    (s.freeHeld g pick).seg g' cseq n = s.seg g' cseq n := by
  rw [State.seg, (s.freeHeld_leavesUnit g pick).cnj]
  rfl

theorem State.opened_freeHeld : ((s.freeHeld g pick).group g).opened = (s.group g).opened := by
  rw [State.group, (s.freeHeld_leavesUnit g pick).cnj, ← State.group, State.group_setGroup]

end

/-! ### The parts of an abort -/

@[simp] theorem State.keepRecord_cnj (s : State) (r : List Byte) : (s.keepRecord r).cnj = s.cnj := by
  unfold State.keepRecord
  exact foldl_cnj _ (fun t w => t.setReg_cnj _ _) _ s

@[simp] theorem State.keepRecord_alm (s : State) (r : List Byte) : (s.keepRecord r).alm = s.alm := by
  unfold State.keepRecord
  exact List.foldlRecOn (motive := fun t : State => t.alm = s.alm) _ _ rfl fun _ ht _ _ => ht

@[simp] theorem State.releaseRegion_cnj (s : State) (c : Coll) : (s.releaseRegion c).cnj = s.cnj := by
  simp [State.releaseRegion]

@[simp] theorem State.releaseRegion_alm (s : State) (c : Coll) : (s.releaseRegion c).alm = s.alm := by
  unfold State.releaseRegion
  split <;> rfl

/-- The record of an abort, in the almanac and in CNJ_LAST_ERR, and its count. -/
def State.recordAbort (s : State) (g : Nat) (cseq : BitVec 16) (c : Coll) (code cause seg : Nat) (ports : BitVec 512) :
    State :=
  ((s.log 0x0C .collectiveAbort g [cseq.toNat, code, cause, seg, completedThrough c.done]).keepRecord
    (s.collRecord g cseq c code cause seg ports)).count Reg.CNJ_CNT_ABORT.value

theorem State.recordAbort_cnj (s : State) (g : Nat) (cseq : BitVec 16) (c : Coll) (code cause seg : Nat)
    (ports : BitVec 512) : (s.recordAbort g cseq c code cause seg ports).cnj = s.cnj := by
  rw [State.recordAbort, State.count_cnj, State.keepRecord_cnj, State.log_cnj]

theorem State.recordAbort_seq (s : State) (g : Nat) (cseq : BitVec 16) (c : Coll) (code cause seg : Nat)
    (ports : BitVec 512) : (s.recordAbort g cseq c code cause seg ports).alm.seq = s.alm.seq + 1 := by
  rw [State.recordAbort, State.count_alm, State.keepRecord_alm, State.log_seq]

/-- The collective is removed with its segments and its place in the group's order. -/
def State.removeColl (s : State) (g : Nat) (cseq : BitVec 16) (c : Coll) : State :=
  let t := (s.abandonSegs g cseq (s.collSegs g cseq)).releaseRegion c
  let t := { t with cnj.colls := t.cnj.colls.del (collKey g cseq) }
  t.setGroup g { t.group g with opened := (s.group g).opened.filter (· ≠ cseq) }

section
variable (s : State) (g : Nat) (cseq : BitVec 16) (c : Coll)

theorem State.removeColl_alm : (s.removeColl g cseq c).alm = s.alm := by
  have abandoned : (s.abandonSegs g cseq (s.collSegs g cseq)).alm = s.alm := by rw [State.abandonSegs_same]
  exact (State.releaseRegion_alm _ c).trans abandoned

theorem State.coll_removeColl : (s.removeColl g cseq c).coll g cseq = none := SMap.get_del_same ..

theorem State.seg_removeColl {n : Nat} (hn : n < 2 ^ 24) : (s.removeColl g cseq c).seg g cseq n = none := by
  have kept : ((s.abandonSegs g cseq (s.collSegs g cseq)).releaseRegion c).cnj.segs =
      (s.abandonSegs g cseq (s.collSegs g cseq)).cnj.segs := by
    rw [State.releaseRegion_cnj]
  exact (congrArg (SMap.get · (segKey g cseq n)) kept).trans (s.seg_abandonSegs_collSegs g cseq hn)

theorem State.opened_removeColl : ((s.removeColl g cseq c).group g).opened.contains cseq = false := by
  simp [State.removeColl]

end

/-- An abort records, removes the collective, discards its held frames as late, raises its cause, and then sends. -/
theorem State.abortColl_of_open {s : State} {g : Nat} {cseq : BitVec 16} {c : Coll} (hc : s.coll g cseq = some c)
    (code cause seg : Nat) (ports : BitVec 512) :
    ∃ n f ps, s.abortColl g cseq code cause ports seg =
      (((((s.recordAbort g cseq c code cause seg ports).removeColl g cseq c).freeHeld g fun h => h.frame.cseq == cseq).count
        Reg.CNJ_CNT_LATE_DROP.value n).raise Reg.CNJ_INT_STATUS.coll_abort).toPorts f ps := by
  have segs : (s.recordAbort g cseq c code cause seg ports).collSegs g cseq = s.collSegs g cseq := by
    rw [State.collSegs, State.recordAbort_cnj, State.collSegs]
  have group : (s.recordAbort g cseq c code cause seg ports).group g = s.group g := by
    rw [State.group, State.recordAbort_cnj, State.group]
  unfold State.abortColl State.removeColl
  rw [hc, segs, group]
  exact ⟨_, _, _, rfl⟩

/-- What an abort leaves of its collective and of the almanac. -/
theorem State.abortColl_ends {s : State} {g : Nat} {cseq : BitVec 16} {c : Coll} (hc : s.coll g cseq = some c)
    (code cause seg : Nat) (ports : BitVec 512) {t : State} (ht : t = s.abortColl g cseq code cause ports seg) :
    t.coll g cseq = none ∧ (∀ n, n < 2 ^ 24 → t.seg g cseq n = none) ∧ (t.group g).opened.contains cseq = false ∧
      t.bit Reg.CNJ_INT_STATUS.coll_abort = true ∧ t.alm.seq = s.alm.seq + 1 := by
  obtain ⟨n, f, ps, habort⟩ := State.abortColl_of_open hc code cause seg ports
  generalize hr : s.recordAbort g cseq c code cause seg ports = r at habort
  generalize hpick : (fun h : HeldFrame => h.frame.cseq == cseq) = pick at habort
  generalize hu : ((r.removeColl g cseq c).freeHeld g pick).count Reg.CNJ_CNT_LATE_DROP.value n = u at habort
  have sent := (u.raise Reg.CNJ_INT_STATUS.coll_abort).leavesUnit_toPorts 0 f ps
  rw [← habort, ← ht] at sent
  have cnj : t.cnj = ((r.removeColl g cseq c).freeHeld g pick).cnj := by
    rw [sent.cnj, State.raise_cnj, ← hu, State.count_cnj]
  have raised : t.fld Reg.CNJ_INT_STATUS.coll_abort =
      (u.raise Reg.CNJ_INT_STATUS.coll_abort).fld Reg.CNJ_INT_STATUS.coll_abort :=
    congrArg Reg.CNJ_INT_STATUS.coll_abort.of (sent.causes (by decide))
  refine ⟨?coll, fun k hk => ?seg, ?opened, ?raised, ?recorded⟩
  case coll => rw [State.coll, cnj, ← State.coll, State.coll_freeHeld, State.coll_removeColl]
  case seg => rw [State.seg, cnj, ← State.seg, State.seg_freeHeld, State.seg_removeColl _ _ _ _ hk]
  case opened => rw [State.group, cnj, ← State.group, State.opened_freeHeld, State.opened_removeColl]
  case raised =>
    rw [State.bit, raised]
    exact State.bit_raise u _ (by unfold Fld.fits; decide) rfl
  case recorded =>
    rw [sent.alm, State.alm_raise, ← hu, State.count_alm, (State.freeHeld_leavesUnit ..).alm, State.setGroup_alm,
      State.removeColl_alm, ← hr, State.recordAbort_seq]

end Sys2Proof.Machine
end

section
/-!
PROOFS. Operations of stack memory, of the memory unit and of albedo that leave the records of the unit of collectives.
-/

namespace Sys2Proof.Machine

/-! ### Stack memory -/

@[simp] theorem State.storeMem_cnj (s : State) (dpa : Nat) (bs : List Byte) : (s.storeMem dpa bs).cnj = s.cnj := by
  simp [State.storeMem]

@[simp] theorem State.putLanes_cnj (s : State) (r l : Nat) (lanes : List W64) : (s.putLanes r l lanes).cnj = s.cnj := by
  simp [State.putLanes]

@[simp] theorem State.putMeta_cnj (s : State) (r l : Nat) (a : List Int) (adds : Nat) (valid : BitVec 8) :
    (s.putMeta r l a adds valid).cnj = s.cnj := by
  simp [State.putMeta]

@[simp] theorem State.countRead_cnj (s : State) (dpa n : Nat) : (s.countRead dpa n).cnj = s.cnj := by
  simp [State.countRead]

@[simp] theorem State.countLine_cnj (s : State) (dpa : Nat) : (s.countLine dpa).cnj = s.cnj := by
  simp [State.countLine]

@[simp] theorem State.linePerformed_cnj (s : State) (dpa : Nat) : (s.linePerformed dpa).cnj = s.cnj := by
  simp [State.linePerformed]

@[simp] theorem State.accRefuse_cnj (s : State) (r : Nat) : (s.accRefuse r).cnj = s.cnj := by
  simp [State.accRefuse]

@[simp] theorem clearLines_cnj (r n l : Nat) (s : State) : (clearLines r n l s).cnj = s.cnj := by
  induction n generalizing l s with
  | zero => rfl
  | succ n ih => simp [clearLines, ih]

@[simp] theorem State.accAdd_cnj (s : State) (r l : Nat) (lines : List (List Byte × List Byte)) :
    (s.accAdd r l lines).1.cnj = s.cnj := by
  simp [State.accAdd]

@[simp] theorem State.accession_cnj (s : State) (c : AccCmd) : (s.accession c).1.cnj = s.cnj := by
  cases c with
  | atomic d sub b c =>
    simp only [State.accession]
    split <;> simp
  | _ => simp [State.accession]

@[simp] theorem State.bucketAdd_cnj (s : State) (ch n : Nat) : (s.bucketAdd ch n).cnj = s.cnj := by
  simp [State.bucketAdd]

@[simp] theorem State.wordsCorrected_cnj (s : State) (dpa n : Nat) : (s.wordsCorrected dpa n).cnj = s.cnj := by
  simp [State.wordsCorrected]

@[simp] theorem State.engineStep_cnj (s : State) (dpa disagree : Nat) : (s.engineStep dpa disagree).1.cnj = s.cnj := by
  simp [State.engineStep]

@[simp] theorem State.mediaEvent_cnj (s : State) (dpa cls : Nat) : (s.mediaEvent dpa cls).cnj = s.cnj := by
  simp [State.mediaEvent]

theorem State.holdPage_cnj {s t : State} {dpa n : Nat} {io : ChannelIo} {a : Access} (h : s.holdPage dpa n io a = some t) :
    t.cnj = s.cnj := by
  unfold State.holdPage State.holdWords at h
  dsimp only at h
  split at h
  · cases h; rfl
  · split at h <;> cases h
    rfl

@[simp] theorem State.regionIssue_cnj (s : State) (c : AccCmd) : (s.regionIssue c).cnj = s.cnj := by
  simp only [State.regionIssue]
  split <;> simp

@[simp] theorem State.clearRegionLines_cnj (s : State) (d : List Byte) (n lines : Nat) :
    (s.clearRegionLines d n lines).cnj = s.cnj := by
  simp [State.clearRegionLines]

@[simp] theorem State.setRegionA_cnj (s : State) (d : List Byte) (n : Nat) (x : Segment) :
    (s.setRegionA d n x).cnj = s.cnj := by
  simp [State.setRegionA]

/-! ### Answers of memory -/

@[simp] theorem State.sendRsp_cnj (s : State) (die : Nat) (p : Port) (f : Frame) : (s.sendRsp die p f).cnj = s.cnj := by
  unfold State.sendRsp
  split <;> simp

@[simp] theorem State.answer_cnj (s : State) (die : Nat) (q : MemReq) (op : BitVec 8) (status : Nat) (payload : List Byte) :
    (s.answer die q op status payload).cnj = s.cnj := by
  simp [State.answer]

@[simp] theorem State.nack_cnj (s : State) (die : Nat) (q : MemReq) (reason : Nat) : (s.nack die q reason).cnj = s.cnj := by
  simp [State.nack]

@[simp] theorem State.pathFailTo_cnj (s : State) (die : Nat) (f : Frame) (p : Port) (reason : Nat) :
    (s.pathFailTo die f p reason).cnj = s.cnj := by
  simp only [State.pathFailTo]
  split <;> simp

@[simp] theorem State.ackAll_cnj (s : State) (die : Nat) (op : BitVec 8) (status : Nat) (qs : List MemReq) :
    (s.ackAll die op status qs).cnj = s.cnj := by
  unfold State.ackAll
  split
  · simp
  · refine (foldl_cnj _ (fun t g => foldl_cnj _ (fun u c => ?_) _ t) _ _).trans (foldl_cnj _ (fun t q => by simp) _ s)
    split <;> simp

@[simp] theorem State.countLoss_cnj (s : State) (p : Port) (c : LossCause) : (s.countLoss p c).cnj = s.cnj := by
  cases c <;> rfl

@[simp] theorem State.copyLost_cnj (s : State) (op : Nat) (p : Port) : (s.copyLost op p).cnj = s.cnj := by
  simp only [State.copyLost]
  split <;> simp

@[simp] theorem State.awaitDone_cnj (s : State) (t : Nat) (seq : BitVec 24) (data : List Byte) :
    (s.awaitDone t seq data).cnj = s.cnj := by
  simp only [State.awaitDone]
  split
  · rfl
  · split
    · rfl
    · simp [State.setThread]

/-! ### Elements and tokens -/

@[simp] theorem State.setElemAt_cnj (s : State) (cls idx : Nat) (e : Elem) : (s.setElemAt cls idx e).cnj = s.cnj := rfl

@[simp] theorem State.elemEnds_cnj (s : State) (cls idx : Nat) (e : Elem) (status : Nat) :
    (s.elemEnds cls idx e status).cnj = s.cnj := by
  simp [State.elemEnds]

@[simp] theorem State.evidence_cnj (s : State) (t : Nat) : (s.evidence t).cnj = s.cnj := rfl

@[simp] theorem State.holdElem_cnj (s : State) (cls idx reason : Nat) : (s.holdElem cls idx reason).cnj = s.cnj := by
  simp [State.holdElem]

@[simp] theorem State.freezeBreaker_cnj (s : State) (cls idx : Nat) : (s.freezeBreaker cls idx).cnj = s.cnj := by
  simp [State.freezeBreaker]

@[simp] theorem State.queueToken_cnj (s : State) (core : Nat) (k : Token) : (s.queueToken core k).cnj = s.cnj := by
  simp [State.queueToken]

end Sys2Proof.Machine
end

section
/-!
PROOFS. The tiles whose reset waits for the end of a move (R214, R401): an action of albedo, a fault and a loss leave them.
-/

namespace Sys2Proof.Machine

/-! ### Through branches, folds and answers -/

@[simp] theorem ite_resetWait (c : Prop) [Decidable c] (a b : Conjunction) :
    (if c then a else b).resetWait = if c then a.resetWait else b.resetWait :=
  apply_ite Conjunction.resetWait c a b

@[simp] theorem foldl_resetWait {α : Type} (f : State → α → State) (h : ∀ s a, (f s a).cnj.resetWait = s.cnj.resetWait)
    (l : List α) (s : State) : (l.foldl f s).cnj.resetWait = s.cnj.resetWait := by
  induction l generalizing s with
  | nil => rfl
  | cons a l ih => rw [List.foldl_cons, ih, h]

theorem resetWait_of_pair {β : Type} {s t : State} {b : β} {p : State × β} (h : p = (t, b))
    (hp : p.1.cnj.resetWait = s.cnj.resetWait) : t.cnj.resetWait = s.cnj.resetWait := by
  rw [← hp, h]

/-! ### Elements -/

@[simp] theorem State.beginAction_resetWait (s : State) (cls idx : Nat) :
    (s.beginAction cls idx).cnj.resetWait = s.cnj.resetWait := by
  simp only [State.beginAction]
  split
  · split <;> rfl
  · rfl
  · rfl

@[simp] theorem State.nextAction_resetWait (s : State) (g : Nat) : (s.nextAction g).cnj.resetWait = s.cnj.resetWait := by
  unfold State.nextAction
  split
  · rfl
  · split <;> simp

@[simp] theorem State.actionDone_resetWait (s : State) (cls idx : Nat) :
    (s.actionDone cls idx).cnj.resetWait = s.cnj.resetWait := by
  simp only [State.actionDone]
  split <;> simp

@[simp] theorem State.grantExpulsion_resetWait (s : State) (cls idx g : Nat) :
    (s.grantExpulsion cls idx g).cnj.resetWait = s.cnj.resetWait := by
  simp [State.grantExpulsion]

@[simp] theorem State.requestExpulsion_resetWait (s : State) (cls idx : Nat) :
    (s.requestExpulsion cls idx).cnj.resetWait = s.cnj.resetWait := by
  simp only [State.requestExpulsion]
  split
  · rfl
  · rfl
  · rfl
  · split
    · simp
    · split <;> simp

@[simp] theorem State.moveElem_resetWait (s : State) (cls idx : Nat) :
    (s.moveElem cls idx).cnj.resetWait = s.cnj.resetWait := by
  simp only [State.moveElem]
  split <;> simp

@[simp] theorem State.setScore_resetWait (s : State) (cls idx score : Nat) :
    (s.setScore cls idx score).cnj.resetWait = s.cnj.resetWait := by
  simp [State.setScore]

@[simp] theorem State.setCap_resetWait (s : State) (cls idx : Nat) (c : Bool) :
    (s.setCap cls idx c).cnj.resetWait = s.cnj.resetWait := by
  simp [State.setCap]

@[simp] theorem State.albedo_resetWait (s : State) (cls idx i : Nat) :
    (s.albedo cls idx i).cnj.resetWait = s.cnj.resetWait := by
  simp only [State.albedo]
  split
  · rfl
  · split
    · split <;> simp
    · simp

/-! ### Records of collectives -/

section
variable (s : State) (g : Nat) (cseq : BitVec 16)

@[simp] theorem State.setGroup_resetWait (x : Group) : (s.setGroup g x).cnj.resetWait = s.cnj.resetWait := by
  simp [State.setGroup]

@[simp] theorem State.setColl_resetWait (c : Coll) : (s.setColl g cseq c).cnj.resetWait = s.cnj.resetWait := by
  simp [State.setColl]

@[simp] theorem State.setSeg_resetWait (n : Nat) (x : Segment) : (s.setSeg g cseq n x).cnj.resetWait = s.cnj.resetWait := by
  simp [State.setSeg]

@[simp] theorem State.delSeg_resetWait (n : Nat) : (s.delSeg g cseq n).cnj.resetWait = s.cnj.resetWait := by
  simp [State.delSeg]

@[simp] theorem State.bumpHandle_resetWait (n : Nat) : (s.bumpHandle g cseq n).cnj.resetWait = s.cnj.resetWait := by
  simp [State.bumpHandle]

@[simp] theorem State.freeHeld_resetWait (pick : HeldFrame → Bool) :
    (s.freeHeld g pick).cnj.resetWait = s.cnj.resetWait := by
  simp [State.freeHeld]

@[simp] theorem State.abortColl_resetWait (code cause : Nat) (ports : BitVec 512) (seg : Nat) :
    (s.abortColl g cseq code cause ports seg).cnj.resetWait = s.cnj.resetWait := by
  unfold State.abortColl
  split
  · rfl
  · simp

@[simp] theorem State.openAborted_resetWait (code cause : Nat) (ports : BitVec 512) (desc : List Byte) (sig : W32)
    (begins : List (Port × W32 × Nat)) :
    (s.openAborted g code cause ports desc sig begins).cnj.resetWait = s.cnj.resetWait := by
  simp [State.openAborted]

end

/-! ### Faults and losses -/

@[simp] theorem State.faultThread_resetWait (s : State) (t code : Nat) (addr : W64) (user : Nat) :
    (s.faultThread t code addr user).cnj.resetWait = s.cnj.resetWait := by
  simp only [State.faultThread]
  generalize hu : State.restartThread _ t = u
  have restarted : u.cnj = s.cnj := by
    subst hu
    simp only [State.restartThread, State.raise_cnj]
    split
    · simp
    · split <;> simp
  rw [← restarted]
  split
  · simp only [ite_cnj, ite_resetWait, State.abortColl_resetWait, ite_self]
  · rfl

@[simp] theorem State.postedDone_resetWait (s : State) (t id : Nat) (bad : Option Nat) :
    (s.postedDone t id bad).cnj.resetWait = s.cnj.resetWait := by
  simp only [State.postedDone]
  split
  · split <;> simp [State.setThread]
  · simp [State.setThread]

@[simp] theorem State.ownAnswer_resetWait (s : State) (seq : BitVec 24) (op : BitVec 8) (status : Nat)
    (payload : List Byte) :
    (s.ownAnswer seq op status payload).cnj.resetWait = s.cnj.resetWait := by
  simp only [State.ownAnswer]
  split
  · simp
  · split <;> simp

@[simp] theorem State.ctlLost_resetWait (s : State) (f : Frame) (p : Port) (c : LossCause) :
    (s.ctlLost f p c).cnj.resetWait = s.cnj.resetWait := by
  cases c <;> simp [State.ctlLost]

@[simp] theorem State.resultLost_resetWait (s : State) (f : Frame) (p : Port) (c : LossCause) :
    (s.resultLost f p c).cnj.resetWait = s.cnj.resetWait := by
  simp only [State.resultLost]
  split
  · simp
  · cases c <;> simp

@[simp] theorem State.lose_resetWait (s : State) (c : LossCause) (die : Nat) (p : Port) (i : Option Port) (o : Owner)
    (f : Frame) : (s.lose c die p i o f).cnj.resetWait = s.cnj.resetWait := by
  cases o with
  | mcast op => simp [State.lose]
  | ownRsp => cases c <;> simp [State.lose]
  | plain =>
    simp only [State.lose]
    split
    · cases i <;> simp
    · split
      · simp
      · split <;> simp
    · cases c <;> simp
    · simp
    · cases c <;> simp
    · simp

@[simp] theorem State.originate_resetWait (s : State) (die : Nat) (o : Owner) (copies : List (Port × Frame)) :
    (s.originate die o copies).cnj.resetWait = s.cnj.resetWait := by
  simp [State.originate]

end Sys2Proof.Machine
end

section
/-!
PROOFS. The tiles whose reset waits (R214, R401): segments and frames of collectives leave them, whatever the held frames
meet.
-/

namespace Sys2Proof.Machine

/-! ### Segments -/

section
variable (s : State) (g : Nat) (cseq : BitVec 16)

@[simp] theorem State.sendResend_resetWait (p : Port) (seg : Nat) (lines : List Nat) (cause : Nat) (exp : Bool) :
    (s.sendResend g cseq p seg lines cause exp).cnj.resetWait = s.cnj.resetWait := by
  unfold State.sendResend
  refine foldl_resetWait _ (fun t r => ?_) _ s
  dsimp only
  split <;> simp

@[simp] theorem State.loseLines_resetWait (p : Port) (seg : Nat) (lines : BitVec 64) (exp resent : Bool) :
    (s.loseLines g cseq p seg lines exp resent).cnj.resetWait = s.cnj.resetWait := by
  unfold State.loseLines
  split
  · rfl
  · simp

@[simp] theorem State.pickAudit_resetWait (home t slots : Nat) :
    (s.pickAudit home t slots).1.cnj.resetWait = s.cnj.resetWait := by
  simp [State.pickAudit]

@[simp] theorem State.startSeg_resetWait (c : Coll) (n : Nat) :
    (s.startSeg g cseq c n).cnj.resetWait = s.cnj.resetWait := by
  simp [State.startSeg]

@[simp] theorem State.restartSeg_resetWait (n tile : Nat) (audit : Option Audit) :
    (s.restartSeg g cseq n tile audit).cnj.resetWait = s.cnj.resetWait := by
  unfold State.restartSeg
  split
  · simp
  · rfl

@[simp] theorem State.secondMismatch_resetWait (n t line lane op : Nat) :
    (s.secondMismatch g cseq n t line lane op).1.cnj.resetWait = s.cnj.resetWait := by
  simp [State.secondMismatch]

@[simp] theorem State.replicate_resetWait (die : Nat) (f : Frame) (ports : List Port) :
    (s.replicate die g cseq f ports).cnj.resetWait = s.cnj.resetWait := by
  simp [State.replicate]

@[simp] theorem State.sendResult_resetWait (tile : Nat) (f : Frame) :
    (s.sendResult g cseq tile f).cnj.resetWait = s.cnj.resetWait := by
  unfold State.sendResult
  split
  · rfl
  · split <;> simp

@[simp] theorem State.resultLines_cnj (d : List Byte) (n : Nat) (x : Segment) :
    (s.resultLines d n x).1.cnj = s.cnj := by
  unfold State.resultLines
  refine List.foldlRecOn (motive := fun a : State × _ => a.1.cnj = s.cnj) _ _ rfl fun a ha l _ => ?_
  obtain ⟨t, ls, k⟩ := a
  dsimp only at ha ⊢
  rw [← ha]
  split
  · have read := t.accession_cnj (.readFmt (descRegion d) (regionLine d n l))
    split
    · next h => rw [h] at read; exact read
    · next h => rw [h] at read; exact read
  · rfl

@[simp] theorem State.emitSeg_resetWait (n : Nat) : (s.emitSeg g cseq n).cnj.resetWait = s.cnj.resetWait := by
  simp only [State.emitSeg]
  split
  · split
    · rfl
    · simp
    · split
      · simp
      · simp
  · rfl

@[simp] theorem State.wakeProgram_resetWait (c : Coll) (n : Nat) (x : Segment) :
    (s.wakeProgram g cseq c n x).cnj.resetWait = s.cnj.resetWait := by
  simp only [State.wakeProgram]
  split
  · simp only [State.abortColl_resetWait]
  · simp

@[simp] theorem State.afterAudit_resetWait (n : Nat) : (s.afterAudit g cseq n).cnj.resetWait = s.cnj.resetWait := by
  unfold State.afterAudit
  split
  · simp
  · rfl

@[simp] theorem State.compareAudit_resetWait (n : Nat) (c : Coll) (x : Segment) (a : Audit) :
    (s.compareAudit g cseq n c x a).cnj.resetWait = s.cnj.resetWait := by
  simp [State.compareAudit]

@[simp] theorem State.finalizeSeg_resetWait (n : Nat) (late : Bool) :
    (s.finalizeSeg g cseq n late).cnj.resetWait = s.cnj.resetWait := by
  simp only [State.finalizeSeg]
  split
  · split <;> simp
  · rfl

@[simp] theorem State.tryFinal_resetWait (n : Nat) (late : Bool) :
    (s.tryFinal g cseq n late).cnj.resetWait = s.cnj.resetWait := by
  unfold State.tryFinal
  split
  · simp
  · rfl

@[simp] theorem State.lineTaken_resetWait (n : Nat) (x : Segment) (p : Port) (f : Frame) (clamps : Nat) :
    (s.lineTaken g cseq n x p f clamps).cnj.resetWait = s.cnj.resetWait := by
  unfold State.lineTaken
  split
  · rfl
  · simp

@[simp] theorem State.tileLine_resetWait (n : Nat) (c : Coll) (x : Segment) (p : Port) (f : Frame) (faults : List AddFault) :
    (s.tileLine g cseq n c x p f faults).1.cnj.resetWait = s.cnj.resetWait := by
  simp only [State.tileLine]
  split <;> simp

@[simp] theorem State.regionLineIn_resetWait (n : Nat) (c : Coll) (x : Segment) (p : Port) (f : Frame) (io : ChannelIo) :
    (s.regionLineIn g cseq n c x p f io).cnj.resetWait = s.cnj.resetWait := by
  simp only [State.regionLineIn]
  split
  · next h => rw [State.holdPage_cnj h]
  · have stepped := congrArg Conjunction.resetWait ((s.wordsCorrected
      (s.lineDpa (descRegion c.desc) (regionLine c.desc n f.firstLine.toNat)) io.corrected).engineStep_cnj
      (s.lineDpa (descRegion c.desc) (regionLine c.desc n f.firstLine.toNat)) io.disagree)
    rw [State.wordsCorrected_cnj] at stepped
    split
    · next h => rw [State.abortColl_resetWait, resetWait_of_pair h stepped]
    · next h =>
      rw [← resetWait_of_pair h stepped]
      split
      · next t _ _ _ h =>
        rw [State.lineTaken_resetWait]
        exact resetWait_of_pair h (congrArg Conjunction.resetWait (State.accession_cnj ..))
      · next t _ _ h =>
        rw [State.abortColl_resetWait]
        exact resetWait_of_pair h (congrArg Conjunction.resetWait (State.accession_cnj ..))

@[simp] theorem State.takeLine_resetWait (p : Port) (f : Frame) (faults : List AddFault) (io : ChannelIo) :
    (s.takeLine p f faults io).1.cnj.resetWait = s.cnj.resetWait := by
  simp only [State.takeLine]
  split
  · simp
  · rfl

@[simp] theorem takeLines_resetWait (p : Port) (faults : List AddFault) (io : ChannelIo) (fs : List Frame) :
    (takeLines p faults io fs s).1.cnj.resetWait = s.cnj.resetWait := by
  induction fs generalizing io s with
  | nil => rfl
  | cons f fs ih =>
    have taken := s.takeLine_resetWait p f faults io
    unfold takeLines
    split
    · next h => exact resetWait_of_pair h taken
    · next h => exact (ih ..).trans (resetWait_of_pair h taken)

@[simp] theorem State.lastSeen_resetWait (p : Port) (f : Frame) : (s.lastSeen p f).cnj.resetWait = s.cnj.resetWait := by
  unfold State.lastSeen
  dsimp only
  split
  · simp
  · rfl

@[simp] theorem State.expDone_resetWait (n : Nat) (c : Coll) (x : Segment) :
    (s.expDone g cseq n c x).cnj.resetWait = s.cnj.resetWait := by
  simp [State.expDone]

@[simp] theorem State.takeExp_resetWait (n : Nat) (c : Coll) (x : Segment) (p : Port) (f : Frame) :
    (s.takeExp g cseq n c x p f).cnj.resetWait = s.cnj.resetWait := by
  simp [State.takeExp]

end

/-! ### Frames -/

section
variable (s : State)

@[simp] theorem State.staleFrame_resetWait (p : Port) (f : Frame) (code cause : Nat) :
    (s.staleFrame p f code cause).cnj.resetWait = s.cnj.resetWait := by
  simp [State.staleFrame]

@[simp] theorem State.failColl_resetWait (f : Frame) (code cause : Nat) (ports : BitVec 512) :
    (s.failColl f code cause ports).cnj.resetWait = s.cnj.resetWait := by
  simp [State.failColl]

@[simp] theorem State.completeColl_resetWait (g : Nat) (cseq : BitVec 16) :
    (s.completeColl g cseq).cnj.resetWait = s.cnj.resetWait := by
  unfold State.completeColl
  split
  · rfl
  · simp

@[simp] theorem State.sendPair_resetWait (g : Nat) (cseq : BitVec 16) (src dst : Port) (pos count : Nat) (flags : BitVec 8)
    (scales payload : List Byte) :
    (s.sendPair g cseq src dst pos count flags scales payload).cnj.resetWait = s.cnj.resetWait := by
  unfold State.sendPair
  split
  · rfl
  · simp

@[simp] theorem State.padGap_resetWait (g : Nat) (cseq : BitVec 16) (src dst : Port) (gap : Nat × Nat) :
    (s.padGap g cseq src dst gap).cnj.resetWait = s.cnj.resetWait := by
  unfold State.padGap
  split
  · rfl
  · simp

@[simp] theorem State.padPair_resetWait (g : Nat) (cseq : BitVec 16) (src dst : Port) :
    (s.padPair g cseq src dst).cnj.resetWait = s.cnj.resetWait := by
  unfold State.padPair
  split
  · rfl
  · simp

@[simp] theorem State.a2aIn_resetWait (p : Port) (f : Frame) (c : Coll) :
    (s.a2aIn p f c).cnj.resetWait = s.cnj.resetWait := by
  simp [State.a2aIn]

@[simp] theorem State.gatherSeg_resetWait (g : Nat) (cseq : BitVec 16) (c : Coll) (n : Nat) :
    (s.gatherSeg g cseq c n).cnj.resetWait = s.cnj.resetWait := by
  unfold State.gatherSeg
  split <;> simp

@[simp] theorem State.relayRun_resetWait (f : Frame) (x : Segment) (r : Nat × Nat) :
    (s.relayRun f x r).cnj.resetWait = s.cnj.resetWait := by
  simp only [State.relayRun]
  split <;> simp

@[simp] theorem State.gatherIn_resetWait (p : Port) (f : Frame) (c : Coll) :
    (s.gatherIn p f c).cnj.resetWait = s.cnj.resetWait := by
  simp only [State.gatherIn]
  split
  · simp
  · split
    · simp
    · split
      · simp
      · split <;> simp

@[simp] theorem State.segmentIn_resetWait (p : Port) (f : Frame) (c : Coll) (x : Segment) (w : ContribIn) :
    (s.segmentIn p f c x w).1.cnj.resetWait = s.cnj.resetWait := by
  have taken := takeLines_resetWait s p w.faults w.io ((List.range (f.payload.length / 256)).map (lineFrame f))
  simp only [State.segmentIn]
  split
  · simp
  · split
    · simp
    · split
      · next h => exact resetWait_of_pair h taken
      · next h => simpa using resetWait_of_pair h taken

@[simp] theorem State.reduceIn_resetWait (p : Port) (f : Frame) (c : Coll) (w : ContribIn) :
    (s.reduceIn p f c w).1.cnj.resetWait = s.cnj.resetWait := by
  simp only [State.reduceIn]
  split
  · simp
  · split
    · simp
    · split
      · rfl
      · split <;> simp

@[simp] theorem State.contribIn_resetWait (p : Port) (f : Frame) (c : Coll) (w : ContribIn) :
    (s.contribIn p f c w).1.cnj.resetWait = s.cnj.resetWait := by
  simp [State.contribIn]

@[simp] theorem State.joinColl_resetWait (p : Port) (f : Frame) (c : Coll) :
    (s.joinColl p f c).cnj.resetWait = s.cnj.resetWait := by
  simp only [State.joinColl]
  split <;> simp

@[simp] theorem State.openColl_resetWait (p : Port) (f : Frame) : (s.openColl p f).cnj.resetWait = s.cnj.resetWait := by
  simp only [State.openColl]
  split
  · simp
  · split
    · simp
    · split <;> simp

@[simp] theorem State.outOfOrder_resetWait (p : Port) (g : Nat) : (s.outOfOrder p g).cnj.resetWait = s.cnj.resetWait := by
  unfold State.outOfOrder
  split <;> simp

@[simp] theorem State.checkedIn_resetWait (p : Port) (f : Frame) (w : ContribIn) :
    (s.checkedIn p f w).1.cnj.resetWait = s.cnj.resetWait := by
  simp only [State.checkedIn]
  split
  · simp
  · split
    · simp
    · split
      · simp
      · split <;> simp

@[simp] theorem State.collIn_resetWait (p : Port) (f : Frame) (w : ContribIn) :
    (s.collIn p f w).1.cnj.resetWait = s.cnj.resetWait := by
  simp only [State.collIn]
  split
  · simp
  · split
    · simp
    · split
      · simp
      · rfl
    · simp
    · simp

/-! ### Held frames -/

@[simp] theorem settleOnce_resetWait (g : Nat) (hs : List HeldFrame) :
    (settleOnce g hs s).cnj.resetWait = s.cnj.resetWait := by
  induction hs generalizing s with
  | nil => rfl
  | cons h hs ih =>
    have taken := s.collIn_resetWait h.port h.frame { }
    unfold settleOnce
    split
    · split
      · next e => exact (ih _).trans (resetWait_of_pair e taken)
      · next e => simpa [ih] using resetWait_of_pair e taken
    · exact ih s

@[simp] theorem settleMany_resetWait (g n : Nat) : (settleMany g n s).cnj.resetWait = s.cnj.resetWait := by
  induction n generalizing s with
  | zero => rfl
  | succ n ih => simp [settleMany, ih]

@[simp] theorem State.settleAll_resetWait : s.settleAll.cnj.resetWait = s.cnj.resetWait := by
  simp [State.settleAll, State.settle]

end

end Sys2Proof.Machine
end

section
/-!
PROOFS. The end of a collective by an abort (R245) and of a tile's move (R214).
-/

namespace Sys2Proof.Machine

/-! ### A move that ends (R214) -/

/-- With no segment open, the spare takes the tile's place and nothing restarts. -/
theorem State.moveTile_of_noSegs {s : State} (h : s.cnj.segs = []) (t : Nat) : s.moveTile t = ((({ s with
      cnj.spareOf := s.cnj.spareOf.put (tileDie t) t, cnj.moving := s.cnj.moving.filter (· ≠ t) } : State).actionDone
        1 t).raise Reg.CNJ_INT_STATUS.tile_moved).settleAll := by
  simp only [State.moveTile, h, List.foldl_nil]

/-- The settling after a move adds no reset that waits. -/
theorem State.moveTile_resetWait {s : State} (h : s.cnj.segs = []) (t : Nat) :
    (s.moveTile t).cnj.resetWait = s.cnj.resetWait := by
  rw [State.moveTile_of_noSegs h, State.settleAll_resetWait, State.raise_cnj, State.actionDone_resetWait]

theorem State.moveEnds_of_noReset {s : State} {t : Nat} (h : s.cnj.segs = []) (hwait : s.cnj.resetWait.contains t = false) :
    s.moveEnds t = s.moveTile t := by
  simp only [State.moveEnds, State.moveTile_resetWait h, hwait, Bool.false_eq_true, if_false]

theorem exec_tileMoveComplete (t : BitVec 6) (s : State) : exec (.tileMoveComplete t) s = execTileMoveComplete t s := rfl

theorem execTileMoveComplete_of_moving {t : BitVec 6} {s : State} (h : s.cnj.moving.contains t.toNat = true) :
    execTileMoveComplete t s = .next (s.moveEnds t.toNat) := by
  simp only [execTileMoveComplete, h, if_true]

/-! ### The statement -/

/-- Settles O38: an abort by what it removes and what its sending leaves, the end of a move by what its settling leaves. -/
theorem abortsAndMoves : Obligations.AbortsAndMoves := by
  refine ⟨fun s g cseq c code cause seg ports hc t ht => State.abortColl_ends hc code cause seg ports ht,
    fun s t hmoving hwait hsegs => ?_⟩
  rw [exec_tileMoveComplete, execTileMoveComplete_of_moving hmoving, State.moveEnds_of_noReset hsegs hwait,
    State.moveTile_of_noSegs hsegs]

end Sys2Proof.Machine
end

section
/-!
PROOFS. Group records: received, admitted or refused, torn down, and the slots they free (R220 to R223, R351).
-/

namespace Sys2Proof.Machine

/-! ### Group records (R222, R351) -/

section
variable {s u : State} {p : Port} {f : Frame} {k : Nat}

/-- A GROUP_REC for this spine frees its buffer, and meets its rule unless it is a data error. -/
theorem execGroupRec_of_parked (htype : f.ftype = ftMgmt) (hop : f.opcode = mgGroupRec) (hd : f.dclass = true)
    (h : s.parked p f 0 = some (u, k)) (hmine : u.mine f = true) (ok : Bool) :
    execGroupRec p f ok s =
      .next (if ok then (u.freeBuf k).takeGroupRec p f else (u.freeBuf k).dataError (dieOf p)) :=
  (if_pos ⟨htype, hop, hd⟩).trans (congrArg Host.Outcome.next (State.routed_to_self h _ _ hd hmine))

theorem State.queueRecord_of_room (hroom : s.cnj.cfgq.length < 256) (rec : List Byte) (rt : Option ReplyTo) :
    s.queueRecord rec rt = { s with cnj.cfgq := s.cnj.cfgq ++ [⟨decide (rec.length = 8), rec, rt⟩] } :=
  if_neg (Nat.not_le.mpr hroom)

theorem State.takeGroupRec_of_manager (h : s.isManager f.snode f.swSrc = true) (hroom : s.cnj.cfgq.length < 256) :
    s.takeGroupRec p f = { s with cnj.cfgq := s.cnj.cfgq ++
      [⟨decide (f.payload.length = 8), f.payload, some (.mgmt p f.snode f.swSrc (mgTag f))⟩] } :=
  (if_pos h).trans (State.queueRecord_of_room hroom ..)

theorem State.takeGroupRec_of_otherNode (h : s.isManager f.snode f.swSrc = false) :
    s.takeGroupRec p f = s.cfgReply p f 11 :=
  if_neg (by simp [h])

end

/-! ### Admission, teardown and the end of draining (R220 to R223) -/

section
variable {s : State} {r : CfgRecord} {rest : List CfgRecord} {b : List Byte}

/-- The queue admits only where no teardown waits. -/
theorem execCfgqAdmission_of_taken (hen : s.bit Reg.CNJ_CTL.admit_en = true) (hdue : s.cfgqDue = true)
    (hnone : takeRecord true s.cnj.cfgq = none) (htake : takeRecord false s.cnj.cfgq = some (r, rest)) :
    execCfgqAdmission s =
      .next (({ s with cnj.cfgq := rest, cnj.cfgqAt := some s.ft } : State).admits r.bytes r.replyTo) := by
  simp only [execCfgqAdmission, htake]
  exact if_pos (by simp [hen, hdue, hnone])

theorem State.admits_of_ok (h : s.admitTrouble b = none) (rt : Option ReplyTo) :
    s.admits b rt = (((s.setTree (groupOf b).tree.toNat
        { valid := true, bound := true, partition := (groupOf b).partition, group := BitVec.ofNat 14 (numAt b 0 2),
          mask := (groupOf b).mask, flags := allReport }).setGroup (numAt b 0 2) (groupOf b)).count
      Reg.CNJ_CNT_ADMIT.value).replyGroup rt b 0 0 := by
  simp only [State.admits, h]

theorem State.admits_of_trouble {status cause : Nat} (h : s.admitTrouble b = some (status, cause)) (rt : Option ReplyTo) :
    s.admits b rt = ((s.count Reg.CNJ_CNT_ADMIT_REFUSED.value).raise Reg.CNJ_INT_STATUS.admit_refused).replyGroup rt b
      status cause := by
  simp only [State.admits, h]

theorem execCfgqTeardown_of_taken (hdue : s.cfgqDue = true) (htake : takeRecord true s.cnj.cfgq = some (r, rest)) :
    execCfgqTeardown s =
      .next (({ s with cnj.cfgq := rest, cnj.cfgqAt := some s.ft } : State).teardown r.bytes r.replyTo) := by
  simp only [execCfgqTeardown, htake]
  exact if_pos hdue

/-- A teardown of a slot in use, under its generation and without the abort flag, lets its open collectives run on. -/
theorem State.teardown_of_draining {g : Nat} (hg : g = numAt b 0 2 % 2 ^ 14) (hgen : numAt b 2 1 = (s.group g).gen.toNat)
    (hstate : (s.group g).state ≠ .free) (habort : numAt b 3 1 / 4 % 2 = 0) (rt : Option ReplyTo) :
    s.teardown b rt = (s.setGroup g { s.group g with
      state := .draining, replyTo := (s.group g).replyTo ++ rt.toList }).drainWaiting g := by
  subst hg
  refine (if_neg fun h => h hgen).trans ((if_neg hstate).trans (if_neg ?_))
  rw [habort]
  decide

theorem execGroupDrained_of_drained {g : BitVec 14} (h : s.drained g.toNat = true) :
    execGroupDrained g s = .next (s.freeGroup g.toNat) :=
  congrArg Host.Outcome.next (if_pos h)

/-- A slot that nobody asked to drain is freed without a reply. -/
theorem State.freeGroup_of_noReply {g : Nat} (h : (s.group g).replyTo = []) :
    s.freeGroup g = (((s.setTree (s.group g).tree.toNat { }).setGroup g { gen := (s.group g).gen }).count
      Reg.CNJ_CNT_TEARDOWN.value).raise Reg.CNJ_INT_STATUS.drained := by
  simp only [State.freeGroup, h, List.foldl_nil]

end

/-- Settles O35: a received record by its sender, the queue's record by the checks or the generation it meets, a drained
slot by what freeing it clears. -/
theorem groupRecords : Obligations.GroupRecords := by
  refine fun s => ⟨fun p f u k htype hop hd h hmine v hv => ⟨fun hman hroom => ?manager, fun hman => ?otherNode, ?dataError⟩,
    fun r rest v hen hdue hnone htake hv => ⟨fun g x y hok hg hx hy => ?admitted, fun st cause htrouble => ?refused⟩,
    fun r rest v g hdue htake hv hg hgen hstate habort => ?teardown, fun g hdrained hreply => ?drained⟩
  case manager =>
    subst hv
    exact (execGroupRec_of_parked htype hop hd h hmine true).trans
      (congrArg Host.Outcome.next (State.takeGroupRec_of_manager hman hroom))
  case otherNode =>
    subst hv
    exact (execGroupRec_of_parked htype hop hd h hmine true).trans
      (congrArg Host.Outcome.next (State.takeGroupRec_of_otherNode hman))
  case dataError =>
    subst hv
    exact execGroupRec_of_parked htype hop hd h hmine false
  case admitted =>
    subst hv hg hx hy
    exact (execCfgqAdmission_of_taken hen hdue hnone htake).trans (congrArg Host.Outcome.next (State.admits_of_ok hok _))
  case refused =>
    subst hv
    exact (execCfgqAdmission_of_taken hen hdue hnone htake).trans
      (congrArg Host.Outcome.next (State.admits_of_trouble htrouble _))
  case teardown =>
    subst hv
    exact (execCfgqTeardown_of_taken hdue htake).trans
      (congrArg Host.Outcome.next (State.teardown_of_draining hg hgen hstate habort _))
  case drained =>
    exact (execGroupDrained_of_drained hdrained).trans (congrArg Host.Outcome.next (State.freeGroup_of_noReply hreply))

end Sys2Proof.Machine
end

section
/-!
PROOFS. What a received frame of a collective meets: its cseq (R228), the checks of Table 10-5, and the rule of its kind (R226 to
R234, R240, R241).
-/

namespace Sys2Proof.Machine

/-! ### Frames that find nothing held (R224, R228, R236) -/

theorem State.settle_of_noneHeld {s : State} {g : Nat} (h : (s.group g).held = []) : s.settle g = s := by
  simp only [State.settle, h, List.length_nil, settleMany]

theorem State.behindHeld_of_noneHeld {s : State} {f : Frame} (h : (s.group f.group.toNat).held = []) (p : Port) :
    s.behindHeld p f = false := by
  simp [State.behindHeld, h]

theorem Group.rel_of_open {x : Group} {c : BitVec 16} (h : x.opened.contains c = true) : x.rel c = .open_ := if_pos h

theorem Group.rel_of_next {x : Group} {c : BitVec 16} (hclosed : x.opened.contains c = false) (hnext : c = x.nextCseq) :
    x.rel c = .next :=
  (if_neg (by rw [hclosed]; decide)).trans (if_pos hnext)

section
variable {s u v : State} {p : Port} {f : Frame} {c : Coll} {w : ContribIn} (h : s.collAt u p f)
include h

/-- A frame that need not wait gives its cells back, and then the group's held frames are looked at. -/
theorem State.collArrive_of_taken (htaken : u.collIn p f { w with start := true } = (v, false)) :
    s.collArrive p f true w = (v.freeCells p f.vc f.cells).settle f.group.toNat := by
  obtain ⟨hin, hmine, hheld, hrelay, -⟩ := h
  have named : ¬(f.ftype = ftContrib ∧ f.dclass = false) := fun ⟨ht, hd⟩ => by simp [(hmine ht).1] at hd
  have here : ¬(f.ftype = ftContrib ∧ u.mine f = false) := fun ⟨ht, hm⟩ => by simp [(hmine ht).2] at hm
  simp only [State.collArrive, hin, if_neg named, if_neg here, Bool.not_true, Bool.false_eq_true, if_false,
    State.settle_of_noneHeld hheld, State.behindHeld_of_noneHeld hheld, hrelay, htaken]

theorem State.collIn_of_open (hopen : u.isOpen p f c) : u.collIn p f w = u.checkedIn p f w := by
  obtain ⟨-, -, -, -, hstate, hgen, -⟩ := h
  obtain ⟨hopened, hcoll, hport⟩ := hopen
  have current : ¬((u.group f.group.toNat).state = .free ∨ f.gen ≠ (u.group f.group.toNat).gen) := by simp [hstate, hgen]
  simp only [State.collIn, if_neg current, Group.rel_of_open hopened, hcoll, hport, Bool.false_eq_true, if_false]

theorem State.collIn_of_next (hclosed : (u.group f.group.toNat).opened.contains f.cseq = false)
    (hnext : f.cseq = (u.group f.group.toNat).nextCseq) (hadmitted : (u.group f.group.toNat).state = .admitted) :
    u.collIn p f w = u.checkedIn p f w := by
  obtain ⟨-, -, -, -, hstate, hgen, -⟩ := h
  have current : ¬((u.group f.group.toNat).state = .free ∨ f.gen ≠ (u.group f.group.toNat).gen) := by simp [hstate, hgen]
  have undrained : ¬(u.group f.group.toNat).state = .draining := by simp [hadmitted]
  simp only [State.collIn, if_neg current, Group.rel_of_next hclosed hnext, if_neg undrained]

/-! ### What a frame of its group's partition and mask meets (Table 10-5) -/

theorem State.checkedIn_of_abortReq (htype : f.ftype = ftCollCtl) (hop : f.opcode = opAbortReq) :
    u.checkedIn p f w = (u.failColl f f.abortCode (requestedCause f.abortCode) (portBit p), false) := by
  obtain ⟨-, -, -, -, -, -, hpart, hmask⟩ := h
  exact (if_neg fun hne => hne hpart).trans ((if_neg (by simp [hmask])).trans (if_pos ⟨htype, hop⟩))

theorem State.checkedIn_of_contrib (htype : f.ftype = ftContrib) (hcoll : u.coll f.group.toNat f.cseq = some c) :
    u.checkedIn p f w = u.contribIn p f c w := by
  obtain ⟨-, -, -, -, -, -, hpart, hmask⟩ := h
  have noCtl : ¬ ftContrib = ftCollCtl := by decide
  simp [State.checkedIn, hpart, hmask, hcoll, isBegin, htype, noCtl]

/-- The first BEGIN of a cseq opens it where the group has a place for one more collective. -/
theorem State.checkedIn_of_firstBegin (hbegin : isBegin f = true) (hcoll : u.coll f.group.toNat f.cseq = none)
    (hplace : (u.group f.group.toNat).opened.length < (u.group f.group.toNat).cDepth) :
    u.checkedIn p f w = (u.openColl p f, false) := by
  obtain ⟨-, -, -, -, -, -, hpart, hmask⟩ := h
  have noAbort : ¬(f.ftype = ftCollCtl ∧ f.opcode = opAbortReq) := fun ⟨_, hop⟩ => by
    simp [isBegin, hop, opBegin, opAbortReq] at hbegin
  simp [State.checkedIn, hpart, hmask, hcoll, hbegin, noAbort, Nat.not_le.mpr hplace]

end

section
variable {u : State} {p : Port} {f : Frame} {c : Coll}

theorem State.failColl_of_open (hopened : (u.group f.group.toNat).opened.contains f.cseq = true) (code cause : Nat)
    (ports : BitVec 512) : u.failColl f code cause ports = u.abortColl f.group.toNat f.cseq code cause ports :=
  if_pos hopened

/-- R228: a first BEGIN without fault opens the collective, which then runs where a port is left to it. -/
theorem State.openColl_of_path0 {v : State} {g : Nat} (hg : g = f.group.toNat)
    (hmembers : (u.group g).membersOk p f.members.toNat = true) (hside : f.sideband = false)
    (htrouble : u.openTrouble g f = none) (hpath : descPath f.payload = 0) (hkind : descKind f.payload ≠ kindA2a)
    (hc : c = { gen := (u.group g).gen, desc := f.payload, sig := f.w7, begins := [(p, f.w7, f.members.toNat)],
                excluded := portsMask ((maskPorts (u.group g).mask).filter fun q => u.fence q ≠ 0 || !u.isUp q),
                timerFrom := u.ft })
    (hv : v = (u.setColl g f.cseq c).setGroup g { u.group g with
      nextCseq := f.cseq + 1, opened := (u.group g).opened ++ [f.cseq] })
    (hlive : (v.livePorts g c).isEmpty = false) : u.openColl p f = v := by
  subst hg
  have noRegion : ¬ descPath f.payload = 1 := by omega
  have runs : ¬ (v.livePorts f.group.toNat c).isEmpty = true := by simp [hlive]
  subst hc hv
  simp only [State.openColl, hmembers, hside, htrouble, Bool.not_true, Bool.false_eq_true, if_false, if_neg noRegion,
    if_neg runs, if_neg hkind]

/-! ### Contributions (R229 to R234, R240, R241) -/

variable {w : ContribIn}

section
variable (h : u.contributes p f c)
include h

/-- What meets its collective's kind next: a contribution that passed the checks before. -/
theorem State.contribIn_of_contributes : u.contribIn p f c w =
    if descKind c.desc = kindA2a then
      if f.opcode = opExp then (u.failColl f abSignature 6 (portBit p), false) else (u.a2aIn p f c, false)
    else if !linesFit c.desc f then (u.failColl f abSignature 1 (portBit p), false)
    else if descKind c.desc = kindGather then
      if f.opcode = opExp then (u.failColl f abSignature 6 (portBit p), false) else (u.gatherIn p f c, false)
    else u.reduceIn p f c w := by
  obtain ⟨-, hbegun, hsig, hmembers, hside⟩ := h
  exact (if_neg (by simp [hbegun])).trans ((if_neg fun hne => hne hsig).trans ((if_neg (by simp [hmembers])).trans
    (if_neg fun hne => hne hside)))

theorem State.contribIn_of_a2a (hop : f.opcode = opData) (hkind : descKind c.desc = kindA2a) :
    u.contribIn p f c w = (u.a2aIn p f c, false) := by
  rw [State.contribIn_of_contributes h, if_pos hkind, if_neg (by rw [hop]; decide)]

theorem State.contribIn_of_gather (hop : f.opcode = opData) (hkind : descKind c.desc = kindGather)
    (hfit : linesFit c.desc f = true) : u.contribIn p f c w = (u.gatherIn p f c, false) := by
  rw [State.contribIn_of_contributes h, if_neg (by rw [hkind]; decide), if_neg (by simp [hfit]), if_pos hkind,
    if_neg (by rw [hop]; decide)]

theorem State.contribIn_of_reduce (hkind : descKind c.desc < kindGather) (hfit : linesFit c.desc f = true) :
    u.contribIn p f c w = u.reduceIn p f c w := by
  have noA2a : descKind c.desc ≠ kindA2a := Nat.ne_of_lt (Nat.lt_succ_of_lt hkind)
  rw [State.contribIn_of_contributes h, if_neg noA2a, if_neg (by simp [hfit]), if_neg (Nat.ne_of_lt hkind)]

end

section
variable {x : Segment}

/-- A contribution to a segment that is in progress on a tile at rest meets the segment. -/
theorem State.reduceIn_of_running (hdone : c.done.get f.segment.toNat = none)
    (hseg : u.seg f.group.toNat f.cseq f.segment.toNat = some x) (hrest : u.tileMoving f.group.toNat f.segment.toNat = false) :
    u.reduceIn p f c w = u.segmentIn p f c x w := by
  simp only [State.reduceIn, hdone, hseg, hrest, Option.isSome_none, Bool.false_and, Bool.false_eq_true, if_false]

theorem State.segmentIn_of_lines {v : State} (hop : f.opcode = opData) (hstate : x.state = .collect)
    (htake : takeLines p w.faults w.io ((List.range (f.payload.length / 256)).map (lineFrame f)) u = (v, false)) :
    u.segmentIn p f c x w =
      ((v.lastSeen p f).tryFinal f.group.toNat f.cseq f.segment.toNat w.auditLate, false) := by
  have noExp : ¬ f.opcode = opExp := by rw [hop]; decide
  have collects : ¬ x.state = .exponent := by simp [hstate]
  simp only [State.segmentIn, if_neg noExp, if_neg collects, htake]

theorem State.segmentIn_of_firstExp (hop : f.opcode = opExp) (hstate : x.state = .exponent)
    (hfirst : x.expFrom.getLsbD p.toNat = false) :
    u.segmentIn p f c x w = (u.takeExp f.group.toNat f.cseq f.segment.toNat c x p f, false) :=
  (if_pos hop).trans ((if_neg (by simp [hfirst])).trans (if_pos hstate))

end

end

/-- A CONTRIB that meets its collective's rule and need not wait. -/
theorem State.collArrive_of_contrib {s u v : State} {p : Port} {f : Frame} {c : Coll} {w : ContribIn} (h : s.collAt u p f)
    (htype : f.ftype = ftContrib) (hcontributes : u.contributes p f c)
    (htaken : u.contribIn p f c { w with start := true } = (v, false)) :
    s.collArrive p f true w = (v.freeCells p f.vc f.cells).settle f.group.toNat := by
  obtain ⟨hopen, -⟩ := hcontributes
  have ⟨_, hcoll, _⟩ := hopen
  refine State.collArrive_of_taken h ?_
  rw [State.collIn_of_open h hopen, State.checkedIn_of_contrib h htype hcoll, htaken]

/-- Settles O36: a frame that finds nothing held meets its collective by its cseq (`State.collIn_of_next`, `_of_open`), then
by its type, and a contribution by the collective's kind and the segment's state. -/
theorem collectiveFrames : Obligations.CollectiveFrames := by
  rintro p f s u g h rfl
  refine ⟨fun hbegin hclosed hnext hadmitted hcoll hplace hmembers hside htrouble hpath hkind c hc v hv hlive => ?begins,
    fun c htype hcon => ⟨fun x faults io late v hop hkind hfit hdone hseg hstate hrest htake => ?lines,
      fun faults io late hop hkind hfit => ?gather, fun faults io late hop hkind => ?a2a,
      fun x hop hkind hfit hdone hseg hstate hfirst hrest => ?exponents⟩,
    fun c htype hop hopen => ?abort⟩
  case begins =>
    refine (if_pos hbegin).trans (congrArg Host.Outcome.next (State.collArrive_of_taken h ?_))
    rw [State.collIn_of_next h hclosed hnext hadmitted, State.checkedIn_of_firstBegin h hbegin hcoll hplace,
      State.openColl_of_path0 rfl hmembers hside htrouble hpath hkind hc hv hlive]
  case lines =>
    refine (if_pos ⟨htype, hop⟩).trans (congrArg Host.Outcome.next (State.collArrive_of_contrib h htype hcon ?_))
    rw [State.contribIn_of_reduce hcon hkind hfit, State.reduceIn_of_running hdone hseg hrest,
      State.segmentIn_of_lines hop hstate htake]
  case gather =>
    exact (if_pos ⟨htype, hop⟩).trans (congrArg Host.Outcome.next
      (State.collArrive_of_contrib h htype hcon (State.contribIn_of_gather hcon hop hkind hfit)))
  case a2a =>
    exact (if_pos ⟨htype, hop⟩).trans (congrArg Host.Outcome.next
      (State.collArrive_of_contrib h htype hcon (State.contribIn_of_a2a hcon hop hkind)))
  case exponents =>
    refine (if_pos ⟨htype, hop⟩).trans (congrArg Host.Outcome.next (State.collArrive_of_contrib h htype hcon ?_))
    rw [State.contribIn_of_reduce hcon hkind hfit, State.reduceIn_of_running hdone hseg hrest,
      State.segmentIn_of_firstExp hop hstate hfirst]
  case abort =>
    refine (if_pos ⟨htype, hop⟩).trans (congrArg Host.Outcome.next (State.collArrive_of_taken h ?_))
    have ⟨hopened, _⟩ := hopen
    rw [State.collIn_of_open h hopen, State.checkedIn_of_abortReq h htype hop, State.failColl_of_open hopened]

end Sys2Proof.Machine
end

section
/-!
PROOFS. What a group does by itself: segments that wait, signatures, resends, deferrals, time-outs and finished segments (R230 to
R244).
-/

namespace Sys2Proof.Machine

section
variable {s : State} {g : BitVec 14} {cseq : BitVec 16} {c : Coll} (hcoll : s.coll g.toNat cseq = some c)
include hcoll

theorem execSegmentSlotsAvailable_of_waiting {seg : BitVec 24} (hidle : s.seg g.toNat cseq seg.toNat = none)
    (hwaits : ((s.group g.toNat).held.any fun h =>
      h.frame.ftype == ftContrib && h.frame.cseq == cseq && h.frame.segment == seg) = true)
    (hdone : c.done.get seg.toNat = none) (hrest : s.tileMoving g.toNat seg.toNat = false)
    (hslots : s.slotsFree g.toNat c.desc seg.toNat = true) :
    execSegmentSlotsAvailable g cseq seg s = .next ((s.startSeg g.toNat cseq c seg.toNat).settle g.toNat) := by
  simp only [execSegmentSlotsAvailable, hcoll, hidle]
  exact if_pos (by rw [hwaits, hdone, hrest, hslots]; rfl)

theorem execSignatureCollectEnd_of_elapsed {t : Nat} (hmismatch : c.mismatchAt = some t) (ht : t + 1600000 ≤ s.ft) :
    execSignatureCollectEnd g cseq s =
      .next ((s.abortColl g.toNat cseq abSignature 1 (minority c)).settle g.toNat) := by
  simp only [execSignatureCollectEnd, hcoll, hmismatch]
  exact if_pos (by simp [ht])

/-- One RESEND after a loss, left unanswered, aborts with its port and segment. -/
theorem execResendTimeout_of_unanswered {r : Resend} {t : Nat} (hresends : c.resends = [r]) (hcause : r.cause = 0)
    (hleft : r.left = some t) (ht : t + (s.group g.toNat).resendTimeout * 1600 ≤ s.ft) :
    execResendTimeout g cseq s =
      .next ((s.abortColl g.toNat cseq abLink 4 (portsMask [r.port]) r.segment.toNat).settle g.toNat) := by
  simp [execResendTimeout, hcoll, hresends, hcause, hleft, ht]

theorem execCollectiveTimeout_of_elapsed (ht : c.timerFrom + (s.group g.toNat).timeout * 16000 ≤ s.ft) :
    execCollectiveTimeout g cseq s = .next ((s.abortColl g.toNat cseq abTimeout 0
      (portsMask ((s.livePorts g.toNat c).filter fun p => s.awaitsPort g.toNat cseq c p))).settle g.toNat) := by
  simp only [execCollectiveTimeout, hcoll]
  exact if_pos ht

theorem execSegmentDone_of_emitted {seg : BitVec 24} {x : Segment} (hkind : descKind c.desc ≠ kindA2a)
    (hseg : s.seg g.toNat cseq seg.toNat = some x) (hstate : x.state = .emit)
    (hleft : s.copiesLeft (fun f => resultOf g cseq f && f.segment == seg) = false) :
    execSegmentDone g cseq seg s = .next ((((s.delSeg g.toNat cseq seg.toNat).pmuEvent 0x0C 0x02 x.tile).markDone g.toNat cseq
      seg.toNat).settle g.toNat) := by
  simp only [execSegmentDone, hcoll, hseg, if_neg hkind]
  exact if_pos (by simp [hstate, hleft])

end

theorem execDeferralResend_of_room {s : State} {g : BitVec 14} (hdeferred : (s.group g.toNat).deferrals ≠ [])
    (hroom : 2 * s.groupCells g.toNat < (s.group g.toNat).quota) :
    execDeferralResend g s = .next ((s.group g.toNat).deferrals.foldl (fun s e => s.resendDeferred g.toNat e)
      (s.setGroup g.toNat { s.group g.toNat with deferrals := [] })) :=
  if_pos ⟨hdeferred, hroom⟩

/-- Settles O37: one equation per command; the end of a segment is counted by no counter that is stopped. -/
theorem collectiveTimers : Obligations.CollectiveTimers := by
  refine fun s g cseq c hcoll => ⟨fun seg hidle hwaits hdone hrest hslots => ?slots, fun t hmismatch ht => ?signatures,
    fun r t hresends hcause hleft ht => ?resend, fun hdeferred hroom => ?deferrals, fun ht => ?timeout,
    fun seg x hkind hseg hstate hleft hpmu => ?done⟩
  case slots => exact execSegmentSlotsAvailable_of_waiting hcoll hidle hwaits hdone hrest hslots
  case signatures => exact execSignatureCollectEnd_of_elapsed hcoll hmismatch ht
  case resend => exact execResendTimeout_of_unanswered hcoll hresends hcause hleft ht
  case deferrals => exact execDeferralResend_of_room hdeferred hroom
  case timeout => exact execCollectiveTimeout_of_elapsed hcoll ht
  case done =>
    have counted := State.pmuEvent_of_stopped (s := s.delSeg g.toNat cseq seg.toNat) hpmu 0x0C 0x02 x.tile none 1 none
    refine (execSegmentDone_of_emitted hcoll hkind hseg hstate hleft).trans ?_
    rw [counted]

end Sys2Proof.Machine
end

section
/-!
PROOFS. The queue: a step runs the front command with the queue's rest, no command changes what waits after it, and every
command but two answers a next state.
-/

namespace Sys2Proof.Machine

/-- Settles O1: `step` matches on the queue. -/
theorem stepRunsFront : Obligations.StepRunsFront := fun _ _ _ => rfl

/-- Settles O3: every command leaves the queue (`exec_moved`). -/
theorem commandsLeaveQueue : Obligations.CommandsLeaveQueue := fun c s t ht => (exec_moved c s t ht).pending

/-! ### Outcomes that answer a next state -/

/-- The outcome is a next state. -/
def Answers (o : Outcome) : Prop := ∃ t, o = .next t

theorem answers_next (t : State) : Answers (.next t) := ⟨t, rfl⟩

/-- A command that comes by the out-of-band port answers as one of the mailbox does. -/
theorem archRun_answers (s : State) (tp : Transport) (op : BitVec 16) (input : List Byte) :
    Answers (State.archRun s tp op input) := by
  unfold State.archRun
  split <;> exact ⟨_, rfl⟩

theorem execOobFrame_answers (dst src : BitVec 48) (etherType : BitVec 16) (body : List Byte) (s : State) :
    Answers (execOobFrame dst src etherType body s) := by
  unfold execOobFrame
  dsimp only
  (repeat' split)
  case h_2.isFalse.isTrue => exact archRun_answers ..
  all_goals exact answers_next _

/-- Settles O4: every branch of every other command's rule is a next state. -/
theorem onlyAbsentMemoryStops : Obligations.OnlyAbsentMemoryStops := by
  intro c s hread hatomic
  change Answers (exec c s)
  cases c with
  | apertureRead r off size io => exact absurd rfl (hread r off size io)
  | accessionAtomic dpa sub b d io => exact absurd rfl (hatomic dpa sub b d io)
  | oobFrame dst src etherType body => exact execOobFrame_answers dst src etherType body s
  | _ =>
    simp only [exec, execRegisterWrite, execLowWordRead, execHighWordWrite, execClearOnRead, execTimeSync, execPdelayReq,
      execPdelayResp, execTimeFrameBadOpcode, execPdelayExchangeStart, execPdelayRespLost, execSyncIntervalExpiry,
      execParentSyncLost, execHoldoverEntry, execExpiredEntry, execPpsInEdge, execPpsInMissing, execPulseArm,
      execPulseLeadingEdge, execPulseTrailingEdge, execPulseMissed, execActivationFire, execHeaterUpdate,
      execXtRefreshPeriodEnd, execXtSwap, execLineLockLost, execLineLockRegained, execLaneHoldLimit,
      execLinePowerSample, execCutoverStart, execSpareReceiverAligned, execLaneReadyDeadline, execTSwitch,
      execOldLineRelease, execCutoverRetry, execOptLaneMoveGo, execOptLaneRestore, execCalibrationDone, execOptRecal,
      execPermCommit, execTrnCalArm, execTrnCalCancel, execCalEntryBoundary, execTransitElectricalResume,
      execElementBiasUpdate, execElementLockLost, execElementLocked, execPlaneFailed, execElementLockRetry,
      execTrnRecal, execUmbraSnap, execUmbraRelease, execUmbraMapWriteDone, execHelloInterval, execCreditPublish,
      execAckDelayExpiry, execHopError, execRetryReqTimeout, execAckTimeout, execRetryExhausted, execLinkCtlBadOpcode,
      execTrainingStart, execTrainTimeout, execTrainRetry, execPortEnClear, execAlignLost, execLnkFenceWrite,
      execLnkCreditGrantWrite, execPortReset, execTrailerFailAfterDispatch, execAnnounce, execCatalogueSweep,
      execCatRehashGo, execCatRehashDone, execCatQuery, execCatInstall, execCatRemove, execCatUnfreeze,
      execIdxQueryGo, execMcCommit, execMcLoad, execBulk, execBestEffort, execMgmtForward, execResultFromLeaf,
      execCellArrival, execReseqTimeout, execCellRetryExhausted, execEgressUnderrun, execBufferAudit,
      execSpillDelayExpiry, execSpillRateCheck, execMirrorEnable, execEgressArbitrate, execSchGateArm,
      execSchGateCancel, execGateStarve, execMeterConfigWrite, execGroupRec, execCfgqAdmission, execCfgqTeardown,
      execCollBegin, execContribData, execExp, execAbortReq, execSegmentSlotsAvailable, execSignatureCollectEnd,
      execResendTimeout, execDeferralResend, execCollectiveTimeout, execSegmentDone, execPageMendDone, execLbLeak,
      execEngineRestore, execRegionInstall, execRegionRemove, execRegionClearAll, execRegionClearDone,
      execZeroFillDone, execLoad, execStore, execStoreMcast, execAtomic, execReduceInto, execMemFence,
      execMemReqPassThrough, execMemRspForward, execMemRspToSpine, execFenceAnswered, execMcastUnreachedFinal,
      execCombineFlush, execCombineIdleClose, execCombineRspTimeout, execAccessEntryWrite, execIssueWatchdog,
      execProgramLoadDone, execUnloadForceStop, execExpulsionComplete, execBreakerClear, execElemScoreReset,
      execElemRestore, execElemExpel, execAuditWaitExpiry, execPowerCrit, execThermalCrit, execThermalCritRelease,
      execThermtrip, execFolioApply, execConfigFieldWrite, execColophonRecomputeDone, execCfgAmendStage,
      execCfgAmendCancel, execCheckUnitJob, execCheckUnitDone, execHdmDecoderCommit, execCxlMemRead, execCxlMemWrite,
      execCdatRead, execIntStatusWrite, execArchivistWatchdogLapse, execSensorSample, execAlmanacCopy,
      execSummaryWrite, execAlertAck, execOwnerInstall, execDebugAuthorization, execSpdmUnsupportedRequest,
      execFirmwareVerifyDone, execPorstNAssert, execPorstNDeassert, execStackTrained, execReserveRecheck,
      execSupplyLoss, execVinLow, execSupplyRestored, execRefclkFault, execPmuCounterWrite, execPmuCounterOverflow,
      execMalformedFrame, execStompedFrame, execUncorrectableCodeword, execMemReqBadOpcode, execFolioVerifyDone,
      execPerstNDeassert]
    (repeat' split) <;> exact answers_next _

end Sys2Proof.Machine
end

section
/-!
PROOFS. One-bit fields of registers: what a bit reads after a field of its own or of another register is set.
-/

namespace Sys2Proof.Machine

theorem State.bit_congr {s t : State} {f : Fld} (h : t.reg f.off = s.reg f.off) : t.bit f = s.bit f := by
  unfold State.bit State.fld
  rw [h]

theorem State.fld_congr {s t : State} {f : Fld} (h : t.reg f.off = s.reg f.off) : t.fld f = s.fld f := by
  unfold State.fld
  rw [h]

theorem State.reg_setFld_congr {s t : State} {f : Fld} (h : t.reg f.off = s.reg f.off) {v : Nat} :
    (t.setFld f v).reg f.off = (s.setFld f v).reg f.off := by
  rw [State.setFld, State.setFld, State.reg_setReg, State.reg_setReg, h]

theorem State.reg_setPair_ne (s : State) {f : Fld} (v : Nat) {o : Nat} (hlo : o ≠ f.off) (hhi : o ≠ f.off + 4) :
    (s.setPair f v).reg o = s.reg o := by
  rw [State.setPair, State.reg_setReg_ne _ _ hhi, State.reg_setReg_ne _ _ hlo]

theorem State.bit_setFld_one (s : State) {f : Fld} (hf : f.fits) (hw : f.width = 1) : (s.setFld f 1).bit f = true := by
  simp [State.bit, State.fld_setFld s f hf, hw]

theorem State.bit_setFld_zero (s : State) {f : Fld} (hf : f.fits) : (s.setFld f 0).bit f = false := by
  simp [State.bit, State.fld_setFld s f hf]

/-- A bit of another register is left. -/
theorem State.bit_setFld_ne (s : State) {f g : Fld} (v : Nat) (h : g.off ≠ f.off) : (s.setFld f v).bit g = s.bit g := by
  rw [State.bit, State.fld_setFld_ne s v h, State.bit]

/-- A bit that does not overlap the field is left. -/
theorem State.bit_setFld_apart (s : State) {f g : Fld} (hf : f.fits) (v : Nat)
    (h : f.lo + f.width ≤ g.lo ∨ g.lo + g.width ≤ f.lo) : (s.setFld f v).bit g = s.bit g := by
  rw [State.bit, State.fld_setFld_apart s hf v h, State.bit]

/-- A field of another register, or one that does not overlap, is left. -/
theorem State.fld_setFld_other (s : State) {f g : Fld} (hf : f.fits) (v : Nat)
    (h : g.off ≠ f.off ∨ f.lo + f.width ≤ g.lo ∨ g.lo + g.width ≤ f.lo) : (s.setFld f v).fld g = s.fld g :=
  h.elim (State.fld_setFld_ne s v) (State.fld_setFld_apart s hf v)

/-- A raised cause leaves the bits of other registers. -/
theorem State.bit_raise_ne (s : State) {f g : Fld} (h : g.off ≠ f.off) : (s.raise f).bit g = s.bit g := by
  rw [State.bit, State.fld_raise, State.fld_setFld_ne s 1 h, State.bit]

/-- A raised cause leaves the fields of other registers. -/
theorem State.fld_raise_ne (s : State) {f g : Fld} (h : g.off ≠ f.off) : (s.raise f).fld g = s.fld g := by
  rw [State.fld_raise, State.fld_setFld_ne s 1 h]

/-! ### The fields that a written word stores (R10) -/

theorem Fld.testBit_of (f : Fld) (w : W32) (i : Nat) : (f.of w).testBit i = (decide (i < f.width) && w.getLsbD (f.lo + i)) := by
  rw [Fld.of, Nat.testBit_mod_two_pow, Nat.testBit_div_two_pow, BitVec.getLsbD, Nat.add_comm]

/-- A field reads the same in words that agree in its bits. -/
theorem Fld.of_congr {f : Fld} {v w : W32} (h : ∀ i, i < f.width → v.getLsbD (f.lo + i) = w.getLsbD (f.lo + i)) :
    f.of v = f.of w := by
  refine Nat.eq_of_testBit_eq fun i => ?_
  rw [Fld.testBit_of, Fld.testBit_of]
  by_cases hi : i < f.width
  · rw [h i hi]
  · simp [hi]

/-- The bits of a field are rw in its register's row. -/
def Fld.isRw (f : Fld) : Prop := ∃ row, regRow? f.off = some row ∧ ∀ i, i < f.width → row.rw.testBit (f.lo + i) = true

/-- A field whose bits are rw takes its value from the written word. -/
theorem State.fld_storeFields_rw {f : Fld} (s : State) (v : W32) (hf : f.fits) (hrw : f.isRw) :
    (s.storeFields f.off v).fld f = f.of v := by
  obtain ⟨row, hrow, hrw⟩ := hrw
  rw [State.storeFields_of_row s v hrow, State.fld, State.reg_setReg]
  refine Fld.of_congr fun i hi => ?_
  have bound : f.lo + i < 32 := by
    unfold Fld.fits at hf
    omega
  have mask : (BitVec.ofNat 32 row.rw).getLsbD (f.lo + i) = true := by simp [BitVec.getLsbD_ofNat, bound, hrw i hi]
  simp only [BitVec.getLsbD_or, BitVec.getLsbD_and, BitVec.getLsbD_not, mask]
  simp

/-- A written word changes no other register. -/
theorem State.reg_storeFields_ne (s : State) {off o : Nat} (v : W32) (h : o ≠ off) : (s.storeFields off v).reg o = s.reg o := by
  unfold State.storeFields
  split
  · rfl
  · exact State.reg_setReg_ne s _ h

end Sys2Proof.Machine
end

section
/-!
PROOFS. Stack memory (chapter 11): addresses (R252), accession commands (R261 to R263), and what happens to memory and its
regions by time and by register (R256, R259, R268 to R270, R273).
-/

namespace Sys2Proof.Machine

/-! ### Little-endian words of memory -/

theorem leNat_lt (bs : List Byte) : leNat bs < 256 ^ bs.length := by
  induction bs with
  | nil => decide
  | cons b bs ih =>
    have hb := b.isLt
    rw [leNat, List.length_cons, Nat.pow_succ]
    omega

theorem leBytes_leNat (bs : List Byte) : leBytes bs.length (leNat bs) = bs := by
  induction bs with
  | nil => rfl
  | cons b bs ih =>
    have hb := b.isLt
    have low : BitVec.ofNat 8 (b.toNat + 256 * leNat bs) = b := by
      apply BitVec.eq_of_toNat_eq
      rw [BitVec.toNat_ofNat]
      omega
    have rest : (b.toNat + 256 * leNat bs) / 256 = leNat bs := by omega
    rw [leNat, List.length_cons, leBytes, low, rest, ih]

@[simp] theorem length_leBytes (n v : Nat) : (leBytes n v).length = n := by
  induction n generalizing v with
  | zero => rfl
  | succ n ih => rw [leBytes, List.length_cons, ih]

/-- The whole of a list of bytes is its own slice. -/
theorem numAt_zero_length {bs : List Byte} {n : Nat} (h : bs.length = n) : numAt bs 0 n = leNat bs := by
  subst h
  simp [numAt, sliceBytes]

/-- A word read from eight bytes is stored as these bytes. -/
theorem leBytes_word {bs : List Byte} (h : bs.length = 8) : leBytes 8 (BitVec.ofNat 64 (numAt bs 0 8)).toNat = bs := by
  have bound : leNat bs < 2 ^ 64 := by
    have := leNat_lt bs
    rw [h] at this
    exact this
  rw [numAt_zero_length h, BitVec.toNat_ofNat, Nat.mod_eq_of_lt bound, ← h, leBytes_leNat]

@[simp] theorem State.length_bytesAt (s : State) (d n : Nat) : (s.bytesAt d n).length = n := by
  simp [State.bytesAt]

/-- The bytes that were stored are read back. -/
theorem State.bytesAt_storeMem (s : State) (d : Nat) (bs : List Byte) : (s.storeMem d bs).bytesAt d bs.length = bs := by
  refine List.ext_getElem (by simp) fun i h _ => ?_
  have inside : i < bs.length := by simpa using h
  simp [State.bytesAt, State.byteAt_storeMem_inside s d bs i inside, inside]

theorem State.byteAt_congr {s t : State} (h : t.stk.mem = s.stk.mem) (a : Nat) : t.byteAt a = s.byteAt a := by
  rw [State.byteAt, h, State.byteAt]

theorem State.bytesAt_congr {s t : State} (h : t.stk.mem = s.stk.mem) (a n : Nat) : t.bytesAt a n = s.bytesAt a n :=
  List.map_congr_left fun i _ => State.byteAt_congr h (a + i)

/-- A state with the memory a store leaves differs from the old one only where it stored. -/
theorem State.byteAt_of_stored {s t : State} {d : Nat} {bs : List Byte} (h : t.stk.mem = (s.storeMem d bs).stk.mem) {a : Nat}
    (ha : a < d ∨ d + bs.length ≤ a) : t.byteAt a = s.byteAt a :=
  (State.byteAt_congr h a).trans (s.byteAt_storeMem_outside d bs ha)

/-! ### Device physical addresses (R252) -/

/-- Stack and channel of a DPA, by the stack's number and the address inside it. -/
theorem dpa_fields {k a : Nat} (hk : k < 12) (ha : a < 0xC00000000) :
    k * 0xC00000000 + a < 2 ^ 40 ∧ dpaStack (k * 0xC00000000 + a) = k ∧
      dpaChannel (k * 0xC00000000 + a) = 32 * k + a / 2 ^ 12 % 32 ∧ dpaDie (k * 0xC00000000 + a) = k / 3 := by
  have quotient : (k * 0xC00000000 + a) / 0xC00000000 = k := by omega
  have rest : (k * 0xC00000000 + a) % 0xC00000000 = a := by omega
  refine ⟨by omega, quotient, ?_, ?_⟩
  · rw [dpaChannel, dpaStack, stackBytes, quotient, rest]
  · rw [dpaDie, dpaStack, stackBytes, quotient]

/-- Every DPA below 0x90_0000_0000 has a stack and an address inside it. -/
theorem dpa_split {d : Nat} (h : d < 0x9000000000) : ∃ k a, k < 12 ∧ a < 0xC00000000 ∧ d = k * 0xC00000000 + a :=
  ⟨d / 0xC00000000, d % 0xC00000000, by omega, Nat.mod_lt _ (by decide), by omega⟩

theorem execAccessionAtomic_absent {dpa : BitVec 40} (h : 0x9000000000 ≤ dpa.toNat) (sub : BitVec 8) (b c : W64)
    (io : ChannelIo) (s : State) : execAccessionAtomic dpa sub b c io s = .fault .absentDpa :=
  if_pos (by unfold dpaEnd; omega)

theorem execApertureRead_absent {s : State} {off : BitVec 24} {size : BitVec 4} (hans : s.answers Reg.STK_CTL.addr = true)
    (hen : s.bit Reg.STK_CTL.aperture_en = true) (h : 0x9000000000 < s.apertureDpa off.toNat + size.toNat) (r : Requester)
    (io : ChannelIo) : execApertureRead r off size io s = .fault .absentDpa := by
  unfold execApertureRead
  exact (if_neg (by simp [hans, hen])).trans (if_pos h)

/-- Settles O39: the arithmetic of stacks and addresses, and the two commands that stop past the last stack. -/
theorem physicalAddresses : Obligations.PhysicalAddresses := by
  refine ⟨fun k a d hk ha hd => hd ▸ dpa_fields hk ha, fun d => dpa_split, fun dpa sub b d io s h => ?_,
    fun r off size io s hans hen h => execApertureRead_absent hans hen h r io, fun s base h => ?_⟩
  · exact execAccessionAtomic_absent h sub b d io s
  · simp only [State.ringFits, Bool.and_eq_true, decide_eq_true_eq] at h
    exact h.1.2

/-! ### Accession commands (R261 to R263) -/

theorem State.accCommand_of_notHeld {s : State} {c : AccCmd} {io : ChannelIo} (h : s.accHold c io = none) :
    s.accCommand c io = s.accPerform c io := by
  rw [State.accCommand, h]

/-- R263: an engine whose units agree performs its step. -/
theorem State.engineStep_of_agree (s : State) (d : Nat) : s.engineStep d 0 = (s, true) := by
  unfold State.engineStep
  exact if_pos (by simp)

/-- A usable command that meets no corrected word and whose engine's units agree is performed and answered. -/
theorem State.accPerform_of_clean {s : State} {c : AccCmd} {io : ChannelIo} (hu : s.accUsable c = true)
    (hcor : io.corrected = 0) (hdis : io.disagree = 0) :
    s.accPerform c io =
      (s.accession c).1.emit (.accession (accReply c (s.accession c).2).1 (accReply c (s.accession c).2).2) := by
  have words : (if (s.accRange c).2 = 0 then s else s.wordsCorrected (s.accRange c).1 io.corrected) = s := by
    rw [State.wordsCorrected, if_pos hcor, ite_self]
  simp only [State.accPerform, hu, words, hdis, State.engineStep_of_agree, Bool.not_true, Bool.false_eq_true, if_false]

/-- A command that waits for no page, meets no corrected word and whose engine's units agree ends as its rule does. -/
theorem State.accCommand_of_clean {s u : State} {c : AccCmd} {io : ChannelIo} {x : AccAns} (hheld : s.accHold c io = none)
    (hu : s.accUsable c = true) (hcor : io.corrected = 0) (hdis : io.disagree = 0) (he : s.accession c = (u, x)) :
    s.accCommand c io = u.emit (.accession (accReply c x).1 (accReply c x).2) := by
  rw [State.accCommand_of_notHeld hheld, State.accPerform_of_clean hu hcor hdis, he]

/-- ATOMIC stores the new word and answers the old one. -/
theorem State.accession_atomic {s : State} {d : Nat} {sub : BitVec 8} {b c v : W64}
    (h : atomicNew sub (BitVec.ofNat 64 (numAt (s.bytesAt d 8) 0 8)) b c = some v) :
    s.accession (.atomic d sub b c) =
      ((s.storeMem d (leBytes 8 v.toNat)).pmuEvent 0x10 0x03 (dpaStack d), .done (s.bytesAt d 8) 0 0) := by
  simp only [State.accession, h]
  rw [leBytes_word (s.length_bytesAt d 8)]

theorem execAccessionAtomic_present {dpa : BitVec 40} {d : Nat} (hd : d = dpa.toNat / 8 * 8) (hend : d < dpaEnd)
    (sub : BitVec 8) (b c : W64) (io : ChannelIo) (s : State) :
    execAccessionAtomic dpa sub b c io s = .next (s.accCommand (.atomic d sub b c) io) := by
  subst hd
  exact if_neg (by omega)

/-- Settles O41: what is stored is read back, and the memory elsewhere is as it was. -/
theorem accessionAtomicWord : Obligations.AccessionAtomicWord := by
  intro dpa sub b c v io s d hd hend hcor hdis hheld hnew
  have performed := State.accCommand_of_clean hheld rfl hcor hdis (State.accession_atomic hnew)
  refine ⟨_, (execAccessionAtomic_present hd hend sub b c io s).trans (congrArg Host.Outcome.next performed), ?_,
    fun a ha => ?_, ?_⟩
  · calc _ = (s.storeMem d (leBytes 8 v.toNat)).bytesAt d 8 := State.bytesAt_congr (by simp) d 8
      _ = leBytes 8 v.toNat := by simpa using s.bytesAt_storeMem d (leBytes 8 v.toNat)
  · exact State.byteAt_of_stored (congrArg StackMem.mem (State.stk_pmuEvent ..)) (by simpa using ha)
  · simp [State.emit, accReply, asDone]

/-! ### Counting while the counters stand still -/

@[simp] theorem State.countLine_mem (s : State) (d : Nat) : (s.countLine d).stk.mem = s.stk.mem := by
  unfold State.countLine
  dsimp only
  split <;> rfl

@[simp] theorem State.countLine_pmuRuns (s : State) (d : Nat) : (s.countLine d).pmuRuns = s.pmuRuns := by
  unfold State.countLine
  dsimp only
  split
  · refine State.count_pmuRuns _ ?_ 1
    simp only [Reg.STK_CNT_ACC_LINES.value, Reg.STK_CNT_ACC_LINES.addr, Reg.PMU_CTL.addr]
    omega
  · rfl

section
variable {s : State} (hpmu : s.pmuRuns = false)
include hpmu

theorem State.linePerformed_of_stopped (d : Nat) : s.linePerformed d = s.countLine d :=
  State.pmuEvent_of_stopped (by rw [State.countLine_pmuRuns, hpmu]) ..

theorem State.countRead_of_stopped (d n : Nat) : s.countRead d n = s := State.pmuEvent_of_stopped hpmu ..

theorem State.storeMem_pmuRuns_of_stopped (d : Nat) (bs : List Byte) : (s.storeMem d bs).pmuRuns = false := by
  unfold State.storeMem
  dsimp only
  rw [State.pmuEvent_of_stopped] <;> exact hpmu

theorem clearLines_pmuRuns_of_stopped (r n l : Nat) : (clearLines r n l s).pmuRuns = false := by
  induction n generalizing l s with
  | zero => exact hpmu
  | succ n ih =>
    refine ih ?_ (l + 1)
    rw [State.countLine_pmuRuns]
    exact State.storeMem_pmuRuns_of_stopped (State.storeMem_pmuRuns_of_stopped hpmu _ _) _ _

end

/-! ### The commands on a line of a region (Table 11-7) -/

theorem length_metaBytes (a : List Int) (adds : Nat) (valid : BitVec 8) : (metaBytes a adds valid).length = 64 := by
  simp [metaBytes]

theorem length_laneBytes (lanes : List W64) : (lanes.flatMap fun v => leBytes 8 v.toNat).length = 8 * lanes.length := by
  simp [Nat.mul_comm]

section
variable {s : State} {r l : Nat} (hpmu : s.pmuRuns = false) (hu : s.regionUsable r l = true)
include hpmu hu

theorem State.accession_clear {n : Nat} (hn : l + n ≤ s.regionLines r) :
    s.accession (.clear r l n) = (clearLines r n l s, .done [] 0 0) := by
  simp [State.accession, hu, hn, State.pmuEvent_of_stopped (clearLines_pmuRuns_of_stopped hpmu r n l)]

theorem State.accession_setA (a : List Int) :
    s.accession (.setA r l a) = ((s.storeMem (s.metaDpa r l) (metaBytes a (s.lineMeta r l).2.1 (s.lineMeta r l).2.2)).countLine
      (s.lineDpa r l), .done [] 0 0) := by
  simp [State.accession, hu, State.putMeta, State.linePerformed_of_stopped (State.storeMem_pmuRuns_of_stopped hpmu _ _)]

theorem State.accession_readLanes :
    s.accession (.readLanes r l) = (s.countLine (s.lineDpa r l),
      .done (s.bytesAt (s.lineDpa r l) (laneBytes (s.regionFmt r)) ++ s.bytesAt (s.metaDpa r l) 64) 0 0) := by
  simp [State.accession, hu, State.countRead_of_stopped hpmu, State.linePerformed_of_stopped hpmu]

theorem State.accession_writeLanes (lanes : List W64) :
    s.accession (.writeLanes r l lanes) = ((s.storeMem (s.lineDpa r l) (lanes.flatMap fun v => leBytes 8 v.toNat)).countLine
      (s.lineDpa r l), .done [] 0 0) := by
  simp [State.accession, hu, State.putLanes, State.linePerformed_of_stopped (State.storeMem_pmuRuns_of_stopped hpmu _ _)]

theorem State.accession_readFmt {bs sc : List Byte} {sats : Nat}
    (h : resultLine (s.regionW0 r) (s.regionW1 r) (s.lineMeta r l).1 (s.lineMeta r l).2.2 (s.lineLanes r l) = (bs, sc, sats)) :
    s.accession (.readFmt r l) = (s.countLine (s.lineDpa r l), .done (bs ++ sc) 0 sats) := by
  simp [State.accession, hu, h, State.linePerformed_of_stopped hpmu]

end

section
variable {s : State} {r l fmt : Nat} {part : BitVec 12} (hu : s.regionUsable r l = true) (hfmt : fmt = s.regionFmt r)
  (hpart : part = s.regionPart r)
include hu hfmt hpart

theorem State.accession_add (hsum : isSum (awOp (s.regionW0 r)) = true) (data scales : List Byte) :
    s.accession (.add r l part fmt data scales) = s.accAdd r l [(data, scales)] := by
  simp [State.accession, hu, hfmt, hpart, hsum]

theorem State.accession_merge (hsum : isSum (awOp (s.regionW0 r)) = false) (data scales : List Byte) :
    s.accession (.merge r l part fmt data scales) = s.accAdd r l [(data, scales)] := by
  simp [State.accession, hu, hfmt, hpart, hsum]

end

/-- Settles O40: each command on the line is performed (`State.accCommand_of_clean`) by its row of Table 11-7. -/
theorem accessionCommands : Obligations.AccessionCommands := by
  intro r l io s hcor hdis hpmu hu ld md hld hmd
  subst hld hmd
  have performed {c : AccCmd} {u : State} {x : AccAns} (hheld : s.accHold c io = none) (usable : s.accUsable c = true)
      (he : s.accession c = (u, x)) := State.accCommand_of_clean hheld usable hcor hdis he
  refine ⟨fun n hn hheld => ?clear, fun a hheld => ?setA, fun hheld => ?readLanes, fun lanes full hfull hheld => ?writeLanes,
    fun bs sc sats hres hheld => ?readFmt, fun part fmt data scales u x clamps hfmt hpart hadd =>
      ⟨fun hsum hheld => ?add, fun hsum hheld => ?merge⟩⟩
  case clear =>
    have usable : s.accUsable (.clear r.toNat l.toNat n.toNat) = true := by simp [State.accUsable, hu, hn]
    exact congrArg Host.Outcome.next (performed hheld usable (State.accession_clear hpmu hu hn))
  case setA =>
    refine ⟨_, congrArg Host.Outcome.next (performed hheld hu (State.accession_setA hpmu hu a)), rfl, fun x hx => ?_⟩
    exact State.byteAt_of_stored (State.countLine_mem ..) (by rwa [length_metaBytes])
  case readLanes =>
    exact ⟨_, congrArg Host.Outcome.next (performed hheld hu (State.accession_readLanes hpmu hu)), by simp, rfl⟩
  case writeLanes =>
    subst hfull
    refine ⟨_, congrArg Host.Outcome.next (performed hheld hu (State.accession_writeLanes hpmu hu _)), rfl, fun x hx => ?_⟩
    exact State.byteAt_of_stored (State.countLine_mem ..) (by rwa [length_laneBytes])
  case readFmt => exact congrArg Host.Outcome.next (performed hheld hu (State.accession_readFmt hpmu hu hres))
  case add =>
    exact congrArg Host.Outcome.next (performed hheld hu ((State.accession_add hu hfmt hpart hsum data scales).trans hadd))
  case merge =>
    exact congrArg Host.Outcome.next (performed hheld hu ((State.accession_merge hu hfmt hpart hsum data scales).trans hadd))

/-! ### Stack memory by time and by register (R256, R259, R268 to R270, R273) -/

/-- A filter by keys keeps what the kept keys read, and empties the others. -/
theorem SMap.read_filter_keys {α : Type} (d : α) (p : Nat → Bool) (m : SMap α) (k : Nat) :
    SMap.read d (m.filter fun e => p e.1) k = if p k then m.read d k else d := by
  induction m with
  | nil => simp
  | cons e m ih =>
    by_cases hk : k = e.1
    · subst hk
      cases hp : p e.1 <;> simp [SMap.read, hp, ih]
    · cases hp : p e.1 <;> simp [SMap.read, hp, hk, ih]

theorem State.byteAt_zeroMemory (s : State) (d : Nat) :
    s.zeroMemory.byteAt d = if s.keptByFill d then s.byteAt d else 0 :=
  SMap.read_filter_keys 0 s.keptByFill s.stk.mem d

/-- R268: the decode of a page has ended; its accesses go on, or the first of them meets the lost word. -/
theorem execPageMendDone_of_held {dpa : BitVec 40} {s : State} {w : Nat} {as : List Access}
    (h : s.stk.pages.get (dpa.toNat / 4096) = some (w, as)) {u : State}
    (hu : u = { s with stk.pages := s.stk.pages.del (dpa.toNat / 4096) }) :
    execPageMendDone dpa true s =
        .next ((as.foldl State.accessAgain (u.pageMended (dpa.toNat / 4096))).emitWaiting) ∧
      execPageMendDone dpa false s = .next (((as.drop 1).foldl State.accessAgain (u.pageLost w as)).emitWaiting) := by
  subst hu
  simp [execPageMendDone, h]

section
variable {s u : State} {v : W32} {r : Nat} (hgo : v.getLsbD 14 = true) (hu : u = s.storeFields Reg.STK_REGION_CMD.addr v)
  (hr : r = Reg.STK_REGION_CMD.region.of v)
include hgo hu hr

theorem State.writeRegionCmd_install (hop : Reg.STK_REGION_CMD.op.of v = 0) (hvalid : u.regionValid r = false)
    (hrange : u.regionRangeBad r = false) (hwords : u.regionWordsBad r = false) :
    s.writeRegionCmd v = ((((u.setFld (Reg.STK_REGION_W0.valid r) 1).setFld (Reg.STK_REGION_W0.busy r) 0).startClearing
      r).reconfigured u).setFld Reg.STK_REGION_CMD.status 2 := by
  subst hu hr
  simp [State.writeRegionCmd, hgo, hop, State.regionInstall, hvalid, hrange, hwords, State.regionStatus]

theorem State.writeRegionCmd_remove (hop : Reg.STK_REGION_CMD.op.of v = 1) (hbusy : u.regionBusy r = false)
    (hclear : u.stk.clearing.contains r = false) :
    s.writeRegionCmd v = (((u.setFld (Reg.STK_REGION_W0.valid r) 0).setFld (Reg.STK_REGION_W0.clear_done r) 0).reconfigured
      u).setFld Reg.STK_REGION_CMD.status 1 := by
  subst hu hr
  simp [State.writeRegionCmd, hgo, hop, State.regionRemove, hbusy, hclear, State.regionStatus, -List.contains_eq_mem]

theorem State.writeRegionCmd_remove_busy (hop : Reg.STK_REGION_CMD.op.of v = 1) (hbusy : u.regionBusy r = true) :
    s.writeRegionCmd v = (u.setFld Reg.STK_REGION_CMD.status 3).raise Reg.STK_INT_STATUS.region_refused := by
  subst hu hr
  simp [State.writeRegionCmd, hgo, hop, State.regionRemove, hbusy, State.regionStatus]

theorem State.writeRegionCmd_clearAll (hop : Reg.STK_REGION_CMD.op.of v = 2) (hvalid : u.regionValid r = true)
    (hbusy : u.regionBusy r = false) (hclear : u.stk.clearing.contains r = false) :
    s.writeRegionCmd v = (u.startClearing r).setFld Reg.STK_REGION_CMD.status 2 := by
  subst hu hr
  simp [State.writeRegionCmd, hgo, hop, State.regionClearAll, hvalid, hbusy, hclear, State.regionStatus,
    -List.contains_eq_mem]

end

/-- The three commands of STK_REGION_CMD, each by its op. -/
theorem regionCmd_of_op {s : State} {v : W32} (hgo : v.getLsbD 14 = true)
    (hw : s.writable Reg.STK_REGION_CMD.addr v = true) (hc : isConfig Reg.STK_REGION_CMD.addr = false) :
    (Reg.STK_REGION_CMD.op.of v = 0 → execRegionInstall v s = .next (s.writeRegionCmd v)) ∧
    (Reg.STK_REGION_CMD.op.of v = 1 → execRegionRemove v s = .next (s.writeRegionCmd v)) ∧
    (Reg.STK_REGION_CMD.op.of v = 2 → execRegionClearAll v s = .next (s.writeRegionCmd v)) := by
  have written : Host.Outcome.next (s.regWrite Reg.STK_REGION_CMD.addr v fun s => s.writeRegionCmd v) =
      (.next (s.writeRegionCmd v) : Outcome) := congrArg Host.Outcome.next (State.regWrite_of_writable hw hc _)
  have named {op : Nat} (hop : Reg.STK_REGION_CMD.op.of v = op) : regionOp v op = true := by simp [regionOp, hgo, hop]
  exact ⟨fun hop => (if_pos (named hop)).trans written, fun hop => (if_pos (named hop)).trans written,
    fun hop => (if_pos (named hop)).trans written⟩

/-- R273: the end of a fill shows in STK_STATUS, and only kept bytes remain. -/
theorem execZeroFillDone_of_busy {s : State} (h : s.bit Reg.STK_STATUS.fill_busy = true) :
    ∃ t, execZeroFillDone s = .next t ∧ t.bit Reg.STK_STATUS.fill_busy = false ∧ t.bit Reg.STK_STATUS.fill_done = true ∧
      t.stk.fillPending = false ∧ ∀ d, t.byteAt d = if s.keptByFill d then s.byteAt d else 0 := by
  have fits : Reg.STK_STATUS.fill_done.fits := by unfold Fld.fits; decide
  have fits' : Reg.STK_STATUS.fill_busy.fits := by unfold Fld.fits; decide
  refine ⟨_, if_pos h, ?_, ?_, by simp, fun d => ?_⟩
  · exact (State.bit_raise_ne _ (by decide)).trans ((State.bit_setFld_apart _ fits 1 (by decide)).trans
      (State.bit_setFld_zero _ fits'))
  · exact (State.bit_raise_ne _ (by decide)).trans (State.bit_setFld_one _ fits rfl)
  · exact (State.byteAt_congr (by simp) d).trans (s.byteAt_zeroMemory d)

theorem execApertureRead_disabled {s : State} {off : BitVec 24} {size : BitVec 4}
    (h : s.bit Reg.STK_CTL.aperture_en = false) (r : Requester) (io : ChannelIo) :
    execApertureRead r off size io s = .next (s.emit (.aperture (List.replicate size.toNat 0xFF))) :=
  if_pos (.inr (by simp [h]))

theorem execApertureRead_enabled {s : State} {off : BitVec 24} {size : BitVec 4} {io : ChannelIo} {r : Requester} {d : Nat}
    (hans : s.answers Reg.STK_CTL.addr = true) (hen : s.bit Reg.STK_CTL.aperture_en = true) (hcor : io.corrected = 0)
    (hpmu : s.pmuRuns = false) (hd : d = s.apertureDpa off.toNat) (hend : d + size.toNat ≤ dpaEnd)
    (hheld : s.holdPage d size.toNat io (.aperture r off.toNat size.toNat) = none) :
    execApertureRead r off size io s = .next (s.emit (.aperture (s.bytesAt d size.toNat))) := by
  subst hd
  have counted : (s.wordsCorrected (s.apertureDpa off.toNat) io.corrected).countRead (s.apertureDpa off.toNat) size.toNat = s := by
    rw [State.wordsCorrected, if_pos hcor, State.countRead_of_stopped hpmu]
  unfold execApertureRead
  refine (if_neg (by simp [hans, hen])).trans ((if_neg (by omega)).trans ?_)
  simp only [hheld, State.apertureGo, counted]

/-- Settles O42: one equation per event, the region commands by what `writeRegionCmd` makes of their op. -/
theorem stackCommands : Obligations.StackCommands := by
  intro s
  refine ⟨fun dpa w as hheld u hu => execPageMendDone_of_held hheld hu, fun hen => if_pos hen,
    fun st c v ch hv hst hch hw hc => ?restore, fun v u r hgo hw hc hu hr => ?region, fun r h => if_pos h,
    execZeroFillDone_of_busy, fun q off size io hans => ⟨fun hen => ?disabled, fun hen hcor hpmu d hd hend hheld => ?enabled⟩⟩
  case restore =>
    subst hch
    exact (if_pos ⟨hv, hst⟩).trans (congrArg Host.Outcome.next (State.regWrite_of_writable hw hc _))
  case region =>
    obtain ⟨install, remove, clearAll⟩ := regionCmd_of_op hgo hw hc
    exact ⟨fun hop hvalid hrange hwords => (install hop).trans (congrArg Host.Outcome.next
        (State.writeRegionCmd_install hgo hu hr hop hvalid hrange hwords)),
      fun hop hbusy hclear => (remove hop).trans (congrArg Host.Outcome.next
        (State.writeRegionCmd_remove hgo hu hr hop hbusy hclear)),
      fun hop hvalid hbusy hclear => (clearAll hop).trans (congrArg Host.Outcome.next
        (State.writeRegionCmd_clearAll hgo hu hr hop hvalid hbusy hclear)),
      fun hop hbusy => (remove hop).trans (congrArg Host.Outcome.next
        (State.writeRegionCmd_remove_busy hgo hu hr hop hbusy))⟩
  case disabled => exact execApertureRead_disabled hen q io
  case enabled => exact execApertureRead_enabled hans hen hcor hpmu hd hend hheld

end Sys2Proof.Machine
end

section
/-!
PROOFS. The memory endpoint (chapter 12): requests that are performed (R276, R278 to R280, R286), and what the endpoint does
later (R277, R281, R283, R286 to R291).
-/

namespace Sys2Proof.Machine

/-! ### What counting and records leave -/

/-- From s to t only registers that `p` does not name change, beside the almanac, free values and what is sent out. -/
structure State.Spares (p : Nat → Prop) (s t : State) : Prop where
  reg : ∀ o, p o → t.reg o = s.reg o
  rest : t = { s with regs := t.regs, out := t.out, fresh := t.fresh, alm := t.alm }

namespace State.Spares

variable {p : Nat → Prop} {s t u : State}

theorem refl (p : Nat → Prop) (s : State) : s.Spares p s := ⟨fun _ _ => rfl, rfl⟩

theorem trans (h : s.Spares p t) (k : t.Spares p u) : s.Spares p u :=
  ⟨fun o ho => (k.reg o ho).trans (h.reg o ho), by rw [k.rest, h.rest]⟩

theorem mono {q : Nat → Prop} (h : s.Spares p t) (hq : ∀ o, q o → p o) : s.Spares q t := ⟨fun o ho => h.reg o (hq o ho), h.rest⟩

theorem foldl {α : Type} {f : State → α → State} (h : ∀ t a, State.Spares p t (f t a)) (l : List α) (s : State) :
    s.Spares p (l.foldl f s) :=
  List.foldlRecOn l f (.refl p s) fun t ht a _ => ht.trans (h t a)

theorem ite {c : Prop} [Decidable c] (ht : s.Spares p t) (hu : s.Spares p u) : s.Spares p (if c then t else u) := by
  split
  · exact ht
  · exact hu

theorem emit (h : s.Spares p t) (x : Output) : s.Spares p (t.emit x) := h.trans ⟨fun _ _ => rfl, rfl⟩

theorem draw (h : s.Spares p t) : s.Spares p t.draw := h.trans ⟨fun _ _ => rfl, rfl⟩

theorem setReg (h : s.Spares p t) {off : Nat} (v : W32) (hoff : ¬p off) : s.Spares p (t.setReg off v) :=
  h.trans ⟨fun _ ho => State.reg_setReg_ne t v fun e => hoff (e ▸ ho), rfl⟩

theorem setFld (h : s.Spares p t) {f : Fld} (v : Nat) (hf : ¬p f.off) : s.Spares p (t.setFld f v) := h.setReg _ hf

theorem count (h : s.Spares p t) {f : Fld} (n : Nat) (hf : ¬p f.off) : s.Spares p (t.count f n) := h.setFld _ hf

theorem setPair (h : s.Spares p t) {f : Fld} (v : Nat) (hlo : ¬p f.off) (hhi : ¬p (f.off + 4)) : s.Spares p (t.setPair f v) :=
  (h.setReg _ hlo).setReg _ hhi

theorem raise (h : s.Spares p t) {f : Fld} (hf : ¬p f.off) : s.Spares p (t.raise f) := by
  refine h.trans ⟨fun o ho => ?_, ?_⟩
  · rw [State.reg_raise, State.reg_setFld_ne t 1 fun e => hf (by rwa [← e])]
  · rw [State.raise_eq]

/-- A record changes at most the causes of GLB and the alert bit. -/
theorem log (h : s.Spares p t) (block : BitVec 8) (ev : AlmEvent) (index : Nat) (d : List Nat)
    (hint : ¬p Reg.GLB_INT_STATUS.addr) (hst : ¬p Reg.GLB_STATUS.addr) : s.Spares p (t.log block ev index d) := by
  obtain ⟨reg, rest⟩ := t.log_same block ev index d
  refine h.trans ⟨fun o ho => reg o (fun e => hint (e ▸ ho)) fun e => hst (e ▸ ho), ?_⟩
  rw [rest]

end State.Spares

/-- The registers below those of the PMU. -/
def belowPmu (o : Nat) : Prop := o < 0x19000000

/-- The registers that a sample leaves (R416). -/
def notOfSample (o : Nat) : Prop :=
  o < 0x19001000 ∧ o ≠ Reg.PMU_INT_STATUS.addr ∧ o ≠ Reg.PMU_SMP_PROD.addr ∧ o ≠ Reg.PMU_SMP_LOST.addr

/-- The registers that counting by counter n leaves (R411, R413, R416). -/
def notOfCounter (n o : Nat) : Prop :=
  notOfSample o ∧ o ≠ Reg.PMU_CTL.addr ∧ o ≠ Reg.PMU_OVF_LO.addr ∧ o ≠ Reg.PMU_OVF_HI.addr ∧ o ≠ Reg.PMU_CNT_LO.addr n ∧
    o ≠ Reg.PMU_CNT_LO.addr n + 4

theorem notOfCounter_of_belowPmu (n : Nat) {o : Nat} (h : belowPmu o) : notOfCounter n o := by
  simp only [belowPmu, notOfCounter, notOfSample, Reg.PMU_INT_STATUS.addr, Reg.PMU_SMP_PROD.addr, Reg.PMU_SMP_LOST.addr,
    Reg.PMU_CTL.addr, Reg.PMU_OVF_LO.addr, Reg.PMU_OVF_HI.addr, Reg.PMU_CNT_LO.addr] at h ⊢
  omega

theorem State.spares_pmuSample (s : State) (n block index : Nat) (given : Option (Nat × Nat × Nat)) :
    s.Spares notOfSample (s.pmuSample n block index given) := by
  have slot (i : Nat) : ¬notOfSample (Reg.PMU_SMP.addr i) := by
    simp only [notOfSample, Reg.PMU_SMP.addr]
    omega
  unfold State.pmuSample
  dsimp only
  split
  · exact ((State.Spares.refl _ s).count 1 (by unfold notOfSample; decide)).raise (by unfold notOfSample; decide)
  · refine State.Spares.raise (.setReg ?_ _ (by unfold notOfSample; decide)) (by unfold notOfSample; decide)
    iterate 8 refine .setReg ?_ _ (slot _)
    exact (State.Spares.refl _ s).draw

theorem State.spares_pmuAdd (s : State) (n k block index : Nat) (given : Option (Nat × Nat × Nat)) :
    s.Spares (notOfCounter n) (s.pmuAdd n k block index given) := by
  have counted {t : State} (h : s.Spares (notOfCounter n) t) (v : Nat) :
      s.Spares (notOfCounter n) (t.setPair (Reg.PMU_CNT_LO.value n) v) :=
    h.setPair v (fun ⟨_, _, _, _, lo, _⟩ => lo rfl) fun ⟨_, _, _, _, _, hi⟩ => hi rfl
  have flag : ¬notOfCounter n (if n < 32 then Reg.PMU_OVF_LO.addr else Reg.PMU_OVF_HI.addr) := by
    split
    · exact fun ⟨_, _, lo, _⟩ => lo rfl
    · exact fun ⟨_, _, _, hi, _⟩ => hi rfl
  have overflown (v : Nat) : s.Spares (notOfCounter n) (((s.setPair (Reg.PMU_CNT_LO.value n) v).setFld
      ⟨if n < 32 then Reg.PMU_OVF_LO.addr else Reg.PMU_OVF_HI.addr, n % 32, 1⟩ 1).raise Reg.PMU_INT_STATUS.ovf) :=
    ((counted (.refl _ s) v).setFld 1 flag).raise fun ⟨⟨_, cause, _⟩, _⟩ => cause rfl
  have frozen (v : Nat) := (overflown v).setFld (f := Reg.PMU_CTL.freeze) 1 fun ⟨_, ctl, _⟩ => ctl rfl
  have sampled {t : State} (h : s.Spares (notOfCounter n) t) :
      s.Spares (notOfCounter n) (t.pmuSample n block index given) :=
    h.trans ((t.spares_pmuSample ..).mono fun _ => And.left)
  unfold State.pmuAdd
  dsimp only
  refine .ite (counted (.refl _ s) _) (.ite (sampled (.ite ?_ (counted ?_ _))) ?_)
  all_goals exact .ite (frozen _) (overflown _)

/-- Counting an event changes only registers of the PMU. -/
theorem State.spares_pmuEvent (s : State) (block event index : Nat) (vc : Option Nat) (k : Nat)
    (given : Option (Nat × Nat × Nat)) : s.Spares belowPmu (s.pmuEvent block event index vc k given) := by
  unfold State.pmuEvent
  exact .ite (.foldl (fun t n => .ite ((t.spares_pmuAdd ..).mono fun _ => notOfCounter_of_belowPmu n) (.refl _ t)) _ s)
    (.refl _ s)

@[simp] theorem State.pmuEvent_msf (s : State) (block event index : Nat) (vc : Option Nat) (k : Nat)
    (given : Option (Nat × Nat × Nat)) : (s.pmuEvent block event index vc k given).msf = s.msf := by
  rw [(s.spares_pmuEvent block event index vc k given).rest]

@[simp] theorem State.storeMem_msf (s : State) (d : Nat) (bs : List Byte) : (s.storeMem d bs).msf = s.msf :=
  State.pmuEvent_msf ..

@[simp] theorem State.count_msf (s : State) (f : Fld) (n : Nat) : (s.count f n).msf = s.msf := rfl

/-! ### A request that is performed (R286, R287, R443) -/

theorem exec_atomic_arrives {f : Frame} (ht : f.ftype = ftMemReq) (hd : f.dclass = true) (ho : f.opcode = reqAtomic) (p : Port)
    (x : Stamp) (ok : Bool) (io : ChannelIo) (s : State) :
    exec (.atomic p f x ok io) s = .next (s.memArrive p f x ok io) :=
  if_pos (isOwnReq_of ht hd ho)

theorem exec_reduceInto_arrives {f : Frame} (ht : f.ftype = ftMemReq) (hd : f.dclass = true) (ho : f.opcode = reqReduce)
    (p : Port) (x : Stamp) (ok : Bool) (io : ChannelIo) (s : State) :
    exec (.reduceInto p f x ok io) s = .next (s.memArrive p f x ok io) :=
  if_pos (isOwnReq_of ht hd ho)

/-- A request that passes the checks of R443 reaches its home die. -/
theorem State.memIn_perform {s : State} {p : Port} {f : Frame} (x : Stamp) (k : Nat) (io : ChannelIo) (hd : f.dclass = true)
    {d : Nat} (hw : (s.countLookup (dieOf p) f).memWay f = .perform d) :
    s.memIn { port := p, frame := f, stamp := x, buf := k, io := io } =
      ((s.serialTaken (dieOf p) f).freeBuf k).ownIn { s.reqOf p f with dpa := d } io := by
  simp [State.memIn, State.serialTaken, State.reqOf, hd, hw]

/-- R286, R287: a request that repeats none and that no combining entry takes reaches its channel. -/
theorem State.ownIn_of_new {s w : State} {q : MemReq} {io : ChannelIo}
    (hnew : filtered q.frame = true → s.filterRec (dpaDie q.dpa) q.frame = none)
    (hhand : s.inHand (dpaDie q.dpa) q.frame = false)
    (hoffer : s.offer (ownRange q) q (s.bit Reg.MSF_CTL.combine_en) = (w, false)) :
    s.ownIn q io = w.issueReqs (dpaDie q.dpa) [q] (.request q) io := by
  have noRecord : (if s.bit Reg.MSF_CTL.filter_en && filtered q.frame then s.filterRec (dpaDie q.dpa) q.frame else none) = none := by
    split
    · rename_i on
      exact hnew (Bool.and_eq_true_iff.mp on).2
    · rfl
  simp only [State.ownIn, noRecord]
  simp [hhand, hoffer]

/-- R267: a request whose words are readable, and none corrected, is performed. -/
theorem State.issueReqs_of_readable {s : State} {die : Nat} {q : MemReq} {a : Access} {io : ChannelIo}
    (hheld : s.holdWords q.dpa (State.reqReads [q]) io a = none) (hcor : io.corrected = 0) (hdis : io.disagree = 0) :
    s.issueReqs die [q] a io = s.doReqs die [q] 0 := by
  simp [State.issueReqs, hheld, State.wordsCorrected, hcor, hdis]

/-- A request that is performed, from its arrival to its operation on memory. -/
theorem State.memArrive_of_performs {s w : State} {p : Port} {f : Frame} {x : Stamp} {io : ChannelIo} {q : MemReq}
    (h : s.performs w p f x io q) : f.ftype = ftMemReq ∧ f.dclass = true ∧ q.frame = f ∧
      s.memArrive p f x true io = w.doReqs (dpaDie q.dpa) [q] 0 := by
  obtain ⟨v, u, k, hleaves, ht, hd, hway, hq, hu, hnew, hhand, hoffer, hheld, hcor, hdis⟩ := h
  have hf : q.frame = f := congrArg MemReq.frame hq
  have named : { v.reqOf p f with dpa := q.dpa } = q := hq.symm
  have free : (v.serialTaken (dieOf p) f).freeBuf k = u := hu.symm
  refine ⟨ht, hd, hf, ?_⟩
  rw [State.memArrive_of_leavesMeter hleaves ht, State.memIn_perform x k io hd hway, named, free,
    State.ownIn_of_new (hf ▸ hnew) (hf ▸ hhand) hoffer, State.issueReqs_of_readable hheld hcor hdis]

/-! ### The operations on memory (R276, R278 to R280) -/

section
variable (s : State) (die : Nat) (q : MemReq) (n : Nat)

theorem State.doReqs_load (h : q.frame.opcode = reqLoad) :
    s.doReqs die [q] n = (((s.countRead q.dpa (loadSize q.frame)).count Reg.MSF_CNT_LOAD.value).pmuEvent 0x12 0x01 die).answer
      die q rspData 0 ((((s.countRead q.dpa (loadSize q.frame)).count Reg.MSF_CNT_LOAD.value).pmuEvent 0x12 0x01 die).bytesAt
        q.dpa (loadSize q.frame)) := by
  simp only [State.doReqs, h, if_true]

theorem State.doReqs_store (h : q.frame.opcode = reqStore) : s.doReqs die [q] n = s.doStores die [q] q := by
  have other : ¬reqStore = reqLoad := by decide
  simp only [State.doReqs, h, other, if_true, if_false]

theorem State.doReqs_reduceWindow (h : q.frame.opcode = reqReduce) (hr : redRegion q.frame = false) :
    s.doReqs die [q] n = s.redWindow die [q] q := by
  have others : ¬reqReduce = reqLoad ∧ ¬reqReduce = reqStore ∧ ¬reqReduce = reqAtomic := by decide
  simp [State.doReqs, h, others, hr]

theorem State.doReqs_reduceRegion (h : q.frame.opcode = reqReduce) (hr : redRegion q.frame = true)
    (hok : s.redRegionOk q.frame = true) :
    s.doReqs die [q] 0 = s.redRegionOne die (redLine q.frame).1 (redLine q.frame).2 q := by
  have others : ¬reqReduce = reqLoad ∧ ¬reqReduce = reqStore ∧ ¬reqReduce = reqAtomic := by decide
  simp [State.doReqs, h, others, hr, State.redRegionAll, hok, State.engineStep_of_agree]

theorem State.doReqs_atomic (h : q.frame.opcode = reqAtomic) (hcas : q.frame.memMod ≠ 2) {v : W64}
    (hv : atomicNew q.frame.memMod (BitVec.ofNat 64 (numAt (s.bytesAt q.dpa 8) 0 8))
      (BitVec.ofNat 64 (numAt q.frame.payload 0 8)) 0 = some v) {u : State} {old : List Byte}
    (hu : u = (((s.storeMem q.dpa (leBytes 8 v.toNat)).pmuEvent 0x10 0x03 (dpaStack q.dpa)).count
      Reg.MSF_CNT_ATOMIC.value).pmuEvent 0x12 0x01 die)
    (hold : old = leBytes 8 (BitVec.ofNat 64 (numAt (s.bytesAt q.dpa 8) 0 8)).toNat) :
    s.doReqs die [q] 0 = (u.answer die q rspData 0 old).filterPut die q rspData 0 old := by
  have others : ¬reqAtomic = reqLoad ∧ ¬reqAtomic = reqStore := by decide
  subst hu hold
  simp only [State.doReqs, h, others, if_false, if_true, State.engineStep_of_agree, hcas, State.accession, hv]

end

/-- What a STORE leaves: its payload in memory, and the write that its channel will accept. -/
theorem State.doStores_one (s : State) (die : Nat) (q : MemReq) :
    (s.doStores die [q] q).stk.mem = (s.storeMem q.dpa q.frame.payload).stk.mem ∧
      (s.doStores die [q] q).msf.writes.read [] (dpaChannel q.dpa) =
        s.msf.writes.read [] (dpaChannel q.dpa) ++ [.one q 0] := by
  simp [State.doStores, State.queueAck, ackOf]

/-- Settles O43: a performed request does its opcode's operation (`State.memArrive_of_performs`). -/
theorem memoryRequests : Obligations.MemoryRequests := by
  intro p f x io q s w h die hdie
  subst hdie
  obtain ⟨ht, hd, hf, arrives⟩ := State.memArrive_of_performs h
  subst hf
  refine ⟨fun ho => ?load, fun ho => ?store, fun v ho hcas hv u hu old hold => ?atomic, fun ho hr => ?window,
    fun ho hr hok => ?region⟩
  case load =>
    have bytes : (((w.countRead q.dpa (loadSize q.frame)).count Reg.MSF_CNT_LOAD.value).pmuEvent 0x12 0x01
        (dpaDie q.dpa)).bytesAt q.dpa (loadSize q.frame) = w.bytesAt q.dpa (loadSize q.frame) :=
      State.bytesAt_congr (by simp [State.countRead]) _ _
    rw [exec_load_arrives ht hd ho, arrives, State.doReqs_load _ _ _ _ ho, bytes]
  case store =>
    obtain ⟨stored, waits⟩ := w.doStores_one (dpaDie q.dpa) q
    refine ⟨_, ?_, fun i hi => ?_, fun a ha => State.byteAt_of_stored stored ha, waits⟩
    · rw [exec_store_arrives ht hd ho, arrives, State.doReqs_store _ _ _ _ ho]
    · exact (State.byteAt_congr stored _).trans (w.byteAt_storeMem_inside _ _ i hi)
  case atomic => rw [exec_atomic_arrives ht hd ho, arrives, State.doReqs_atomic _ _ _ ho hcas hv hu hold]
  case window => rw [exec_reduceInto_arrives ht hd ho, arrives, State.doReqs_reduceWindow _ _ _ _ ho hr]
  case region => rw [exec_reduceInto_arrives ht hd ho, arrives, State.doReqs_reduceRegion _ _ _ ho hr hok]

/-! ### What a change of the configuration leaves of the registers (R347, R350) -/

theorem foldl_regs {α : Type} {f : State → α → State} (h : ∀ s a, (f s a).regs = s.regs) (l : List α) (s : State) :
    (l.foldl f s).regs = s.regs :=
  List.foldlRecOn (motive := fun t => t.regs = s.regs) l f rfl fun t ht a _ => (h t a).trans ht

theorem State.reg_of_regs {s t : State} (h : t.regs = s.regs) (o : Nat) : t.reg o = s.reg o := by
  rw [State.reg, h, State.reg]

/-- A record leaves every register but the causes and the status of GLB. -/
theorem State.reg_log_ne (s : State) (block : BitVec 8) (ev : AlmEvent) (index : Nat) (d : List Nat) {o : Nat}
    (hint : o ≠ Reg.GLB_INT_STATUS.addr) (hst : o ≠ Reg.GLB_STATUS.addr) : (s.log block ev index d).reg o = s.reg o :=
  (s.log_same block ev index d).1 o hint hst

/-- One object that an amendment carried is disarmed. -/
def State.disarm (s : State) (k : Nat) : State :=
  s.setAct k { s.act k with pending := false, state := 0, reason := arNone }

/-- An amendment is gone, and the objects it carried are disarmed (R350). -/
def State.disarmed (s : State) (a : Amendment) : State :=
  { (objAmend :: imgObjects a.image).foldl State.disarm s with cfg.pendingAmend := none }

theorem State.dropAmendment_of_pending {s : State} {a : Amendment} (h : s.cfg.pendingAmend = some a) (cause : Nat)
    (ev : AlmEvent) : s.dropAmendment cause ev =
      (((s.disarmed a).log 0x17 ev).setFld Reg.CFG_AMEND_STATUS.cause cause).raise Reg.CFG_INT_STATUS.amend_discarded := by
  unfold State.dropAmendment
  rw [h]
  rfl

theorem State.disarmed_regs (s : State) (a : Amendment) : (s.disarmed a).regs = s.regs := by
  have left := foldl_regs (f := State.disarm) (fun _ _ => rfl) (objAmend :: imgObjects a.image) s
  unfold State.disarmed
  generalize List.foldl State.disarm s (objAmend :: imgObjects a.image) = t at left ⊢
  exact left

/-- Where dropping a pending amendment may leave a trace: the causes and the status of GLB, the status and the causes of CFG. -/
def amendTrace (o : Nat) : Prop :=
  o = Reg.GLB_INT_STATUS.addr ∨ o = Reg.GLB_STATUS.addr ∨ o = Reg.CFG_AMEND_STATUS.addr ∨ o = Reg.CFG_INT_STATUS.addr

theorem State.reg_dropAmendment_ne (s : State) (cause : Nat) (ev : AlmEvent) {o : Nat} (h : ¬amendTrace o) :
    (s.dropAmendment cause ev).reg o = s.reg o := by
  simp only [amendTrace, not_or] at h
  obtain ⟨hint, hst, hamend, hcause⟩ := h
  cases hp : s.cfg.pendingAmend with
  | none => rw [State.dropAmendment, hp]
  | some a =>
    rw [State.dropAmendment_of_pending hp, State.reg_raise, State.reg_setFld_ne _ _ hcause, State.reg_setFld_ne _ _ hamend,
      State.reg_log_ne _ _ _ _ _ hint hst, State.reg_of_regs (s.disarmed_regs a)]

/-- Of the causes of CFG only amend_discarded may be raised. -/
theorem State.fld_dropAmendment_cause (s : State) (cause : Nat) (ev : AlmEvent) {g : Fld}
    (hoff : g.off = Reg.CFG_INT_STATUS.addr) (hg : Reg.CFG_INT_STATUS.amend_discarded.lo + 1 ≤ g.lo ∨
      g.lo + g.width ≤ Reg.CFG_INT_STATUS.amend_discarded.lo) : (s.dropAmendment cause ev).fld g = s.fld g := by
  cases hp : s.cfg.pendingAmend with
  | none => rw [State.dropAmendment, hp]
  | some a =>
    rw [State.dropAmendment_of_pending hp, State.fld_raise, State.fld_setFld_apart _ (by unfold Fld.fits; decide) 1 hg,
      State.fld_setFld_ne _ _ (by rw [hoff]; decide)]
    refine State.fld_congr ((State.reg_log_ne _ _ _ _ _ (by rw [hoff]; decide) (by rw [hoff]; decide)).trans ?_)
    exact State.reg_of_regs (s.disarmed_regs a) g.off

theorem State.reg_reconfigured_ne (s b : State) {o : Nat} (h : ¬amendTrace o) (hst : o ≠ Reg.CFG_STATUS.addr) :
    (s.reconfigured b).reg o = s.reg o := by
  have busy := State.reg_setFld_ne s (f := Reg.CFG_STATUS.colophon_busy) 1 hst
  unfold State.reconfigured
  dsimp only
  split
  · split
    · exact (State.reg_dropAmendment_ne _ _ _ h).trans busy
    · exact busy
  · rfl

/-- Of CFG_STATUS only colophon_busy may be set. -/
theorem State.fld_reconfigured_status (s b : State) {g : Fld} (hoff : g.off = Reg.CFG_STATUS.addr)
    (hg : Reg.CFG_STATUS.colophon_busy.lo + 1 ≤ g.lo ∨ g.lo + g.width ≤ Reg.CFG_STATUS.colophon_busy.lo) :
    (s.reconfigured b).fld g = s.fld g := by
  have busy := State.fld_setFld_apart s (f := Reg.CFG_STATUS.colophon_busy) (by unfold Fld.fits; decide) 1 hg
  unfold State.reconfigured
  dsimp only
  split
  · split
    · exact (State.fld_congr (State.reg_dropAmendment_ne _ _ _ (by rw [hoff]; unfold amendTrace; decide))).trans busy
    · exact busy
  · rfl

theorem State.fld_reconfigured_cause (s b : State) {g : Fld} (hoff : g.off = Reg.CFG_INT_STATUS.addr)
    (hg : Reg.CFG_INT_STATUS.amend_discarded.lo + 1 ≤ g.lo ∨ g.lo + g.width ≤ Reg.CFG_INT_STATUS.amend_discarded.lo) :
    (s.reconfigured b).fld g = s.fld g := by
  have busy := State.fld_setFld_ne s (f := Reg.CFG_STATUS.colophon_busy) (g := g) 1 (by rw [hoff]; decide)
  unfold State.reconfigured
  dsimp only
  split
  · split
    · exact (State.fld_dropAmendment_cause _ _ _ hoff hg).trans busy
    · exact busy
  · rfl

/-! ### What the endpoint does later (R277, R281, R283, R287 to R292) -/

section
variable {s : State}

theorem execStackWriteAccepted_of_one {ch : BitVec 9} {q : MemReq} {st : Nat} {rest : List WriteAck}
    (h : s.msf.writes.read [] ch.toNat = .one q st :: rest) :
    execStackWriteAccepted ch s = .next (({ s with
      msf.writes := s.msf.writes.write [] ch.toNat rest } : State).answer (dpaDie q.dpa) q rspAck st []) := by
  simp only [execStackWriteAccepted, State.writeAccepted, h]

theorem execFenceAnswered_of_ready {serial : Nat} {q : MemReq} (h : s.msf.fences.find? (fun q => q.serial = serial) = some q)
    (hready : s.fenceReady q = true) : execFenceAnswered serial s = .next (s.answerFence q) := by
  simp only [execFenceAnswered, h]
  exact if_pos hready

theorem execMcastUnreachedFinal_of_final {serial : Nat} {m : McastOp} {u : State} (h : s.msf.mcasts.get serial = some m)
    (hfinal : s.mcastFinal serial = true) (hthread : m.thread = none)
    (hu : u = { s with msf.mcasts := s.msf.mcasts.del serial }) :
    execMcastUnreachedFinal serial s = .next (if m.unreached = 0 then u.answer (dieOf m.req.port) m.req rspAck 0 []
      else u.answer (dieOf m.req.port) m.req rspAck 4 (leBytes 64 m.unreached.toNat)) := by
  subst hu
  simp only [execMcastUnreachedFinal, h, hfinal, if_true, State.mcastDone, hthread]

section
variable {id : Nat} {c : Comb} (h : s.msf.combs.find? (fun c => c.id = id) = some c)
include h

theorem execCombineFlush_of_due (hqs : c.qs ≠ []) (hdue : c.first + s.mergeWindow ≤ s.ft) (io : ChannelIo) :
    execCombineFlush id io s = .next (s.flushComb c io) := by
  simp only [execCombineFlush, h]
  exact if_pos ⟨by simpa using hqs, hdue⟩

theorem execCombineIdleClose_of_idle (hqs : c.qs = []) (hdue : c.lastAt + s.idleClose ≤ s.ft) :
    execCombineIdleClose id s = .next { s with msf.combs := s.msf.combs.filter fun x => x.id ≠ c.id } := by
  simp only [execCombineIdleClose, h]
  refine (if_pos hdue).trans ?_
  simp only [State.closeComb, State.flushComb, hqs]

end

theorem execCombineRspTimeout_of_late {seq : BitVec 24} {r : ThruReq} (h : s.msf.thrus.find? (fun r => r.seq == seq) = some r)
    (hdue : r.at_ + s.fld Reg.MSF_RSP_TIMEOUT.timeout * 1600000 ≤ s.ft) :
    execCombineRspTimeout seq s = .next (s.combTimeout r) := by
  simp only [execCombineRspTimeout, h]
  exact if_pos hdue

end

/-! ### The access table (R277, R347) -/

section
variable {s : State} {n w : Nat} {v : W32} (hans : s.answers (accessOff n w) = true)
  (hen : s.bit Reg.CFG_CTL.local_write_en = true)
include hans hen

theorem State.writeAccess_refused (h : s.accessRefused n w v = true) :
    s.writeAccess n w v = s.raise Reg.MSF_INT_STATUS.access_refused := by
  simp [State.writeAccess, hans, hen, h]

theorem State.writeAccess_taken (h : s.accessRefused n w v = false) :
    s.writeAccess n w v = ((((((s.storeFields (accessOff n w) v).setFld Reg.CFG_STATUS.drift 1).count
      Reg.CFG_LOCAL_WRITES.value).log 0x17 .configWrite (accessOff n w) [v.toNat]).raise
        Reg.CFG_INT_STATUS.local_write).reconfigured s) := by
  simp [State.writeAccess, hans, hen, h]

/-- A word that is taken stands in its register, and drift and local_write are set. -/
theorem State.writeAccess_shows (hn : n < 256) (hw : w < 3) (h : s.accessRefused n w v = false) :
    (s.writeAccess n w v).reg (accessOff n w) = (s.storeFields (accessOff n w) v).reg (accessOff n w) ∧
      (s.writeAccess n w v).bit Reg.CFG_STATUS.drift = true ∧
      (s.writeAccess n w v).bit Reg.CFG_INT_STATUS.local_write = true := by
  have low : 0x12001000 ≤ accessOff n w ∧ accessOff n w < 0x12003000 := by
    unfold accessOff Reg.MSF_ACCESS_BASE.addr
    omega
  have apart {o : Nat} (ho : o < 0x12001000 ∨ 0x12003000 ≤ o) : accessOff n w ≠ o := by omega
  have trace : ¬amendTrace (accessOff n w) := by
    simp only [amendTrace, not_or]
    exact ⟨apart (by decide), apart (by decide), apart (by decide), apart (by decide)⟩
  rw [State.writeAccess_taken hans hen h]
  refine ⟨?_, ?_, ?_⟩
  · rw [State.reg_reconfigured_ne _ _ trace (apart (by decide)), State.reg_raise, State.reg_setFld_ne _ _ (apart (by decide)),
      State.reg_log_ne _ _ _ _ _ (apart (by decide)) (apart (by decide)), State.reg_count_ne _ _ (apart (by decide)),
      State.reg_setFld_ne _ _ (apart (by decide))]
  · rw [State.bit, State.fld_reconfigured_status _ _ rfl (by decide), State.fld_raise_ne _ (by decide),
      State.fld_congr (State.reg_log_ne _ _ _ _ _ (by decide) (by decide)), State.count, State.fld_setFld_ne _ _ (by decide)]
    exact State.bit_setFld_one _ (by unfold Fld.fits; decide) rfl
  · rw [State.bit, State.fld_reconfigured_cause _ _ rfl (by decide)]
    exact State.bit_raise _ _ (by unfold Fld.fits; decide) rfl

end

/-- Settles O45: one equation per event, and the access table's write by whether it is refused. -/
theorem memoryEvents : Obligations.MemoryEvents := by
  intro s
  refine ⟨fun ch q st rest h => execStackWriteAccepted_of_one h, fun serial q h hready => execFenceAnswered_of_ready h hready,
    fun serial m u h hfinal hthread hu => execMcastUnreachedFinal_of_final h hfinal hthread hu, rfl,
    fun id io c h => ⟨fun hqs hdue => execCombineFlush_of_due h hqs hdue io, fun hqs hdue => execCombineIdleClose_of_idle h hqs hdue⟩,
    fun seq r h hdue => execCombineRspTimeout_of_late h hdue, fun die => rfl,
    fun n w v hw hans hen => ⟨fun href => ?refused, fun href => ?taken⟩⟩
  case refused => exact (if_pos hw).trans (congrArg Host.Outcome.next (State.writeAccess_refused hans hen href))
  case taken => exact ⟨_, if_pos hw, State.writeAccess_shows hans hen n.isLt hw href⟩

end Sys2Proof.Machine
end

section
/-!
PROOFS. The orrery's scalar instructions, branches and vector instructions (R297, R302, R303): what an instruction that issues
leaves, one lemma per form of instruction.
-/

namespace Sys2Proof.Machine

/-! ### Scalar registers (R297) -/

theorem Thread.put_zero (x : Thread) (v : W64) : x.put 0 v = x := rfl

theorem Thread.get_zero (x : Thread) : x.get 0 = 0 := rfl

theorem Thread.get_put_same (x : Thread) {r : BitVec 5} (h : r ≠ 0) (v : W64) : (x.put r v).get r = v := by
  rw [Thread.get, if_neg h, Thread.put, if_neg h]
  exact SMap.read_write_same ..

theorem Thread.get_put_ne (x : Thread) {r q : BitVec 5} (h : q ≠ r) (v : W64) : (x.put r v).get q = x.get q := by
  have other : q.toNat ≠ r.toNat := fun e => h (BitVec.eq_of_toNat_eq e)
  unfold Thread.get Thread.put
  split
  · rfl
  · split
    · rfl
    · exact SMap.read_write_ne _ _ _ _ other

/-! ### Truth values and orders as the instructions read them -/

theorem boolWord_decide (c : Prop) [Decidable c] : boolWord (decide c) = if c then 1 else 0 := by
  simp [boolWord]

theorem boolWord_slt (a b : W64) : boolWord (a.slt b) = if a.toInt < b.toInt then 1 else 0 := boolWord_decide _

theorem boolWord_ult (a b : W64) : boolWord (a.ult b) = if a.toNat < b.toNat then 1 else 0 := boolWord_decide _

theorem ite_slt {α : Type} (a b : W64) (x y : α) : (if a.slt b then x else y) = if a.toInt < b.toInt then x else y := by
  simp [BitVec.slt]

theorem ite_ult {α : Type} (a b : W64) (x y : α) : (if a.ult b then x else y) = if a.toNat < b.toNat then x else y := by
  simp [BitVec.ult]

theorem ite_not {α : Type} (c : Bool) (x y : α) : (if !c then x else y) = if c then y else x := by
  cases c <;> rfl

/-! ### An instruction that issues (R296, R303) -/

section
variable {s : State} {t : Nat} {o : OryOp} {p : Prog} {w k : W32} {x : Thread} (h : s.at_ t o p w k) (hx : x = s.thread t)
include h hx

theorem State.scalarT_of_at (f : W64 → W64 → W64) :
    s.scalarT t o f = s.setThread t ((x.put (fD w) (f (x.get (fA w)) (x.get (fB w)))).step) :=
  hx ▸ State.issue_of_at h _

theorem State.scalarI_of_at (f : W64 → W32 → W64) :
    s.scalarI t o f = s.setThread t ((x.put (fD w) (f (x.get (fA w)) w)).step) :=
  hx ▸ State.issue_of_at h _

theorem State.branchIf_of_at (c : W64 → W64 → Bool) :
    s.branchIf t o c = if c (x.get (fD w)) (x.get (fA w)) then s.branchTo t p x (x.pc + 1 + fSimm w)
      else s.setThread t x.step :=
  hx ▸ State.issue_of_at h _

end

/-- Settles O46: an instruction that issues writes what its form says (`State.scalarT_of_at`, `State.scalarI_of_at`), a branch
goes where `State.branchIf_of_at` says. -/
theorem scalarInstructions : Obligations.ScalarInstructions := by
  refine ⟨fun x r q v => ⟨x.put_zero v, x.get_zero, fun h => x.get_put_same h v, fun h => x.get_put_ne h v⟩, ?_⟩
  intro t s p w k x a b d hx ha hb hd
  have formT {o : OryOp} (f : W64 → W64 → W64) (h : s.at_ t.toNat o p w k) :
      (.next (s.scalarT t.toNat o f) : Outcome) = .next (d (f a b)) := by
    rw [State.scalarT_of_at h hx, hd, ha, hb]
  have formI {o : OryOp} (f : W64 → W32 → W64) (h : s.at_ t.toNat o p w k) :
      (.next (s.scalarI t.toNat o f) : Outcome) = .next (d (f a w)) := by
    rw [State.scalarI_of_at h hx, hd, ha]
  have compares {o : OryOp} (f : W64 → W64 → Bool) (c : Prop) [Decidable c] (hc : boolWord (f a b) = if c then 1 else 0)
      (h : s.at_ t.toNat o p w k) :
      (.next (s.scalarT t.toNat o fun a b => boolWord (f a b)) : Outcome) = .next (d (if c then 1 else 0)) :=
    (formT (fun a b => boolWord (f a b)) h).trans (by rw [hc])
  refine ⟨formT _, formT _, formT _, formT _, formT _, formT _, formT _, formT _, compares _ _ (boolWord_slt a b),
    compares _ _ (boolWord_ult a b), fun h => (formT smin h).trans (by rw [smin, ite_slt]),
    fun h => (formT smax h).trans (by rw [smax, ite_slt]), formT _, formT _, formT _, formT _, formI _, formI _, formI _, formI _,
    formI _, formI _, formI _, fun h => (formI _ h).trans (by rw [boolWord_decide]), formT _, formT _,
    fun h => ?const, fun h => ?consth, fun h => ?setfar, fun go hgo c hc to' hto => ?branches⟩
  case const => exact congrArg Host.Outcome.next (hx ▸ State.issue_of_at h _)
  case consth => exact congrArg Host.Outcome.next (hx ▸ State.issue_of_at h _)
  case setfar => exact congrArg Host.Outcome.next (ha ▸ hx ▸ State.issue_of_at h _)
  case branches =>
    have goes (i : Int) : s.branchTo t.toNat p x i = go i := (hgo i).symm
    have branch {o : OryOp} (f : W64 → W64 → Bool) {u : State} (h : s.at_ t.toNat o p w k)
        (hu : (if f c a then go to' else s.setThread t.toNat x.step) = u) :
        (.next (s.branchIf t.toNat o f) : Outcome) = .next u := by
      rw [State.branchIf_of_at h hx, goes, ← hto, ← hc, ← ha, hu]
    refine ⟨fun h => branch _ h (by simp), fun h => branch _ h (by simp), fun h => branch _ h (ite_slt ..),
      fun h => branch _ h ((ite_not ..).trans (ite_slt ..)), fun h => branch _ h (ite_ult ..),
      fun h => branch _ h ((ite_not ..).trans (ite_ult ..)), fun h => ?jmp, fun h => ?jr, fun h hlo hhi => ?jal⟩
    case jmp =>
      subst hx
      exact congrArg Host.Outcome.next ((State.issue_of_at h _).trans (goes _))
    case jr =>
      subst hx ha
      exact congrArg Host.Outcome.next ((State.issue_of_at h _).trans (goes _))
    case jal =>
      subst hx hto
      exact congrArg Host.Outcome.next ((State.issue_of_at h _).trans (if_pos ⟨hlo, hhi⟩))

/-! ### Vector instructions while the counters stand still (R303) -/

/-- Counting the lanes of an instruction leaves only the thread that it sets. -/
theorem State.setThread_laneOps {s : State} (hpmu : s.pmuRuns = false) (t n : Nat) (y : Thread) :
    (s.laneOps t n).setThread t y = s.setThread t y :=
  congrArg (fun u : State => u.setThread t y) (State.pmuEvent_of_stopped hpmu ..)

section
variable {s : State} {t : Nat} {o : OryOp} {p : Prog} {w k : W32} {x : Thread} (hpmu : s.pmuRuns = false)
  (h : s.at_ t o p w k) (hx : x = s.thread t)
include hpmu h hx

theorem State.vector_of_at (f : W32 → W64 → W64 → W64) :
    s.vector t o f = s.setThread t (x.vputs (fD w) ((activeLanes (fMen w) x.mask).map fun i =>
      (i, f w (x.vget (fA w) i) (x.vecB w i)))).step := by
  subst hx
  exact (State.issue_of_at h _).trans (State.setThread_laneOps hpmu ..)

theorem State.vcompare_of_at (c : W64 → W64 → Bool) :
    s.vcompare t o c = s.setThread t ({ x with mask := (List.range 16).foldl (fun (m : BitVec 16) i =>
      if c (x.vget (fA w) i) (x.vecB w i) then m ||| ((1 : BitVec 16) <<< i) else m) 0 } : Thread).step := by
  subst hx
  exact (State.issue_of_at h _).trans (State.setThread_laneOps hpmu ..)

end

/-- Settles O47: lane by lane by `State.vector_of_at`, a comparison by `State.vcompare_of_at`; the others set the thread as
their row of Table 13-3 says. -/
theorem vectorInstructions : Obligations.VectorInstructions := by
  intro t s p w k x ls a b hpmu hx hls ha hb
  obtain rfl : a = x.vget (fA w) := funext ha
  obtain rfl : b = x.vecB w := funext hb
  obtain rfl : ls = activeLanes (fMen w) x.mask := hls
  refine ⟨fun v hv => ?lanes, fun new hnew m hm h => ?vclamp, fun c m hm hc => ?comparisons, fun h => ?vsel, fun h => ?vred,
    fun h => ?vbcast, fun h => ?vget, fun h => ?vput, fun h => ?mset, fun h => ?mget, fun h => ?popm, fun h => ?mnot,
    fun es hes h => ?vsort⟩
  case lanes =>
    have form {o : OryOp} (f : W32 → W64 → W64 → W64) (h : s.at_ t.toNat o p w k) :
        (.next (s.vector t.toNat o f) : Outcome) = .next (v fun i => f w (x.vget (fA w) i) (x.vecB w i)) := by
      rw [State.vector_of_at hpmu h hx, hv]
    exact ⟨form _, form _, form _, form _, form _, form _, form _, form _, form _, form _, form _, form _⟩
  case vclamp =>
    subst hx hnew hm
    exact congrArg Host.Outcome.next ((State.issue_of_at h _).trans (State.setThread_laneOps hpmu ..))
  case comparisons =>
    have form {o : OryOp} (f : W64 → W64 → Bool) (h : s.at_ t.toNat o p w k) :
        (.next (s.vcompare t.toNat o f) : Outcome) = .next (c fun i => f (x.vget (fA w) i) (x.vecB w i)) := by
      rw [State.vcompare_of_at hpmu h hx, hc, hm]
    exact ⟨form _, form _, form _⟩
  case vget | vput | mset | mget | popm | mnot =>
    subst hx
    exact congrArg Host.Outcome.next (State.issue_of_at h _)
  case vsel | vred | vbcast =>
    subst hx
    exact congrArg Host.Outcome.next ((State.issue_of_at h _).trans (State.setThread_laneOps hpmu ..))
  case vsort =>
    subst hx
    rw [hes]
    exact congrArg Host.Outcome.next ((State.issue_of_at h _).trans (State.setThread_laneOps hpmu ..))

end Sys2Proof.Machine
end

section
/-!
PROOFS. The orrery's memory instructions (R298 to R304) on scratch: one access that is placed there, a load, a store and an
atomic; and an access that is not aligned.
-/

namespace Sys2Proof.Machine

/-- The n bytes of a core's scratch at an offset. -/
def State.scratchBytes (s : State) (c o n : Nat) : List Byte :=
  (List.range n).map fun i => s.ory.scratch.read 0 (2 ^ 18 * c + o + i)

/-! ### A place in scratch (R298): no line, no word of stack memory, no engine -/

theorem State.placeLine_scratch (s : State) (x : Thread) (c o : Nat) : s.placeLine x (.scratch c o) = none := rfl

theorem State.placeReads_scratch (s : State) (x : Thread) (c o n : Nat) (write : Bool) :
    s.placeReads x (.scratch c o) n write = [] := rfl

theorem State.placeHold_nil (s : State) (t : Nat) (io : ChannelIo) : s.placeHold t [] io = none := rfl

theorem State.placeEngine_scratch (s : State) (t : Nat) (x : Thread) (c o : Nat) (io : ChannelIo) :
    s.placeEngine t x [.scratch c o] io = (s, true) := rfl

theorem State.placeEngine_nil (s : State) (t : Nat) (x : Thread) (io : ChannelIo) : s.placeEngine t x [] io = (s, true) := rfl

theorem State.places_nil (s : State) (t : Nat) (x : Thread) (p : Prog) (op : BitVec 8) (mm : Acc → Nat) (write : Bool) :
    s.places t x p op mm [] write = .ok [] := rfl

theorem State.isPosted_scratch (s : State) (x : Thread) (c o : Nat) : s.isPosted x (.scratch c o) = false := rfl

theorem State.placeStore_scratch (s : State) (x : Thread) (c o : Nat) (bs : List Byte) :
    s.placeStore x (.scratch c o) bs = { s with ory.scratch := writeBytes s.ory.scratch (2 ^ 18 * c + o) bs } := rfl

theorem State.placeLoad_scratch (s : State) (x : Thread) (p : Prog) (c o n : Nat) :
    s.placeLoad x p (.scratch c o) n = (s, s.scratchBytes c o n) := rfl

theorem State.storeOne_scratch (s : State) (t : Nat) (x : Thread) (a : Acc) (c o : Nat) :
    s.storeOne t x (a, .scratch c o) = { s with ory.scratch := writeBytes s.ory.scratch (2 ^ 18 * c + o) a.data } := rfl

/-! ### Loads -/

/-- R304: the first access that is not aligned faults. -/
theorem State.oryLoad_of_misaligned {s : State} {t : Nat} {p : Prog} {a : Acc} (h : aligned a.addr a.n = false) (dest : BitVec 5)
    (vec : Bool) (bytes : Nat) (sign : Bool) (io : ChannelIo) :
    s.oryLoad t p dest vec bytes sign [a] io = s.faultThread t faultAlign a.addr := by
  simp [State.oryLoad, State.places, h]

section
variable {s : State} {t : Nat} {p : Prog} {x : Thread} (hx : x = s.thread t)
include hx

theorem State.oryLoad_of_scratch {a : Acc} {c o : Nat}
    (h : s.places t x p reqLoad (fun a => loadMod a.n) [a] false = .ok [(a, .scratch c o)]) (dest : BitVec 5) (vec : Bool)
    (bytes : Nat) (sign : Bool) (io : ChannelIo) :
    s.oryLoad t p dest vec bytes sign [a] io =
      s.setThread t (x.fill dest vec sign a.lane (s.scratchBytes c o a.n)).step := by
  subst hx
  simp [State.oryLoad, h, State.flushSelf, State.placeReads_scratch, State.placeHold_nil, State.placeEngine_scratch, loadOne,
    State.placeLoad_scratch]

theorem State.oryLoad_nil (dest : BitVec 5) (vec : Bool) (bytes : Nat) (sign : Bool) (io : ChannelIo) :
    s.oryLoad t p dest vec bytes sign [] io = s.setThread t x.step := by
  subst hx
  simp [State.oryLoad, State.places_nil, State.placeHold_nil, State.placeEngine_nil]

/-! ### Stores -/

theorem State.oryStore_of_scratch {a : Acc} {c o : Nat}
    (h : s.places t x p reqStore (fun _ => 0) [a] true = .ok [(a, .scratch c o)]) (hroom : x.posted.length ≤ 16)
    (io : ChannelIo) :
    s.oryStore t p [a] io = { s.setThread t x.step with
      ory.scratch := writeBytes s.ory.scratch (2 ^ 18 * c + o) a.data } := by
  subst hx
  have room : ¬16 < (s.thread t).posted.length := by omega
  simp [State.oryStore, h, State.isPosted_scratch, room, State.flushSelf, State.placeReads_scratch,
    State.placeHold_nil, State.placeEngine_scratch, State.storeOne_scratch]
  rfl

theorem State.oryStore_nil (hroom : x.posted.length ≤ 16) (io : ChannelIo) :
    s.oryStore t p [] io = s.setThread t x.step := by
  subst hx
  have room : ¬16 < (s.thread t).posted.length := by omega
  simp [State.oryStore, State.places_nil, room, State.placeHold_nil, State.placeEngine_nil]

/-! ### Atomics -/

theorem State.oryAmo_of_scratch {w : W32} {a : Acc} {c o : Nat} (hn : a.n = 8) (hlane : a.lane = 0) (hfn : fFn w < 7)
    (hcas : fFn w ≠ 2) (haddr : a.addr = x.get (fA w)) (hdata : a.data = leBytes 8 (x.get (fB w)).toNat)
    (h : s.places t x p reqAtomic (fun _ => fFn w) [a] true = .ok [(a, .scratch c o)]) {old v : W64}
    (hold : old = BitVec.ofNat 64 (leNat (s.scratchBytes c o 8)))
    (hv : atomicNew (BitVec.ofNat 8 (fFn w)) old (x.get (fB w)) (x.get (fD w)) = some v) (io : ChannelIo) :
    s.oryAmo t p w io = ({ s with
      ory.scratch := writeBytes s.ory.scratch (2 ^ 18 * c + o) (leBytes 8 v.toNat) } : State).setThread t
        (x.put (fD w) old).step := by
  subst hx
  have sub : (BitVec.ofNat 8 (fFn w)).toNat = fFn w := by
    rw [BitVec.toNat_ofNat]
    omega
  have notCas : ¬BitVec.ofNat 8 (fFn w) = 2 := fun e => hcas (by rw [← sub, e]; rfl)
  obtain ⟨lane, addr, n, data⟩ := a
  dsimp only at hn hlane haddr hdata
  subst hn hlane haddr hdata
  have reached : ¬(!amoPlace (.scratch c o)) = true := Bool.noConfusion
  dsimp only [State.oryAmo]
  rw [if_neg notCas, sub, h]
  dsimp only [State.flushSelf, State.placeReads_scratch, State.placeHold_nil, State.placeEngine_scratch,
    State.placeLoad_scratch]
  rw [if_neg reached, ← hold, hv]
  exact congrArg (State.setThread · t _) (State.placeStore_scratch ..)

end

/-! ### The instructions -/

section
variable {s : State} {t : Nat} {op : OryOp} {p : Prog} {w k : W32} {x : Thread} (h : s.at_ t op p w k) (hx : x = s.thread t)
include h hx

/-- A scalar load from scratch fills its register by its width and sign. -/
theorem State.scalarLoad_of_scratch {n c o : Nat}
    (hplace : s.places t x p reqLoad (fun a => loadMod a.n) [{ lane := 0, addr := x.iAddr w, n := n }] false =
      .ok [({ lane := 0, addr := x.iAddr w, n := n }, .scratch c o)]) (sign : Bool) (io : ChannelIo) :
    s.scalarLoad t op n sign io =
      s.setThread t (x.put (fD w) (loadValue n sign (leNat (s.scratchBytes c o n)))).step := by
  have length : (s.scratchBytes c o n).length = n := by simp [State.scratchBytes]
  have loaded := State.oryLoad_of_scratch hx hplace (fD w) false n sign io
  subst hx
  refine (State.issue_of_at h _).trans (loaded.trans ?_)
  simp [Thread.fill, length]

/-- A scalar store to scratch changes its bytes. -/
theorem State.scalarStore_of_scratch {n c o : Nat} {a : Acc}
    (ha : a = { lane := 0, addr := x.iAddr w, n := n, data := leBytes n (x.get (fD w)).toNat })
    (hplace : s.places t x p reqStore (fun _ => 0) [a] true = .ok [(a, .scratch c o)]) (hroom : x.posted.length ≤ 16)
    (io : ChannelIo) :
    s.scalarStore t op n io = { s.setThread t x.step with
      ory.scratch := writeBytes s.ory.scratch (2 ^ 18 * c + o) a.data } := by
  have stored := State.oryStore_of_scratch hx hplace hroom io
  subst hx ha
  exact (State.issue_of_at h _).trans stored

end

/-- Settles O48: each instruction issues, and its accesses are performed where they are placed. -/
theorem memoryInstructions : Obligations.MemoryInstructions := by
  intro t s p w k x io c o hx
  refine ⟨fun n sg a ha hplace v hv => ?loads, fun n a ha hplace hroom u hu => ?stores,
    fun a hn hlane hfn hcas haddr hdata hplace old v hold hv h => ?amo, fun a haccs hn hlane hplace h => ?vld,
    fun a haccs hroom hplace h => ?vst, fun hnone => ⟨fun h => ?gatherNone, fun hroom h => ?scatterNone⟩,
    fun a haccs hn hplace h => ?gather, fun a haccs hroom hplace h => ?scatter, fun h hmis => ?align⟩
  case loads =>
    subst ha hv
    have load {op : OryOp} (h : s.at_ t.toNat op p w k) := State.scalarLoad_of_scratch h hx hplace sg io
    refine ⟨fun hn hs h => ?_, fun hn hs h => ?_, fun hn hs h => ?_, fun hn hs h => ?_⟩ <;> subst hn hs <;>
      exact congrArg Host.Outcome.next (load h)
  case stores =>
    subst hu
    refine ⟨fun hn h => ?_, fun hn h => ?_, fun hn h => ?_⟩ <;> subst hn <;>
      exact congrArg Host.Outcome.next ((State.scalarStore_of_scratch h hx ha hplace hroom io).trans (by rw [ha]))
  case amo =>
    have done := State.oryAmo_of_scratch hx hn hlane hfn hcas haddr hdata hplace hold hv io
    exact congrArg Host.Outcome.next ((State.issue_of_at h _).trans done)
  case vld =>
    have loaded := State.oryLoad_of_scratch hx hplace (fD w) true 8 false io
    rw [hn, hlane, ← haccs] at loaded
    subst hx
    exact congrArg Host.Outcome.next ((State.issue_of_at h _).trans loaded)
  case vst =>
    have stored := State.oryStore_of_scratch hx hplace hroom io
    subst hx
    rw [← haccs] at stored
    exact congrArg Host.Outcome.next ((State.issue_of_at h _).trans stored)
  case gatherNone =>
    have loaded := State.oryLoad_nil hx (p := p) (fD w) true 8 false io
    subst hx
    rw [← hnone] at loaded
    exact congrArg Host.Outcome.next ((State.issue_of_at h _).trans loaded)
  case scatterNone =>
    have stored := State.oryStore_nil hx (p := p) hroom io
    subst hx
    rw [← hnone] at stored
    exact congrArg Host.Outcome.next ((State.issue_of_at h _).trans stored)
  case gather =>
    have loaded := State.oryLoad_of_scratch hx hplace (fD w) true 8 false io
    rw [hn, ← haccs] at loaded
    subst hx
    exact congrArg Host.Outcome.next ((State.issue_of_at h _).trans (loaded.trans (by simp [Thread.fill, State.scratchBytes])))
  case scatter =>
    have stored := State.oryStore_of_scratch hx hplace hroom io
    subst hx
    rw [← haccs] at stored
    exact congrArg Host.Outcome.next ((State.issue_of_at h _).trans stored)
  case align =>
    subst hx
    have misaligned : aligned ((s.thread t.toNat).iAddr w) 8 = false := by simpa [aligned] using hmis
    exact congrArg Host.Outcome.next ((State.issue_of_at h _).trans (State.oryLoad_of_misaligned misaligned ..))

end Sys2Proof.Machine
end

section
/-!
PROOFS. The performance counters (R411 to R415): freeze, the writes of counters, overflows and the slot ledger.
-/

namespace Sys2Proof.Machine

/-! ### Freeze (R413) -/

/-- The word written to PMU_CTL is stored. -/
theorem execPmuFreeze_writable {s : State} {v : W32} (hw : s.writable Reg.PMU_CTL.addr v = true)
    (hc : isConfig Reg.PMU_CTL.addr = false) : execPmuFreeze v s = .next (s.storeFields Reg.PMU_CTL.addr v) := by
  rw [execPmuFreeze, State.writeWord_plain v (by decide) (State.answers_of_writable hw) (by decide) (by decide) (by decide) rfl,
    State.writePlain_perform hw (by decide) (by decide) (by decide) hc (by decide), State.perform_of_storing_window s v (by decide)]

/-- The bits of PMU_CTL are stored as they are written. -/
theorem State.bit_storeFields_pmuCtl (s : State) (v : W32) {f : Fld} (hf : f.fits) (hrw : f.isRw) (hoff : f.off = Reg.PMU_CTL.addr) :
    (s.storeFields Reg.PMU_CTL.addr v).bit f = decide (f.of v = 1) := by
  rw [State.bit, ← hoff, State.fld_storeFields_rw s v hf hrw]

theorem isRw_freeze : Reg.PMU_CTL.freeze.isRw := ⟨_, rfl, by decide⟩

theorem isRw_global_en : Reg.PMU_CTL.global_en.isRw := ⟨_, rfl, by decide⟩

theorem State.pmuRuns_of_frozen {s : State} (h : s.bit Reg.PMU_CTL.freeze = true) : s.pmuRuns = false := by
  simp [State.pmuRuns, h]

theorem State.ledgerAdd_of_stopped {s : State} (h : s.pmuRuns = false) (e c k : Nat) : s.ledgerAdd e c k = s := by
  simp [State.ledgerAdd, h]

/-- While the counters are stopped nothing is counted. -/
theorem execPmuCounterOverflow_of_stopped {s : State} (h : s.pmuRuns = false) (src : PmuSource) (k : Nat)
    (th : Option (BitVec 14 × BitVec 16 × BitVec 15)) : execPmuCounterOverflow src k th s = .next s := by
  cases src with
  | event b e x vc => simp [execPmuCounterOverflow, State.pmuEvent_of_stopped h]
  | ledger e c => simp [execPmuCounterOverflow, State.ledgerAdd_of_stopped h]

/-! ### An overflow with freeze_on_ovf (R413) -/

section
variable (s : State) (n k block index : Nat) (given : Option (Nat × Nat × Nat))

/-- A programmable counter at its new value, with its overflow flagged. -/
def State.pmuCarried (sum : Nat) : State :=
  ((s.setPair (Reg.PMU_CNT_LO.value n) (sum % 2 ^ 48)).setFld
    ⟨if n < 32 then Reg.PMU_OVF_LO.addr else Reg.PMU_OVF_HI.addr, n % 32, 1⟩ 1).raise Reg.PMU_INT_STATUS.ovf

theorem State.reg_setPair_counter (v : Nat) : (s.setPair (Reg.PMU_CNT_LO.value n) v).reg Reg.PMU_CTL.addr = s.reg Reg.PMU_CTL.addr := by
  have lo : Reg.PMU_CTL.addr ≠ (Reg.PMU_CNT_LO.value n).off := by
    simp only [Reg.PMU_CTL.addr, Reg.PMU_CNT_LO.value, Reg.PMU_CNT_LO.addr]
    omega
  have hi : Reg.PMU_CTL.addr ≠ (Reg.PMU_CNT_LO.value n).off + 4 := by
    simp only [Reg.PMU_CTL.addr, Reg.PMU_CNT_LO.value, Reg.PMU_CNT_LO.addr]
    omega
  exact State.reg_setPair_ne s v lo hi

theorem State.reg_pmuCarried (sum : Nat) : (s.pmuCarried n sum).reg Reg.PMU_CTL.addr = s.reg Reg.PMU_CTL.addr := by
  have flag : Reg.PMU_CTL.addr ≠ if n < 32 then Reg.PMU_OVF_LO.addr else Reg.PMU_OVF_HI.addr := by split <;> decide
  rw [State.pmuCarried, State.reg_raise, State.reg_setFld_ne _ _ (by decide), State.reg_setFld_ne _ _ flag, State.reg_setPair_counter]

theorem State.reg_pmuSample : (s.pmuSample n block index given).reg Reg.PMU_CTL.addr = s.reg Reg.PMU_CTL.addr :=
  (s.spares_pmuSample n block index given).reg _ (by unfold notOfSample; decide)

/-- The freeze that an overflow brings with freeze_on_ovf. -/
def State.pmuFrozen : State := if s.bit Reg.PMU_CTL.freeze_on_ovf then s.setFld Reg.PMU_CTL.freeze 1 else s

/-- The sample that an overflow brings, and the counter's new period (R416). -/
def State.pmuSampled (r : Nat) : State :=
  if s.bit (Reg.PMU_EVSEL.sample_en n) then
    let period := s.fld (Reg.PMU_PERIOD.value n)
    let s := if period = 0 then s else s.setPair (Reg.PMU_CNT_LO.value n) ((2 ^ 48 - period + r) % 2 ^ 48)
    s.pmuSample n block index given
  else s

theorem State.pmuAdd_of_overflow (h : 2 ^ 48 ≤ s.pair (Reg.PMU_CNT_LO.value n) + k) :
    s.pmuAdd n k block index given = (s.pmuCarried n (s.pair (Reg.PMU_CNT_LO.value n) + k)).pmuFrozen.pmuSampled n block index given
      ((s.pair (Reg.PMU_CNT_LO.value n) + k) % 2 ^ 48) :=
  if_neg (Nat.not_lt.mpr h)

theorem State.reg_pmuFrozen {t : State} (h : t.reg Reg.PMU_CTL.addr = s.reg Reg.PMU_CTL.addr) :
    t.pmuFrozen.reg Reg.PMU_CTL.addr = s.pmuFrozen.reg Reg.PMU_CTL.addr := by
  unfold State.pmuFrozen
  rw [State.bit_congr h]
  split
  · exact State.reg_setFld_congr h
  · exact h

theorem State.reg_pmuSampled (r : Nat) : (s.pmuSampled n block index given r).reg Reg.PMU_CTL.addr = s.reg Reg.PMU_CTL.addr := by
  unfold State.pmuSampled
  dsimp only
  split
  · rw [State.reg_pmuSample]
    split
    · rfl
    · exact State.reg_setPair_counter ..
  · rfl

/-- With freeze_on_ovf an overflow sets freeze, and without it PMU_CTL is left. -/
theorem State.reg_pmuAdd_of_overflow (h : 2 ^ 48 ≤ s.pair (Reg.PMU_CNT_LO.value n) + k) :
    (s.pmuAdd n k block index given).reg Reg.PMU_CTL.addr = s.pmuFrozen.reg Reg.PMU_CTL.addr := by
  rw [State.pmuAdd_of_overflow s n k block index given h, State.reg_pmuSampled, State.reg_pmuFrozen s (State.reg_pmuCarried ..)]

/-- Counting leaves PMU_CTL, or sets freeze. -/
theorem State.reg_pmuAdd : (s.pmuAdd n k block index given).reg Reg.PMU_CTL.addr = s.reg Reg.PMU_CTL.addr ∨
    (s.pmuAdd n k block index given).reg Reg.PMU_CTL.addr = (s.setFld Reg.PMU_CTL.freeze 1).reg Reg.PMU_CTL.addr := by
  by_cases h : 2 ^ 48 ≤ s.pair (Reg.PMU_CNT_LO.value n) + k
  · rw [State.reg_pmuAdd_of_overflow s n k block index given h, State.pmuFrozen]
    split
    · exact .inr rfl
    · exact .inl rfl
  · unfold State.pmuAdd
    dsimp only
    rw [if_pos (Nat.not_le.mp h), State.reg_setPair_counter]
    exact .inl rfl

theorem State.freeze_pmuAdd (h : s.bit Reg.PMU_CTL.freeze = true) :
    (s.pmuAdd n k block index given).bit Reg.PMU_CTL.freeze = true := by
  rcases s.reg_pmuAdd n k block index given with same | set
  · rw [State.bit_congr same, h]
  · rw [State.bit_congr set, State.bit_setFld_one _ (by unfold Fld.fits; decide) rfl]

theorem State.freeze_on_ovf_pmuAdd :
    (s.pmuAdd n k block index given).bit Reg.PMU_CTL.freeze_on_ovf = s.bit Reg.PMU_CTL.freeze_on_ovf := by
  rcases s.reg_pmuAdd n k block index given with same | set
  · exact State.bit_congr same
  · rw [State.bit_congr set, State.bit_setFld_apart _ (by unfold Fld.fits; decide) _ (by decide)]

theorem State.pair_pmuAdd {m : Nat} (hm : m < 64) (hne : m ≠ n) :
    (s.pmuAdd n k block index given).pair (Reg.PMU_CNT_LO.value m) = s.pair (Reg.PMU_CNT_LO.value m) := by
  have other : notOfCounter n (Reg.PMU_CNT_LO.addr m) ∧ notOfCounter n (Reg.PMU_CNT_LO.addr m + 4) := by
    simp only [notOfCounter, notOfSample, Reg.PMU_INT_STATUS.addr, Reg.PMU_SMP_PROD.addr, Reg.PMU_SMP_LOST.addr,
      Reg.PMU_CTL.addr, Reg.PMU_OVF_LO.addr, Reg.PMU_OVF_HI.addr, Reg.PMU_CNT_LO.addr]
    omega
  have spared := (s.spares_pmuAdd n k block index given).reg
  exact congrArg₂ (fun a b : W32 => a.toNat + 2 ^ 32 * b.toNat) (spared _ other.1) (spared _ other.2)

end

/-- Where the counter is among those that count, its overflow sets freeze, whatever the others do. -/
theorem foldl_pmuAdd_freezes {c : Nat → Bool} {n k block index : Nat} {given : Option (Nat × Nat × Nat)} (hn : n < 64)
    (hc : c n = true) (l : List Nat) (s : State) (hmem : n ∈ l) (hen : s.bit Reg.PMU_CTL.freeze_on_ovf = true)
    (hovf : 2 ^ 48 ≤ s.pair (Reg.PMU_CNT_LO.value n) + k) :
    (l.foldl (fun t m => if c m then t.pmuAdd m k block index given else t) s).bit Reg.PMU_CTL.freeze = true := by
  induction l generalizing s with
  | nil => simp at hmem
  | cons m l ih =>
    rw [List.foldl_cons]
    by_cases hm : m = n
    · have frozen : (s.pmuAdd n k block index given).bit Reg.PMU_CTL.freeze = true := by
        rw [State.bit_congr (State.reg_pmuAdd_of_overflow s n k block index given hovf), State.pmuFrozen, if_pos hen,
          State.bit_setFld_one _ (by unfold Fld.fits; decide) rfl]
      rw [hm, if_pos hc]
      refine List.foldlRecOn (motive := fun t : State => t.bit Reg.PMU_CTL.freeze = true) l _ frozen fun t ht a _ => ?_
      split
      · exact t.freeze_pmuAdd _ _ _ _ _ ht
      · exact ht
    · refine ih _ (List.mem_of_ne_of_mem (Ne.symm hm) hmem) ?_ ?_ <;> split
      · rw [State.freeze_on_ovf_pmuAdd, hen]
      · exact hen
      · rwa [State.pair_pmuAdd _ _ _ _ _ _ hn (Ne.symm hm)]
      · exact hovf

/-! ### Counters written, and slots -/

theorem stageAt_of_pmu {off : Nat} (h : 0x19000000 ≤ off) : stageAt off = none := by
  unfold stageAt
  rw [if_neg (by omega), if_neg (by omega), if_neg (by omega)]

/-- The low word of a counter is held, and the high word completes the pair with it (R8). -/
theorem execPmuCounterWrite_counter {off : BitVec 29} {s : State} (v : W32) (hc : isPmuCounter off.toNat = true)
    (ha : s.answers off.toNat = true) :
    execPmuCounterWrite off v s = .next (if isLow off.toNat then s.holdLow .host off.toNat v
      else s.writeHigh .host (off.toNat - 4) v) := by
  have counter := hc
  simp only [isPmuCounter, Bool.and_eq_true, decide_eq_true_eq, Bool.or_eq_true] at hc
  obtain ⟨⟨⟨pmu, _⟩, _⟩, word⟩ := hc
  rw [execPmuCounterWrite, if_pos counter]
  have stage := stageAt_of_pmu pmu
  cases low : isLow off.toNat with
  | true => rw [State.writeWord_low v (by decide) ha stage low, if_pos rfl]
  | false =>
    rw [low] at word
    rw [State.writeWord_high v (by decide) ha stage low (word.resolve_left Bool.false_ne_true), if_neg Bool.false_ne_true]

theorem execPmuCounterOverflow_event {b e : BitVec 8} {x : BitVec 10} (hlo : 1 ≤ e.toNat) (hhi : e.toNat ≤ pmuEvents b.toNat)
    (hb : b ≠ 0x14) (vc : Option (BitVec 3)) (k : Nat) (th : Option (BitVec 14 × BitVec 16 × BitVec 15)) (s : State) :
    execPmuCounterOverflow (.event b e x vc) k th s =
      .next (s.pmuEvent b.toNat e.toNat x.toNat (vc.map BitVec.toNat) k none) := by
  rw [execPmuCounterOverflow, if_pos ⟨hlo, hhi⟩, if_neg hb]

theorem execPmuCounterOverflow_ledger {e : BitVec 9} {c : BitVec 3} (he : e.toNat < 288) (hc : c.toNat < 5) (k : Nat)
    (th : Option (BitVec 14 × BitVec 16 × BitVec 15)) (s : State) :
    execPmuCounterOverflow (.ledger e c) k th s = .next (s.ledgerAdd e.toNat c.toNat k) :=
  if_pos ⟨he, hc⟩

/-- While ledger_en is 1 slots are entered, modulo 2^48 (R411, R415). -/
theorem State.ledgerAdd_of_running {s : State} (hrun : s.pmuRuns = true) (hen : s.bit Reg.PMU_CTL.ledger_en = true) (e c k : Nat) :
    s.ledgerAdd e c k = if s.pair (ledgerLo e c) + k < 2 ^ 48 then
        s.setPair (ledgerLo e c) ((s.pair (ledgerLo e c) + k) % 2 ^ 48)
      else ((s.setPair (ledgerLo e c) ((s.pair (ledgerLo e c) + k) % 2 ^ 48)).setFld ⟨Reg.PMU_SL_OVF.addr e, c, 1⟩ 1).raise
        Reg.PMU_INT_STATUS.ledger_ovf := by
  rw [State.ledgerAdd, hrun, hen, if_neg (by decide)]

/-- Settles O60: the word of PMU_CTL is stored, stopped counters count nothing, an overflow sets freeze at its counter's place
in the fold and nothing there clears it, and counters and slots are entered by the rules of pairs. -/
theorem pmuCounters : Obligations.PmuCounters := by
  intro s
  refine ⟨fun v hw hc => ?freeze, fun hf => ?frozen, fun b e x vc k th hlo hhi hb => ?overflow, fun off v hc ha => ?written,
    fun e c k th f he hc hf hrun hen => ?slots⟩
  case freeze =>
    have froze : (s.storeFields Reg.PMU_CTL.addr v).bit Reg.PMU_CTL.freeze = decide (Reg.PMU_CTL.freeze.of v = 1) :=
      State.bit_storeFields_pmuCtl s v (by unfold Fld.fits; decide) isRw_freeze rfl
    have enabled : (s.storeFields Reg.PMU_CTL.addr v).bit Reg.PMU_CTL.global_en = decide (Reg.PMU_CTL.global_en.of v = 1) :=
      State.bit_storeFields_pmuCtl s v (by unfold Fld.fits; decide) isRw_global_en rfl
    refine ⟨_, execPmuFreeze_writable hw hc, rfl, froze, fun h => ?_, fun h h' => ?_, fun o => State.reg_storeFields_ne s v⟩
    · exact State.pmuRuns_of_frozen (by rw [froze, h]; rfl)
    · rw [State.pmuRuns, froze, enabled, h, h']
      rfl
  case frozen =>
    have stopped := State.pmuRuns_of_frozen hf
    exact ⟨State.pmuEvent_of_stopped stopped, State.ledgerAdd_of_stopped stopped, execPmuCounterOverflow_of_stopped stopped⟩
  case overflow =>
    refine ⟨_, execPmuCounterOverflow_event hlo hhi hb vc k th s, rfl, fun hrun hen n hn hm hovf => ?_⟩
    rw [State.pmuEvent, if_pos hrun]
    exact foldl_pmuAdd_freezes hn hm _ s (List.mem_range.mpr hn) hen hovf
  case written =>
    have written := execPmuCounterWrite_counter v hc ha
    refine ⟨fun low => ?_, fun high a held => ?_⟩
    · rw [low] at written
      exact written
    · rw [high, if_neg Bool.false_ne_true, State.writeHigh_held v held] at written
      exact written
  case slots =>
    have entered := execPmuCounterOverflow_ledger he hc k th s
    rw [State.ledgerAdd_of_running hrun hen, ← hf] at entered
    refine ⟨fun h => ?_, fun h => ?_⟩
    · rw [if_pos h, Nat.mod_eq_of_lt h] at entered
      exact entered
    · rw [if_neg (Nat.not_lt.mpr h)] at entered
      exact entered

end Sys2Proof.Machine
end

section
/-!
PROOFS. The orrery's waits, tokens, chunks, fences, timers and faults (R306, R307, R310, R315), and its programs: loaded,
unloaded, suspended and resumed (R312 to R316).
-/

namespace Sys2Proof.Machine

@[simp] theorem State.raise_ory (s : State) (f : Fld) : (s.raise f).ory = s.ory := by rw [State.raise_eq]

@[simp] theorem State.log_ory (s : State) (block : BitVec 8) (ev : AlmEvent) (index : Nat) (d : List Nat) :
    (s.log block ev index d).ory = s.ory := by
  rw [(s.log_same block ev index d).2]

/-! ### A thread's fault (R315) -/

/-- The first fault is kept in ORY_FAULT until software clears valid. -/
def State.faultLatched (s : State) (t code user pc id : Nat) (addr : W64) : State :=
  if s.bit Reg.ORY_FAULT.valid then s
  else
    let s := (s.setFld Reg.ORY_FAULT.code code).setFld Reg.ORY_FAULT.thread t
    let s := (s.setFld Reg.ORY_FAULT.user_code user).setFld Reg.ORY_FAULT.chunk_held 0
    let s := (s.setFld Reg.ORY_FAULT.valid 1).setFld Reg.ORY_FAULT_PC.pc pc
    (s.setFld Reg.ORY_FAULT_PC.prog id).setPair Reg.ORY_FAULT_ADDR_LO.value addr.toNat

/-- A program keeps the times of its threads' faults (R316). -/
def State.faultKept (s : State) (t : Nat) : State :=
  match s.thrSlot t with
  | none => s
  | some n =>
    match s.ory.progs.get n with
    | none => s
    | some p =>
      { s with ory.progs := s.ory.progs.put n { p with
        faults := (p.faults.filter fun f => decide (s.ft < f + second)) ++ [s.ft] } }

theorem State.faultKept_eq (s : State) (t : Nat) : s.faultKept t = { s with ory.progs := (s.faultKept t).ory.progs } := by
  unfold State.faultKept
  split
  · rfl
  · split <;> rfl

@[simp] theorem State.faultLatched_ory (s : State) (t code user pc id : Nat) (addr : W64) :
    (s.faultLatched t code user pc id addr).ory = s.ory := by
  unfold State.faultLatched
  split
  · rfl
  · simp

@[simp] theorem State.faultLatched_alm (s : State) (t code user pc id : Nat) (addr : W64) :
    (s.faultLatched t code user pc id addr).alm = s.alm := by
  unfold State.faultLatched
  split
  · rfl
  · simp

theorem State.valid_faultLatched (s : State) (t code user pc id : Nat) (addr : W64) :
    (s.faultLatched t code user pc id addr).bit Reg.ORY_FAULT.valid = true := by
  unfold State.faultLatched
  split
  · assumption
  · rename_i unset
    dsimp only
    rw [State.bit_congr (State.reg_setPair_ne _ _ (by decide) (by decide)), State.bit_setFld_ne _ _ (by decide),
      State.bit_setFld_ne _ _ (by decide),
      State.bit_setFld_one _ (by unfold Fld.fits; decide) rfl]

/-- The ID of the program a thread belongs to. -/
def State.thrId (s : State) (t : Nat) : Nat := ((s.thrProg t).map fun p => p.id.toNat).getD 0

/-- A thread that holds no chunk: its fault is recorded, counted, kept and raised, and it starts again. -/
theorem State.faultThread_of_free {s : State} {t : Nat} (h : (s.thread t).chunk = none) (code : Nat) (addr : W64) (user : Nat) :
    s.faultThread t code addr user =
      (((((s.log 0x14 .threadFault t [code, s.thrId t, (s.thread t).pc, addr.toNat]).count Reg.ORY_CNT_FAULT.value).faultLatched
        t code user (s.thread t).pc (s.thrId t) addr).faultKept t).raise Reg.ORY_INT_STATUS.thread_fault).restartThread t := by
  unfold State.faultThread
  dsimp only
  rw [h]
  rfl

theorem State.faultThread_free_leaves {s : State} {t : Nat} (h : (s.thread t).chunk = none) (code : Nat) (addr : W64) (user : Nat)
    {u : State} (hu : u = s.faultThread t code addr user) :
    u.ory.threads = s.ory.threads.del t ∧ u.alm.seq = s.alm.seq + 1 ∧ u.bit Reg.ORY_INT_STATUS.thread_fault = true ∧
      u.bit Reg.ORY_FAULT.valid = true := by
  rw [State.faultThread_of_free h] at hu
  generalize hn : (s.log 0x14 .threadFault t [code, s.thrId t, (s.thread t).pc, addr.toNat]).count Reg.ORY_CNT_FAULT.value = n at hu
  generalize hl : n.faultLatched t code user (s.thread t).pc (s.thrId t) addr = l at hu
  generalize hr : (l.faultKept t).raise Reg.ORY_INT_STATUS.thread_fault = r at hu
  have regs : u.regs = r.regs := by rw [hu]; rfl
  have kept : (l.faultKept t).alm = l.alm ∧ (l.faultKept t).regs = l.regs ∧ (l.faultKept t).ory.threads = l.ory.threads := by
    rw [State.faultKept_eq]
    exact ⟨rfl, rfl, rfl⟩
  refine ⟨?_, ?_, ?_, ?_⟩
  · have noted : n.ory = s.ory := by rw [← hn]; exact State.log_ory ..
    rw [hu, State.restartThread, ← hr, State.raise_ory, kept.2.2, ← hl, State.faultLatched_ory, noted]
  · have noted : n.alm.seq = s.alm.seq + 1 := by rw [← hn]; exact congrArg Almanac.seq (State.alm_logSev ..)
    have alm : u.alm = r.alm := by rw [hu]; rfl
    rw [alm, ← hr, State.alm_raise, kept.1, ← hl, State.faultLatched_alm, noted]
  · rw [State.bit_congr (State.reg_of_regs regs _), ← hr, State.bit_raise _ _ (by unfold Fld.fits; decide) rfl]
  · rw [State.bit_congr (State.reg_of_regs regs _), ← hr, State.bit_raise_ne _ (by decide),
      State.bit_congr (State.reg_of_regs kept.2.1 _), ← hl, State.valid_faultLatched]

/-! ### Waits and chunks (R306, R310) -/

theorem State.implicitRelease_of_free {s : State} {t : Nat} (h : (s.thread t).chunk = none) : s.implicitRelease t = s := by
  simp [State.implicitRelease, h]

theorem State.storeFault_of_none {s : State} {t : Nat} (h : (s.thread t).badStore = none) (go : State → State) :
    s.storeFault t go = go s := by
  simp [State.storeFault, h]

/-- A thread of a program that is not being unloaded goes on. -/
theorem State.stopUnloading_of_loaded {s : State} {t : Nat} {p : Prog} (hp : s.thrProg t = some p) (h : p.unloading = none) :
    s.stopUnloading t = s := by
  unfold State.thrProg at hp
  obtain ⟨n, slot, prog⟩ := Option.bind_eq_some_iff.mp hp
  simp [State.stopUnloading, slot, prog, h]

section
variable {s : State} {t : BitVec 14} {p : Prog} {w k : W32}

theorem execOWait_of_at (h : s.at_ t.toNat .wait p w k) (hs : (s.thread t.toNat).badStore = none)
    (hc : (s.thread t.toNat).chunk = none) (hu : p.unloading = none) :
    execOWait t s = .next (s.setThread t.toNat { s.thread t.toNat with waiting := some (fD w) }) := by
  have prog : (s.setThread t.toNat { s.thread t.toNat with waiting := some (fD w) }).thrProg t.toNat = some p := h.2.1
  rw [execOWait, State.issue_of_at h, State.storeFault_of_none hs, State.implicitRelease_of_free hc,
    State.stopUnloading_of_loaded prog hu]

theorem execOHalt_of_at (h : s.at_ t.toNat .halt p w k) (hc : (s.thread t.toNat).chunk = none) (hu : p.unloading = none) :
    execOHalt t s = .next (s.setThread t.toNat ({ s.thread t.toNat with halted := true } : Thread).step) := by
  have prog : (s.setThread t.toNat ({ s.thread t.toNat with halted := true } : Thread).step).thrProg t.toNat = some p := h.2.1
  rw [execOHalt, State.issue_of_at h, State.implicitRelease_of_free hc, State.stopUnloading_of_loaded prog hu]

theorem execOFence_of_at (h : s.at_ t.toNat .fence p w k) (hs : (s.thread t.toNat).badStore = none) {y : Thread}
    (hy : y = { s.thread t.toNat with epoch := (s.thread t.toNat).epoch + 1 }) :
    execOFence t s = .next (if (s.thread t.toNat).posted.isEmpty then s.setThread t.toNat y.step
      else s.setThread t.toNat { y with fencing := true }) := by
  rw [execOFence, State.issue_of_at h, State.storeFault_of_none hs, hy]

/-- RELEASE of the chunk the thread holds, under its current handle. -/
theorem State.releaseBy_of_held {s : State} {t : Nat} {w1 : W64} {k : Token} (hc : (s.thread t).chunk = some k) (hw : k.w1 = w1)
    (hh : s.chunkHeld k = true) : s.releaseBy t w1 =
      (((s.setThread t { s.thread t with chunk := none }).count Reg.ORY_CNT_RELEASE.value).releaseChunk k, 0) := by
  simp [State.releaseBy, hc, hw, hh]

theorem State.releaseBy_of_free {s : State} {t : Nat} (hc : (s.thread t).chunk = none) (w1 : W64) :
    s.releaseBy t w1 = (s.count Reg.ORY_CNT_STALE.value, 1) := by
  simp [State.releaseBy, hc, State.staleAccess]

theorem execORelease_of_at (h : s.at_ t.toNat .release p w k) (hs : (s.thread t.toNat).badStore = none) {v : State} {d : W64}
    (hr : s.releaseBy t.toNat ((s.thread t.toNat).get (fA w)) = (v, d)) :
    execORelease t s = .next (v.setThread t.toNat ((v.thread t.toNat).put (fD w) d).step) := by
  rw [execORelease, State.issue_of_at h, State.storeFault_of_none hs, hr]

/-! ### Tokens and timers (R306 to R308) -/

/-- A waiting thread takes the token at the head of its core's queue, if it is for it. -/
theorem State.takeToken_head {s : State} {t : Nat} {p : Prog} {d : BitVec 5} {k : Token} {ks : List Token}
    (hd : (s.thread t).waiting = some d) (hen : s.bit Reg.ORY_CTL.orrery_en = true) (hcore : s.coreIn (thrCore t) = true)
    (hstop : (s.thread t).stopped = false) (hp : s.thrProg t = some p) (hsusp : p.suspended = false)
    (hq : s.ory.tokens.read [] (thrCore t) = k :: ks) (hfor : s.tokenFor t k = true) (hpmu : s.pmuRuns = false) :
    s.takeToken t = ({ s with ory.tokens := s.ory.tokens.write [] (thrCore t) ks } : State).setThread t ((s.thread t).take d k) := by
  have still : ({ s with ory.tokens := s.ory.tokens.write [] (thrCore t) ks } : State).pmuRuns = false := hpmu
  have first : (k :: ks).findIdx? (s.tokenFor t) = some 0 := by simp [List.findIdx?_cons, hfor]
  unfold State.takeToken
  simp only [hd, hq, first, hen, hcore, hstop, hp, hsusp, Bool.not_false, Bool.and_self]
  exact congrArg (fun u : State => u.setThread t ((s.thread t).take d k)) (State.pmuEvent_of_stopped still ..)

/-- POST to one thread of the same program on a core in service (R307). -/
theorem State.postToken_single {s : State} {t u : Nat} {target : W64} (hone : target.toNat / 2 ^ 14 % 2 = 0)
    (hu : u = target.toNat % 2 ^ 14) (hcore : s.coreIn (thrCore u) = true) (hslot : s.thrSlot u = s.thrSlot t) (payload : W64) :
    s.postToken t target payload = if tokenRoom ≤ (s.ory.tokens.read [] (thrCore u)).length then
        (s.count Reg.ORY_CNT_POST_FULL.value, 1)
      else ({ s with ory.tokens := s.ory.tokens.write [] (thrCore u) (s.ory.tokens.read [] (thrCore u) ++
        [⟨some u, (s.thrSlot t).getD 0, BitVec.ofNat 64 (2 + (s.thread t).partition.toNat * 2 ^ 4), 0, payload,
          BitVec.ofNat 64 t⟩]) }, 0) := by
  subst hu
  unfold State.postToken
  simp only [hone, Nat.zero_ne_one, decide_false, Bool.false_eq_true, if_false, hcore, hslot, Bool.not_true, Bool.not_false, bne_self_eq_false,
    Bool.and_false, Bool.or_false]

theorem execOPost_of_at (h : s.at_ t.toNat .post p w k) {v : State} {d : W64}
    (hp : s.postToken t.toNat ((s.thread t.toNat).get (fA w)) ((s.thread t.toNat).get (fB w)) = (v, d)) :
    execOPost t s = .next (v.setThread t.toNat ((s.thread t.toNat).put (fD w) d).step) := by
  rw [execOPost, State.issue_of_at h]
  dsimp only
  rw [hp]

end

/-- The oldest due timer fires (R307). -/
theorem State.fireTimer_due {s : State} {t : Nat} {m : Timer}
    (hm : s.ory.timers.find? (fun m => m.thread = t && decide (m.due ≤ s.ft)) = some m)
    (hroom : (s.ory.tokens.read [] (thrCore t)).length < tokenRoom) (hcore : s.coreIn (thrCore t) = true) :
    s.fireTimer t = { s with
      ory.timers := s.ory.timers.erase m
      ory.tokens := s.ory.tokens.write [] (thrCore t) (s.ory.tokens.read [] (thrCore t) ++
        [⟨some t, (s.thrSlot t).getD 0, BitVec.ofNat 64 (3 + (s.thread t).partition.toNat * 2 ^ 4), 0, m.payload, 0⟩]) } := by
  unfold State.fireTimer
  dsimp only
  rw [hm]
  dsimp only
  rw [if_neg (by simp [hcore, hroom])]

/-- The oldest token that a tile holds moves to its core's queue (R308). -/
theorem State.queueRoom_head {s : State} {c : Nat} {k : Token} {ks : List (Nat × Token)} (hk : s.ory.tileTokens = (c, k) :: ks)
    (hroom : (s.ory.tokens.read [] c).length < tokenRoom) : s.queueRoom c = { s with
      ory.tokens := s.ory.tokens.write [] c (s.ory.tokens.read [] c ++ [k]), ory.tileTokens := ks } := by
  simp [State.queueRoom, hk, List.findIdx?_cons, hroom]

/-! ### Budget and illegal instructions (R315) -/

theorem State.budgetFault_over {s : State} {t : Nat} {p : Prog} (hready : s.threadReady t = true) (hp : s.thrProg t = some p)
    (hover : p.overBudget (s.thread t) = true) : s.budgetFault t = s.faultThread t faultBudget := by
  simp [State.budgetFault, hp, hready, hover]

theorem State.illegal_of_noInstruction {s : State} {t : Nat} {p : Prog} (hready : s.threadReady t = true) (hp : s.thrProg t = some p)
    (hop : p.opAt (s.thread t).pc = none) : s.illegal t = s.faultThread t faultIllegal := by
  simp [State.illegal, hp, hready, hop]

/-- Settles O49: one lemma for each instruction that issues, for the tokens and timers that move, and for what a fault of a
thread without a chunk leaves. -/
theorem systemInstructions : Obligations.SystemInstructions := by
  refine ⟨fun s t code user addr hc u hu => State.faultThread_free_leaves hc code addr user hu, ?_⟩
  intro t s p w k x q hx hq
  subst hx hq
  refine ⟨execOWait_of_at, fun d h hs hd hen hcore hstop hp hsusp hq hfor hpmu => ?take, fun h hat hbad hc hw hh u v hu hv => ?release,
    fun hat hbad hc => ?stale, fun u r h hat hone hu hcore hslot hr hh => ?post, fun hat hbad y hy => ?fence,
    fun hat hc hu y hy => ?halt, fun hat => ?fault, fun hat => ?timer, fun m h hm hroom hcore hh => ?fire,
    fun c h hs hk hroom => ?room, fun hready hp => ⟨fun hover => ?budget, fun hop => ?illegal⟩⟩
  case take => exact congrArg Host.Outcome.next (State.takeToken_head hd hen hcore hstop hp hsusp hq hfor hpmu)
  case release =>
    have released := State.releaseBy_of_held hc hw hh
    rw [← hu, ← hv] at released
    exact execORelease_of_at hat hbad released
  case stale => exact execORelease_of_at hat hbad (State.releaseBy_of_free hc _)
  case post =>
    have posted := State.postToken_single hone hu hcore hslot ((s.thread t.toNat).get (fB w))
    rw [← hr, ← hh] at posted
    refine ⟨fun room => execOPost_of_at hat (posted.trans (if_neg (Nat.not_le.mpr room))),
      fun full => execOPost_of_at hat (posted.trans (if_pos full))⟩
  case fence =>
    have fenced := execOFence_of_at hat hbad hy
    exact ⟨fun h => by rw [h] at fenced; exact fenced, fun h => fenced.trans (congrArg Host.Outcome.next (if_neg (by simpa using h)))⟩
  case halt =>
    rw [hy]
    exact execOHalt_of_at hat hc hu
  case fault => exact congrArg Host.Outcome.next (State.issue_of_at hat _)
  case timer => exact congrArg Host.Outcome.next (State.issue_of_at hat _)
  case fire =>
    rw [hh]
    exact congrArg Host.Outcome.next (State.fireTimer_due hm hroom hcore)
  case room => exact congrArg Host.Outcome.next (State.queueRoom_head hk hroom)
  case budget => exact congrArg Host.Outcome.next (State.budgetFault_over hready hp hover)
  case illegal => exact congrArg Host.Outcome.next (State.illegal_of_noInstruction hready hp hop)

end Sys2Proof.Machine
end

section
/-!
PROOFS. The orrery's programs: loaded, unloaded, suspended and resumed (R312 to R316).
-/

namespace Sys2Proof.Machine

/-! ### A changed configuration leaves the orrery -/

theorem State.disarmed_ory (s : State) (a : Amendment) : (s.disarmed a).ory = s.ory := by
  have left : ((objAmend :: imgObjects a.image).foldl State.disarm s).ory = s.ory :=
    List.foldlRecOn (motive := fun t : State => t.ory = s.ory) _ _ rfl fun _ ht _ _ => ht
  unfold State.disarmed
  generalize List.foldl State.disarm s (objAmend :: imgObjects a.image) = t at left ⊢
  exact left

theorem State.dropAmendment_ory (s : State) (cause : Nat) (ev : AlmEvent) : (s.dropAmendment cause ev).ory = s.ory := by
  cases hp : s.cfg.pendingAmend with
  | none => rw [State.dropAmendment, hp]
  | some a => rw [State.dropAmendment_of_pending hp, State.raise_ory, State.setFld_ory, State.log_ory, State.disarmed_ory]

theorem State.reconfigured_ory (s b : State) : (s.reconfigured b).ory = s.ory := by
  unfold State.reconfigured
  dsimp only
  split
  · split
    · exact State.dropAmendment_ory ..
    · rfl
  · rfl

/-! ### Suspension and the watchdog (R315, R316) -/

theorem State.suspend_of_many {s : State} {n : Nat} {p : Prog} (hp : s.ory.progs.get n = some p)
    (hlim : s.fld Reg.ORY_CTL.fault_limit ≠ 0) (hsusp : p.suspended = false)
    (hmany : s.fld Reg.ORY_CTL.fault_limit < (p.faults.filter fun f => decide (s.ft < f + 16000000000)).length) :
    s.suspend n = ({ s with ory.progs := s.ory.progs.put n { p with suspended := true } } : State).raise
      Reg.ORY_INT_STATUS.prog_suspended := by
  unfold State.suspend
  rw [hp]
  exact if_pos ⟨hlim, hmany, by rw [hsusp]; rfl⟩

/-- A first watchdog of a tile's cores is noted (R401). -/
theorem execIssueWatchdog_first {s : State} {t : BitVec 14} (hready : s.threadReady t.toNat = true)
    (hnone : (s.albedo 2 (thrCore t.toNat) 9).ory.watchdogs = []) :
    execIssueWatchdog t s = .next { s.albedo 2 (thrCore t.toNat) 9 with
      ory.watchdogs := SMap.write [] [] (thrCore t.toNat / 4) [(s.albedo 2 (thrCore t.toNat) 9).ft] } := by
  rw [execIssueWatchdog, if_pos hready, State.watchdog]
  dsimp only
  rw [hnone]
  rfl

/-! ### ORY_PROG_CMD (R312 to R314, R316) -/

/-- A written ORY_PROG_CMD with go runs its operation, once no other is in progress. -/
theorem State.progCmd_of_go {s : State} {v : W32} {op : Nat} (hgo : v.getLsbD 18 = true)
    (hw : s.writable Reg.ORY_PROG_CMD.addr v = true) (hc : isConfig Reg.ORY_PROG_CMD.addr = false)
    (hbusy : s.bit Reg.ORY_PROG_CMD.busy = false) (hop : Reg.ORY_PROG_CMD.op.of v = op) (go : State → State) :
    s.progCmd v op go = go (s.storeFields Reg.ORY_PROG_CMD.addr v) := by
  rw [State.progCmd, if_pos ⟨hop, hgo⟩, State.regWrite_of_writable hw hc, hbusy, if_neg Bool.false_ne_true]

theorem State.beginLoad_of_ok {u : State} {b : List Byte} {st : Nat} {x : Nat × Prog}
    (h : ({ u.setFld Reg.ORY_PROG_CMD.busy 1 with ory.loadTo := none } : State).progCheck b = (st, some x)) :
    u.beginLoad b none = { u.setFld Reg.ORY_PROG_CMD.busy 1 with ory.loadTo := none, ory.loading := some x } := by
  unfold State.beginLoad
  dsimp only at h ⊢
  rw [h]

theorem State.beginUnload_of_absent {u : State} {id : Nat} (h : u.progSlot id = none) (cmd : Bool) (rt : Option Transport) :
    u.beginUnload id cmd rt = (u, some 4) := by
  rw [State.beginUnload, h]

/-- An unload that no group's program forbids begins. -/
theorem State.beginUnload_of_free {u : State} {id n : Nat} {p : Prog} (h : u.progSlot id = some (n, p))
    (hfree : u.progBound p.id = false) (cmd : Bool) (rt : Option Transport) : (u.beginUnload id cmd rt).2 = none := by
  simp [State.beginUnload, h, hfree]

theorem State.resume_of_slot {u : State} {id n : Nat} {p : Prog} (h : u.progSlot id = some (n, p)) :
    u.resume id = ({ u with
      ory.progs := u.ory.progs.put n { p with suspended := false, faults := [] }
      ory.threads := u.ory.threads.filter fun e => !p.idx.contains (thrIndex e.1) } : State).progEnd 1 := by
  rw [State.resume, h]

/-! ### The end of a load and of an unload (R313, R314) -/

theorem State.loadEnds_of_command {u : State} (h : u.ory.loadTo = none) (status : Nat) :
    u.loadEnds status = ({ u with ory.loadTo := none, ory.loading := none } : State).progEnd status := by
  unfold State.loadEnds
  dsimp only
  rw [h]

theorem execProgramLoadDone_of_loading {s : State} {n : Nat} {p : Prog} (h : s.ory.loading = some (n, p))
    (hto : s.ory.loadTo = none) : execProgramLoadDone s = .next (({ (s.startProgram n p).reconfigured s with
      ory.loadTo := none, ory.loading := none } : State).progEnd 1) := by
  have to' : ((s.startProgram n p).reconfigured s).ory.loadTo = none := by rw [State.reconfigured_ory]; exact hto
  unfold execProgramLoadDone
  rw [h]
  exact congrArg Host.Outcome.next (State.loadEnds_of_command to' 1)

/-- An unload that is forced drops its program. -/
theorem State.tryUnload_forced {s : State} {n f : Nat} {p : Prog} (hp : s.ory.progs.get n = some p) (hun : p.unloading = some f)
    (hto : p.unloadTo = none) : s.tryUnload n true = if p.unloadCmd then ((s.dropProgram n p).reconfigured s).progEnd 1
      else (s.dropProgram n p).reconfigured s := by
  unfold State.tryUnload
  simp only [hp, hun, hto, Bool.true_or, if_true]

/-- After 1 ms the threads of an unload are stopped by force. -/
theorem execUnloadForceStop_due {s : State} {n f : Nat} {p : Prog} (hp : s.ory.progs = [(n, p)]) (hun : p.unloading = some f)
    (hdue : f + 16000000 ≤ s.ft) : execUnloadForceStop s = .next (s.tryUnload n true) := by
  simp [execUnloadForceStop, hp, hun, hdue]

/-- Settles O50: ORY_PROG_CMD by `State.progCmd_of_go` and a lemma for each operation, and the ends of loads and unloads. -/
theorem programs : Obligations.Programs := by
  intro s
  refine ⟨fun n p hp hlim hsusp hmany => ?suspend, fun t hready _ u hu hnone => ?watchdog,
    fun v u hgo hw hc hbusy hu => ⟨fun b x st hop hb hok => ?load, fun hop habsent => ?absent, fun n p hop hslot hfree => ?unload,
      fun n p hop hslot => ?resume⟩, fun n p hload hto u hu => ?loaded, fun n p f hp hun hdue hto => ?stopped⟩
  case suspend => exact congrArg Host.Outcome.next (State.suspend_of_many hp hlim hsusp hmany)
  case watchdog =>
    rw [hu] at hnone ⊢
    exact execIssueWatchdog_first hready hnone
  case load =>
    have run := State.progCmd_of_go hgo hw hc hbusy hop fun s =>
      s.beginLoad (stageBytes s.cfg.progStage (s.fld Reg.ORY_PROG_LEN.bytes)) none
    rw [← hu, ← hb, State.beginLoad_of_ok hok] at run
    exact congrArg Host.Outcome.next run
  case absent =>
    have run := State.progCmd_of_go hgo hw hc hbusy hop fun s =>
      match s.beginUnload (v.toNat % 2 ^ 16) true none with
      | (s, some c) => s.progEnd c
      | (s, none) => s
    rw [← hu, State.beginUnload_of_absent habsent] at run
    exact congrArg Host.Outcome.next run
  case unload =>
    have run := State.progCmd_of_go hgo hw hc hbusy hop fun s =>
      match s.beginUnload (v.toNat % 2 ^ 16) true none with
      | (s, some c) => s.progEnd c
      | (s, none) => s
    have begun : u.beginUnload (v.toNat % 2 ^ 16) true none = ((u.beginUnload (v.toNat % 2 ^ 16) true none).1, none) :=
      Prod.ext rfl (State.beginUnload_of_free hslot hfree true none)
    rw [← hu, begun] at run
    exact congrArg Host.Outcome.next run
  case resume =>
    have run := State.progCmd_of_go hgo hw hc hbusy hop fun s => s.resume (v.toNat % 2 ^ 16)
    rw [← hu, State.resume_of_slot hslot] at run
    exact congrArg Host.Outcome.next run
  case loaded =>
    rw [hu]
    exact execProgramLoadDone_of_loading hload hto
  case stopped =>
    have found : s.ory.progs.get n = some p := by rw [hp]; simp [SMap.get]
    refine (execUnloadForceStop_due hp hun hdue).trans (congrArg Host.Outcome.next ?_)
    exact State.tryUnload_forced found hun hto

end Sys2Proof.Machine
end

section
/-!
PROOFS. Configuration (chapter 15): writes to configuration fields, the folio, amendments, the colophon and the check units.
-/

namespace Sys2Proof.Machine

@[simp] theorem State.raise_cfg (s : State) (f : Fld) : (s.raise f).cfg = s.cfg := by rw [State.raise_eq]

@[simp] theorem State.log_cfg (s : State) (block : BitVec 8) (ev : AlmEvent) (index : Nat) (d : List Nat) :
    (s.log block ev index d).cfg = s.cfg := by
  rw [(s.log_same block ev index d).2]

/-! ### Configuration fields (R347) -/

theorem State.fired_of_still {s : State} (h : s.eph.state.drives = false) : s.fired = s := by
  simp [State.fired, h]

/-- A configuration field without a refusal of its own. -/
theorem State.cfgWrite_of_plain {s : State} {off : Nat} (v : W32) (ha : off ≠ Reg.SCH_VC_WEIGHT_A.addr)
    (hb : off ≠ Reg.SCH_VC_WEIGHT_B.addr) (hm : isMeterReg off = false) (hg : grantAt off = none) :
    s.cfgWrite off v = s.regWrite off v fun s => s.cfgWriteEffect off v := by
  simp [State.cfgWrite, ha, hb, hm, hg]

/-- With local_write_en 0 a write that reaches a configuration field is discarded and recorded (R347). -/
theorem State.regWrite_discarded {s : State} {off : Nat} {v : W32} (h : s.writable off v = true) (hc : isConfig off = true)
    (hl : s.bit Reg.CFG_CTL.local_write_en = false) (g : State → State) :
    s.regWrite off v g = s.log 0x17 .configWriteDiscarded off [v.toNat] := by
  simp only [State.writable, Bool.and_eq_true] at h
  obtain ⟨⟨answers, range⟩, text⟩ := h
  simp [State.regWrite, answers, range, text, hc, State.configWrite, hl]

/-- Settles O12: the write passes the refusals of other registers by, and R347 decides. -/
theorem configurationWrite : Obligations.ConfigurationWrite := by
  intro r off v s hc hdrive hm hg hw ha hb
  have reaches : exec (.configFieldWrite r off v) s =
      .next (s.regWrite off.toNat v fun s => s.cfgWriteEffect off.toNat v) := by
    refine (if_pos hc).trans (congrArg Host.Outcome.next ?_)
    rw [State.fired_of_still hdrive, State.cfgWrite_of_plain v ha hb hm hg]
  refine ⟨fun hl => ?_, fun hl => ?_⟩
  · rw [reaches, State.regWrite_discarded hw hc hl]
  · rw [reaches, State.regWrite_config hw hc hl]

/-! ### The folio (R343) -/

/-- Training of the host link changes the host fields of GLB_STATUS. -/
theorem State.fld_hostTrains (s : State) {g : Fld}
    (h : g.off ≠ Reg.GLB_STATUS.addr ∨ g.lo + g.width ≤ Reg.GLB_STATUS.host_up.lo) : s.hostTrains.fld g = s.fld g := by
  have apart {f : Fld} (hoff : f.off = Reg.GLB_STATUS.addr) (hlo : Reg.GLB_STATUS.host_up.lo ≤ f.lo) :
      g.off ≠ f.off ∨ f.lo + f.width ≤ g.lo ∨ g.lo + g.width ≤ f.lo :=
    h.imp (by rw [hoff]; exact id) fun below => .inr (below.trans hlo)
  unfold State.hostTrains
  split
  · rfl
  · split
    · rfl
    · exact (State.fld_setFld_other _ (f := Reg.GLB_STATUS.host_rate) (by unfold Fld.fits; decide) _ (apart rfl (by decide))).trans
        ((State.fld_setFld_other _ (f := Reg.GLB_STATUS.host_width) (by unfold Fld.fits; decide) _ (apart rfl (by decide))).trans
          (State.fld_setFld_other _ (f := Reg.GLB_STATUS.host_up) (by unfold Fld.fits; decide) _ (apart rfl (by decide))))

theorem State.reg_setAmendErr_ne (s : State) (e : ContentErr) {o : Nat} (h : o ≠ Reg.CFG_AMEND_ERR.addr) :
    (s.setAmendErr e).reg o = s.reg o := by
  rw [State.setAmendErr, State.reg_setFld_ne _ _ h, State.reg_setFld_ne _ _ h, State.reg_setFld_ne _ _ h]

/-- A BAD folio halts the device, and CFG_STATUS shows it. -/
theorem State.folioBad_shows (s : State) (e : ContentErr) (more : List Nat) :
    (s.folioBad e more).fld Reg.GLB_STATUS.boot = 5 ∧ (s.folioBad e more).fld Reg.CFG_STATUS.folio_state = 3 := by
  have boot (t : State) : ({ t.setFld Reg.GLB_STATUS.boot 5 with pwr.resetting := false, pwr.deviceReset := false } : State).fld
      Reg.GLB_STATUS.boot = 5 := t.fld_setFld _ (by unfold Fld.fits; decide) 5
  have kept (t : State) : ({ t.setFld Reg.GLB_STATUS.boot 5 with pwr.resetting := false, pwr.deviceReset := false } : State).fld
      Reg.CFG_STATUS.folio_state = t.fld Reg.CFG_STATUS.folio_state := State.fld_setFld_ne _ _ (by decide)
  unfold State.folioBad
  dsimp only
  constructor
  · rw [State.fld_hostTrains _ (.inr (by decide))]
    exact boot _
  · rw [State.fld_hostTrains _ (.inl (by decide))]
    refine (kept _).trans ?_
    rw [State.fld_congr (State.reg_log_ne _ _ _ _ _ (by decide) (by decide)), State.fld_raise_ne _ (by decide),
      State.fld_congr (State.reg_setAmendErr_ne _ _ (by decide)), State.fld_setFld _ _ (by unfold Fld.fits; decide)]
    rfl

section
variable {s : State} (hboot : s.fld Reg.GLB_STATUS.boot = 2)
include hboot

theorem execFolioApply_none (h : s.flashFolio = none) : execFolioApply s = .next (s.verifyFail.folioBad ⟨0, 0, 1⟩ []) := by
  rw [execFolioApply, if_neg (not_not.mpr hboot), h]

theorem execFolioApply_good {b : List Byte} (h : s.flashFolio = some b) (hok : s.folioErr b = none) :
    execFolioApply s = .next (s.folioGood b) := by
  rw [execFolioApply, if_neg (not_not.mpr hboot), h]
  dsimp only
  rw [hok]

theorem execFolioApply_bad {b : List Byte} {e : ContentErr} (h : s.flashFolio = some b) (hbad : s.folioErr b = some e)
    (he : e ≠ ⟨0, 0, 1⟩) : execFolioApply s = .next ((s.noteProgSig b e).folioBad e (cableDuplicate b).toList) := by
  rw [execFolioApply, if_neg (not_not.mpr hboot), h]
  dsimp only
  rw [hbad]
  dsimp only
  rw [if_neg he]

end

/-! ### CFG_AMEND_CMD (R348, R350) -/

section
variable {s : State} {v : W32} (hw : s.writable Reg.CFG_AMEND_CMD.addr v = true) (hc : isConfig Reg.CFG_AMEND_CMD.addr = false)
  (hgo : v.getLsbD 1 = true)
include hw hc hgo

/-- op 0 stages CFG_AMEND_STAGE, unless a transfer fills it (log 46). -/
theorem execCfgAmendStage_writable {u : State} (hu : u = s.storeFields Reg.CFG_AMEND_CMD.addr v) (hop : v.getLsbD 0 = false)
    (hbusy : u.bit Reg.CFG_STATUS.staging_busy = false) : execCfgAmendStage v s =
      .next (u.stageAmend (stageBytes u.cfg.amendStage (u.fld Reg.CFG_AMEND_LEN.bytes))).1 := by
  rw [execCfgAmendStage, if_pos ⟨hgo, by rw [hop]; rfl⟩, State.regWrite_of_writable hw hc, State.writeAmendCmd, ← hu, hgo, hop, hbusy]
  rfl

theorem execCfgAmendCancel_writable {u : State} (hu : u = s.storeFields Reg.CFG_AMEND_CMD.addr v) (hop : v.getLsbD 0 = true) :
    execCfgAmendCancel v s = .next u.cancelAmend.1 := by
  rw [execCfgAmendCancel, if_pos ⟨hgo, hop⟩, State.regWrite_of_writable hw hc, State.writeAmendCmd, ← hu, hgo, hop]
  rfl

end

/-- An image that passes its checks is the pending amendment. -/
theorem State.stageAmend_of_ok {u : State} {b : List Byte} (h : u.amendTrouble b = none) : (u.stageAmend b).1.cfg.pendingAmend =
    some { image := b, tAct := imgTAct b, epoch := BitVec.ofNat 32 (imgEpoch b) } := by
  unfold State.stageAmend
  rw [h]
  dsimp only
  rw [State.raise_cfg]
  rfl

/-- A pending amendment is cancelled while its lead lasts (R57, R350). -/
theorem State.cancelAmend_in_time {u : State} {a : Amendment} (ha : u.cfg.pendingAmend = some a)
    (hp : (u.act objAmend).pending = true) (hlead : u.ft + u.fld Reg.EPH_ACT_LEAD.value ≤ (u.act objAmend).tAct) :
    u.cancelAmend.1 = (u.setAct objAmend { u.act objAmend with pending := false, state := 0, reason := arNone }).dropAmendment
      acStaged .amendmentCancelled := by
  have early : ¬(((u.act objAmend).tAct : Int) - u.ft < u.fld Reg.EPH_ACT_LEAD.value) := by omega
  have cancelled : u.cancel objAmend =
      (u.setAct objAmend { u.act objAmend with pending := false, state := 0, reason := arNone }, true) := by
    unfold State.cancel
    dsimp only
    rw [hp, if_neg (by decide), if_neg early]
  unfold State.cancelAmend
  rw [ha]
  dsimp only
  rw [cancelled]

theorem State.pendingAmend_dropAmendment (s : State) (cause : Nat) (ev : AlmEvent) :
    (s.dropAmendment cause ev).cfg.pendingAmend = none := by
  cases hp : s.cfg.pendingAmend with
  | none => rw [State.dropAmendment, hp, hp]
  | some a =>
    rw [State.dropAmendment_of_pending hp, State.raise_cfg, State.setFld_cfg, State.log_cfg]
    rfl

/-! ### Management frames (R351 to R353) -/

/-- A MGMT frame for the hub die that its port takes in, in the state where its shelf buffer is free again. -/
theorem State.mgmtIn_of_parked {s u : State} {p : Port} {f : Frame} {k : Nat} (ht : f.ftype = ftMgmt) (hd : f.dclass = true)
    (hu : s.parked p f 0 = some (u, k)) (hm : u.mine f = true) {op : BitVec 8} (hop : f.opcode = op) (rule : State → State) :
    s.mgmtIn op p f true rule = rule (u.freeBuf k) := by
  rw [State.mgmtIn, if_pos ⟨ht, hop, hd⟩, State.routed_of_parked hu]
  simp [hd, hm]

theorem State.amendFragment_taken {s : State} {src : Transport} {off total : Nat} {bs : List Byte} {whole : Bool}
    (h : fragWay (s.cfg.transfers.get xfAmend) src off total bs.length 0x800000 whole = .taken false) :
    s.amendFragment src off total bs whole = (({ s.fragTaken xfAmend src off total bs.length with
      cfg.amendStage := stagePut s.cfg.amendStage off bs } : State).setFld Reg.CFG_STATUS.staging_busy 1, 0) := by
  rw [State.amendFragment, h]
  rfl

/-! ### Transfers (R351, R366) -/

@[simp] theorem State.amendRefused_cfg (s : State) (cause : Nat) (more : List Nat) : (s.amendRefused cause none more).cfg = s.cfg := by
  unfold State.amendRefused
  dsimp only
  rw [State.log_cfg, State.raise_cfg, State.setFld_cfg]

/-- A transfer that has been idle for 100 ms is gone. -/
theorem State.transferIdle_due {s : State} {k : Nat} {x : Transfer} (hx : s.cfg.transfers.get k = some x) (ha : x.answer = none)
    (hdue : x.at_ + 1600000000 ≤ s.ft) : (s.transferIdle k).cfg.transfers.get k = none := by
  have open_ : ¬(x.answer.isSome = true ∨ s.ft < x.at_ + 1600000000) := by
    rw [ha]
    simpa using hdue
  unfold State.transferIdle
  rw [hx]
  dsimp only
  rw [if_neg open_]
  split
  · rename_i hk
    rw [State.amendTransferFails, State.amendRefused_cfg, hk]
    exact SMap.get_del_same ..
  · split <;> exact SMap.get_del_same ..

/-! ### Check units (R355, R356) -/

section
variable {s : State} {n : BitVec 5} {v : W32} {u : State} (hw : s.writable (Reg.CFG_CU_CTL.addr n.toNat) v = true)
  (hc : isConfig (Reg.CFG_CU_CTL.addr n.toNat) = false) (hgo : (Reg.CFG_CU_CTL.go n.toNat).of v = 1)
  (hu : u = s.storeFields (Reg.CFG_CU_CTL.addr n.toNat) v) (hidle : u.cfg.cuJobs.get n.toNat = none)
include hw hc hgo hu hidle

/-- A unit that is not busy starts its job. -/
theorem execCheckUnitJob_idle : execCheckUnitJob n v s = .next (u.cuStart n.toNat) := by
  rw [execCheckUnitJob, if_pos hgo, State.writeCuCtl, State.regWrite_of_writable hw hc, ← hu]
  dsimp only
  rw [if_pos ⟨hgo, by rw [hidle]; rfl⟩]

end

theorem State.cuStart_of_badParams {u : State} {n : Nat} (h : u.cuParams n = none) : u.cuStart n = u.cuEnds n 3 1 := by
  rw [State.cuStart, h]

/-- A job whose bytes lie inside its memory takes its parameters from the registers. -/
theorem State.cuStart_of_ok {u : State} {n w po ini : Nat} {re inv : Bool} (h : u.cuParams n = some (w, po, ini, re, inv))
    (hlen : u.pair (Reg.CFG_CU_LEN_LO.value n) ≠ 0)
    (hfits : u.pair (Reg.CFG_CU_SRC_LO.value n) + u.pair (Reg.CFG_CU_LEN_LO.value n) ≤
      (if u.bit (Reg.CFG_CU_CTL.src n) then flashSize else dpaEnd)) {c : CuJob}
    (hc : c = { flash := u.bit (Reg.CFG_CU_CTL.src n), src := u.pair (Reg.CFG_CU_SRC_LO.value n), w := w, poly := po,
                len := u.pair (Reg.CFG_CU_LEN_LO.value n), init := ini, refl := re, inv := inv,
                compare := u.bit (Reg.CFG_CU_CTL.compare_en n), expect := u.pair (Reg.CFG_CU_EXPECT_LO.value n) }) :
    u.cuStart n = ((({ u with cfg.cuJobs := u.cfg.cuJobs.put n c } : State).setFld (Reg.CFG_CU_STATUS.state n) 1).setFld
      (Reg.CFG_CU_STATUS.error n) 0) := by
  unfold State.cuStart
  dsimp only
  rw [h]
  dsimp only
  rw [if_neg (not_or.mpr ⟨hlen, Nat.not_lt.mpr hfits⟩), ← hc]

/-- A job on the flash without a comparison ends with its result. -/
theorem execCheckUnitDone_flash {s : State} {n : BitVec 5} {c : CuJob} (hj : s.cfg.cuJobs.get n.toNat = some c)
    (hflash : c.flash = true) (hcmp : c.compare = false) : execCheckUnitDone n false s =
      .next ((s.setPair (Reg.CFG_CU_RESULT_LO.value n.toNat) (crc ((List.range c.len).map fun k => s.flashAt (c.src + k)) c.w
        c.poly c.init c.refl c.inv)).cuEnds n.toNat 2 0) := by
  unfold execCheckUnitDone
  dsimp only
  rw [hj]
  dsimp only
  rw [if_pos hflash, if_pos hflash]
  refine congrArg Host.Outcome.next ?_
  unfold State.cuResult State.cuBytes
  dsimp only
  rw [if_pos hflash, hcmp, if_neg Bool.false_ne_true]

/-- Settles O53: the folio by what its check finds, the commands on the pending amendment, its frames and transfers, and the
check units, each by the lemma on its case. -/
theorem folioAndAmendments : Obligations.FolioAndAmendments := by
  intro s
  refine ⟨fun hboot => ⟨execFolioApply_none hboot, fun b => execFolioApply_good hboot, fun b e h hbad he => ?bad⟩,
    fun hbusy => if_pos hbusy, fun v u hw hc hgo hu => ⟨fun hop hbusy b hb hok => ?stage, fun hop a ha hp hlead => ?cancel⟩,
    fun p f u k w ht hd hu hm hw => ⟨fun hop hen => ?closed, fun hop hen hway x hx => ?fragment, fun hop => ?cancelFrame,
      fun hop hen => ?query⟩, rfl, fun k x => State.transferIdle_due, fun n v u c hw hc hgo hu hidle => ⟨fun hp => ?params,
      fun w po ini re inv hp hlen hfits hj x hx => ?job⟩, fun n c r hj hflash hcmp hr => ?done⟩
  case bad =>
    obtain ⟨boot, state⟩ := (s.noteProgSig b e).folioBad_shows e (cableDuplicate b).toList
    exact ⟨_, execFolioApply_bad hboot h hbad he, rfl, boot, state⟩
  case stage =>
    refine ⟨?_, State.stageAmend_of_ok hok⟩
    rw [hb]
    exact execCfgAmendStage_writable hw hc hgo hu hop hbusy
  case cancel =>
    refine ⟨_, execCfgAmendCancel_writable hw hc hgo hu hop, ?_, State.cancelAmend_in_time ha hp hlead⟩
    rw [State.cancelAmend_in_time ha hp hlead, State.pendingAmend_dropAmendment]
  case closed =>
    refine congrArg Host.Outcome.next ((State.mgmtIn_of_parked ht hd hu hm hop _).trans ?_)
    rw [← hw, State.takeAmendFrag, hen]
    rfl
  case fragment =>
    refine congrArg Host.Outcome.next ((State.mgmtIn_of_parked ht hd hu hm hop _).trans ?_)
    rw [← hw, State.takeAmendFrag, hen, State.amendFragment_taken hway, hx]
    rfl
  case cancelFrame =>
    refine congrArg Host.Outcome.next ((State.mgmtIn_of_parked ht hd hu hm hop _).trans ?_)
    rw [← hw]
  case query =>
    refine congrArg Host.Outcome.next ((State.mgmtIn_of_parked ht hd hu hm hop _).trans ?_)
    rw [← hw, hen, if_pos rfl]
  case params =>
    refine (execCheckUnitJob_idle hw hc hgo hu hidle).trans ?_
    rw [State.cuStart_of_badParams hp]
  case job =>
    refine (execCheckUnitJob_idle hw hc hgo hu hidle).trans ?_
    rw [State.cuStart_of_ok hp hlen hfits hj, hx]
  case done =>
    rw [hr]
    exact execCheckUnitDone_flash hj hflash hcmp

end Sys2Proof.Machine
end

section
/-!
PROOFS. Health (chapter 14): scores, spare groups, expulsions and the breaker (R320 to R331); the governor, temperature
readings and the thermal actions (R333 to R338).
-/

namespace Sys2Proof.Machine

/-! ### Elements -/

theorem State.elemAt_setElemAt_same (s : State) (c x : Nat) (e : Elem) : (s.setElemAt c x e).elemAt c x = e :=
  SMap.read_write_same ..

theorem State.elemAt_setElemAt_ne (s : State) {c x d y : Nat} (e : Elem) (h : elemKey d y ≠ elemKey c x) :
    (s.setElemAt c x e).elemAt d y = s.elemAt d y :=
  SMap.read_write_ne _ _ _ _ h

/-- A healthy element whose score stays at or above suspect does not move (R322). -/
theorem State.moveElem_of_healthy {s : State} {c x : Nat} (hok : (s.elemAt c x).state = .ok) (hcap : (s.elemAt c x).capped = false)
    (hscore : s.fld Reg.HLT_THRESH.suspect ≤ (s.elemAt c x).score) : s.moveElem c x = s := by
  have eff : s.effective (s.elemAt c x) = (s.elemAt c x).score := by simp [State.effective, hcap]
  unfold State.moveElem
  dsimp only
  rw [hok]
  dsimp only
  rw [eff, if_neg (Nat.not_lt.mpr hscore)]

/-- An input other than 3 and 6 of an element that is no tile lowers its score by the input's weight (R321). -/
theorem State.albedo_of_weight {s : State} {c x i : Nat} (hclass : inputClass i c = true) (hx : x < elemCount c) (h3 : i ≠ 3)
    (h6 : i ≠ 6) (hc : c ≠ 1) (hen : s.bit Reg.HLT_CTL.albedo_en = true) :
    s.albedo c x i = (s.setElemAt c x { s.elemAt c x with lastInput := i }).setScore c x
      ((s.elemAt c x).score - s.fld (Reg.HLT_WEIGHT.weight i)) := by
  have counted : (!inputClass i c || decide (elemCount c ≤ x)) = false := by simp [hclass, hx]
  have noEvidence : (c = 1 && (i == 4 || i == 5 || i == 6 || i == 8)) = false := by simp [hc]
  have on : (s.setElemAt c x { s.elemAt c x with lastInput := i }).bit Reg.HLT_CTL.albedo_en = true := hen
  unfold State.albedo
  rw [counted, if_neg Bool.false_ne_true]
  dsimp only
  rw [noEvidence, if_neg Bool.false_ne_true, if_neg h6, if_neg h3, on, if_pos rfl, State.elemAt_setElemAt_same]
  rfl

theorem State.albedo_of_healthy {s : State} {c x i n : Nat} {e : Elem} (hclass : inputClass i c = true) (hx : x < elemCount c)
    (h3 : i ≠ 3) (h6 : i ≠ 6) (hc : c ≠ 1) (hen : s.bit Reg.HLT_CTL.albedo_en = true) (he : e = s.elemAt c x)
    (hn : n = e.score - s.fld (Reg.HLT_WEIGHT.weight i)) (hok : e.state = .ok) (hcap : e.capped = false)
    (hscore : s.fld Reg.HLT_THRESH.suspect ≤ n) :
    s.albedo c x i = (s.setElemAt c x { e with lastInput := i }).setElemAt c x { e with lastInput := i, score := n } := by
  rw [State.albedo_of_weight hclass hx h3 h6 hc hen, State.setScore, State.elemAt_setElemAt_same, ← he, ← hn]
  refine State.moveElem_of_healthy ?_ ?_ ?_ <;> rw [State.elemAt_setElemAt_same]
  · exact hok
  · exact hcap
  · exact hscore

/-! ### Budgets, expulsions and the breaker (R324 to R328) -/

theorem State.recoverScores_eq (s : State) : s.recoverScores = if s.bit Reg.HLT_CTL.albedo_en then
    s.hlt.elems.foldl (fun t e =>
      let x := t.elemAt (e.1 / 1024) (e.1 % 1024)
      if x.score < 1023 then t.setScore (e.1 / 1024) (e.1 % 1024) (min 1023 (x.score + t.fld Reg.HLT_RECOVER.step)) else t) s
    else s := by
  unfold State.recoverScores
  cases s.bit Reg.HLT_CTL.albedo_en <;> rfl

/-- A spare group whose refill period has passed. -/
theorem State.refillGroup_due {s : State} {g p : Nat} (hg : g ≤ 100)
    (hp : p = s.fld (Reg.HLT_BUDGET_CFG.refill (groupClass g)) * 60 * second) (hpos : p ≠ 0)
    (hdue : s.hlt.refillAt.read 0 g + p ≤ s.ft) {u : State} (hu : u = { s with hlt.refillAt := s.hlt.refillAt.write 0 g s.ft }) :
    s.refillGroup g = if s.groupTokens g < s.fld (Reg.HLT_BUDGET_CFG.burst (groupClass g)) then
      (u.setFld (Reg.HLT_BUDGET_TOK.tokens g) (s.groupTokens g + 1)).retryGroup g else u := by
  have due : ¬(100 < g ∨ p = 0 ∨ s.ft < s.hlt.refillAt.read 0 g + p) := by omega
  unfold State.refillGroup
  dsimp only
  rw [← hp, if_neg due, ← hu]
  have tokens : u.groupTokens g = s.groupTokens g := by rw [hu]; rfl
  have burst : u.fld (Reg.HLT_BUDGET_CFG.burst (groupClass g)) = s.fld (Reg.HLT_BUDGET_CFG.burst (groupClass g)) := by
    rw [hu]; rfl
  rw [tokens, burst]

theorem execExpulsionComplete_started {s : State} {c : BitVec 3} {x : BitVec 10} (he : (s.elemAt c.toNat x.toNat).state = .expelling)
    (hs : (s.elemAt c.toNat x.toNat).started = true) : execExpulsionComplete c x s = .next (s.expelDone c.toNat x.toNat) :=
  if_pos ⟨he, hs⟩

theorem execBreakerClear_writable {s : State} {v : W32} (hv : v.getLsbD 1 = true)
    (hw : s.writable Reg.HLT_BREAKER.addr v = true) (hc : isConfig Reg.HLT_BREAKER.addr = false) :
    execBreakerClear v s = .next s.clearBreaker := by
  rw [execBreakerClear, if_pos hv, State.regWrite_of_writable hw hc]

/-- A word with go and an op reaches the rule of HLT_ELEM_CMD (R327). -/
theorem State.elemCmd_writable {s : State} {v : W32} (hgo : v.getLsbD 2 = true) (hw : s.writable Reg.HLT_ELEM_CMD.addr v = true)
    (hc : isConfig Reg.HLT_ELEM_CMD.addr = false) {op : Nat} (hop : v.toNat % 4 = op) :
    (if elemOp v op then Host.Outcome.next (s.regWrite Reg.HLT_ELEM_CMD.addr v fun s => s.writeElemCmd v) else .next s : Outcome) =
      .next (s.writeElemCmd v) := by
  rw [if_pos (by simp [elemOp, hgo, hop]), State.regWrite_of_writable hw hc]

section
variable {s u : State} {v : W32} {c x : Nat} (hgo : v.getLsbD 2 = true) (hu : u = s.storeFields Reg.HLT_ELEM_CMD.addr v)
  (hsel : u.selected = some (c, x))
include hgo hu hsel

theorem State.writeElemCmd_reset (hop : v.toNat % 4 = 0) :
    s.writeElemCmd v = (u.setScore c x 1023).setFld Reg.HLT_ELEM_CMD.status 1 := by
  unfold State.writeElemCmd
  dsimp only
  rw [← hu, hgo, hsel, hop]
  rfl

theorem State.writeElemCmd_restore (hop : v.toNat % 4 = 1) : s.writeElemCmd v =
    if (u.elemAt c x).state = .expelled then u.restoreElem c x else u.setFld Reg.HLT_ELEM_CMD.status 3 := by
  unfold State.writeElemCmd
  dsimp only
  rw [← hu, hgo, hsel, hop]
  rfl

theorem State.writeElemCmd_expel (hop : v.toNat % 4 = 2) : s.writeElemCmd v = u.expelElem c x := by
  unfold State.writeElemCmd
  dsimp only
  rw [← hu, hgo, hsel, hop]
  rfl

end

/-- A healthy element with an available spare is expelled on command (R327). -/
theorem State.expelElem_of_spare {u : State} {c x g : Nat} (hok : (u.elemAt c x).state = .ok) (hg : elemGroup c x = some g)
    (hspare : u.spareAvailable c x = true) : u.expelElem c x = ((u.setElemAt c x { u.elemAt c x with
      state := .expelling, started := false, holdReason := 0, manual := true }).setFld Reg.HLT_ELEM_CMD.status 2).nextAction g := by
  unfold State.expelElem
  dsimp only
  rw [hok, hg, hspare]
  rfl

theorem State.expelElem_of_noGroup {u : State} {c x : Nat} (hok : (u.elemAt c x).state = .ok) (hg : elemGroup c x = none) :
    u.expelElem c x = u.setFld Reg.HLT_ELEM_CMD.status 4 := by
  unfold State.expelElem
  dsimp only
  rw [hok, hg]
  rfl

theorem execAuditWaitExpiry_due {s : State} {g : BitVec 14} {q : BitVec 16} {k : BitVec 24} {x : Segment} {a : Nat}
    (hx : s.seg g.toNat q k.toNat = some x) (ha : x.audit.bind Audit.waitFrom = some a)
    (hdue : a + max 1 (s.fld Reg.HLT_AUDIT_CFG.audit_wait) * 160 ≤ s.ft) :
    execAuditWaitExpiry g q k s = .next ((s.abandonAudit g.toNat q k.toNat x).settle g.toNat) := by
  unfold execAuditWaitExpiry
  rw [hx]
  dsimp only
  rw [ha]
  exact if_pos hdue

/-- Settles O51: an input by `State.albedo_of_healthy`, the commands on elements by one lemma for each op, and the rest by what
its rule does when it is due. -/
theorem scoresAndExpulsions : Obligations.ScoresAndExpulsions := by
  intro s
  refine ⟨fun c x i hclass hx h3 h6 hc hen e n he hn hok hcap hscore => ?input, congrArg Host.Outcome.next s.recoverScores_eq,
    fun g p hg hp hpos hdue u hu => congrArg Host.Outcome.next (State.refillGroup_due hg hp hpos hdue hu),
    fun x he hs => execExpulsionComplete_started he hs, fun x he hs => execExpulsionComplete_started he hs,
    fun v hv hw hc u hu => ?breaker, fun v u c x hgo hw hc hu hsel => ⟨fun hop => ?reset, fun hop hex => ?restore,
      fun hop hex => ?refused, fun hop hok g hg hspare => ?expel, fun hop hok hg => ?noGroup⟩,
    fun g q k x a => execAuditWaitExpiry_due⟩
  case input =>
    have done := State.albedo_of_healthy hclass hx h3 h6 hc hen he hn hok hcap hscore
    refine ⟨_, congrArg Host.Outcome.next done, State.elemAt_setElemAt_same .., fun d y hne => ?_, rfl⟩
    rw [State.elemAt_setElemAt_ne _ _ hne, State.elemAt_setElemAt_ne _ _ hne]
  case breaker =>
    rw [hu]
    exact execBreakerClear_writable hv hw hc
  case reset =>
    exact (State.elemCmd_writable hgo hw hc hop).trans (congrArg _ (State.writeElemCmd_reset hgo hu hsel hop))
  case restore =>
    exact (State.elemCmd_writable hgo hw hc hop).trans
      (congrArg _ ((State.writeElemCmd_restore hgo hu hsel hop).trans (if_pos hex)))
  case refused =>
    exact (State.elemCmd_writable hgo hw hc hop).trans
      (congrArg _ ((State.writeElemCmd_restore hgo hu hsel hop).trans (if_neg hex)))
  case expel =>
    exact (State.elemCmd_writable hgo hw hc hop).trans
      (congrArg _ ((State.writeElemCmd_expel hgo hu hsel hop).trans (State.expelElem_of_spare hok hg hspare)))
  case noGroup =>
    exact (State.elemCmd_writable hgo hw hc hop).trans
      (congrArg _ ((State.writeElemCmd_expel hgo hu hsel hop).trans (State.expelElem_of_noGroup hok hg)))

/-! ### The governor (R333 to R335) -/

/-- The last samples, with the averages and peaks of a new one shown, and power_over where one is above its limit. -/
def State.powerSampled (s : State) (dom : List Nat) (pkg : Nat) : State :=
  let s := if governed.any fun g => decide (0 < s.fld g.2.1) then s.count Reg.HLT_CNT_THROTTLE_US.value else s
  let s := { s with hlt.power := ((List.range 6).map (fun n => dom.getD n 0), pkg) :: s.hlt.power.take 7 }
  let s := s.showPower Reg.HLT_PKG_PWR.avg Reg.HLT_PKG_PWR.peak s.pkgAvg
  let s : State := (List.range 6).foldl (fun s n => s.showPower (Reg.HLT_DOM_PWR.avg n) (Reg.HLT_DOM_PWR.peak n) (s.domAvg n)) s
  let above := (List.range 6).any (fun (n : Nat) => decide (s.fld (Reg.HLT_DOM_CAP.cap n) < s.domAvg n)) ||
    decide (s.fld Reg.HLT_PWR_CFG.pkg_limit < s.pkgAvg)
  if above then s.raise Reg.HLT_INT_STATUS.power_over else s

/-- While 105 C holds, every throttle is at its maximum. -/
def State.throttleHeld (s : State) : State := if s.hlt.critHold then s.throttleMax else s

theorem State.governorRun_eq (s : State) (dom : List Nat) (pkg : Nat) (used : List Nat) : s.governorRun dom pkg used =
    { (s.powerSampled dom pkg).govern.throttleHeld with
      hlt.ceilings := (List.range 16).foldl (fun m k => SMap.write 0 m k (min 640 (used.getD k 0 + 64)))
        (s.powerSampled dom pkg).govern.throttleHeld.hlt.ceilings } := rfl

@[simp] theorem State.raise_hlt (s : State) (f : Fld) : (s.raise f).hlt = s.hlt := by rw [State.raise_eq]

@[simp] theorem State.log_hlt (s : State) (block : BitVec 8) (ev : AlmEvent) (index : Nat) (d : List Nat) :
    (s.log block ev index d).hlt = s.hlt := by
  rw [(s.log_same block ev index d).2]

theorem foldl_hlt {α : Type} {f : State → α → State} (h : ∀ s a, (f s a).hlt = s.hlt) (l : List α) (s : State) :
    (l.foldl f s).hlt = s.hlt :=
  List.foldlRecOn (motive := fun t => t.hlt = s.hlt) l f rfl fun t ht a _ => (h t a).trans ht

theorem ite_hlt {c : Prop} [Decidable c] {s t u : State} (ht : t.hlt = s.hlt) (hu : u.hlt = s.hlt) :
    (if c then t else u).hlt = s.hlt := by
  split
  · exact ht
  · exact hu

theorem State.powerSampled_hlt (s : State) (dom : List Nat) (pkg : Nat) : (s.powerSampled dom pkg).hlt =
    { s.hlt with power := ((List.range 6).map (fun n => dom.getD n 0), pkg) :: s.hlt.power.take 7 } := by
  have counted : (if governed.any fun g => decide (0 < s.fld g.2.1) then s.count Reg.HLT_CNT_THROTTLE_US.value else s).hlt = s.hlt :=
    ite_hlt rfl rfl
  unfold State.powerSampled
  dsimp only
  generalize (if governed.any fun g => decide (0 < s.fld g.2.1) then s.count Reg.HLT_CNT_THROTTLE_US.value else s) = t at counted ⊢
  rw [← counted]
  refine (ite_hlt (State.raise_hlt _ _) rfl).trans (foldl_hlt (fun s n => ?_) _ _)
  rfl

/-- The governor moves throttles, and its run above the limit. -/
theorem State.govern_hlt (s : State) : ∃ n, s.govern.hlt = { s.hlt with critRun := n } := by
  have raised : (governed.foldl (fun t g =>
      if t.fld (Reg.HLT_DOM_CAP.cap g.1) < t.domAvg g.1 || !s.hlt.tjHit.isEmpty then t.throttleUp g else t) s).hlt = s.hlt :=
    foldl_hlt (fun t g => ite_hlt (t := t.throttleUp g) rfl rfl) _ _
  unfold State.govern
  dsimp only
  generalize (governed.foldl (fun t g =>
      if t.fld (Reg.HLT_DOM_CAP.cap g.1) < t.domAvg g.1 || !s.hlt.tjHit.isEmpty then t.throttleUp g else t) s) = t at raised ⊢
  rw [← raised]
  split
  · split
    · exact ⟨_, rfl⟩
    · exact ⟨_, rfl⟩
  · split
    · split
      · exact ⟨_, rfl⟩
      · exact ⟨_, rfl⟩
    · exact ⟨_, rfl⟩

theorem State.throttleMax_hlt (s : State) : s.throttleMax.hlt = s.hlt := rfl

theorem State.throttleHeld_hlt (s : State) : s.throttleHeld.hlt = s.hlt := ite_hlt s.throttleMax_hlt rfl

/-- The throttles at their maximum. -/
def State.throttled (s : State) : Prop :=
  s.fld Reg.HLT_THROTTLE.orrery = 56 ∧ s.fld Reg.HLT_THROTTLE.accession = 48 ∧ s.fld Reg.HLT_THROTTLE.tiles = 48

theorem State.throttled_of_reg {s t : State} (h : t.reg Reg.HLT_THROTTLE.addr = s.reg Reg.HLT_THROTTLE.addr) (hs : s.throttled) :
    t.throttled := by
  obtain ⟨orrery, accession, tiles⟩ := hs
  exact ⟨(State.fld_congr h).trans orrery, (State.fld_congr h).trans accession, (State.fld_congr h).trans tiles⟩

theorem State.throttleMax_throttled (s : State) : s.throttleMax.throttled := by
  have fold : s.throttleMax = ((s.setFld Reg.HLT_THROTTLE.orrery 56).setFld Reg.HLT_THROTTLE.accession 48).setFld
      Reg.HLT_THROTTLE.tiles 48 := rfl
  rw [fold]
  refine ⟨?_, ?_, State.fld_setFld _ _ (by unfold Fld.fits; decide) _⟩
  · rw [State.fld_setFld_apart _ (by unfold Fld.fits; decide) _ (by decide),
      State.fld_setFld_apart _ (by unfold Fld.fits; decide) _ (by decide), State.fld_setFld _ _ (by unfold Fld.fits; decide)]
    rfl
  · rw [State.fld_setFld_apart _ (by unfold Fld.fits; decide) _ (by decide), State.fld_setFld _ _ (by unfold Fld.fits; decide)]
    rfl

/-- A value written at each of the first n keys, from the one there. -/
theorem SMap.read_foldl_write {α : Type} [DecidableEq α] (d : α) (f : Nat → α → α) (n : Nat) (m : SMap α) (k : Nat) :
    ((List.range n).foldl (fun m k => SMap.write d m k (f k (SMap.read d m k))) m).read d k =
      if k < n then f k (m.read d k) else m.read d k := by
  induction n with
  | zero => rfl
  | succ n ih =>
    rw [List.range_succ, List.foldl_append, List.foldl_cons, List.foldl_nil]
    by_cases hk : k = n
    · subst hk
      rw [SMap.read_write_same, ih, if_neg (Nat.lt_irrefl k), if_pos (Nat.lt_succ_self k)]
    · rw [SMap.read_write_ne _ _ _ _ hk, ih]
      exact if_congr (by omega) rfl rfl

theorem State.governorRun_power (s : State) (dom : List Nat) (pkg : Nat) (used : List Nat) :
    (s.governorRun dom pkg used).hlt.power = ((List.range 6).map (fun n => dom.getD n 0), pkg) :: s.hlt.power.take 7 := by
  obtain ⟨n, governed⟩ := (s.powerSampled dom pkg).govern_hlt
  rw [State.governorRun_eq]
  dsimp only
  rw [State.throttleHeld_hlt, governed, State.powerSampled_hlt]

theorem State.governorRun_ceilings (s : State) (dom : List Nat) (pkg : Nat) (used : List Nat) {k : Nat} (hk : k < 16) :
    (s.governorRun dom pkg used).hlt.ceilings.read 0 k = min 640 (used.getD k 0 + 64) := by
  have written := SMap.read_foldl_write 0 (fun k _ => min 640 (used.getD k 0 + 64)) 16
    (s.powerSampled dom pkg).govern.throttleHeld.hlt.ceilings k
  rw [if_pos hk] at written
  rw [State.governorRun_eq]
  exact written

theorem State.governorRun_held (s : State) (dom : List Nat) (pkg : Nat) (used : List Nat) (h : s.hlt.critHold = true) :
    (s.governorRun dom pkg used).throttled := by
  obtain ⟨n, governed⟩ := (s.powerSampled dom pkg).govern_hlt
  have held : (s.powerSampled dom pkg).govern.hlt.critHold = true := by rw [governed, State.powerSampled_hlt]; exact h
  have max : (s.powerSampled dom pkg).govern.throttleHeld.throttled := by
    rw [State.throttleHeld, held, if_pos rfl]
    exact State.throttleMax_throttled _
  rw [State.governorRun_eq]
  generalize (s.powerSampled dom pkg).govern.throttleHeld = t at max ⊢
  exact max

/-! ### Temperatures (R332, R336) -/

/-- Values set in fields of registers of their own. -/
theorem State.fld_foldl_setFld {g : Nat → Fld} (hfits : ∀ i, (g i).fits) (hoff : ∀ i j, i ≠ j → (g i).off ≠ (g j).off)
    (v : Nat → Nat) (n : Nat) (s : State) {i : Nat} (hi : i < n) :
    ((List.range n).foldl (fun s d => s.setFld (g d) (v d)) s).fld (g i) = v i % 2 ^ (g i).width := by
  induction n with
  | zero => omega
  | succ n ih =>
    rw [List.range_succ, List.foldl_append, List.foldl_cons, List.foldl_nil]
    by_cases hn : i = n
    · rw [hn, State.fld_setFld _ _ (hfits n)]
    · rw [State.fld_setFld_ne _ _ (hoff i n hn), ih (by omega)]

theorem wrap_lt (w : Nat) (v : Int) : wrap w v < 2 ^ w := by
  have pos : (0 : Int) < (2 ^ w : Nat) := by exact_mod_cast Nat.two_pow_pos w
  have low := Int.emod_nonneg v pos.ne'
  have high := Int.emod_lt_of_pos v pos
  unfold wrap
  omega

/-- Registers of the readings shown. -/
def heatReg (o : Nat) : Prop := 0x16000350 ≤ o ∧ o < 0x160003B0

/-- From s to t the readings shown and the runs of hot readings stay. -/
structure State.KeepsHeat (s t : State) : Prop where
  reg : ∀ o, heatReg o → t.reg o = s.reg o
  hot105 : t.hlt.hot105 = s.hlt.hot105
  hot110 : t.hlt.hot110 = s.hlt.hot110

namespace State.KeepsHeat

variable {s t u : State}

theorem refl (s : State) : s.KeepsHeat s := ⟨fun _ _ => rfl, rfl, rfl⟩

theorem trans (h : s.KeepsHeat t) (k : t.KeepsHeat u) : s.KeepsHeat u :=
  ⟨fun o ho => (k.reg o ho).trans (h.reg o ho), k.hot105.trans h.hot105, k.hot110.trans h.hot110⟩

theorem foldl {α : Type} {f : State → α → State} (h : ∀ t a, State.KeepsHeat t (f t a)) (l : List α) (s : State) :
    s.KeepsHeat (l.foldl f s) :=
  List.foldlRecOn l f (.refl s) fun t ht a _ => ht.trans (h t a)

theorem ite {c : Prop} [Decidable c] (ht : s.KeepsHeat t) (hu : s.KeepsHeat u) : s.KeepsHeat (if c then t else u) := by
  split
  · exact ht
  · exact hu

theorem setFld (h : s.KeepsHeat t) {f : Fld} (v : Nat) (hf : ¬heatReg f.off) : s.KeepsHeat (t.setFld f v) :=
  h.trans ⟨fun _ ho => State.reg_setFld_ne t v fun e => hf (e ▸ ho), rfl, rfl⟩

theorem raise (h : s.KeepsHeat t) {f : Fld} (hf : ¬heatReg f.off) : s.KeepsHeat (t.raise f) := by
  refine h.trans ⟨fun o ho => ?_, by rw [State.raise_hlt], by rw [State.raise_hlt]⟩
  rw [State.reg_raise, State.reg_setFld_ne t 1 fun e => hf (by rwa [← e])]

theorem log (h : s.KeepsHeat t) (block : BitVec 8) (ev : AlmEvent) (index : Nat) (d : List Nat) :
    s.KeepsHeat (t.log block ev index d) := by
  refine h.trans ⟨fun o ho => State.reg_log_ne _ _ _ _ _ ?_ ?_, by rw [State.log_hlt], by rw [State.log_hlt]⟩ <;>
    rintro rfl <;> revert ho <;> unfold heatReg <;> decide

theorem setElemAt (h : s.KeepsHeat t) (c x : Nat) (e : Elem) : s.KeepsHeat (t.setElemAt c x e) := h.trans ⟨fun _ _ => rfl, rfl, rfl⟩

end State.KeepsHeat

theorem State.keepsHeat_addEvent (s : State) (k : Nat) (e : EventRec) : s.KeepsHeat (s.addEvent k e) := by
  unfold State.addEvent
  dsimp only
  split
  · exact ⟨fun _ _ => rfl, rfl, rfl⟩
  · exact .ite ⟨fun _ _ => rfl, rfl, rfl⟩ ⟨fun _ _ => rfl, rfl, rfl⟩

theorem State.keepsHeat_holdElem (s : State) (c x reason : Nat) : s.KeepsHeat (s.holdElem c x reason) := by
  unfold State.holdElem
  dsimp only
  have held := ((State.KeepsHeat.refl s).log 0x16 .elementDegraded (elemKey c x) [reason]).setElemAt c x
    { s.elemAt c x with state := .degraded, holdReason := reason, started := false }
  refine .ite (.refl s) (.raise (.setFld (.ite (held.trans (State.keepsHeat_addEvent ..)) held) _ ?_) ?_) <;>
    unfold heatReg <;> decide

theorem State.keepsHeat_freezeBreaker (s : State) (c x : Nat) : s.KeepsHeat (s.freezeBreaker c x) := by
  unfold State.freezeBreaker
  dsimp only
  refine .raise ?_ (by unfold heatReg; decide)
  iterate 6 refine .setFld ?_ _ (by unfold heatReg; decide)
  exact (State.KeepsHeat.refl s).log ..

theorem State.keepsHeat_beginAction (s : State) (c x : Nat) : s.KeepsHeat (s.beginAction c x) := by
  have started := (State.KeepsHeat.refl s).setElemAt c x { s.elemAt c x with started := true }
  unfold State.beginAction
  dsimp only
  split
  · split
    · exact started.trans ⟨fun _ _ => rfl, rfl, rfl⟩
    · exact started
  · exact started.trans ⟨fun _ _ => rfl, rfl, rfl⟩
  · exact started

theorem State.keepsHeat_nextAction (s : State) (g : Nat) : s.KeepsHeat (s.nextAction g) := by
  unfold State.nextAction
  refine .ite (.refl s) ?_
  split
  · exact State.keepsHeat_beginAction ..
  · exact .refl s

theorem State.keepsHeat_grantExpulsion (s : State) (c x : Nat) {g : Nat} (hg : g ≤ 100) : s.KeepsHeat (s.grantExpulsion c x g) := by
  have tokens : ¬heatReg (Reg.HLT_BUDGET_TOK.tokens g).off := by
    simp only [heatReg, Reg.HLT_BUDGET_TOK.tokens, Reg.HLT_BUDGET_TOK.addr]
    omega
  have taken := (State.KeepsHeat.refl s).setFld (s.groupTokens g - 1) tokens
  unfold State.grantExpulsion
  dsimp only
  refine .trans ?_ (State.keepsHeat_nextAction ..)
  refine State.KeepsHeat.setElemAt ?_ c x _
  exact taken.trans ⟨fun _ _ => rfl, rfl, rfl⟩

theorem State.keepsHeat_requestExpulsion (s : State) (c x : Nat) (hg : ∀ g, elemGroup c x = some g → g ≤ 100) :
    s.KeepsHeat (s.requestExpulsion c x) := by
  have hold := s.keepsHeat_holdElem c x
  unfold State.requestExpulsion
  split
  · exact .refl s
  · exact .refl s
  · exact .refl s
  · refine .ite (hold _) ?_
    split
    · exact hold _
    · rename_i g group
      refine .ite (hold _) (.ite (hold _) (.ite (hold _) (.ite ?_ (s.keepsHeat_grantExpulsion c x (hg g group)))))
      exact (s.keepsHeat_freezeBreaker c x).trans (State.keepsHeat_holdElem ..)


/-- The elements of a spare group of a tile lie in spare groups. -/
theorem elemGroup_of_tiles {d : Nat} (hd : d < 4) {e : Nat × Nat} (he : e ∈ groupElems (32 + d)) {g : Nat}
    (hg : elemGroup e.1 e.2 = some g) : g ≤ 100 := by
  unfold groupElems at he
  rw [if_neg (by omega), if_pos (by omega)] at he
  obtain ⟨c, x⟩ := e
  simp only [List.mem_append, List.mem_map, List.mem_range, Prod.mk.injEq, List.mem_singleton] at he
  have tile : c = 1 ∧ x < 68 := by
    rcases he with ⟨t, ht, hc, hx⟩ | ⟨hc, hx⟩
    · exact ⟨hc.symm, by omega⟩
    · exact ⟨hc, by omega⟩
  obtain ⟨rfl, hx⟩ := tile
  simp only [elemGroup, tileDie, Option.some.injEq] at hg
  split at hg <;> omega

theorem State.keepsHeat_retryTiles (s : State) {d : Nat} (hd : d < 4) : s.KeepsHeat (s.retryGroup (32 + d)) :=
  List.foldlRecOn _ _ (.refl s) fun t ht _ he =>
    ht.trans (.ite (t.keepsHeat_requestExpulsion _ _ fun _ hg => elemGroup_of_tiles hd he hg) (.refl t))

theorem State.keepsHeat_quarantine (s : State) {t : Nat} (ht : t < 64) : s.KeepsHeat (s.quarantine t) := by
  have die : tileDie t < 4 := by
    unfold tileDie
    split <;> omega
  have raised {u : State} (hu : s.KeepsHeat u) {f : Fld} (hf : f.off = Reg.HLT_INT_STATUS.addr) : s.KeepsHeat (u.raise f) :=
    hu.raise (by rw [hf]; unfold heatReg; decide)
  have moved (l : List Nat) : s.KeepsHeat { s with hlt.quarantined := l } := ⟨fun _ _ => rfl, rfl, rfl⟩
  unfold State.quarantine
  dsimp only
  refine .ite (.ite ?_ (.refl s)) (.ite (.refl s) (.ite (raised (moved _) rfl) (raised (.refl s) rfl)))
  exact (raised (moved _) rfl).trans (State.keepsHeat_retryTiles _ die)

theorem State.keepsHeat_warnDie (s : State) (d : Nat) (t : Int) : s.KeepsHeat (s.warnDie d t) := by
  have moved (l : List Nat) : s.KeepsHeat { s with hlt.tjWarned := l } := ⟨fun _ _ => rfl, rfl, rfl⟩
  exact .ite ((moved _).raise (by unfold heatReg; decide)) (moved _)

theorem State.keepsHeat_slewDie (s : State) (d : Nat) (t : Int) : s.KeepsHeat (s.slewDie d t) := by
  have moved (l : List Nat) : s.KeepsHeat { s with hlt.coolantWarned := l } := ⟨fun _ _ => rfl, rfl, rfl⟩
  exact .ite (((moved _).log ..).raise (by unfold heatReg; decide)) (moved _)

theorem State.keepsHeat_throttleDie (s : State) (d : Nat) (t : Int) : s.KeepsHeat (s.throttleDie d t) := by
  have moved (l : List Nat) : s.KeepsHeat { s with hlt.tjHit := l } := ⟨fun _ _ => rfl, rfl, rfl⟩
  exact .ite ((moved _).raise (by unfold heatReg; decide)) (moved _)

theorem State.keepsHeat_heatStack (s : State) (d : Nat) (t : Int) : s.KeepsHeat (s.heatStack d t) := by
  have moved (l : List Nat) : s.KeepsHeat { s with hlt.stackHot := l } := ⟨fun _ _ => rfl, rfl, rfl⟩
  exact .ite ((moved _).raise (by unfold heatReg; decide)) (moved _)

/-- The readings are shown. -/
def State.tempsShown (s : State) (tj st : List Int) : State :=
  (List.range 12).foldl (fun s k => s.setFld (Reg.HLT_STACK_TEMP.temp k) (wrap 16 (st.getD k 0)))
    ((List.range 5).foldl (fun s d => s.setFld (Reg.HLT_TJ_MAX.temp d) (wrap 16 (tj.getD d 0))) s)

/-- The readings are held against the thresholds. -/
def State.tempsJudged (s : State) (tj st : List Int) : State :=
  (List.range 12).foldl (fun s k => s.heatStack k (st.getD k 0))
    ((List.range 4).foldl (fun s d => s.throttleDie d (tj.getD d 0))
      ((List.range 5).foldl (fun s d => (s.warnDie d (tj.getD d 0)).slewDie d (tj.getD d 0)) s))

/-- How many readings in a row each die has been at or above a limit, up to 3. -/
def hotRun (tj : List Int) (m : SMap Nat) (lim : Int) : SMap Nat :=
  (List.range 5).foldl (fun m d => SMap.write 0 m d (if lim ≤ tj.getD d 0 then min 3 (SMap.read 0 m d + 1) else 0)) m

/-- The readings are counted. -/
def State.tempsCounted (s : State) (tj : List Int) : State :=
  { s with
    hlt.temps := (s.ft, (List.range 5).map fun d => tj.getD d 0) :: s.hlt.temps.filter fun e => decide (s.ft ≤ e.1 + 16000000)
    hlt.hot105 := hotRun tj s.hlt.hot105 10500
    hlt.hot110 := hotRun tj s.hlt.hot110 11000
    hlt.coolSince := if (List.range 5).all fun d => decide (tj.getD d 0 < 10000) then some (s.hlt.coolSince.getD s.ft) else none }

theorem State.readTemps_eq (s : State) (tj st : List Int) : s.readTemps tj st =
    (List.range 64).foldl (fun s t => s.quarantine t) (((s.tempsShown tj st).tempsJudged tj st).tempsCounted tj) := rfl

theorem State.keepsHeat_tempsJudged (s : State) (tj st : List Int) : s.KeepsHeat (s.tempsJudged tj st) := by
  have warned := State.KeepsHeat.foldl (f := fun t d => (t.warnDie d (tj.getD d 0)).slewDie d (tj.getD d 0))
    (fun t d => (t.keepsHeat_warnDie d _).trans (State.keepsHeat_slewDie ..)) (List.range 5) s
  have throttled := warned.trans (State.KeepsHeat.foldl (fun t d => t.keepsHeat_throttleDie d (tj.getD d 0)) (List.range 4) _)
  exact throttled.trans (.foldl (fun t k => t.keepsHeat_heatStack k (st.getD k 0)) (List.range 12) _)

theorem State.keepsHeat_quarantines (s : State) : s.KeepsHeat ((List.range 64).foldl (fun s t => s.quarantine t) s) :=
  List.foldlRecOn _ _ (.refl s) fun t ht _ he => ht.trans (t.keepsHeat_quarantine (List.mem_range.mp he))

theorem foldl_setFld_hlt (g : Nat → Fld) (v : Nat → Nat) (n : Nat) (s : State) :
    ((List.range n).foldl (fun s d => s.setFld (g d) (v d)) s).hlt = s.hlt :=
  foldl_hlt (f := fun s d => s.setFld (g d) (v d)) (fun _ _ => rfl) _ _

theorem State.tempsShown_hlt (s : State) (tj st : List Int) : (s.tempsShown tj st).hlt = s.hlt :=
  (foldl_setFld_hlt Reg.HLT_STACK_TEMP.temp _ 12 _).trans (foldl_setFld_hlt Reg.HLT_TJ_MAX.temp _ 5 s)

theorem State.stackTemp_tempsShown (s : State) (tj st : List Int) {k : Nat} (hk : k < 12) :
    (s.tempsShown tj st).fld (Reg.HLT_STACK_TEMP.temp k) = wrap 16 (st.getD k 0) := by
  refine (State.fld_foldl_setFld (g := Reg.HLT_STACK_TEMP.temp) (fun _ => by simp [Fld.fits, Reg.HLT_STACK_TEMP.temp]) (fun i j h => ?_) _ 12 _ hk).trans
    (Nat.mod_eq_of_lt (wrap_lt 16 _))
  simp only [Reg.HLT_STACK_TEMP.temp, Reg.HLT_STACK_TEMP.addr]
  omega

theorem State.tjMax_tempsShown (s : State) (tj st : List Int) {d : Nat} (hd : d < 5) :
    (s.tempsShown tj st).fld (Reg.HLT_TJ_MAX.temp d) = wrap 16 (tj.getD d 0) := by
  have dies : ((List.range 5).foldl (fun s d => s.setFld (Reg.HLT_TJ_MAX.temp d) (wrap 16 (tj.getD d 0))) s).fld
      (Reg.HLT_TJ_MAX.temp d) = wrap 16 (tj.getD d 0) := by
    refine (State.fld_foldl_setFld (g := Reg.HLT_TJ_MAX.temp) (fun _ => by simp [Fld.fits, Reg.HLT_TJ_MAX.temp]) (fun i j h => ?_) _ 5 _ hd).trans
      (Nat.mod_eq_of_lt (wrap_lt 16 _))
    simp only [Reg.HLT_TJ_MAX.temp, Reg.HLT_TJ_MAX.addr]
    omega
  refine List.foldlRecOn (motive := fun t : State => t.fld (Reg.HLT_TJ_MAX.temp d) = wrap 16 (tj.getD d 0)) _ _ dies
    fun t ht k _ => (State.fld_setFld_ne _ _ ?_).trans ht
  simp only [Reg.HLT_TJ_MAX.temp, Reg.HLT_TJ_MAX.addr, Reg.HLT_STACK_TEMP.temp, Reg.HLT_STACK_TEMP.addr]
  omega

theorem read_hotRun (tj : List Int) (m : SMap Nat) (lim : Int) {d : Nat} (hd : d < 5) :
    (hotRun tj m lim).read 0 d = if lim ≤ tj.getD d 0 then min 3 (m.read 0 d + 1) else 0 :=
  (SMap.read_foldl_write 0 (fun d n => if lim ≤ tj.getD d 0 then min 3 (n + 1) else 0) 5 m d).trans (if_pos hd)

/-- A reading is shown, and counted among the hot ones. -/
theorem State.readTemps_shows (s : State) (tj st : List Int) :
    (∀ d, d < 5 → (s.readTemps tj st).fld (Reg.HLT_TJ_MAX.temp d) = wrap 16 (tj.getD d 0)) ∧
    (∀ k, k < 12 → (s.readTemps tj st).fld (Reg.HLT_STACK_TEMP.temp k) = wrap 16 (st.getD k 0)) ∧
    (s.readTemps tj st).hlt.hot105 = hotRun tj s.hlt.hot105 10500 ∧
    (s.readTemps tj st).hlt.hot110 = hotRun tj s.hlt.hot110 11000 := by
  have judged := (s.tempsShown tj st).keepsHeat_tempsJudged tj st
  have after := (((s.tempsShown tj st).tempsJudged tj st).tempsCounted tj).keepsHeat_quarantines
  have shown (o : Nat) (ho : heatReg o) : (s.readTemps tj st).reg o = (s.tempsShown tj st).reg o :=
    (after.reg o ho).trans (judged.reg o ho)
  refine ⟨fun d hd => ?_, fun k hk => ?_, ?_, ?_⟩
  · rw [State.fld_congr (shown _ (by simp only [heatReg, Reg.HLT_TJ_MAX.temp, Reg.HLT_TJ_MAX.addr]; omega)),
      State.tjMax_tempsShown s tj st hd]
  · rw [State.fld_congr (shown _ (by simp only [heatReg, Reg.HLT_STACK_TEMP.temp, Reg.HLT_STACK_TEMP.addr]; omega)),
      State.stackTemp_tempsShown s tj st hk]
  · rw [State.readTemps_eq, after.hot105, State.tempsCounted, judged.hot105, State.tempsShown_hlt]
  · rw [State.readTemps_eq, after.hot110, State.tempsCounted, judged.hot110, State.tempsShown_hlt]

/-! ### The thermal actions (R336, R337) -/

theorem execThermalCrit_hot {s : State} (hhot : s.hlt.hot105.any (fun e => 3 ≤ e.2) = true) (hhold : s.hlt.critHold = false) :
    execThermalCrit s = .next (((({ s with hlt.critHold := true } : State).throttleMax).log 0x16 .thermalCrit).raise
      Reg.HLT_INT_STATUS.thermal_crit) :=
  if_pos ⟨hhot, by rw [hhold]; rfl⟩

theorem execPowerCrit_reached {s : State} (h : s.hlt.critRun = 1000) :
    execPowerCrit s = .next (s.raise Reg.HLT_INT_STATUS.power_crit) := by
  rw [execPowerCrit, if_pos h]

theorem execThermalCritRelease_cool {s : State} {a : Nat} (ha : s.hlt.coolSince = some a) (hhold : s.hlt.critHold = true)
    (hdue : a + 16000000 ≤ s.ft) : execThermalCritRelease s = .next { s with hlt.critHold := false } := by
  rw [execThermalCritRelease, ha]
  dsimp only
  rw [if_pos ⟨hhold, hdue⟩]

theorem execThermtrip_hot {s : State} (hhot : s.hlt.hot110.any (fun e => 3 ≤ e.2) = true) (hoff : s.hlt.thermtripOn = false) :
    execThermtrip s = .next ((({ s.snapAll with hlt.thermtripOn := true } : State).log 0x16 .thermtrip).emit
      (.pin .thermtripN true)) :=
  if_pos ⟨hhot, by rw [hoff]; rfl⟩

/-- Settles O52: the governor and a reading by the steps they are made of, the thermal actions by what each of their steps
leaves. -/
theorem powerAndTemperature : Obligations.PowerAndTemperature := by
  intro s
  refine ⟨fun dom pkg used => ?governor, fun h => execPowerCrit_reached h, fun tj st => ?reading, fun hhot hhold => ?crit,
    fun a ha hhold hdue => execThermalCritRelease_cool ha hhold hdue, fun hhot hoff => ?trip⟩
  case governor =>
    exact ⟨_, rfl, s.governorRun_power dom pkg used, fun k hk => s.governorRun_ceilings dom pkg used hk,
      s.governorRun_held dom pkg used⟩
  case reading =>
    obtain ⟨junctions, shown, hot105, hot110⟩ := s.readTemps_shows tj st
    refine ⟨_, rfl, junctions, shown, fun d hd => ?_, fun d hd => ?_⟩
    · rw [hot105, read_hotRun _ _ _ hd]
    · rw [hot110, read_hotRun _ _ _ hd]
  case crit =>
    refine ⟨_, execThermalCrit_hot hhot hhold, ?_, State.bit_raise _ _ (by unfold Fld.fits; decide) rfl, ?_⟩
    · rw [State.raise_hlt, State.log_hlt, State.throttleMax_hlt]
    · refine State.throttled_of_reg ?_ ({ s with hlt.critHold := true } : State).throttleMax_throttled
      rw [State.reg_raise, State.reg_setFld_ne _ _ (by decide), State.reg_log_ne _ _ _ _ _ (by decide) (by decide)]
  case trip =>
    have logged := ({ s.snapAll with hlt.thermtripOn := true } : State).log_same 0x16 .thermtrip 0 []
    refine ⟨_, execThermtrip_hot hhot hoff, ?_, ?_, ?_, by simp [State.emit]⟩
    · rw [State.emit_hlt, State.log_hlt]
    · rw [State.emit_trn, logged.2]
      rfl
    · refine (logged.1 _ (by decide) (by decide)).trans ?_
      exact State.reg_setReg ..

end Sys2Proof.Machine
end

section
/-!
PROOFS. The commands of the Archivist (Tables 16-3 and 16-4): a command that its transport may run reaches its rule, and its
rule answers it.
-/

namespace Sys2Proof.Machine

/-! ### Inputs -/

theorem numAt_singleton (k : Byte) : numAt [k] 0 1 = k.toNat := by
  simp [numAt, sliceBytes, leNat]

/-- The fields of the input of Clear Event Records that names one record. -/
theorem numAt_clearOne (k : Byte) (h : List Byte) :
    numAt ([k, 0, 1, 0, 0, 0] ++ h) 0 1 = k.toNat ∧ numAt ([k, 0, 1, 0, 0, 0] ++ h) 1 1 = 0 ∧
      numAt ([k, 0, 1, 0, 0, 0] ++ h) 2 1 = 1 ∧ numAt ([k, 0, 1, 0, 0, 0] ++ h) 6 2 = numAt h 0 2 := by
  simp [numAt, sliceBytes, leNat]

/-! ### The rules of commands whose input is in order -/

/-- The oldest record of a log that has not overflowed is cleared by its handle. -/
theorem State.clearEvents_oldest {s : State} {k : Nat} {e : LogEntry} {es : List LogEntry} (h : s.eventLog k = e :: es) :
    s.clearEvents k false [e.handle.toNat] = ({ s with
      arc.eventLogs := s.arc.eventLogs.write [] k es, arc.logOverflow := s.arc.logOverflow.del k }, rcSuccess) := by
  simp [State.clearEvents, h]

theorem State.verifyFw_of_good {s : State} {b : List Byte} (h : s.goodFw = some b) : s.verifyFw = (s, true) := by
  rw [State.verifyFw, h]

/-- Transfer FW: the first fragment of several (action 1) when no transfer is open. -/
theorem State.transferFw_first {s : State} {tp : Transport} {x : List Byte} (hlen : 128 ≤ x.length)
    (hopen : s.xfOpen xfFirmware = false) (haction : numAt x 0 1 = 1) (hoff : numAt x 4 4 = 0)
    (hsize : (x.drop 128).length ≤ 0x4000000) :
    s.transferFw tp x =
      ((s.fwPut 0 (x.drop 128)).fragTaken xfFirmware tp 0 0 (x.drop 128).length).archDone tp 0x0201 [] := by
  have hshort : ¬ x.length < 128 := by omega
  have hbig : ¬ 0x4000000 < (x.drop 128).length := by omega
  unfold State.transferFw
  dsimp only
  rw [if_neg hshort, hopen, if_neg Bool.false_ne_true, haction, hoff]
  dsimp only
  rw [if_neg Bool.false_ne_true, if_neg (by omega)]
  change (if 128 * 0 ≠ 0 then _ else _) = _
  rw [if_neg (by omega), if_neg hbig]

/-- Activate FW with a good image in flash, outside the recovery loader. -/
theorem State.activateFw_stages {s : State} {tp : Transport} {x b : List Byte} (hlen : x.length = 2)
    (haction : numAt x 0 1 = 1) (hslot : numAt x 1 1 = 1) (hgood : s.goodFw = some b) {u : State}
    (hu : u = { s with sec.fwStaged := true }) (hboot : (u.archReply tp 0x0202 0 []).fld Reg.GLB_STATUS.boot ≠ 4) :
    s.activateFw tp x = u.archReply tp 0x0202 0 [] := by
  unfold State.activateFw
  dsimp only
  rw [if_neg (by omega), if_neg (by omega), if_neg (by omega), if_neg (by omega), State.verifyFw_of_good hgood]
  dsimp only
  rw [← hu]
  exact if_neg hboot

/-! ### The standard commands (Table 16-3) -/

/-- Settles O54: each command reaches its rule, and the checks of its input pass. -/
theorem standardCommands : Obligations.StandardCommands := by
  intro s tp
  refine ⟨fun run => ?identify, fun run => ?background, fun k hk run => ?getEvents, fun k h hk hlen run e es hlog hh hlost => ?clear,
    fun run => ?getPolicy, fun x hx run => ?setPolicy, fun run => ?fwInfo, fun x run hlen hopen haction hoff hsize => ?transferFw,
    fun x b run hlen haction hslot hgood u hu hboot => ?activateFw, fun run => ?getTime, fun x refused => ?setTime,
    fun run => ?logs, fun x run hlen hid hfits => ?getLog, fun run => ?device, fun run => ?health, fun op refused => ?unsupported⟩
  case setTime => exact congrArg Host.Outcome.next (State.archCmd_refused refused _)
  case unsupported =>
    change execUnsupportedCommand tp op s = _
    rw [execUnsupportedCommand, refused]
  all_goals refine congrArg Host.Outcome.next ((State.archCmd_run run _).trans ?_)
  case identify => rfl
  case background => rfl
  case getPolicy => rfl
  case fwInfo => rfl
  case getTime => rfl
  case logs => rfl
  case device => rfl
  case health => rfl
  case getEvents =>
    rw [if_neg (by simp), numAt_singleton, if_neg (by omega)]
    rfl
  case clear =>
    obtain ⟨hlogNo, hall, hcount, hhandle⟩ := numAt_clearOne k h
    rw [hcount, hlogNo, hall, if_neg (by simp [hlen]), if_neg (by omega)]
    have handles : (List.range 1).map (fun i => numAt ([k, 0, 1, 0, 0, 0] ++ h) (6 + 2 * i) 2) = [e.handle.toNat] := by
      rw [← hh, ← hhandle]
      rfl
    rw [handles]
    change (match s.clearEvents k.toNat false [e.handle.toNat] with | (s, c) => s.archReply tp 0x0101 c []) = _
    rw [State.clearEvents_oldest hlog]
    rfl
  case setPolicy => exact if_neg (by omega)
  case transferFw => exact State.transferFw_first hlen hopen haction hoff hsize
  case activateFw => exact State.activateFw_stages hlen haction hslot hgood hu hboot
  case getLog =>
    rw [if_neg (by omega), if_neg (by simp [hid]), if_neg (by omega)]
    rfl

/-! ### The device's commands (Table 16-4) -/

/-- A transfer whose input holds its header reaches its rule. -/
theorem State.transferCmd_run {s : State} {tp : Transport} {op : BitVec 16} {x : List Byte} (run : s.archWay tp op = .run)
    (hlen : 8 ≤ x.length) (rule : State → Nat → Nat → List Byte → State) :
    s.transferCmd tp op x rule = rule s (numAt x 0 4) (numAt x 4 4) (x.drop 8) := by
  rw [State.transferCmd, State.archCmd_run run, if_neg (by omega)]

/-- A fragment of an amendment that is not the last. -/
theorem State.amendTransfer_taken {s : State} {tp : Transport} {o n : Nat} {bs : List Byte} (hmore : o + bs.length ≠ n)
    (hway : fragWay (s.cfg.transfers.get xfAmend) tp o n bs.length 0x800000 false = .taken false) :
    s.amendTransfer tp o n bs = (({ s.fragTaken xfAmend tp o n bs.length with
      cfg.amendStage := stagePut s.cfg.amendStage o bs } : State).setFld Reg.CFG_STATUS.staging_busy 1).archReply tp 0xC000 0 [] := by
  rw [State.amendTransfer, hway, if_neg (by simp), State.amendFragment_taken hway]
  dsimp only
  rw [if_pos ⟨rfl, hmore⟩]
  rfl

/-- A fragment of a program that is not the last. -/
theorem State.programTransfer_taken {s : State} {tp : Transport} {o n : Nat} {bs : List Byte}
    (hway : fragWay (s.cfg.transfers.get xfProgram) tp o n bs.length 262144 false = .taken false)
    (hidle : s.bit Reg.ORY_PROG_CMD.busy = false) :
    s.programTransfer tp o n bs = ({ s.fragTaken xfProgram tp o n bs.length with
      cfg.progStage := stagePut s.cfg.progStage o bs } : State).archReply tp 0xC004 0 [] := by
  unfold State.programTransfer
  dsimp only
  rw [hway]
  dsimp only
  rw [hidle, if_neg (by simp), if_neg (by simp)]
  rfl

/-- A fragment of a folio that is not the last. -/
theorem State.folioTransfer_taken {s : State} {tp : Transport} {o n : Nat} {bs : List Byte}
    (hway : fragWay (s.cfg.transfers.get xfFolio) tp o n bs.length 0x8000000 false = .taken false)
    (hidle : s.backgroundOf opFolioTransfer = false) :
    s.folioTransfer tp o n bs = ({ s.fragTaken xfFolio tp o n bs.length with
      cfg.flash.folio := flashPut (if o = 0 then [] else s.cfg.flash.folio) o bs } : State).archReply tp 0xC006 0 [] := by
  unfold State.folioTransfer
  dsimp only
  rw [hway]
  dsimp only
  rw [hidle, if_neg (by simp), if_neg (by simp)]
  rfl

/-- REG_READ of words that lie in the register map. -/
theorem State.regReadCmd_reads {s : State} {tp : Transport} {x : List Byte} (hlen : x.length = 6) (hword : numAt x 0 4 % 4 = 0)
    (hcount : numAt x 4 2 ≤ 256) (hend : numAt x 0 4 + 4 * numAt x 4 2 ≤ 0x20000000)
    (hap : s.apertureAbsent (numAt x 0 4) (numAt x 4 2) = false) :
    s.regReadCmd tp x = (State.readWords (Machine.Requester.ofTransport tp) (numAt x 4 2) (numAt x 0 4) s).1.archReply tp 0xC00A 0
      (State.readWords (Machine.Requester.ofTransport tp) (numAt x 4 2) (numAt x 0 4) s).2 := by
  unfold State.regReadCmd
  dsimp only
  rw [if_neg (by omega), if_neg (by simp [hap]; omega)]
  rfl

/-- REG_WRITE of a word of the register map but GLB_RESET_CMD. -/
theorem State.regWriteCmd_writes {s : State} {tp : Transport} {x : List Byte} (hlen : x.length = 8) (hword : numAt x 0 4 % 4 = 0)
    (hend : numAt x 0 4 < 0x20000000) (hreset : numAt x 0 4 ≠ Reg.GLB_RESET_CMD.addr) :
    s.regWriteCmd tp x = (s.writeWord (Machine.Requester.ofTransport tp) (numAt x 0 4) (BitVec.ofNat 32 (numAt x 4 4))).archReply
      tp 0xC00B 0 [] := by
  unfold State.regWriteCmd
  dsimp only
  rw [if_neg (by omega), if_neg (by omega), if_neg (by omega), if_neg hreset]
  rfl

theorem execFolioVerifyDone_of_background {s : State} {k : Nat} {e : Background}
    (h : s.arc.background.find? (fun e => e.2.opcode = 0xC006) = some (k, e)) :
    execFolioVerifyDone s = .next ((if s.folioVerdict = 1 then s.verifyFail else s).endBackground e.tp 0xC006 0
      [BitVec.ofNat 8 s.folioVerdict]) := by
  unfold execFolioVerifyDone opFolioTransfer
  rw [h]
  rfl

/-- Settles O55: each command reaches its rule, and the checks of its input pass. -/
theorem deviceCommands : Obligations.DeviceCommands := by
  intro s tp x
  refine ⟨fun o n bs run hlen ho hn hbs hmore hway u hu => ?amend, fun run => ?cancel, fun run hidle => ?group,
    fun run => ?colophon, fun o n bs run hlen ho hn hbs hway hidle u hu => ?program, fun u c run hlen hend => ?unload,
    fun o n bs run hlen ho hn hbs hway hidle u hu => ?folio, fun k e hback => execFolioVerifyDone_of_background hback,
    fun run hlen => ?almanac, fun run hlen hblock => ?summary, fun run hlen hend => ?sensor,
    fun o n run hlen ho hn hword hcount hend hap => ?regRead, fun o run hlen ho hword hend hreset => ?regWrite,
    fun run hlen hkey => ?reset⟩
  case amend =>
    refine congrArg Host.Outcome.next ((State.transferCmd_run run hlen _).trans ?_)
    rw [← ho, ← hn, ← hbs, hu]
    exact State.amendTransfer_taken hmore hway
  case program =>
    refine congrArg Host.Outcome.next ((State.transferCmd_run run hlen _).trans ?_)
    rw [← ho, ← hn, ← hbs, hu]
    exact State.programTransfer_taken hway hidle
  case folio =>
    refine congrArg Host.Outcome.next ((State.transferCmd_run run hlen _).trans ?_)
    rw [← ho, ← hn, ← hbs, hu]
    exact State.folioTransfer_taken hway hidle
  all_goals refine congrArg Host.Outcome.next ((State.archCmd_run run _).trans ?_)
  case cancel => rfl
  case colophon => rfl
  case group => exact if_neg (by simp [hidle])
  case unload =>
    rw [if_neg (by omega), hend]
    rfl
  case almanac => exact if_neg (by omega)
  case summary =>
    rw [if_neg (by omega), if_neg (by omega)]
    rfl
  case sensor =>
    rw [if_neg (by omega), if_neg (by omega)]
    rfl
  case regRead =>
    rw [ho, hn] at *
    exact State.regReadCmd_reads hlen hword hcount hend hap
  case regWrite =>
    rw [ho] at *
    exact State.regWriteCmd_writes hlen hword hend hreset
  case reset =>
    rw [if_neg (by omega), if_neg (by omega)]
    rfl

end Sys2Proof.Machine
end

section
/-!
PROOFS. The Archivist's own events (R369 to R376): the almanac's copy, summaries, sensors, the watchdog, alerts, and frames to
the out-of-band port.
-/

namespace Sys2Proof.Machine

/-! ### ALERT_N -/

/-- ALERT_N follows its cause: of the registers only the alert field changes. -/
theorem State.alertFrom_regs (s b : State) :
    (s.alertFrom b).regs = (s.setFld Reg.GLB_STATUS.alert (if s.alertOn then 1 else 0)).regs := by
  unfold State.alertFrom
  dsimp only
  generalize s.setFld Reg.GLB_STATUS.alert (if s.alertOn then 1 else 0) = t
  split <;> rfl

/-- A field but alert is left. -/
theorem State.fld_alertFrom_ne (s b : State) {g : Fld}
    (h : g.off ≠ Reg.GLB_STATUS.addr ∨ 11 ≤ g.lo ∨ g.lo + g.width ≤ 10) : (s.alertFrom b).fld g = s.fld g := by
  rw [State.fld_congr (State.reg_of_regs (State.alertFrom_regs s b) _)]
  exact State.fld_setFld_other s (by unfold Fld.fits; decide) _ h

theorem State.bit_alertFrom_ne (s b : State) {g : Fld}
    (h : g.off ≠ Reg.GLB_STATUS.addr ∨ 11 ≤ g.lo ∨ g.lo + g.width ≤ 10) : (s.alertFrom b).bit g = s.bit g := by
  rw [State.bit, State.fld_alertFrom_ne s b h, State.bit]

/-- A record leaves every field but alert and those of GLB_INT_STATUS. -/
theorem State.fld_log_ne (s : State) (block : BitVec 8) (ev : AlmEvent) (index : Nat) (d : List Nat) {g : Fld}
    (hint : g.off ≠ Reg.GLB_INT_STATUS.addr) (h : g.off ≠ Reg.GLB_STATUS.addr ∨ 11 ≤ g.lo ∨ g.lo + g.width ≤ 10) :
    (s.log block ev index d).fld g = s.fld g := by
  unfold State.log State.logSev
  dsimp only
  rw [State.fld_alertFrom_ne _ _ h]
  split
  · exact State.fld_raise_ne _ hint
  · rfl

/-! ### The almanac's copy (R373) -/

/-- No record was overwritten before it is copied: none is lost. -/
theorem State.almanacCopy_whole {s : State} (h : s.alm.seq = s.alm.copied + s.alm.uncopied.length) :
    s.almanacCopy = { s with
      alm.stack := (s.alm.uncopied ++ s.alm.stack).take 1048576, alm.copied := s.alm.seq } := by
  unfold State.almanacCopy
  dsimp only
  exact if_pos (by omega)

/-! ### Sensors (R371) -/

/-- A reading of a die's sensor is shown. -/
def State.showTemp (tj : List Int) (s : State) (n : Nat) : State :=
  match tj[n]? with
  | some t => s.setFld (Reg.GLB_SENSOR.temp n) (wrap 16 t)
  | none => s

/-- A reading of a rail is shown. -/
def State.showRail (rails : List W32) (s : State) (r : Nat) : State :=
  match rails[r]? with
  | some w => s.setReg (Reg.GLB_RAIL.addr r) w
  | none => s

theorem State.sensors_eq (s : State) (tj : List Int) (rails : List W32) :
    s.sensors tj rails = (List.range 7).foldl (State.showRail rails) ((List.range 640).foldl (State.showTemp tj) s) := rfl

theorem State.showTemp_of_reading {tj : List Int} {n : Nat} {y : Int} (h : tj[n]? = some y) (s : State) :
    s.showTemp tj n = s.setFld (Reg.GLB_SENSOR.temp n) (wrap 16 y) := by
  rw [State.showTemp, h]

theorem State.showRail_of_reading {rails : List W32} {r : Nat} {w : W32} (h : rails[r]? = some w) (s : State) :
    s.showRail rails r = s.setReg (Reg.GLB_RAIL.addr r) w := by
  rw [State.showRail, h]

theorem State.reg_showTemp_ne (tj : List Int) (s : State) {n o : Nat} (h : o ≠ Reg.GLB_SENSOR.addr n) :
    (s.showTemp tj n).reg o = s.reg o := by
  unfold State.showTemp
  split
  · exact State.reg_setReg_ne s _ h
  · rfl

theorem State.reg_showRail_ne (rails : List W32) (s : State) {r o : Nat} (h : o ≠ Reg.GLB_RAIL.addr r) :
    (s.showRail rails r).reg o = s.reg o := by
  unfold State.showRail
  split
  · exact State.reg_setReg_ne s _ h
  · rfl

/-- Registers that are not among those a fold's steps write keep their words. -/
theorem State.reg_foldl_ne {f : State → Nat → State} {addr : Nat → Nat}
    (hf : ∀ s n o, o ≠ addr n → (f s n).reg o = s.reg o) {o : Nat} (l : List Nat) (h : ∀ n ∈ l, o ≠ addr n) (s : State) :
    (l.foldl f s).reg o = s.reg o := by
  induction l generalizing s with
  | nil => rfl
  | cons n l ih =>
    rw [List.foldl_cons, ih fun m hm => h m (List.mem_cons_of_mem _ hm)]
    exact hf s n o (h n List.mem_cons_self)

/-- What the n-th step leaves in a register of its own stands at the end of the fold. -/
theorem State.reg_foldl_range {f : State → Nat → State} {addr : Nat → Nat}
    (hf : ∀ s n o, o ≠ addr n → (f s n).reg o = s.reg o) (ha : ∀ n m, n ≠ m → addr n ≠ addr m) {P : W32 → Prop} {i k : Nat}
    (hi : i < k) (hP : ∀ s : State, P ((f s i).reg (addr i))) (s : State) : P (((List.range k).foldl f s).reg (addr i)) := by
  induction k with
  | zero => omega
  | succ k ih =>
    rw [List.range_succ, List.foldl_append, List.foldl_cons, List.foldl_nil]
    by_cases hk : i = k
    · rw [← hk]
      exact hP _
    · rw [hf _ _ _ (ha i k hk)]
      exact ih (by omega)

theorem State.sensors_temp (s : State) {tj : List Int} (rails : List W32) {n : Nat} {y : Int} (hn : n < 640)
    (h : tj[n]? = some y) : (s.sensors tj rails).fld (Reg.GLB_SENSOR.temp n) = wrap 16 y := by
  have noRail : ∀ r ∈ List.range 7, Reg.GLB_SENSOR.addr n ≠ Reg.GLB_RAIL.addr r := fun r _ => by
    unfold Reg.GLB_SENSOR.addr Reg.GLB_RAIL.addr
    omega
  rw [State.sensors_eq, State.fld_congr (f := Reg.GLB_SENSOR.temp n)
    (State.reg_foldl_ne (addr := Reg.GLB_RAIL.addr) (fun s r o => State.reg_showRail_ne rails s) _ noRail _)]
  refine State.reg_foldl_range (addr := Reg.GLB_SENSOR.addr) (P := fun w => (Reg.GLB_SENSOR.temp n).of w = wrap 16 y)
    (fun s m o => State.reg_showTemp_ne tj s) (fun m k hm => ?_) hn (fun t => ?_) s
  · unfold Reg.GLB_SENSOR.addr
    omega
  · rw [State.showTemp_of_reading h]
    exact (State.fld_setFld t (Reg.GLB_SENSOR.temp n) (by simp [Fld.fits, Reg.GLB_SENSOR.temp]) (wrap 16 y)).trans
      (Nat.mod_eq_of_lt (wrap_lt 16 y))

theorem State.sensors_rail (s : State) (tj : List Int) {rails : List W32} {r : Nat} {w : W32} (hr : r < 7)
    (h : rails[r]? = some w) : (s.sensors tj rails).reg (Reg.GLB_RAIL.addr r) = w := by
  rw [State.sensors_eq]
  refine State.reg_foldl_range (addr := Reg.GLB_RAIL.addr) (P := fun v => v = w)
    (fun s m o => State.reg_showRail_ne rails s) (fun m k hm => ?_) hr (fun t => ?_) _
  · unfold Reg.GLB_RAIL.addr
    omega
  · rw [State.showRail_of_reading h, State.reg_setReg]

/-! ### The watchdog (R370) -/

/-- The state after the watchdog has lapsed, before ALERT_N follows. -/
def State.hung (s : State) : State :=
  ((s.log 0x00 .watchdogLapse).setFld Reg.GLB_STATUS.arch_hung 1).raise Reg.GLB_INT_STATUS.arch_hung

theorem execArchivistWatchdogLapse_running {s : State} (h : s.archRuns = true) :
    execArchivistWatchdogLapse s = .next (s.hung.alertFrom (s.log 0x00 .watchdogLapse)) :=
  if_pos h

theorem State.hung_status (s : State) : s.hung.bit Reg.GLB_STATUS.arch_hung = true := by
  refine (State.bit_raise_ne _ (by decide)).trans ?_
  exact State.bit_setFld_one _ (by unfold Fld.fits; decide) rfl

theorem State.hung_seq (s : State) : s.hung.alm.seq = s.alm.seq + 1 := by
  rw [State.hung, State.alm_raise, State.setFld_alm, State.log, State.alm_logSev]

/-- A hung Archivist does not run. -/
theorem State.archRuns_of_hung {s : State} (h : s.bit Reg.GLB_STATUS.arch_hung = true) : s.archRuns = false := by
  simp [State.archRuns, h]

/-! ### The out-of-band port (R375) -/

/-- A frame at offset 0 to the port, which is open, begins a command: it is kept, or runs the command when it is whole. -/
theorem execOobFrame_first {s : State} {src : BitVec 48} {body : List Byte} (hen : s.bit Reg.GLB_CTL.oob_en = true)
    (hboot : 2 ≤ s.fld Reg.GLB_STATUS.boot) (hshort : 16 ≤ body.length) (hlong : body.length ≤ 1040)
    (hfirst : numAt body 8 4 = 0) (hrequest : numAt body 4 1 % 2 = 0) : execOobFrame s.oobMac src 0x88B5 body s =
      if numAt body 4 1 / 2 % 2 = 0 then .next { s with arc.oobRx := some {
        mac := src, tag := BitVec.ofNat 16 (numAt body 0 2), command := BitVec.ofNat 16 (numAt body 2 2),
        bytes := (body.drop 16).take (numAt body 12 4) } }
      else if ((body.drop 16).take (numAt body 12 4)).length = numAt body 12 4 then
        ({ s with arc.oobRx := none } : State).archRun (.oob src (BitVec.ofNat 16 (numAt body 0 2)))
          (BitVec.ofNat 16 (numAt body 2 2)) ((body.drop 16).take (numAt body 12 4))
      else .next { s with arc.oobRx := none } := by
  unfold execOobFrame
  dsimp only
  rw [if_neg (by simp [hen]; omega), if_neg (by omega), hfirst]
  rfl

/-- Settles O56: event by event; the registers that readings and the watchdog show are read back. -/
theorem archivistEvents : Obligations.ArchivistEvents := by
  intro s
  refine ⟨fun hhome hnew hwhole => ?copy, fun hruns hdue => ⟨_, if_pos ⟨hruns, hdue⟩, rfl, rfl, rfl, rfl⟩,
    fun tj rails hruns => ⟨_, if_pos (.inl hruns), fun n y hn h => State.sensors_temp s rails hn h,
      fun r w hr h => State.sensors_rail s tj hr h⟩,
    fun hruns => ⟨_, execArchivistWatchdogLapse_running hruns, ?lapse⟩, fun v hv hstill => ?ack,
    fun src body op tag hen hboot hshort hlong hfirst htag hop => ⟨fun hflags => ?more, fun hflags hident htotal u hu run => ?whole⟩⟩
  case copy => exact (if_pos ⟨hhome, hnew⟩).trans (congrArg Host.Outcome.next (State.almanacCopy_whole hwhole))
  case lapse =>
    have hung : (s.hung.alertFrom (s.log 0x00 .watchdogLapse)).bit Reg.GLB_STATUS.arch_hung = true :=
      (State.bit_alertFrom_ne _ _ (by decide)).trans s.hung_status
    refine ⟨hung, ?_, ?_, State.archRuns_of_hung hung⟩
    · rw [State.bit_alertFrom_ne _ _ (by decide)]
      exact State.bit_raise _ _ (by unfold Fld.fits; decide) rfl
    · rw [State.alm_alertFrom, State.hung_seq]
  case ack =>
    refine (if_pos hv).trans ?_
    rw [State.fired_of_still hstill]
  case more =>
    refine (execOobFrame_first hen hboot hshort hlong hfirst (by omega)).trans ?_
    rw [hflags, ← htag, ← hop]
    rfl
  case whole =>
    refine (execOobFrame_first hen hboot hshort hlong hfirst (by omega)).trans ?_
    rw [hflags, ← htag, ← hop, htotal, ← hu, hident]
    exact congrArg Host.Outcome.next (State.archCmd_run run _)

end Sys2Proof.Machine
end

section
/-!
PROOFS. The CXL attachment (R293, R361, R362, R367, R369): accesses, the CDAT, and the reset and training of the host link.
-/

namespace Sys2Proof.Machine

/-! ### CXL.mem accesses (R362) -/

section

variable {s : State} (up : s.bit Reg.GLB_STATUS.host_up = true) (a : W64) (io : ChannelIo)

include up

theorem execCxlMemRead_unclaimed (h : s.hpaDpa a = none) :
    execCxlMemRead a io s = .next ((s.hdmUnclaimed a).emit (.memData a allOnes)) := by
  unfold execCxlMemRead
  rw [if_neg (by simp [up]), h]

theorem execCxlMemWrite_unclaimed (bs : List Byte) (h : s.hpaDpa a = none) :
    execCxlMemWrite a bs io s = .next ((s.hdmUnclaimed a).emit (.memDone a)) := by
  unfold execCxlMemWrite
  rw [if_neg (by simp [up]), h]

theorem execCxlMemRead_claimed {d : Nat} (h : s.hpaDpa a = some d) (hpage : s.holdPage d 64 io (.cxlRead a) = none) :
    execCxlMemRead a io s = .next (s.cxlReads a d io) := by
  unfold execCxlMemRead
  rw [if_neg (by simp [up]), h]
  dsimp only
  rw [hpage]

theorem execCxlMemWrite_claimed {bs : List Byte} {d : Nat} (h : s.hpaDpa a = some d)
    (hwords : s.holdWords d [] io (.cxlWrite a bs) = none) : execCxlMemWrite a bs io s = .next (s.cxlWrites a d bs) := by
  unfold execCxlMemWrite
  rw [if_neg (by simp [up]), h]
  dsimp only
  rw [hwords]

end

/-- A read that meets no corrected word, while no counter runs, only answers. -/
theorem State.cxlReads_of_clean {s : State} {io : ChannelIo} (hcor : io.corrected = 0) (hstop : s.pmuRuns = false) (a : W64)
    (d : Nat) : s.cxlReads a d io = s.emit (.memData a (s.bytesAt d 64)) := by
  rw [State.cxlReads, State.wordsCorrected, if_pos hcor, State.countRead_of_stopped hstop]

/-- A list of n bytes is its own slice. -/
theorem sliceBytes_whole {bs : List Byte} {n : Nat} (h : bs.length = n) : sliceBytes bs 0 n = bs := by
  rw [← h]
  simp [sliceBytes]

/-! ### The CDAT (R367) -/

/-- A running sum of bytes begins where it is told to. -/
theorem foldl_add_start (c : Byte) (bs : List Byte) :
    bs.foldl (fun a b => a + b) c = c + bs.foldl (fun a b => a + b) 0 := by
  induction bs generalizing c with
  | nil => simp
  | cons b bs ih => rw [List.foldl_cons, List.foldl_cons, ih, ih (0 + b), zero_add, add_assoc]

/-- A checksum byte that negates the sum of the other bytes makes all sum to zero. -/
theorem foldl_checksum (l r : List Byte) : (l ++ [-((l ++ [0] ++ r).foldl (fun a b => a + b) 0)] ++ r).foldl
    (fun a b => a + b) (0 : Byte) = 0 := by
  simp only [List.foldl_append, List.foldl_cons, List.foldl_nil]
  rw [foldl_add_start _ r, foldl_add_start (_ + 0) r]
  generalize l.foldl (fun a b => a + b) 0 = x
  generalize r.foldl (fun a b => a + b) 0 = y
  ring

/-- The table, with its checksum between the bytes before and after it. -/
theorem State.cdat_eq (s : State) : ∃ l r : List Byte, s.cdat = l ++ [-((l ++ [0] ++ r).foldl (fun a b => a + b) 0)] ++ r := by
  refine ⟨leBytes 4 (16 + s.cdatBody.length) ++ [1], leBytes 10 0 ++ s.cdatBody, ?_⟩
  simp [State.cdat]

theorem State.cdat_sum (s : State) : s.cdat.foldl (fun a b => a + b) (0 : Byte) = 0 := by
  obtain ⟨l, r, h⟩ := s.cdat_eq
  rw [h, foldl_checksum]

/-! ### Reset of the host link (R369) -/

/-- What a step of a host-link reset leaves: memory, links, time, and that the link is down. -/
structure State.KeepsBeyondHost (s t : State) : Prop where
  up : t.bit Reg.GLB_STATUS.host_up = s.bit Reg.GLB_STATUS.host_up
  mem : t.stk.mem = s.stk.mem
  links : t.links = s.links
  eph : t.eph = s.eph

namespace State.KeepsBeyondHost

variable {s t u : State}

theorem refl (s : State) : s.KeepsBeyondHost s := ⟨rfl, rfl, rfl, rfl⟩

theorem trans (h : s.KeepsBeyondHost t) (k : t.KeepsBeyondHost u) : s.KeepsBeyondHost u :=
  ⟨k.up.trans h.up, k.mem.trans h.mem, k.links.trans h.links, k.eph.trans h.eph⟩

theorem ite {c : Prop} [Decidable c] (ht : s.KeepsBeyondHost t) (hu : s.KeepsBeyondHost u) :
    s.KeepsBeyondHost (if c then t else u) := by
  split
  · exact ht
  · exact hu

theorem setFld (h : s.KeepsBeyondHost t) {f : Fld} (v : Nat) (hf : Reg.GLB_STATUS.host_up.off ≠ f.off) :
    s.KeepsBeyondHost (t.setFld f v) :=
  h.trans ⟨State.bit_setFld_ne t v hf, rfl, rfl, rfl⟩

theorem raise (h : s.KeepsBeyondHost t) {f : Fld} (hf : Reg.GLB_STATUS.host_up.off ≠ f.off) :
    s.KeepsBeyondHost (t.raise f) := by
  refine h.trans ⟨State.bit_raise_ne t hf, ?_, ?_, ?_⟩ <;> rw [State.raise_eq]

theorem log (h : s.KeepsBeyondHost t) (block : BitVec 8) (ev : AlmEvent) (index : Nat) (d : List Nat) :
    s.KeepsBeyondHost (t.log block ev index d) := by
  have same := (t.log_same block ev index d).2
  refine h.trans ⟨?_, ?_, ?_, ?_⟩
  · rw [State.bit, State.fld_log_ne _ _ _ _ _ (by decide) (by decide), State.bit]
  all_goals rw [same]

end State.KeepsBeyondHost

/-- A transfer of an amendment that is abandoned writes its status and a record. -/
theorem State.amendTransferFails_keepsBeyondHost (s : State) : s.KeepsBeyondHost s.amendTransferFails := by
  have staged : s.KeepsBeyondHost { s with cfg.transfers := s.cfg.transfers.del xfAmend, cfg.amendStage := [] } :=
    ⟨rfl, rfl, rfl, rfl⟩
  exact (((staged.setFld _ (by decide)).setFld _ (by decide)).raise (by decide)).log _ _ _ _

/-- A background command of the mailbox loses its requester. -/
def State.orphaned (s : State) : State :=
  let s := match s.arc.background.get 0 with
    | some b => { s with arc.background := s.arc.background.put 0 { b with orphan := true } }
    | none => s
  { s with arc.lastBackground := s.arc.lastBackground.del 0 }

/-- A transfer is the mailbox's. -/
def State.ofMailbox (s : State) (k : Nat) : Bool :=
  match s.cfg.transfers.get k with
  | some t => t.src == .mailbox
  | none => false

/-- The mailbox's transfer of an amendment is abandoned. -/
def State.dropAmend (s : State) : State :=
  if s.ofMailbox xfAmend then (if s.xfOpen xfAmend then s.amendTransferFails else
    { s with cfg.transfers := s.cfg.transfers.del xfAmend }) else s

/-- The mailbox's transfer of a program is abandoned. -/
def State.dropProgramImage (s : State) : State :=
  if s.ofMailbox xfProgram then
    let s := if s.xfOpen xfProgram then { s with cfg.progStage := [] } else s
    { s with cfg.transfers := s.cfg.transfers.del xfProgram }
  else s

/-- The mailbox's transfers of folio and firmware are abandoned. -/
def State.dropImages (s : State) : State :=
  [xfFolio, xfFirmware].foldl (fun s k =>
    if s.ofMailbox k then { s with cfg.transfers := s.cfg.transfers.del k } else s) s

/-- An unload goes on unanswered. -/
def State.dropUnload (s : State) : State :=
  { s with ory.progs := s.ory.progs.map fun e =>
      (e.1, if e.2.unloadTo = some .mailbox then { e.2 with unloadTo := none } else e.2) }

theorem State.dropMailbox_eq (s : State) : s.dropMailbox = s.orphaned.dropAmend.dropProgramImage.dropImages.dropUnload := rfl

theorem State.orphaned_keepsBeyondHost (s : State) : s.KeepsBeyondHost s.orphaned := by
  unfold State.orphaned
  dsimp only
  split
  · exact ⟨rfl, rfl, rfl, rfl⟩
  · exact ⟨rfl, rfl, rfl, rfl⟩

theorem State.dropAmend_keepsBeyondHost (s : State) : s.KeepsBeyondHost s.dropAmend :=
  .ite (.ite s.amendTransferFails_keepsBeyondHost ⟨rfl, rfl, rfl, rfl⟩) (.refl s)

theorem State.dropProgramImage_keepsBeyondHost (s : State) : s.KeepsBeyondHost s.dropProgramImage := by
  unfold State.dropProgramImage
  dsimp only
  split
  · split
    · exact ⟨rfl, rfl, rfl, rfl⟩
    · exact ⟨rfl, rfl, rfl, rfl⟩
  · exact .refl s

/-- The mailbox's transfer k is abandoned. -/
def State.dropImage (s : State) (k : Nat) : State :=
  if s.ofMailbox k then { s with cfg.transfers := s.cfg.transfers.del k } else s

theorem State.dropImage_keepsBeyondHost (s : State) (k : Nat) : s.KeepsBeyondHost (s.dropImage k) := by
  unfold State.dropImage
  split
  · exact ⟨rfl, rfl, rfl, rfl⟩
  · exact .refl s

theorem State.dropImages_keepsBeyondHost (s : State) : s.KeepsBeyondHost s.dropImages :=
  (s.dropImage_keepsBeyondHost xfFolio).trans (State.dropImage_keepsBeyondHost _ xfFirmware)

theorem State.dropCxl_keepsBeyondHost (s : State) : s.KeepsBeyondHost s.dropCxl := ⟨rfl, rfl, rfl, rfl⟩

theorem State.dropUnload_keepsBeyondHost (s : State) : s.KeepsBeyondHost s.dropUnload := ⟨rfl, rfl, rfl, rfl⟩

theorem State.dropMailbox_keepsBeyondHost (s : State) : s.KeepsBeyondHost s.dropMailbox := by
  rw [State.dropMailbox_eq]
  exact .trans (.trans (.trans (.trans s.orphaned_keepsBeyondHost (State.dropAmend_keepsBeyondHost _))
    (State.dropProgramImage_keepsBeyondHost _)) (State.dropImages_keepsBeyondHost _)) (State.dropUnload_keepsBeyondHost _)

theorem State.hostDown_status (s : State) : s.hostDown.bit Reg.GLB_STATUS.host_up = false := by
  rw [State.hostDown, State.bit_setFld_apart _ (by unfold Fld.fits; decide) _ (by decide),
    State.bit_setFld_apart _ (by unfold Fld.fits; decide) _ (by decide)]
  exact State.bit_setFld_zero _ (by unfold Fld.fits; decide)

/-- The state that a host-link reset leaves before the host interface takes its reset values. -/
def State.hostLost (s : State) : State := s.hostDown.dropCxl.dropMailbox

/-- The host interface takes its reset values. -/
def State.hostIdle (s : State) : State :=
  { s with hdm := [], msixEnable := false, arc.eventPolicy := [0, 0, 0, 0], sec.spdm := 0, pwr.perst := true,
           pwr.hostSetup := none }

theorem State.resetHostLink_eq (s : State) : s.resetHostLink = s.hostLost.hostIdle := rfl

theorem State.hostIdle_keepsBeyondHost (s : State) : s.KeepsBeyondHost s.hostIdle := ⟨rfl, rfl, rfl, rfl⟩

/-- The fields of the host interface that read their reset values. -/
theorem State.hostIdle_fields (s : State) : s.hostIdle.hdm = [] ∧ s.hostIdle.msixEnable = false ∧
    s.hostIdle.pwr.perst = true ∧ s.hostIdle.sec.spdm = 0 := ⟨rfl, rfl, rfl, rfl⟩

theorem State.hostDown_rest (s : State) : s.hostDown.stk = s.stk ∧ s.hostDown.links = s.links ∧ s.hostDown.eph = s.eph :=
  ⟨rfl, rfl, rfl⟩

theorem State.hostLost_keeps (s : State) : s.hostDown.KeepsBeyondHost s.hostLost :=
  (State.dropCxl_keepsBeyondHost _).trans (State.dropMailbox_keepsBeyondHost _)

/-! ### Training (R369) -/

/-- The link trains once the host lets it: its status shows what was agreed. -/
theorem State.hostTrains_of_setup {s : State} {w : BitVec 3} {r : BitVec 2} {m : Bool}
    (hsetup : s.pwr.hostSetup = some (w, r, m)) (hperst : s.pwr.perst = false) (hrun : s.pwr.resetting = false) :
    s.hostTrains = { ((s.setFld Reg.GLB_STATUS.host_up 1).setFld Reg.GLB_STATUS.host_width w.toNat).setFld
      Reg.GLB_STATUS.host_rate r.toNat with msixEnable := m } := by
  rw [State.hostTrains, hsetup]
  exact if_neg (by simp [hperst, hrun])

/-- The status fields of a host link that has trained. -/
theorem State.hostTrains_shows (s : State) (w : BitVec 3) (r : BitVec 2) :
    ∀ t, t = ((s.setFld Reg.GLB_STATUS.host_up 1).setFld Reg.GLB_STATUS.host_width w.toNat).setFld
      Reg.GLB_STATUS.host_rate r.toNat → t.bit Reg.GLB_STATUS.host_up = true ∧
      t.fld Reg.GLB_STATUS.host_width = w.toNat ∧ t.fld Reg.GLB_STATUS.host_rate = r.toNat := by
  intro t ht
  have upFits : Reg.GLB_STATUS.host_up.fits := by unfold Fld.fits; decide
  have widthFits : Reg.GLB_STATUS.host_width.fits := by unfold Fld.fits; decide
  have rateFits : Reg.GLB_STATUS.host_rate.fits := by unfold Fld.fits; decide
  rw [ht]
  refine ⟨?_, ?_, ?_⟩
  · rw [State.bit_setFld_apart _ rateFits _ (by decide), State.bit_setFld_apart _ widthFits _ (by decide),
      State.bit_setFld_one _ upFits rfl]
  · rw [State.fld_setFld_apart _ rateFits _ (by decide), State.fld_setFld _ _ widthFits]
    exact Nat.mod_eq_of_lt w.isLt
  · rw [State.fld_setFld _ _ rateFits]
    exact Nat.mod_eq_of_lt r.isLt

/-- Settles O57: accesses by what the decoders claim, the CDAT by its checksum, and the host link by the fields of its
status. -/
theorem hostInterface : Obligations.HostInterface := by
  intro s
  refine ⟨fun up => ⟨fun n b z w g x p d hd => ?commit, fun a io hnone => ⟨execCxlMemRead_unclaimed up a io hnone,
      fun bs => execCxlMemWrite_unclaimed up a io bs hnone⟩, fun a io d hd hcor hstop hpage => ?read,
      fun a bs io d hd hlen hwords => ?write, if_pos up, s.cdat_sum⟩,
    ⟨_, rfl, ?reset⟩, fun w r m hperst hrun hw hw3 hr => ?trains⟩
  case commit =>
    rw [hd]
    exact if_pos up
  case read =>
    refine (execCxlMemRead_claimed up a io hd hpage).trans ?_
    rw [State.cxlReads_of_clean hcor hstop]
  case write =>
    refine ⟨_, execCxlMemWrite_claimed up a io hd hwords, ?_, ?_, fun x hx => ?_⟩ <;>
      rw [State.cxlWrites, sliceBytes_whole hlen]
    · have stored := s.bytesAt_storeMem d bs
      rw [hlen] at stored
      exact stored
    · rw [← hlen] at hx
      exact State.byteAt_of_stored rfl hx
  case reset =>
    have keeps := s.hostLost_keeps.trans s.hostLost.hostIdle_keepsBeyondHost
    obtain ⟨hdm, msix, perst, spdm⟩ := s.hostLost.hostIdle_fields
    obtain ⟨memory, links, eph⟩ := s.hostDown_rest
    rw [State.resetHostLink_eq]
    exact ⟨keeps.up.trans s.hostDown_status, hdm, msix, perst, spdm, by rw [keeps.mem, memory], by rw [keeps.links, links],
      by rw [keeps.eph, eph]⟩
  case trains =>
    refine ⟨_, (if_pos ⟨hperst, hw, hw3, hr⟩).trans (congrArg Host.Outcome.next (State.hostTrains_of_setup rfl rfl hrun)), ?_⟩
    obtain ⟨hup, hwidth, hrate⟩ := State.hostTrains_shows { s with pwr.perst := false, pwr.hostSetup := some (w, r, m) } w r _ rfl
    exact ⟨rfl, hup, hwidth, hrate, rfl⟩

end Sys2Proof.Machine
end

section
/-!
PROOFS. Owner records, debug authorizations (R384, R392) and the SPDM responder (R390, R391).
-/

namespace Sys2Proof.Machine

/-! ### SEC_OWNER_CMD (R384, R392) -/

/-- An operation starts where none is under way. -/
theorem State.writeOwnerCmd_go {s : State} {v : W32} (hw : s.writable Reg.SEC_OWNER_CMD.addr v = true)
    (hc : isConfig Reg.SEC_OWNER_CMD.addr = false) (hidle : s.bit Reg.SEC_OWNER_CMD.busy = false)
    (hgo : Reg.SEC_OWNER_CMD.go.of v = 1) : s.writeOwnerCmd v =
      if Reg.SEC_OWNER_CMD.op.of v = 0 then (s.storeFields Reg.SEC_OWNER_CMD.addr v).installOwner
      else (s.storeFields Reg.SEC_OWNER_CMD.addr v).debugAuth := by
  unfold State.writeOwnerCmd
  rw [State.regWrite_of_writable hw hc]
  dsimp only
  rw [hidle, hgo, if_neg Bool.false_ne_true, if_neg (by omega)]

theorem execOwnerInstall_go {s : State} {v : W32} (hw : s.writable Reg.SEC_OWNER_CMD.addr v = true)
    (hc : isConfig Reg.SEC_OWNER_CMD.addr = false) (hidle : s.bit Reg.SEC_OWNER_CMD.busy = false)
    (hgo : Reg.SEC_OWNER_CMD.go.of v = 1) (hop : Reg.SEC_OWNER_CMD.op.of v = 0) :
    execOwnerInstall v s = .next (s.storeFields Reg.SEC_OWNER_CMD.addr v).installOwner := by
  rw [execOwnerInstall, if_pos ⟨hgo, hop⟩, State.writeOwnerCmd_go hw hc hidle hgo, if_pos hop]

theorem execDebugAuthorization_go {s : State} {v : W32} (hw : s.writable Reg.SEC_OWNER_CMD.addr v = true)
    (hc : isConfig Reg.SEC_OWNER_CMD.addr = false) (hidle : s.bit Reg.SEC_OWNER_CMD.busy = false)
    (hgo : Reg.SEC_OWNER_CMD.go.of v = 1) (hop : Reg.SEC_OWNER_CMD.op.of v = 1) :
    execDebugAuthorization v s = .next (s.storeFields Reg.SEC_OWNER_CMD.addr v).debugAuth := by
  rw [execDebugAuthorization, if_pos ⟨hgo, hop⟩, State.writeOwnerCmd_go hw hc hidle hgo, if_neg (by omega)]

section

variable {s : State} {b : List Byte}

/-- An owner record on a device without an owner: its signature, its layout, and slot 0 (log 63). -/
theorem State.installOwner_unowned (hb : b = s.secObject) (hown : s.bit Reg.SEC_STATUS.owner = false) : s.installOwner =
    if !recordVerifies b roleOwner ctxOwner b then s.verifyFail.ownerEnds 2
    else if !ownerFormatOk b then s.ownerEnds 3
    else (({ s with cfg.flash.owner0 := b } : State).setFld Reg.SEC_STATUS.install_pending 1).ownerEnds 1 := by
  unfold State.installOwner
  dsimp only
  rw [← hb, hown]
  rfl

theorem State.debugAuth_disabled (hen : s.bit Reg.SEC_CTL.debug_auth_en = false) : s.debugAuth = s.ownerEnds 6 := by
  unfold State.debugAuth
  dsimp only
  rw [hen]
  exact if_pos rfl

theorem State.debugAuth_unlocks (hb : b = s.secObject) (hen : s.bit Reg.SEC_CTL.debug_auth_en = true)
    (hsigner : signerOk b 64 = true) (hsigned : signedBy (sliceBytes b 64 57) ctxDebug b = true)
    (hformat : s.debugFormat b = true) : s.debugAuth =
      (((s.setFld Reg.SEC_STATUS.debug_unlocked 1).setFld Reg.SEC_STATUS.alias_ready 0).raise
        Reg.SEC_INT_STATUS.debug_unlock).ownerEnds 1 := by
  unfold State.debugAuth
  dsimp only
  rw [← hb, hen, hsigner, hsigned, hformat]
  rfl

end

/-! ### SPDM requests (R390, R391) -/

/-- Settles O58: operations of SEC_OWNER_CMD by their checks in turn, SPDM requests by their rules. -/
theorem securityCommands : Obligations.SecurityCommands := by
  intro s
  refine ⟨fun v u b hw hc hidle hgo hu hb => ⟨fun hop hown => ⟨fun hsig => ?unsigned, fun hsig hform => ?malformed,
      fun hsig hform => ?installed⟩, fun hop => ⟨fun hen => ?disabled, fun hen hsigner hsigned hform => ?unlocked⟩⟩,
    fun req => ⟨fun ready => ?version, fun ready => ?capabilities, fun ready hlen => ?algorithms, fun ready => ?digests,
      fun a ready hid hlen hslot hoff ha => ?certificate, fun b ready halias hlen hslot hkind hb => ?challenge,
      fun bs l ready halias hsig hlen hbs hl => ?measurements, fun c hc hnew ready => ?unsupported⟩⟩
  case unsigned =>
    refine (execOwnerInstall_go hw hc hidle hgo hop).trans (congrArg Host.Outcome.next ?_)
    rw [← hu, State.installOwner_unowned hb hown, hsig]
    rfl
  case malformed =>
    refine (execOwnerInstall_go hw hc hidle hgo hop).trans (congrArg Host.Outcome.next ?_)
    rw [← hu, State.installOwner_unowned hb hown, hsig, hform]
    rfl
  case installed =>
    refine (execOwnerInstall_go hw hc hidle hgo hop).trans (congrArg Host.Outcome.next ?_)
    rw [← hu, State.installOwner_unowned hb hown, hsig, hform]
    rfl
  case disabled =>
    refine (execDebugAuthorization_go hw hc hidle hgo hop).trans (congrArg Host.Outcome.next ?_)
    rw [← hu, State.debugAuth_disabled hen]
  case unlocked =>
    refine (execDebugAuthorization_go hw hc hidle hgo hop).trans (congrArg Host.Outcome.next ?_)
    rw [← hu, State.debugAuth_unlocks hb hen hsigner hsigned hform]
  case unsupported =>
    rw [hc] at hnew ready
    refine (if_neg (by rw [hnew]; exact Bool.false_ne_true)).trans ?_
    rw [hc]
    exact congrArg Host.Outcome.next (State.spdmIn_of_ready ready _)
  all_goals refine congrArg Host.Outcome.next ((State.spdmIn_of_ready ready _).trans ?_)
  case version => rfl
  case capabilities => rfl
  case digests => rfl
  case algorithms => exact if_neg (by omega)
  case certificate =>
    rw [hid, if_neg Bool.false_ne_true, if_neg (by omega), ha]
  case challenge =>
    rw [halias, if_neg Bool.false_ne_true, if_neg (by simp [hlen, hslot, hkind]), hb]
  case measurements =>
    have unsigned : ¬spdmParam1 req % 2 = 1 := by omega
    dsimp only
    rw [halias, if_neg Bool.false_ne_true, if_neg (by simp [hlen, unsigned]), hbs]
    dsimp only
    rw [if_neg unsigned, if_neg unsigned, ← hl]

end Sys2Proof.Machine
end

section
/-!
PROOFS. Resets and supply (chapter 18): what a cold reset leaves, the cold start, the boot chain, the reference clock, and the
device reset.
-/

namespace Sys2Proof.Machine

/-- No register: a step that spares it may change any. -/
def noReg (_o : Nat) : Prop := False

/-! ### Pins -/

theorem State.Spares.alertFrom {p : Nat → Prop} {s t : State} (h : s.Spares p t) (b : State)
    (hst : ¬p Reg.GLB_STATUS.addr) : s.Spares p (t.alertFrom b) := by
  refine h.trans ⟨fun o ho => ?_, ?_⟩
  · rw [State.reg_of_regs (State.alertFrom_regs t b)]
    exact State.reg_setFld_ne t _ fun e => hst ((show o = Reg.GLB_STATUS.addr from e) ▸ ho)
  · rw [(State.alertFrom_same t b).2]

/-- The parts of the state that a step within `Spares` leaves. -/
theorem State.Spares.parts {p : Nat → Prop} {s t : State} (h : s.Spares p t) : t.eph = s.eph ∧ t.trn = s.trn ∧
    t.links = s.links ∧ t.pwr = s.pwr ∧ t.stk = s.stk ∧ t.cfg = s.cfg := by
  rw [h.rest]
  exact ⟨rfl, rfl, rfl, rfl, rfl, rfl⟩

/-- The pins of a reset, but ALERT_N. -/
def State.pinsReleased (s old : State) : State :=
  let s := [0, 1, 2, 3].foldl (fun (s : State) (n : BitVec 2) =>
    let was := (old.pulse n.toNat).active != old.bit (Reg.EPH_PULSE_CTL.polarity n.toNat)
    let now := s.bit (Reg.EPH_PULSE_CTL.polarity n.toNat)
    if was = now then s else s.emit (.pin (.ppsOut n) now)) s
  if old.hlt.thermtripOn && !s.hlt.thermtripOn then s.emit (.pin .thermtripN false) else s

theorem State.pinsFrom_eq (s old : State) : s.pinsFrom old = (s.pinsReleased old).alertFrom old := rfl

/-- Pins are sent out: no register changes. -/
theorem State.spares_pinsReleased (p : Nat → Prop) (s old : State) : s.Spares p (s.pinsReleased old) := by
  have pulses : s.Spares p ([0, 1, 2, 3].foldl (fun (s : State) (n : BitVec 2) =>
      if ((old.pulse n.toNat).active != old.bit (Reg.EPH_PULSE_CTL.polarity n.toNat)) =
        s.bit (Reg.EPH_PULSE_CTL.polarity n.toNat) then s
      else s.emit (.pin (.ppsOut n) (s.bit (Reg.EPH_PULSE_CTL.polarity n.toNat)))) s) :=
    .foldl (fun t n => .ite (.refl p t) ((State.Spares.refl p t).emit _)) _ s
  exact .ite (pulses.emit _) pulses

theorem State.spares_pinsFrom (s old : State) : s.Spares noReg (s.pinsFrom old) :=
  (s.spares_pinsReleased noReg old).alertFrom old id

/-- Of the fields of GLB_STATUS only alert can change with the pins. -/
theorem State.fld_pinsFrom_boot (s old : State) : (s.pinsFrom old).fld Reg.GLB_STATUS.boot = s.fld Reg.GLB_STATUS.boot := by
  rw [State.pinsFrom_eq, State.fld_alertFrom_ne _ _ (by decide)]
  exact State.fld_congr ((s.spares_pinsReleased (fun _ => True) old).reg _ trivial)

theorem State.fld_snapAll_boot (s : State) : s.snapAll.fld Reg.GLB_STATUS.boot = s.fld Reg.GLB_STATUS.boot :=
  State.fld_congr (State.reg_setReg_ne s _ (by decide))

/-! ### Cold reset (R402, R403) -/

/-- A register that is not kept reads its reset value. -/
theorem State.reg_of_keepRegs {s t : State} {offs : List Nat} (h : t.regs = s.keepRegs offs) {o : Nat}
    (ho : offs.contains o = false) : t.reg o = regReset o := by
  rw [State.reg, h]
  exact (SMap.read_filter_keys (regReset o) (fun k => offs.contains k) s.regs o).trans
    (if_neg (by rw [ho]; exact Bool.false_ne_true))

theorem State.fld_coldBase_boot (s : State) : s.coldBase.fld Reg.GLB_STATUS.boot = 0 := by
  rw [State.fld, State.reg_of_keepRegs (s := s) (offs := latchOffs) rfl (by decide)]
  decide

/-- What a cold reset holds in the state's parts. -/
theorem State.coldBase_parts (s : State) : s.coldBase.snapAll.eph.acc = 0 ∧ s.coldBase.snapAll.trn.dark = true ∧
    s.coldBase.snapAll.links = [] ∧ s.coldBase.snapAll.stk.mem = s.stk.mem ∧ s.coldBase.snapAll.cfg.flash = s.cfg.flash ∧
    s.coldBase.snapAll.pwr.porst = s.pwr.porst ∧ s.coldBase.snapAll.pwr.supplyLost = s.pwr.supplyLost :=
  ⟨rfl, rfl, rfl, rfl, rfl, rfl, rfl⟩

/-- What a cold reset leaves. -/
theorem State.coldReset_leaves (s : State) : s.coldReset.fld Reg.GLB_STATUS.boot = 0 ∧ s.coldReset.eph.acc = 0 ∧
    s.coldReset.trn.dark = true ∧ s.coldReset.links = [] ∧ s.coldReset.stk.mem = s.stk.mem ∧
    s.coldReset.cfg.flash = s.cfg.flash ∧ s.coldReset.pwr.porst = s.pwr.porst ∧
    s.coldReset.pwr.supplyLost = s.pwr.supplyLost := by
  have boot : s.coldReset.fld Reg.GLB_STATUS.boot = 0 := by
    rw [State.coldReset, State.fld_pinsFrom_boot, State.fld_snapAll_boot, State.fld_coldBase_boot]
  refine ⟨boot, ?_⟩
  obtain ⟨eph, trn, links, pwr, stk, cfg⟩ := (State.spares_pinsFrom s.coldBase.snapAll s).parts
  rw [State.coldReset, eph, trn, links, pwr, stk, cfg]
  exact s.coldBase_parts

/-- A loss of supply leaves nothing of memory and of the almanac's stack ring, and the rest as it is. -/
theorem State.loseMemory_leaves (s : State) : s.loseMemory.regs = s.regs ∧ s.loseMemory.eph = s.eph ∧
    s.loseMemory.trn = s.trn ∧ s.loseMemory.alm.stack = [] ∧ s.loseMemory.cfg = s.cfg ∧ s.loseMemory.pwr = s.pwr :=
  ⟨rfl, rfl, rfl, rfl, rfl, rfl⟩

/-! ### The cold start (R397, R398) -/

theorem State.spares_bootStart (s : State) : s.Spares noReg s.bootStart := by
  have digest : s.Spares noReg (s.draw.putDigest Reg.SEC_DEBUG_NONCE.addr (leBytes 32 (Config.freeNonce s.fresh).toNat)) :=
    (State.Spares.refl noReg s).draw.trans (.foldl (fun t i => (State.Spares.refl noReg t).setReg _ id) _ _)
  exact (digest.setFld _ id).log _ _ _ _ id id

theorem State.fld_bootStart_boot (s : State) : s.bootStart.fld Reg.GLB_STATUS.boot = 1 := by
  rw [State.bootStart]
  exact (State.fld_log_ne _ _ _ _ _ (by decide) (by decide)).trans (State.fld_setFld _ _ (by unfold Fld.fits; decide) 1)

/-- The reserve is enough, or its measurement is recorded. -/
theorem State.checkReserve_leaves (s : State) (mJ : Nat) :
    (s.checkReserve mJ).fld Reg.GLB_STATUS.boot = s.fld Reg.GLB_STATUS.boot ∧ (s.checkReserve mJ).stk = s.stk ∧
      (s.checkReserve mJ).pwr = { s.pwr with reserveOk := decide (3000 ≤ mJ) || s.pwr.reserveOk } := by
  by_cases h : 3000 ≤ mJ
  · rw [State.checkReserve, if_pos h]
    refine ⟨rfl, rfl, ?_⟩
    simp [h]
  · rw [State.checkReserve, if_neg h]
    refine ⟨State.fld_log_ne _ _ _ _ _ (by decide) (by decide), ?_, ?_⟩
    · rw [(s.log_same 0x00 .holdUpReserve 0 [mJ]).2]
    · rw [(s.log_same 0x00 .holdUpReserve 0 [mJ]).2]
      simp [h]

theorem State.coldStart_leaves (s : State) (mJ : Nat) :
    (s.coldStart mJ).fld Reg.GLB_STATUS.boot = 1 ∧ (s.coldStart mJ).stk = s.stk ∧
      (s.coldStart mJ).pwr = { s.pwr with reserveOk := decide (3000 ≤ mJ) || s.pwr.reserveOk } := by
  obtain ⟨boot, stk, pwr⟩ := s.bootStart.checkReserve_leaves mJ
  obtain ⟨_, _, _, pwrKept, stkKept, _⟩ := s.spares_bootStart.parts
  exact ⟨boot.trans s.fld_bootStart_boot, stk.trans stkKept, pwr.trans (by rw [pwrKept])⟩

/-! ### The boot chain (R386, R398) -/

theorem execFirmwareVerifyDone_good {s u : State} {b : List Byte} (hboot : s.fld Reg.GLB_STATUS.boot = 1)
    (hu : u = s.deriveIdentity) (h : u.goodFw = some b) : execFirmwareVerifyDone s = .next (u.firmwareStarts b) := by
  unfold execFirmwareVerifyDone
  rw [if_neg (by omega), ← hu]
  dsimp only
  rw [State.verifyFw_of_good h, h]

theorem execFirmwareVerifyDone_bad {s u : State} (hboot : s.fld Reg.GLB_STATUS.boot = 1) (hu : u = s.deriveIdentity)
    (h : u.goodFw = none) : execFirmwareVerifyDone s = .next u.verifyFw.1.enterRecovery := by
  have refused : u.verifyFw = (u.verifyFw.1, false) := by rw [State.verifyFw, h]
  unfold execFirmwareVerifyDone
  rw [if_neg (by omega), ← hu]
  dsimp only
  rw [refused, h]

/-- The stacks that have trained are shown, and the others reported. -/
def State.stacksShown (s : State) (ok : BitVec 12) : State :=
  if ok = 0xFFF then s.setFld Reg.STK_STATUS.stack_ok ok.toNat
  else (s.setFld Reg.STK_STATUS.stack_ok ok.toNat).raise Reg.STK_INT_STATUS.stack_fail

theorem execStackTrained_first {s : State} {ok : BitVec 12} (hboot : s.fld Reg.GLB_STATUS.boot = 3)
    (hfirst : s.fld Reg.STK_STATUS.stack_ok = 0) (hok : ok ≠ 0) : execStackTrained ok s =
      .next (if (s.stacksShown ok).stk.fillPending then (s.stacksShown ok).setFld Reg.STK_STATUS.fill_busy 1
        else (s.stacksShown ok).setFld Reg.STK_STATUS.fill_done 1) :=
  if_pos ⟨hboot, hfirst, hok⟩

theorem State.stacksShown_leaves (s : State) (ok : BitVec 12) : (s.stacksShown ok).stk = s.stk ∧
    (s.stacksShown ok).fld Reg.STK_STATUS.stack_ok = ok.toNat ∧
      (ok ≠ 0xFFF → (s.stacksShown ok).bit Reg.STK_INT_STATUS.stack_fail = true) := by
  have shown : (s.setFld Reg.STK_STATUS.stack_ok ok.toNat).fld Reg.STK_STATUS.stack_ok = ok.toNat :=
    (State.fld_setFld s _ (by unfold Fld.fits; decide) _).trans (Nat.mod_eq_of_lt ok.isLt)
  by_cases all : ok = 0xFFF
  · rw [State.stacksShown, if_pos all]
    exact ⟨rfl, shown, fun h => absurd all h⟩
  · rw [State.stacksShown, if_neg all]
    refine ⟨?_, (State.fld_raise_ne _ (by decide)).trans shown, fun _ => State.bit_raise _ _ (by unfold Fld.fits; decide) rfl⟩
    rw [State.raise_eq]
    rfl

/-! ### The reference clock (R431) -/

/-- A clock fault asserts ALERT_N. -/
theorem State.bit_alertFrom_of_on {s : State} (h : s.alertOn = true) (b : State) :
    (s.alertFrom b).bit Reg.GLB_STATUS.alert = true := by
  rw [State.bit_congr (State.reg_of_regs (State.alertFrom_regs s b) _), h]
  exact State.bit_setFld_one s (by unfold Fld.fits; decide) rfl

/-! ### Device reset (R400) -/

/-- The state that a device reset starts from: collectives have aborted, and the almanac is saved. -/
def State.readyToReset (s : State) : State :=
  let s := (s.abortAll).sendLast
  let s := if s.archRuns then s.writeSummary else s
  if s.almanacHome then s.almanacCopy else s

theorem State.startDeviceReset_live {s : State} (hdeaf : s.deaf = false) (hrun : s.pwr.resetting = false) :
    s.startDeviceReset = (s.readyToReset.deviceBase.snapAll.pinsFrom s.readyToReset).bootStart :=
  if_neg (by simp [hdeaf, hrun])

/-- What a device reset holds in the state's parts, before the registers it keeps are shown again. -/
theorem State.deviceBase_leaves (s : State) : s.deviceBase.eph.state = .acquire ∧ s.deviceBase.links = [] ∧
    s.deviceBase.pwr.resetting = true ∧ s.deviceBase.pwr.deviceReset = true := by
  have spared : ∃ t : State, (t.eph.state = .acquire ∧ t.links = [] ∧ t.pwr.resetting = true ∧ t.pwr.deviceReset = true) ∧
      t.Spares noReg s.deviceBase := by
    refine ⟨_, ?_, .setFld (.foldl (fun t c => (State.Spares.refl noReg t).setFld _ id) _ _) _ id⟩
    exact ⟨rfl, rfl, rfl, rfl⟩
  obtain ⟨t, parts, spared⟩ := spared
  obtain ⟨eph, _, links, pwr, _, _⟩ := spared.parts
  rw [eph, links, pwr]
  exact parts

theorem State.snapAll_leaves (s : State) : s.snapAll.trn.dark = true ∧ s.snapAll.eph = s.eph ∧ s.snapAll.links = s.links ∧
    s.snapAll.pwr = s.pwr ∧ s.snapAll.alm = s.alm ∧ s.snapAll.stk = s.stk := ⟨rfl, rfl, rfl, rfl, rfl, rfl⟩

/-- What a device reset leaves. -/
theorem State.startDeviceReset_leaves {s : State} (hdeaf : s.deaf = false) (hrun : s.pwr.resetting = false) :
    s.startDeviceReset.fld Reg.GLB_STATUS.boot = 1 ∧ s.startDeviceReset.eph.acc = s.eph.acc ∧
      s.startDeviceReset.eph.state = .acquire ∧ s.startDeviceReset.trn.dark = true ∧ s.startDeviceReset.links = [] ∧
      s.startDeviceReset.pwr.resetting = true ∧ s.startDeviceReset.pwr.deviceReset = true := by
  have acc : s.startDeviceReset.eph.acc = s.eph.acc := congrArg Kept.acc s.startDeviceReset_keeps
  obtain ⟨acquire, links, resetting, deviceReset⟩ := s.readyToReset.deviceBase_leaves
  obtain ⟨dark, ephAfter, linksAfter, pwrAfter, _⟩ := s.readyToReset.deviceBase.snapAll_leaves
  obtain ⟨eph, trn, linksKept, pwr, _, _⟩ :=
    ((State.spares_pinsFrom s.readyToReset.deviceBase.snapAll s.readyToReset).trans (State.spares_bootStart _)).parts
  rw [← State.startDeviceReset_live hdeaf hrun] at eph trn linksKept pwr
  have boot : s.startDeviceReset.fld Reg.GLB_STATUS.boot = 1 := by
    rw [State.startDeviceReset_live hdeaf hrun, State.fld_bootStart_boot]
  refine ⟨boot, acc, ?_⟩
  rw [eph, trn, linksKept, pwr, ephAfter, linksAfter, pwrAfter]
  exact ⟨acquire, dark, links, resetting, deviceReset⟩

theorem execGlbResetCmd_go {s : State} {v : W32} (hw : s.writable Reg.GLB_RESET_CMD.addr v = true)
    (hc : isConfig Reg.GLB_RESET_CMD.addr = false) (hgo : Reg.GLB_RESET_CMD.go.of v = 1)
    (hkey : Reg.GLB_RESET_CMD.key.of v = 0x5253) : execGlbResetCmd v s = .next s.startDeviceReset := by
  rw [execGlbResetCmd, State.writeResetCmd, State.regWrite_of_writable hw hc, if_pos ⟨hgo, hkey⟩]

theorem State.startDeviceReset_deaf {s : State} (h : s.deaf = true) : s.startDeviceReset = s := if_pos (.inl h)

/-- PORST_N released: the device starts, unless its supply is lost. -/
theorem execPorstNDeassert_held {s : State} {mJ : Nat} (h : s.pwr.porst = true) (hsupply : s.pwr.supplyLost = false) :
    execPorstNDeassert mJ s = .next (({ s with pwr.porst := false } : State).coldStart mJ) :=
  (if_pos h).trans (congrArg Host.Outcome.next (if_neg (by simp [hsupply])))

/-- The supply is back: the device starts, unless PORST_N holds it. -/
theorem execSupplyRestored_lost {s : State} {mJ : Nat} (h : s.pwr.supplyLost = true) (hporst : s.pwr.porst = false) :
    execSupplyRestored mJ s = .next (({ s with pwr.supplyLost := false } : State).coldStart mJ) :=
  (if_pos h).trans (congrArg Host.Outcome.next (if_neg (by simp [hporst])))

/-- The state after a clock fault, before ALERT_N follows. -/
def State.clockLost (s : State) : State := { s.snapAll with pwr.refclkBad := true }

theorem execRefclkFault_first {s : State} (hheld : s.held = false) (hbad : s.pwr.refclkBad = false) :
    execRefclkFault s = .next (s.clockLost.alertFrom s) :=
  if_neg (by simp [hheld, hbad])

theorem State.clockLost_leaves (s : State) : s.clockLost.pwr.refclkBad = true ∧ s.clockLost.trn.dark = true ∧
    s.clockLost.alm = s.alm ∧ s.clockLost.stk = s.stk := ⟨rfl, rfl, rfl, rfl⟩

theorem State.alertOn_of_clockLost {s : State} (h : s.pwr.refclkBad = true) : s.alertOn = true := by
  simp [State.alertOn, h]

/-- Settles O59: reset by reset, from what each leaves. -/
theorem resetsAndSupply : Obligations.ResetsAndSupply := by
  intro s
  refine ⟨fun hporst => ⟨_, if_neg (by simp [hporst]), ?porst⟩,
    fun mJ hporst hsupply => ⟨_, execPorstNDeassert_held hporst hsupply, ?started⟩,
    fun u hboot hu => ⟨fun b hgood => ?verified, fun hbad => ?recovery⟩,
    fun ok hboot hfirst hok => ⟨_, execStackTrained_first hboot hfirst hok, ?trained⟩,
    fun mJ hheld hboot hreserve hmJ => if_pos (by simp [hheld, hreserve, hboot, hmJ]),
    fun hsupply => ⟨_, if_neg (by simp [hsupply]), ?lost⟩,
    fun mJ hsupply hporst => ⟨_, execSupplyRestored_lost hsupply hporst, ?restored⟩, fun hheld => if_neg (by simp [hheld]),
    fun hheld hbad => ⟨_, execRefclkFault_first hheld hbad, ?clock⟩,
    fun v hw hc hgo hkey => ⟨fun hdeaf => ?deaf, fun hdeaf hrun => ⟨_, execGlbResetCmd_go hw hc hgo hkey, ?reset⟩⟩⟩
  case porst =>
    obtain ⟨boot, acc, dark, links, memory, flash, porst, _⟩ := State.coldReset_leaves { s with pwr.porst := true }
    exact ⟨porst, boot, acc, dark, links, memory, flash⟩
  case started =>
    obtain ⟨boot, stk, pwr⟩ := State.coldStart_leaves { s with pwr.porst := false } mJ
    rw [pwr, stk]
    exact ⟨rfl, boot, rfl, fun h => by simp [h], fun h => by simp [h]⟩
  case verified =>
    change execFirmwareVerifyDone s = _
    exact execFirmwareVerifyDone_good hboot hu hgood
  case recovery =>
    change execFirmwareVerifyDone s = _
    exact execFirmwareVerifyDone_bad hboot hu hbad
  case trained =>
    obtain ⟨stk, shown, failed⟩ := s.stacksShown_leaves ok
    rw [stk]
    cases s.stk.fillPending
    · refine ⟨?_, fun h => absurd h Bool.false_ne_true, fun _ => ?_, fun h => ?_⟩
      · exact (State.fld_setFld_apart _ (by unfold Fld.fits; decide) 1 (by decide)).trans shown
      · exact State.bit_setFld_one _ (by unfold Fld.fits; decide) rfl
      · exact (State.bit_setFld_ne _ 1 (by decide)).trans (failed h)
    · refine ⟨?_, fun _ => ?_, fun h => absurd h.symm Bool.false_ne_true, fun h => ?_⟩
      · exact (State.fld_setFld_apart _ (by unfold Fld.fits; decide) 1 (by decide)).trans shown
      · exact State.bit_setFld_one _ (by unfold Fld.fits; decide) rfl
      · exact (State.bit_setFld_ne _ 1 (by decide)).trans (failed h)
  case lost =>
    obtain ⟨boot, acc, dark, _, _, flash, _, supply⟩ := State.coldReset_leaves { s with pwr.supplyLost := true }
    obtain ⟨regs, eph, trn, stack, cfg, pwr⟩ := State.loseMemory_leaves ({ s with pwr.supplyLost := true } : State).coldReset
    rw [pwr, eph, trn, cfg]
    exact ⟨supply, (State.fld_congr (State.reg_of_regs regs _)).trans boot, acc, dark, stack, flash⟩
  case restored =>
    obtain ⟨boot, _, pwr⟩ := State.coldStart_leaves { s with pwr.supplyLost := false } mJ
    rw [pwr]
    exact ⟨rfl, boot⟩
  case clock =>
    obtain ⟨bad, dark, alm, stk⟩ := s.clockLost_leaves
    have alert := State.bit_alertFrom_of_on (State.alertOn_of_clockLost bad) s
    obtain ⟨_, trn, _, pwr, memory, _⟩ := ((State.Spares.refl noReg s.clockLost).alertFrom s id).parts
    rw [pwr, trn, memory, stk]
    exact ⟨bad, dark, alert, (State.alm_alertFrom _ _).trans alm, rfl⟩
  case deaf =>
    refine (execGlbResetCmd_go hw hc hgo hkey).trans ?_
    rw [State.startDeviceReset_deaf hdeaf]
  case reset => exact State.startDeviceReset_leaves hdeaf hrun

end Sys2Proof.Machine
end
